-- ==== Sys2Proof/Config.lean ====
section
/-! DEFINITION. What the spec leaves open: one opaque constant, with no body, for each free value. Nothing in Lean can
evaluate one, so a statement holds whatever the value is. Each is named in the assumption log. -/

namespace Sys2Proof.Config

/-- R103: which of the values within 2 units in the last place a transcendental returns, by function and operand bits. -/
opaque ulpPick : Nat → Nat → Nat

/-- R40 with IEEE 754-2019 7.2: whether an infinity times zero plus a quiet NaN raises INVALID. -/
opaque fmaInvalid : Bool

/-- R106: the SP1 leaf format is not in the spec. Word `k` of what a program's bytes say, by the bytes. -/
opaque leafWord : List Byte → Nat → Nat

/-- How many of those bytes the program takes. -/
opaque leafSize : List Byte → Nat

/-- What one code of a fill becomes where R50 gives no decode from the stored to the stationary format: by decode mode, stored format,
stationary format and code. -/
opaque fillOpen : Nat → Nat → Nat → Nat → Nat

/-- A fresh open value, by the counter that `State.fresh` holds. -/
opaque fresh : Nat → Nat

/-- A sensor's reading (R401, R427), by the counter and the sensor. -/
opaque sensor : Nat → Nat → Word

/-- The LINEAR11 code of a reading (R427): PMBus gives a value more than one code, and the spec names none. -/
opaque linear11 : Word → Nat

/-- The device secret the identity key comes from (R403). -/
opaque deviceSecret : Nat

/-- The module's serial number (R411, R427). -/
opaque serial : Nat

/-- The HBM row that holds a 32-byte unit (R342): the spec does not give HBM's row geometry. -/
opaque hbmRow : Nat → Nat

/-- The firmware image the module was made with (R406): its version, its SVN and the SHA-512 of its header and body. -/
opaque fwVersion : Nat
opaque fwSvn : Nat
opaque fwDigest : Nat

/-- SHA-512 of the boot ROM (R405). -/
opaque romDigest : Nat

/-- The identity public key, x then y, of the device secret (R403), and the identity key's signature over a digest. -/
opaque idKey : Nat → Nat
opaque idSign : Nat → Nat → Nat

/-- The certificate chain written at manufacture (R403), as a number of little-endian bytes and its length. -/
opaque certChain : Nat
opaque certLen : Nat

/-- The keys of the firmware signer (R406). -/
opaque fwKey : Nat

/-- GET_INFO's stepping, Ngumal versions and event record UUID (R335), and the CEL's UUID (R318). -/
opaque stepping : Nat
opaque ngumalVersions : Nat
opaque eventUuid : Nat

/-- The bytes of a table whose layout the spec does not give: 0 the discovery table (R305, R335), 1 the permutation plan (R288, R292), as
numbers. -/
opaque tableBytes : Nat → List Nat → List Byte

/-- What a stretch of memory holds once its contents are undefined (a whole HBM, a save area), by the counter: addresses and bytes. -/
opaque openMap : Nat → List (Nat × Nat)

/-- Where a COLL frame's header carries R285's replay count, epoch, layer and quarter after its step number (R297). -/
opaque cfieldRest : List Nat → Nat

/-- The revision string a firmware version is shown by in Get FW Info, and the effects the command effects log gives an opcode (R318). -/
opaque fwText : Nat → Nat
opaque celEffects : Nat → Nat
/-- Which of its sixteen routers a stack's controller uses for a packet without a memory address (R155, R167). -/
opaque hbmPort : Nat → Nat
/-- A word of the CXL component and device register blocks of BAR0, whose layout the spec leaves to CXL (R320). -/
opaque cxlReg : Nat → Nat

/-- The capability flags an SPDM CAPABILITIES response carries (R404). -/
opaque spdmCaps : Nat

/-- The JTAG IDCODE (R417), the DMTF value type of a measurement block (R405), and the Shed SRAM as the firmware uses it, by address and the
counter (R420). -/
opaque idcode : Word
opaque blockType : Nat → Nat
opaque shedByte : Nat → Nat

end Sys2Proof.Config
end

