-- ==== Sys2Proof/Machine/Sparse.lean ====
section
/-! DEFINITION. Sparse maps in one canonical form, and families of like units.

A sparse map lists its keys strictly rising and lists no key whose value is the one an unlisted key reads as, so equal
maps are equal data. Memory, register files and the per-unit families are all kept this way. -/

namespace Sys2Proof.Machine

/-- A finite list of (key, value), keys strictly rising. -/
abbrev Sparse (α : Type) := List (Nat × α)

/-- The value at a key; `d` says what an unlisted key reads as. -/
def Sparse.get {α : Type} (d : Nat → α) : List (Nat × α) → Nat → α
  | [], k => d k
  | (i, v) :: r, k => if k = i then v else Sparse.get d r k

/-- Insert or replace, keeping the keys rising. -/
def Sparse.put {α : Type} : List (Nat × α) → Nat → α → List (Nat × α)
  | [], k, v => [(k, v)]
  | (i, w) :: r, k, v =>
    if k = i then (k, v) :: r else if k < i then (k, v) :: (i, w) :: r else (i, w) :: Sparse.put r k v

/-- Remove a key. -/
def Sparse.drop {α : Type} : List (Nat × α) → Nat → List (Nat × α)
  | [], _ => []
  | (i, w) :: r, k => if k = i then Sparse.drop r k else (i, w) :: Sparse.drop r k

/-- The canonical write: a value equal to what an unlisted key reads as removes the entry. -/
def Sparse.set {α : Type} [DecidableEq α] (d : Nat → α) (m : List (Nat × α)) (k : Nat) (v : α) : List (Nat × α) :=
  if v = d k then Sparse.drop m k else Sparse.put m k v

/-- Write a run of values at consecutive keys. -/
def Sparse.setRun {α : Type} [DecidableEq α] (d : Nat → α) : List (Nat × α) → Nat → List α → List (Nat × α)
  | m, _, [] => m
  | m, k, v :: vs => Sparse.setRun d (Sparse.set d m k v) (k + 1) vs

/-- Drop every key that `p` names. -/
def Sparse.dropWhere {α : Type} (p : Nat → Bool) (m : List (Nat × α)) : List (Nat × α) :=
  m.filter fun e => !p e.1

/-- Keys strictly rising. -/
def Sparse.sorted {α : Type} : List (Nat × α) → Bool
  | [] => true
  | [_] => true
  | (i, _) :: (j, w) :: r => decide (i < j) && Sparse.sorted ((j, w) :: r)

/-- The canonical form: keys strictly rising, and no entry equal to what its key reads as when unlisted. -/
def Sparse.wf {α : Type} [DecidableEq α] (d : Nat → α) (m : List (Nat × α)) : Bool :=
  Sparse.sorted m && m.all fun e => decide (e.2 ≠ d e.1)

/-- A family of like units (cores, clusters, ...): a value every unlisted unit has, and the units that differ. -/
structure Fam (α : Type) where
  dflt : α
  exc : List (Nat × α)
  deriving DecidableEq, Repr

/-- Unit `i` of a family. -/
def Fam.get {α : Type} (f : Fam α) (i : Nat) : α := Sparse.get (fun _ => f.dflt) f.exc i

/-- Replace unit `i`. -/
def Fam.set {α : Type} [DecidableEq α] (f : Fam α) (i : Nat) (v : α) : Fam α :=
  { f with exc := Sparse.set (fun _ => f.dflt) f.exc i v }

/-- Apply `g` to every unit. -/
def Fam.map {α : Type} [DecidableEq α] (g : α → α) (f : Fam α) : Fam α :=
  { dflt := g f.dflt, exc := f.exc.foldr (fun e m => Sparse.set (fun _ => g f.dflt) m e.1 (g e.2)) [] }

/-- Apply `g` to every unit except the ones listed. -/
def Fam.mapBut {α : Type} [DecidableEq α] (keep : List Nat) (g : α → α) (f : Fam α) : Fam α :=
  keep.foldl (fun acc i => acc.set i (f.get i)) (f.map g)

/-- Apply `g` to the listed units. -/
def Fam.mapAt {α : Type} [DecidableEq α] (units : List Nat) (g : α → α) (f : Fam α) : Fam α :=
  units.foldl (fun acc i => acc.set i (g (acc.get i))) f

/-- Apply `g` to the units below `n` that `p` names. -/
def Fam.mapIf {α : Type} [DecidableEq α] (n : Nat) (p : Nat → Bool) (g : α → α) (f : Fam α) : Fam α :=
  if g f.dflt = f.dflt then
    { f with exc := f.exc.foldr (fun e m => Sparse.set (fun _ => f.dflt) m e.1 (if p e.1 then g e.2 else e.2)) [] }
  else f.mapAt ((List.range n).filter p) g

/-- Whether every one of the units `0 … n - 1` satisfies `p`. -/
def Fam.all {α : Type} (n : Nat) (p : α → Bool) (f : Fam α) : Bool :=
  (f.exc.filter fun e => e.1 < n).all (fun e => p e.2)
    && (p f.dflt || decide (n ≤ (f.exc.filter fun e => e.1 < n).length))

/-- The canonical form of a family. -/
def Fam.wf {α : Type} [DecidableEq α] (f : Fam α) : Bool := Sparse.wf (fun _ => f.dflt) f.exc

/-- The units `0 … n - 1` that satisfy `p`, in order. -/
def Fam.units {α : Type} (n : Nat) (p : α → Bool) (f : Fam α) : List Nat :=
  if p f.dflt then (List.range n).filter fun i => p (f.get i)
  else ((f.exc.filter fun e => e.1 < n && p e.2).map (·.1))

/-- A sum over the units `0 … n - 1` of a number read from each. -/
def Fam.sum {α : Type} (n : Nat) (v : α → Nat) (f : Fam α) : Nat :=
  ((f.exc.filter fun e => e.1 < n).map fun e => v e.2).foldl (· + ·) 0
    + (n - (f.exc.filter fun e => e.1 < n).length) * v f.dflt

end Sys2Proof.Machine
end

