-- ==== Sys2Proof/Machine/Fp.lean ====
section
/-! DEFINITION. The number formats of R28 and their exact arithmetic with one rounding (R34-R46).

A finite value is a sign, a natural significand and a power of two. Every operation forms the exact result and rounds it
once. Flags are the five bits of CORE_FPFLAGS (R42): 0 INEXACT, 1 UNDERFLOW, 2 OVERFLOW, 3 DIVBYZERO, 4 INVALID. -/

namespace Sys2Proof.Machine

/-- How a format marks what is not a number (R28). -/
inductive NanKind where
  | ieee      -- exponent all ones: infinity and NaN
  | e4m3      -- 0x7F and 0xFF only, no infinity
  | none      -- neither
  deriving DecidableEq, Repr

/-- A floating-point layout of R28: sign, exponent bits, significand bits, bias. -/
structure Fmt where
  eb : Nat
  mb : Nat
  bias : Nat
  nan : NanKind
  deriving DecidableEq, Repr

def fp64 : Fmt := ⟨11, 52, 1023, .ieee⟩
def fp32 : Fmt := ⟨8, 23, 127, .ieee⟩
def fp16 : Fmt := ⟨5, 10, 15, .ieee⟩
def bf16 : Fmt := ⟨8, 7, 127, .ieee⟩
def e5m2 : Fmt := ⟨5, 2, 15, .ieee⟩
def e4m3 : Fmt := ⟨4, 3, 7, .e4m3⟩
def e3m2 : Fmt := ⟨3, 2, 3, .none⟩
def e2m3 : Fmt := ⟨2, 3, 1, .none⟩
def e2m1 : Fmt := ⟨2, 1, 1, .none⟩

/-- Width in bits. -/
def Fmt.width (f : Fmt) : Nat := 1 + f.eb + f.mb

/-- The code of the largest finite magnitude (R28). -/
def Fmt.maxCode (f : Fmt) : Nat :=
  match f.nan with
  | .ieee => (2 ^ f.eb - 1) * 2 ^ f.mb - 1
  | .e4m3 => 2 ^ (f.eb + f.mb) - 2
  | .none => 2 ^ (f.eb + f.mb) - 1

/-- The canonical quiet NaN (R35); 0 in a format without NaN, where none arises. -/
def Fmt.canNan (f : Fmt) : Nat :=
  match f.nan with
  | .ieee => (2 ^ f.eb - 1) * 2 ^ f.mb + 2 ^ (f.mb - 1)
  | .e4m3 => 2 ^ (f.eb + f.mb) - 1
  | .none => 0

/-- The code of infinity, in a format that has one. -/
def Fmt.infCode (f : Fmt) : Nat := (2 ^ f.eb - 1) * 2 ^ f.mb

/-- What a code denotes: NaN (signalling or not, R36), an infinity, or `(-1)^neg · m · 2^e`. -/
inductive FV where
  | nan (sig : Bool)
  | inf (neg : Bool)
  | fin (neg : Bool) (m : Nat) (e : Int)
  deriving DecidableEq, Repr

/-- The exponent of the least significant bit of a subnormal. -/
def Fmt.qmin (f : Fmt) : Int := 1 - (f.bias : Int) - f.mb

/-- Decode a code (R28, R34: subnormals keep their value). -/
def Fmt.decode (f : Fmt) (c : Nat) : FV :=
  let neg := bit c (f.eb + f.mb)
  let ex := bits c f.mb f.eb
  let man := bits c 0 f.mb
  let top := 2 ^ f.eb - 1
  if f.nan = .ieee ∧ ex = top then
    if man = 0 then .inf neg else .nan (!bit man (f.mb - 1))
  else if f.nan = .e4m3 ∧ ex = top ∧ man = 2 ^ f.mb - 1 then .nan false
  else if ex = 0 then .fin neg man f.qmin
  else .fin neg (2 ^ f.mb + man) (f.qmin + (ex - 1 : Nat))

/-- Put a sign on a magnitude code. -/
def Fmt.sign (f : Fmt) (neg : Bool) (c : Nat) : Nat := if neg then c + 2 ^ (f.eb + f.mb) else c

/-- The five flags. -/
abbrev Flags := BitVec 5

def flagNone : Flags := 0
def flagNX : Flags := 1
def flagUF : Flags := 2
def flagOF : Flags := 4
def flagDZ : Flags := 8
def flagNV : Flags := 16

/-- Rounding modes of R38; `sr` carries its 32 random bits (R47). -/
inductive RMode where
  | rne | rtz | rdn | rup | rna
  | sr (r : Nat)
  deriving DecidableEq, Repr

/-- Whether a magnitude `n + rem / 2^d` (with more below it when `sticky`) is rounded up to `n + 1`. -/
def roundUp (rm : RMode) (neg : Bool) (n rem d : Nat) (sticky : Bool) : Bool :=
  let inexact := decide (rem ≠ 0) || sticky
  match rm with
  | .rtz => false
  | .rdn => neg && inexact
  | .rup => !neg && inexact
  | .rna => decide (2 ^ d ≤ 2 * rem) && decide (d ≠ 0)
  | .rne =>
    decide (d ≠ 0) && (decide (2 ^ d < 2 * rem) || (decide (2 ^ d = 2 * rem) && (sticky || decide (n % 2 = 1))))
  | .sr r => inexact && decide (2 ^ 32 ≤ rem * 2 ^ 32 / 2 ^ d + r)

/-- Split `m · 2^e` at quantum `2^q`: the whole quanta, the remainder and the number of bits it had. -/
def splitAt (m : Nat) (e q : Int) : Nat × Nat × Nat :=
  if q ≤ e then (m * 2 ^ (e - q).toNat, 0, 0)
  else (m / 2 ^ (q - e).toNat, m % 2 ^ (q - e).toNat, (q - e).toNat)

/-- Whether `a · 2^p` exceeds `b · 2^q`. -/
def dyGt (a : Nat) (p : Int) (b : Nat) (q : Int) : Bool :=
  if p ≤ q then decide (b * 2 ^ (q - p).toNat < a) else decide (b < a * 2 ^ (p - q).toNat)

/-- The magnitude of the largest finite value as `(m, e)`. -/
def Fmt.maxFin (f : Fmt) : Nat × Int :=
  match f.decode f.maxCode with
  | .fin _ m e => (m, e)
  | _ => (0, 0)

/-- Round the magnitude `m · 2^e` (and a little more when `sticky`) into `f` (R40, R45, R46, R49).
The overflow test is made on the value rounded with an unbounded exponent; tininess is found after rounding (R42). -/
def Fmt.round (f : Fmt) (rm : RMode) (neg : Bool) (m : Nat) (e : Int) (sticky : Bool) : Nat × Flags :=
  if m = 0 then (f.sign neg 0, if sticky then flagNX ||| flagUF else flagNone)
  else
    let top : Int := (Nat.log2 m : Int) + e
    -- SR beyond the largest finite magnitude is RNE (R49).
    let rm := match rm with
      | .sr r => if dyGt m e f.maxFin.1 f.maxFin.2 then RMode.rne else .sr r
      | x => x
    let qn : Int := top - f.mb
    let q : Int := if qn < f.qmin then f.qmin else qn
    let (n, rem, d) := splitAt m e q
    let n' := if roundUp rm neg n rem d sticky then n + 1 else n
    let inexact := decide (rem ≠ 0) || sticky
    if dyGt n' q f.maxFin.1 f.maxFin.2 then
      let toMax : Bool := match rm with
        | .rtz => true
        | .rdn => !neg
        | .rup => neg
        | _ => false
      let mag := if f.nan = .ieee ∧ toMax = false then f.infCode else f.maxCode
      (f.sign neg mag, flagOF ||| flagNX)
    else
      let tiny : Bool :=
        if f.qmin ≤ qn then false
        else
          let (n2, rem2, d2) := splitAt m e qn
          let n2' := if roundUp rm neg n2 rem2 d2 sticky then n2 + 1 else n2
          dyGt (2 ^ f.mb) f.qmin n2' qn
      let code := (q - f.qmin).toNat * 2 ^ f.mb + n'
      (f.sign neg code, (if inexact then flagNX else flagNone) ||| (if tiny && inexact then flagUF else flagNone))

/-- The canonical NaN with the flags given. -/
def Fmt.nanR (f : Fmt) (fl : Flags) : Nat × Flags := (f.canNan, fl)

/-- INVALID when a NaN read is signalling (R36). -/
def sigFlag (s : Bool) : Flags := if s then flagNV else flagNone

/-- Signed sum of two dyadics, as an integer over the smaller exponent. -/
def dyAdd (n1 : Bool) (m1 : Nat) (e1 : Int) (n2 : Bool) (m2 : Nat) (e2 : Int) : Int × Int :=
  let e := if e1 ≤ e2 then e1 else e2
  let a : Int := (m1 * 2 ^ (e1 - e).toNat : Nat)
  let b : Int := (m2 * 2 ^ (e2 - e).toNat : Nat)
  ((if n1 then -a else a) + (if n2 then -b else b), e)

/-- The sign of an exact zero sum: kept when both agree, else minus only when rounding down (IEEE 754-2019, R40). -/
def zeroSign (rm : RMode) (n1 n2 : Bool) : Bool :=
  if n1 = n2 then n1 else match rm with | .rdn => true | _ => false

/-- Round a signed dyadic; `z` is the sign an exact zero takes. -/
def Fmt.roundInt (f : Fmt) (rm : RMode) (z : Bool) (v : Int × Int) : Nat × Flags :=
  if v.1 = 0 then (f.sign z 0, flagNone) else f.round rm (decide (v.1 < 0)) v.1.natAbs v.2 false

/-- Add two decoded values and round once into `f`. -/
def Fmt.addV (f : Fmt) (rm : RMode) (x y : FV) : Nat × Flags :=
  match x, y with
  | .nan a, .nan b => f.nanR (sigFlag (a || b))
  | .nan a, _ => f.nanR (sigFlag a)
  | _, .nan b => f.nanR (sigFlag b)
  | .inf a, .inf b => if a = b then (f.sign a f.infCode, flagNone) else f.nanR flagNV
  | .inf a, .fin .. => (f.sign a f.infCode, flagNone)
  | .fin .., .inf b => (f.sign b f.infCode, flagNone)
  | .fin n1 m1 e1, .fin n2 m2 e2 =>
    f.roundInt rm (if m1 = 0 ∧ m2 = 0 then zeroSign rm n1 n2 else zeroSign rm true false) (dyAdd n1 m1 e1 n2 m2 e2)

/-- Flip the sign of a decoded value. -/
def FV.negate : FV → FV
  | .nan s => .nan s
  | .inf n => .inf (!n)
  | .fin n m e => .fin (!n) m e

/-- The exact product of two decoded values and its flags (infinity times zero is invalid). -/
def mulV (x y : FV) : FV × Flags :=
  match x, y with
  | .nan a, .nan b => (.nan false, sigFlag (a || b))
  | .nan a, _ => (.nan false, sigFlag a)
  | _, .nan b => (.nan false, sigFlag b)
  | .inf a, .inf b => (.inf (a != b), flagNone)
  | .inf a, .fin b m _ => if m = 0 then (.nan false, flagNV) else (.inf (a != b), flagNone)
  | .fin a m _, .inf b => if m = 0 then (.nan false, flagNV) else (.inf (a != b), flagNone)
  | .fin a m1 e1, .fin b m2 e2 => (.fin (a != b) (m1 * m2) (e1 + e2), flagNone)

/-- Round a decoded value into `f`. -/
def Fmt.ofV (f : Fmt) (rm : RMode) (x : FV) : Nat × Flags :=
  match x with
  | .nan s => f.nanR (sigFlag s)
  | .inf n => if f.nan = .ieee then (f.sign n f.infCode, flagNone) else f.nanR flagNV
  | .fin n m e => f.round rm n m e false

def Fmt.add (f : Fmt) (rm : RMode) (a b : Nat) : Nat × Flags := f.addV rm (f.decode a) (f.decode b)

def Fmt.sub (f : Fmt) (rm : RMode) (a b : Nat) : Nat × Flags := f.addV rm (f.decode a) (f.decode b).negate

def Fmt.mul (f : Fmt) (rm : RMode) (a b : Nat) : Nat × Flags :=
  let p := mulV (f.decode a) (f.decode b)
  let r := f.ofV rm p.1
  (r.1, r.2 ||| p.2)

/-- Fused `x · y + z` with one rounding. `inv` is whether infinity times zero raises INVALID when `z` is a quiet NaN,
which the standard leaves to the implementation. (DEDUCED: log 16) -/
def Fmt.fmaV (f : Fmt) (rm : RMode) (inv : Bool) (x y z : FV) : Nat × Flags :=
  let p := mulV x y
  match z with
  | .nan s => f.nanR (sigFlag s ||| (if p.2 = flagNV ∧ s = false then
      (match x, y with | .nan _, _ => flagNV | _, .nan _ => flagNV | _, _ => if inv then flagNV else flagNone) else p.2))
  | _ =>
    let r := f.addV rm p.1 z
    (r.1, r.2 ||| p.2)

/-- Exact quotient `m1 / m2 · 2^e` as a significand of enough bits and a sticky bit. -/
def quot (p : Nat) (m1 m2 : Nat) (e : Int) : Nat × Int × Bool :=
  let k := Nat.log2 m2 + 2 * p + 8
  (m1 * 2 ^ k / m2, e - k, decide (m1 * 2 ^ k % m2 ≠ 0))

def Fmt.div (f : Fmt) (rm : RMode) (a b : Nat) : Nat × Flags :=
  match f.decode a, f.decode b with
  | .nan s, .nan t => f.nanR (sigFlag (s || t))
  | .nan s, _ => f.nanR (sigFlag s)
  | _, .nan t => f.nanR (sigFlag t)
  | .inf _, .inf _ => f.nanR flagNV
  | .inf s, .fin t _ _ => (f.sign (s != t) f.infCode, flagNone)
  | .fin s _ _, .inf t => (f.sign (s != t) 0, flagNone)
  | .fin s m1 e1, .fin t m2 e2 =>
    if m2 = 0 then if m1 = 0 then f.nanR flagNV else (f.sign (s != t) f.infCode, flagDZ)
    else if m1 = 0 then (f.sign (s != t) 0, flagNone)
    else
      let q := quot f.mb m1 m2 (e1 - e2)
      f.round rm (s != t) q.1 q.2.1 q.2.2

/-- Integer square root by bits, from bit `n - 1` down. -/
def isqrtGo (v : Nat) : Nat → Nat → Nat
  | 0, r => r
  | n + 1, r => if (r + 2 ^ n) * (r + 2 ^ n) ≤ v then isqrtGo v n (r + 2 ^ n) else isqrtGo v n r

/-- The largest `r` with `r² ≤ v`. -/
def isqrt (v : Nat) : Nat := isqrtGo v (Nat.log2 v / 2 + 1) 0

/-- The square root of `m · 2^e` as a significand of enough bits and a sticky bit. -/
def sqrtDy (p : Nat) (m : Nat) (e : Int) : Nat × Int × Bool :=
  let k := 2 * p + 8 + (e - (2 * p + 8 : Nat)).toNat % 2
  let k := if (e - (k : Int)) % 2 = 0 then k else k + 1
  let v := m * 2 ^ k
  (isqrt v, (e - (k : Int)) / 2, decide (isqrt v * isqrt v ≠ v))

def Fmt.sqrt (f : Fmt) (rm : RMode) (a : Nat) : Nat × Flags :=
  match f.decode a with
  | .nan s => f.nanR (sigFlag s)
  | .inf n => if n then f.nanR flagNV else (f.infCode, flagNone)
  | .fin n m e =>
    if m = 0 then (f.sign n 0, flagNone)
    else if n then f.nanR flagNV
    else
      let q := sqrtDy f.mb m e
      f.round rm false q.1 q.2.1 q.2.2

/-- Compare two non-NaN values: less, equal, greater as a signed number. -/
def cmpV (x y : FV) : Int :=
  match x, y with
  | .inf a, .inf b => (if a then -1 else 1) - (if b then -1 else 1)
  | .inf a, _ => if a then -1 else 1
  | _, .inf b => if b then 1 else -1
  | .fin n1 m1 e1, .fin n2 m2 e2 => (dyAdd n1 m1 e1 (!n2) m2 e2).1
  | _, _ => 0

/-- Whether a decoded value is NaN. -/
def FV.isNan : FV → Bool
  | .nan _ => true
  | _ => false

/-- Whether a decoded value is a signalling NaN. -/
def FV.isSig : FV → Bool
  | .nan s => s
  | _ => false

/-- Whether a decoded value is zero. -/
def FV.isZero : FV → Bool
  | .fin _ m _ => m = 0
  | _ => false

/-- The sign of a decoded value. -/
def FV.isNeg : FV → Bool
  | .nan _ => false
  | .inf n => n
  | .fin n _ _ => n

/-- The comparison predicates of R37. -/
inductive CmpOp where
  | eq | lt | le
  deriving DecidableEq, Repr

/-- EQ is quiet; LT and LE are signalling (R37). -/
def Fmt.cmp (f : Fmt) (op : CmpOp) (a b : Nat) : Bool × Flags :=
  let x := f.decode a
  let y := f.decode b
  if x.isNan || y.isNan then
    (false, if x.isSig || y.isSig || op != .eq then flagNV else flagNone)
  else
    let c := cmpV x y
    (match op with | .eq => c = 0 | .lt => c < 0 | .le => c ≤ 0, flagNone)

/-- maximumNumber (`max` true) and minimumNumber of R37. -/
def Fmt.maxMin (f : Fmt) (max : Bool) (a b : Nat) : Nat × Flags :=
  let x := f.decode a
  let y := f.decode b
  let fl := sigFlag (x.isSig || y.isSig)
  if x.isNan then (if y.isNan then f.canNan else b, fl)
  else if y.isNan then (a, fl)
  else if x.isZero && y.isZero then
    (if max then (if x.isNeg then b else a) else (if x.isNeg then a else b), fl)
  else (if (if max then decide (cmpV y x ≤ 0) else decide (cmpV x y ≤ 0)) then a else b, fl)

/-- The ten-bit class mask of VCLASS (R93), raising nothing. -/
def Fmt.classMask (f : Fmt) (a : Nat) : Nat :=
  match f.decode a with
  | .nan true => 2 ^ 8
  | .nan false => 2 ^ 9
  | .inf true => 2 ^ 0
  | .inf false => 2 ^ 7
  | .fin n m _ =>
    if m = 0 then (if n then 2 ^ 3 else 2 ^ 4)
    else if m < 2 ^ f.mb then (if n then 2 ^ 2 else 2 ^ 5)
    else (if n then 2 ^ 1 else 2 ^ 6)

/-- Convert between two formats (R44, R45). A same-format conversion keeps every non-NaN bit for bit. -/
def convert (src dst : Fmt) (rm : RMode) (a : Nat) : Nat × Flags :=
  let x := src.decode a
  if src = dst then (match x with | .nan s => dst.nanR (sigFlag s) | _ => (a % 2 ^ src.width, flagNone))
  else dst.ofV rm x

/-- Round a dyadic to an integer under a mode: the integer's magnitude and whether it was inexact. -/
def roundToInt (rm : RMode) (neg : Bool) (m : Nat) (e : Int) : Nat × Bool :=
  let s := splitAt m e 0
  (if roundUp rm neg s.1 s.2.1 s.2.2 false then s.1 + 1 else s.1, decide (s.2.1 ≠ 0))

/-- FP32 to INT32 (R45): round, then saturate with INVALID alone. The result is a 32-bit two's-complement code. -/
def fpToInt32 (rm : RMode) (a : Nat) : Nat × Flags :=
  match fp32.decode a with
  | .nan _ => (0, flagNV)
  | .inf n => (if n then 0x80000000 else 0x7FFFFFFF, flagNV)
  | .fin n m e =>
    let r := roundToInt rm n m e
    if n then
      if 2 ^ 31 < r.1 then (0x80000000, flagNV)
      else (unsigned 32 (-(r.1 : Int)), if r.2 then flagNX else flagNone)
    else if 2 ^ 31 ≤ r.1 then (0x7FFFFFFF, flagNV)
    else (r.1, if r.2 then flagNX else flagNone)

/-- INT32 to FP32. -/
def int32ToFp (rm : RMode) (a : Nat) : Nat × Flags := fp32.roundInt rm false (signed 32 a, 0)

/-- `RNE(v · 2^-s)` of an integer (R57), to even on a tie; a left shift when `s` is negative. -/
def rneShift (v : Int) (s : Int) : Int :=
  let r := roundToInt .rne (decide (v < 0)) v.natAbs (-s)
  if v < 0 then -(r.1 : Int) else r.1

/-- The range of a WQ48 fraction (R54). -/
def wqMax : Int := 2 ^ 47 - 1
def wqMin : Int := -2 ^ 47

/-- Saturate to the range of F; the Bool says whether it saturated. -/
def wqSat (v : Int) : Int × Bool :=
  if wqMax < v then (wqMax, true) else if v < wqMin then (wqMin, true) else (v, false)

/-- The 64-bit container of a fraction: bits [63:48] are the sign extension of bit 47 (R54). -/
def wqContainer (v : Int) : Nat := unsigned 64 v

/-- The fraction a container holds; bits [63:48] are ignored on read (R54). -/
def wqRead (c : Nat) : Int := signed 48 c

/-- FP32 to WQ48 with block exponent `ex` (R56). -/
def fpToWq (ex : Int) (a : Nat) : Int × Flags :=
  match fp32.decode a with
  | .nan _ => (0, flagNV)
  | .inf n => (if n then wqMin else wqMax, flagOF ||| flagNX)
  | .fin n m e =>
    let r := roundToInt .rne n m (e + 47 - ex)
    let v : Int := if n then -(r.1 : Int) else r.1
    let s := wqSat v
    if s.2 then (s.1, flagOF ||| flagNX) else (s.1, if r.2 then flagNX else flagNone)

/-- WQ48 to FP32: `F · 2^(E-47)` rounded once (R56). -/
def wqToFp (rm : RMode) (ex : Int) (v : Int) : Nat × Flags := fp32.roundInt rm false (v, ex - 47)

/-- The random bits of seeded stochastic rounding (R47): all arithmetic modulo 2^64. -/
def srBits (n tid idx : Nat) : Nat :=
  let m := 2 ^ 64
  let x := Nat.lor (tid * 2 ^ 48 % m) idx
  let x := Nat.xor x (n * 0x9E3779B97F4A7C15 % m)
  let x := Nat.xor x (x / 2 ^ 30)
  let x := x * 0xBF58476D1CE4E5B9 % m
  let x := Nat.xor x (x / 2 ^ 27)
  let x := x * 0x94D049BB133111EB % m
  let x := Nat.xor x (x / 2 ^ 31)
  x / 2 ^ 32

end Sys2Proof.Machine
end

