-- ==== Sys2Proof/Machine/Mx.lean ====
section
/-! DEFINITION. MX blocks (R30-R33) and weight decode (R50-R52). -/

namespace Sys2Proof.Machine

/-- The largest exponent of an MX element format, as R33 step 4 names it. -/
def Fmt.emax (f : Fmt) : Int :=
  if f = e4m3 then 8 else if f = e5m2 then 15 else if f = e3m2 then 4 else 2

/-- The value of one MX element under an E8M0 scale byte, in FP32 (R30, R44). (DESIGN CHOICE: log 96) -/
def mxToFp32 (f : Fmt) (scale code : Nat) : Nat × Flags :=
  if scale = 255 then (fp32.canNan, flagNone)
  else
    match f.decode code with
    | .nan s => fp32.nanR (sigFlag s)
    | .inf n => (fp32.sign n fp32.infCode, flagNone)
    | .fin n m e => fp32.round .rne n m (e + (scale : Int) - 127) false

/-- Whether a decoded value is infinite. -/
def FV.isInf : FV → Bool
  | .inf _ => true
  | _ => false

/-- The larger of two finite magnitudes `(m, e)`. -/
def magMax (a b : Nat × Int) : Nat × Int := if dyGt b.1 b.2 a.1 a.2 then b else a

/-- The scale byte of a block under R33 from its decoded source elements: the byte, the flags of choosing it, and
whether every code is to be zero. -/
def mxScale (f : Fmt) (xs : List FV) : Nat × Flags × Bool :=
  if xs.any FV.isNan || (xs.any FV.isInf && f != e5m2) then (255, flagNV, true)
  else
    let amax := xs.foldl (fun a x => match x with | .fin _ m e => magMax a (m, e) | _ => a) (0, 0)
    if amax.1 = 0 then (0, flagNone, false)
    else
      let sh : Int := (Nat.log2 amax.1 : Int) + amax.2 - f.emax
      if 127 < sh then (254, flagOF ||| flagNX, false)
      else if sh < -127 then (0, flagNone, false)
      else ((sh + 127).toNat, flagNone, false)

/-- One element of a block under its scale (R33 step 5): the code and its flags. A rounded quotient beyond the largest
finite value is clamped with INEXACT and never raises OVERFLOW. -/
def mxElem (f : Fmt) (rm : RMode) (scale : Nat) (x : FV) : Nat × Flags :=
  match x with
  | .nan _ => (0, flagNone)
  | .inf n => (f.sign n f.infCode, flagNone)
  | .fin n m e =>
    let r := f.round rm n m (e + 127 - (scale : Int)) false
    if (r.2 &&& flagOF) = flagOF then (f.sign n f.maxCode, flagNX) else r

/-- Weight decode SZ8 of one code `q` with scale `s` (BF16) and zero point `z` into `f` (R52). -/
def sz8 (f : Fmt) (s : Nat) (z q : Int) : Nat × Flags :=
  match bf16.decode s with
  | .nan _ => f.nanR flagNV
  | .inf n =>
    if q = z then f.nanR flagNV
    else if f = e4m3 then f.nanR flagNV
    else (f.sign (n != decide (q < z)) f.infCode, flagNone)
  | .fin n m e => f.round .rne (n != decide (q < z)) (m * (q - z).natAbs) e false

end Sys2Proof.Machine
end

