-- ==== Sys2Proof/Machine/Desc.lean ====
section
/-! DEFINITION. Descriptors (R110-R113), tensor handles (R114-R118), formats (R64, R115) and vector words (R92), as fields of
the numbers that memory holds. -/

namespace Sys2Proof.Machine

/-! ### Formats -/

/-- The format classes of the matrix row (R64). -/
inductive RowClass where
  | fp4 | fp8 | int8 | b16 | fp32 | fp64 | limb
  deriving DecidableEq, Repr

/-- Bits of one stored element, by FMT code (R115, R31, R74). A WQ48 element is its six limb bytes. -/
def fmtBits (f : Nat) : Nat :=
  match f with
  | 0 => 64 | 1 => 32 | 2 => 16 | 3 => 16 | 4 => 8 | 5 => 8 | 6 => 6 | 7 => 6 | 8 => 4
  | 9 => 8 | 10 => 4 | 11 => 48 | 12 => 32 | 13 => 64 | _ => 8

/-- The floating-point layout of an FMT code. -/
def fmtFp (f : Nat) : Option Fmt :=
  match f with
  | 0 => some fp64 | 1 => some fp32 | 2 => some fp16 | 3 => some bf16 | 4 => some e4m3
  | 5 => some e5m2 | 6 => some e3m2 | 7 => some e2m3 | 8 => some e2m1 | _ => none

/-- The class of an operand format (R64). -/
def fmtClass (f : Nat) : Option RowClass :=
  match f with
  | 0 => some .fp64 | 1 => some .fp32 | 2 => some .b16 | 3 => some .b16
  | 4 => some .fp8 | 5 => some .fp8 | 6 => some .fp8 | 7 => some .fp8 | 8 => some .fp4
  | 9 => some .int8 | 11 => some .limb | _ => none

/-- Elements (or element pairs' share) per broadcast, `d` of R64. -/
def RowClass.d : RowClass → Nat
  | .fp4 => 4 | .fp8 => 2 | .int8 => 2 | .b16 => 1 | .fp32 => 1 | .fp64 => 1 | .limb => 2

/-- The broadcast interval `I` of R64; a LIMB pair takes 21 cc (R72). -/
def RowClass.interval : RowClass → Nat
  | .fp32 => 4 | .fp64 => 8 | .limb => 21 | _ => 1

/-- The latency `L` of R64. -/
def RowClass.latency : RowClass → Nat
  | .fp32 => 6 | .fp64 => 10 | .limb => 5 | _ => 4

/-- The largest K per slot (R64). -/
def fmtMaxK (f : Nat) : Nat :=
  match f with
  | 8 => 512 | 4 => 256 | 5 => 256 | 6 => 340 | 7 => 340 | 9 => 256 | 2 => 128 | 3 => 128
  | 1 => 64 | 0 => 32 | 11 => 42 | _ => 0

/-- Whether a format may carry MX scales (R115). -/
def fmtMx (f : Nat) : Bool := decide (4 ≤ f) && decide (f ≤ 8)

/-! ### Descriptors -/

/-- Operation codes of R111. -/
def opNop : Nat := 0x00
def opPass : Nat := 0x01
def opElem : Nat := 0x02
def opChain : Nat := 0x03
def opFill : Nat := 0x08
def opFillT : Nat := 0x09
def opFillIn : Nat := 0x0A
def opLoad : Nat := 0x10
def opStore : Nat := 0x11
def opSend : Nat := 0x18
def opPost : Nat := 0x19
def opRakeSq : Nat := 0x20
def opRepeat : Nat := 0x3F

/-- The operations of R111. -/
def opsAll : List Nat :=
  [opNop, opPass, opElem, opChain, opFill, opFillT, opFillIn, opLoad, opStore, opSend, opPost, opRakeSq, opRepeat]

/-- Whether the compute lane executes an operation (R120). -/
def opCompute (o : Nat) : Bool := [opPass, opElem, opChain, opFill, opFillT].contains o

/-- Whether the transfer engine executes an operation (R120). -/
def opTransfer (o : Nat) : Bool := [opFillIn, opLoad, opStore, opSend, opPost, opRakeSq].contains o

def dOp (d : Nat) : Nat := bits d 0 8
def dPred (d : Nat) : Nat := bits d 8 3
def dPneg (d : Nat) : Bool := bit d 11
def dKeep (d : Nat) : Bool := bit d 12
def dLast (d : Nat) : Bool := bit d 13
def dH (d j : Nat) : Nat := bits d (32 + 6 * j) 6
def dHv (d j : Nat) : Bool := bit d (56 + j)
def dN (d k : Nat) : Nat := bits d (64 + 16 * k) 16
def dCsrc (d k : Nat) : Bool := bit d (128 + k)
def dCp (d k : Nat) : Nat := bits d (132 + 6 * k) 6

/-- A wait: token, enable, count (R110). -/
def dWaitTok (d j : Nat) : Nat := bits d (160 + 16 * j) 5
def dWaitEn (d j : Nat) : Bool := bit d (165 + 16 * j)
def dWaitCnt (d j : Nat) : Nat := bits d (168 + 16 * j) 8

/-- A signal: kind, channel, token, increment (R110). -/
def dSigKind (d j : Nat) : Nat := bits d (224 + 32 * j) 2
def dSigCh (d j : Nat) : Nat := bits d (226 + 32 * j) 2
def dSigTok (d j : Nat) : Nat := bits d (228 + 32 * j) 5
def dSigInc (d j : Nat) : Nat := bits d (240 + 32 * j) 8

def dCaddr (d : Nat) : Nat := bits d 288 11
def dClen (d : Nat) : Nat := bits d 299 8
def dSh (d : Nat) : Nat := bits d 307 6
def dSfmt (d : Nat) : Nat := bits d 313 4
def dMfmt (d : Nat) : Nat := bits d 317 4
def dSlot (d : Nat) : Nat := bits d 321 2
def dAbase (d : Nat) : Nat := bits d 323 3
def dNrow (d : Nat) : Nat := bits d 326 4
def dAdbl (d : Nat) : Bool := bit d 330
def dClr (d : Nat) : Nat := bits d 331 8
def dK (d : Nat) : Nat := bits d 339 10
def dMrs (d : Nat) : Nat := bits d 349 9
def dEop (d : Nat) : Nat := bits d 288 2
def dEacc (d : Nat) : Nat := bits d 290 3
def dEfmt64 (d : Nat) : Bool := bit d 293
def dEosrc (d : Nat) : Bool := bit d 294
def dEsidx (d : Nat) : Nat := bits d 295 6
def dEbidx (d : Nat) : Nat := bits d 301 6
def dFslot (d : Nat) : Nat := bits d 288 2
def dFsfmt (d : Nat) : Nat := bits d 290 4
def dFk (d : Nat) : Nat := bits d 294 10
def dLen (d : Nat) : Nat := 32 * (bits d 288 7 + 1)
def dCh (d : Nat) : Nat := bits d 295 2
def dTc2 (d : Nat) : Bool := bit d 297
def dLayer (d : Nat) : Nat := bits d 295 12
def dBack (d : Nat) : Nat := bits d 288 3

/-- Whether a descriptor runs a chain body. -/
def dChained (d : Nat) : Bool := dOp d == opChain || (dOp d == opPass && decide (0 < dClen d))

/-- The handle positions an operation reads under R111, by position in H0-H3. -/
def opHandles (o : Nat) : List Nat :=
  if o = opPass ∨ o = opFill ∨ o = opFillT ∨ o = opFillIn ∨ o = opSend ∨ o = opPost ∨ o = opRakeSq then [0]
  else if o = opLoad ∨ o = opStore then [0, 1]
  else []

/-- The lowest body bit an operation leaves reserved, and the single reserved body bit runs below it (R112). -/
def bodyReservedZero (d : Nat) : Bool :=
  let o := dOp d
  let from_ := fun (lo : Nat) => decide (d / 2 ^ lo = 0)
  if o = opPass then from_ 358
  else if o = opChain then from_ 313
  else if o = opElem then from_ 307
  else if o = opFill ∨ o = opFillT ∨ o = opFillIn then from_ 304
  else if o = opLoad ∨ o = opStore then from_ 295
  else if o = opSend then from_ 298
  else if o = opPost then from_ 297
  else if o = opRepeat then from_ 291
  else if o = opRakeSq then from_ 307
  else from_ 288

/-- Reserved bits of the common part are zero (R110). -/
def headReservedZero (d : Nat) : Bool :=
  bits d 14 18 = 0 && bits d 60 4 = 0 && bits d 156 4 = 0 && bits d 208 16 = 0
    && (List.range 3).all (fun j => bits d (166 + 16 * j) 2 = 0)
    && (List.range 2).all (fun j => bits d (233 + 32 * j) 7 = 0 && bits d (248 + 32 * j) 8 = 0)

/-- The PASS rules of R65, R72, R112 and R127. -/
def passLegal (d : Nat) : Bool :=
  match fmtClass (dSfmt d), fmtClass (dMfmt d) with
  | some a, some b =>
    a == b && decide (dSlot d ≠ 3) && decide (1 ≤ dNrow d) && decide (dNrow d ≤ 8)
      && decide (dAbase d + dNrow d ≤ 8) && decide (1 ≤ dK d) && decide (dK d ≤ fmtMaxK (dSfmt d))
      && decide (1 ≤ dMrs d)
      && (!dAdbl d || ([1, 2, 4].contains (dNrow d) && decide (dAbase d + 2 * dNrow d ≤ 8)))
      && (a != .limb || (dNrow d == 1 && dAbase d == 0 && !dAdbl d && decide (dClr d < 64)))
  | _, _ => false

/-- Whether PASS, CHAIN, ELEM, fills and transfers are encoded legally (R65, R71, R72, R112, R127, R148). (DEDUCED: log 98) -/
def opLegal (d : Nat) : Bool :=
  let o := dOp d
  if o = opPass then passLegal d
  else if o = opChain then decide (1 ≤ dClen d)
  else if o = opElem then
    decide (dEop d ≠ 0)
      && (!dEfmt64 d ||
          ((dEop d == 2 || dEsidx d % 2 == 0) && (dEop d == 1 || dEbidx d % 2 == 0)))
      && (dEosrc d || ((dEop d == 2 || decide (dEsidx d < 32)) && (dEop d == 1 || decide (dEbidx d < 32))))
  else if o = opFill ∨ o = opFillT ∨ o = opFillIn then
    decide (dFslot d ≠ 3) && decide (1 ≤ dFk d) && decide (dFk d ≤ fmtMaxK (dFsfmt d))
  else if o = opSend then dTc2 d || decide (dLen d ≤ 256)
  else if o = opRepeat then
    decide (1 ≤ dBack d) && dPred d == 0 && !dPneg d && bits d 32 28 == 0
      && bits d 80 48 == 0 && bits d 129 3 == 0 && bits d 138 18 == 0 && bits d 160 48 == 0 && bits d 224 64 == 0
  else true

/-- The causes of R113 tested on entry to the window: 0 for a legal entry, else the status. -/
def staticStatus (d : Nat) : Nat :=
  let waits := (List.range 3).all fun j => !dWaitEn d j || decide (dWaitCnt d j ≠ 0)
  let sigs := (List.range 2).all fun j => dSigKind d j == 0 || decide (dSigInc d j ≠ 0)
  let hv := (opHandles (dOp d)).all fun j => dHv d j
  if !(opsAll.contains (dOp d) && decide (dPred d ≤ 4) && headReservedZero d && bodyReservedZero d && opLegal d
      && waits && sigs && hv) then 0x0100
  else if dChained d && decide (2048 < dCaddr d + dClen d) then 0x0101
  else 0

/-! ### Tensor handles -/

def hBase (h : Nat) : Nat := bits h 0 48
def hBase2 (h : Nat) : Nat := bits h 48 48
def hFmt (h : Nat) : Nat := bits h 96 4
def hMx (h : Nat) : Bool := bit h 100
def hDec (h : Nat) : Nat := bits h 101 2
def hSpace (h : Nat) : Bool := bit h 103
def hXt (h : Nat) : Bool := bit h 104
def hT0 (h : Nat) : Nat := bits h 105 7
def hTid (h : Nat) : Nat := bits h 112 16
def hE (h k : Nat) : Nat := bits h (128 + 16 * k) 16

/-- The signed step of loop level `k` in bytes (R114). -/
def hStep (h k : Nat) : Int := signed 12 (bits h (192 + 16 * k) 12) * (2 ^ (bits h (204 + 16 * k) 4 + 4) : Nat)

/-- The position of a handle in an iteration (R116). -/
def hPos (h : Nat) (ix : List Nat) : Int :=
  (hBase h : Int) + (List.range 4).foldl (fun a k => a + (ix.getD k 0 : Int) * hStep h k) 0

/-- The second-base position (R116). -/
def hPos2 (h : Nat) (ix : List Nat) : Int :=
  let o := hPos h ix - hBase h
  if hMx h then hBase2 h + o.tdiv (if hFmt h = 8 then 16 else if hFmt h = 6 ∨ hFmt h = 7 then 24 else 32)
  else if hDec h = 2 then hBase2 h + 4 * o.tdiv 32
  else if hDec h = 1 then hBase2 h
  else if hFmt h = 11 then hBase2 h + 2 * o.tdiv 32768
  else hBase2 h + o

/-- The handle entries a core holds: index to 256-bit entry, unlisted entries zero. -/
abbrev Handles := List (Nat × Nat)

def hget (hs : Handles) (i : Nat) : Nat := Sparse.get (fun _ => 0) hs i

/-- Whether entry `i` is an extension: the entry before it is a handle, and not an extension itself, with XT set (R114, R117). -/
def isExt (hs : Handles) : Nat → Bool
  | 0 => false
  | i + 1 => hXt (hget hs i) && !isExt hs i

/-- A reserved encoding of R115, or an empty or extension entry (R113), for a handle used as the source of a fill or not. (DEDUCED: log 21) -/
def handleLegal (hs : Handles) (i : Nat) (fillSrc : Bool) : Bool :=
  let h := hget hs i
  let f := hFmt h
  decide (f ≠ 15)
    && !isExt hs i
    && !([6, 7, 8].contains f && !hMx h)
    && !(hMx h && !fmtMx f)
    && !(f == 10 && hDec h != 1)
    && !(hDec h != 0 && !fillSrc)
    && decide (hDec h ≠ 3)
    && !(hXt h && i == 63)

/-- The active-slot mask bit `slot` of an iteration (R118). -/
def maskBit (sh : Nat) (ix : List Nat) (slot : Nat) : Bool :=
  let epr := match hFmt sh with
    | 0 => 8 | 13 => 8 | 11 => 8 | 2 => 32 | 3 => 32 | 4 => 64 | 5 => 64 | 9 => 64 | 6 => 64 | 7 => 64 | 8 => 128 | 10 => 128
    | 14 => 64 | _ => 16
  decide (ix.getD 0 0 * hT0 sh + slot * epr / 16 < hE sh 0) && decide (ix.getD 1 0 < hE sh 1)
    && decide (ix.getD 2 0 < hE sh 2) && decide (ix.getD 3 0 < hE sh 3)

/-- The logical index of R117 for offset `j`, with the handle's extension entry `x`. -/
def hIndex (h x : Nat) (ix : List Nat) (j : Nat) : Nat :=
  let c0 := ix.getD 0 0 * hT0 h
  let c1 := ix.getD 1 0
  let c2 := ix.getD 2 0
  let c3 := ix.getD 3 0
  if hXt h then (bits x 0 48 + c0 + j + c1 * bits x 48 48 + c2 * bits x 96 48 + c3 * bits x 144 48) % 2 ^ 48
  else (c0 + j + hE h 0 * (c1 + hE h 1 * (c2 + hE h 2 * c3))) % 2 ^ 48

/-! ### Vector instruction words (R92) -/

def vOp (w : Nat) : Nat := bits w 0 8
def vRm (w : Nat) : Nat := bits w 8 3
def vVd (w : Nat) : Nat := bits w 11 5
def vVa (w : Nat) : Nat := bits w 16 5
def vVb (w : Nat) : Nat := bits w 21 5
def vVc (w : Nat) : Nat := bits w 26 5
def vEt (w : Nat) : Nat := bits w 31 3
def vTf (w : Nat) : Nat := bits w 34 4
def vPart (w : Nat) : Nat := bits w 38 2
def vHalf (w : Nat) : Nat := bits w 40 1
def vBsrc (w : Nat) : Bool := bit w 41
def vClr (w : Nat) : Bool := bit w 42
def vImm (w : Nat) : Nat := bits w 43 6
def vDly (w : Nat) : Nat := bits w 49 8
def vOff (w : Nat) : Nat := bits w 57 7

end Sys2Proof.Machine
end

