-- ==== Sys2Proof/Machine/Regs.lean ====
section
/-! DEFINITION. The registers of the module: one name per register table of the spec, with its home, its offset (R138, R239,
R320-R322, R340), its fields and their access types (R11), its reset value and the narrowest reach that resets it. -/

namespace Sys2Proof.Machine

/-- The access types of R11. -/
inductive Access where
  | ro | rw | rwp | w1c | wo | rc
  deriving DecidableEq, Repr

/-- A field: lowest bit, width, access type. -/
structure RField where
  lo : Nat
  w : Nat
  acc : Access
  deriving DecidableEq, Repr

/-- Where a register file sits: one per core, per cluster, per Grafter, one for the hub windows, one for MBX_. -/
inductive Home where
  | core | cluster | grafter | hub | mailbox
  deriving DecidableEq, Repr

/-- What the spec's register tables say of a register (or register array). Offsets are bytes from the start of the home's
window: the core slot of 4 KiB, the cluster register block, the Grafter window, BAR2, or BAR0 for MBX_. `reach` is the
narrowest reach (R375 codes) whose reset gives it `init` again; RWP fields are never reset (R11, R375). -/
structure RegInfo where
  home : Home
  off : Nat
  count : Nat
  reach : Nat
  init : Nat
  fields : List RField
  deriving DecidableEq, Repr

/-- The registers, an array under one name. -/
inductive Reg where
  | CORE_FPCTL
  | CORE_FPFLAGS
  | CORE_CFG
  | CORE_STAT
  | CORE_HZCNT
  | CORE_BKCNT
  | CORE_HZLOG
  | CORE_HZCYC
  | CORE_ECC
  | CORE_VSTAT
  | CORE_LIST
  | CORE_LSEL
  | CORE_CMP
  | CORE_DSTAT
  | CORE_DPOS
  | CORE_SCTX
  | CORE_RCTX
  | CORE_CHSEQ
  | CORE_CHERR
  | CORE_FRONT
  | CORE_TOK
  | CORE_TOKINC
  | CORE_PRM
  | CORE_PRMS
  | CSP_CTL
  | CSP_EVT
  | CLU_FAULT
  | CLU_STAT
  | CLU_LSEL
  | TRL_STAT
  | CLU_ECC
  | CLU_FRONTGO
  | CLU_SPMAP
  | STEP_CFG
  | STEP_KEEPBASE
  | STEP_KEEPSIZE
  | STEP_BISIZE
  | STEP_BLK
  | STEP_GDONE
  | STEP_STAT
  | STEP_STATCFG
  | STEP_STATSTS
  | UPD_STEPLO
  | UPD_STEPHI
  | UPD_TCNT
  | UPD_JBASE
  | UPD_STBASE
  | UPD_STCNT
  | UPD_HPS
  | UPD_HP
  | UPD_AUDIT
  | UPD_STAT
  | UPD_DDONE
  | UPD_MODE
  | RKE_FPFLAGS
  | RKE_SQ
  | RKE_STAT
  | RKE_DROP
  | SIV_CFG
  | SIV_CEIL
  | SIV_CLIPN
  | SIV_SPIKE
  | SIV_LS
  | SIV_STAT
  | SIV_NORM
  | SIV_MED
  | SIV_FACTOR
  | TRL_QCFG
  | TRL_AMAP
  | TRL_HBMSTAT
  | TRL_HBMUELO
  | TRL_HBMUEHI
  | TRL_SCRUB
  | LNK_GRID
  | LNK_MMAP
  | LNK_CSTAT
  | LNK_CSTALE
  | LNK_PCFG
  | LNK_PSTAT
  | LNK_LANEMAP
  | LNK_ERR
  | LNK_COORD
  | LNK_GROUPID
  | LNK_JOBTAG
  | LNK_TRANSIT
  | LNK_V1RING
  | SDL_CNTLO
  | SDL_CNTHI
  | SDL_STAT
  | SDL_LAUNCHLO
  | SDL_LAUNCHHI
  | SDL_GCOMP
  | HRV_CFG
  | HRV_STAGE
  | HRV_RSV
  | HRV_STAT
  | RGA_CFG
  | RGA_BIN
  | RGA_STAT
  | RGA_SEQLO
  | RGA_SEQHI
  | RGA_FLOORLO
  | RGA_FLOORHI
  | RST_CAUSE
  | RST_STAT
  | RST_WDOG
  | RST_GRTICKLO
  | RST_GRTICKHI
  | RST_BKP
  | RST_CFIDX
  | RST_CFDATA
  | CLK_STAT
  | CLK_CFG
  | PWR_MPLAN
  | PWR_STATE
  | PWR_CAP
  | PWR_THR
  | PWR_WSEL
  | PWR_WEAR
  | PWR_RAILEV
  | SEC_STAT
  | SEC_LCDBG
  | SEC_SKEY
  | SEC_PROV
  | SEC_GKEY
  | DBG_STAT
  | DBG_TRSEL
  | FAC_STAT
  | FAC_CFG
  | GRF_SUBLO
  | GRF_SUBHI
  | GRF_QSTAT
  | GRF_ABORT
  | GRF_SLOT
  | GRF_RGN
  | GRF_EVT0
  | GRF_EVT1
  | GRF_SDLLO
  | GRF_SDLHI
  | MBX_NCAP
  | MBX_SHDR
  | MBX_SACK
  | MBX_TKT
  | MBX_TKTACK
  | MBX_KPAGE
  | MBX_CPAGE
  | MBX_HWIN
  | MBX_RWERRLO
  | MBX_RWERRHI
  deriving DecidableEq, Repr

/-- Every register name. -/
def Reg.all : List Reg :=
  [Reg.CORE_FPCTL, Reg.CORE_FPFLAGS, Reg.CORE_CFG, Reg.CORE_STAT, Reg.CORE_HZCNT, Reg.CORE_BKCNT, Reg.CORE_HZLOG, Reg.CORE_HZCYC]
    ++ [Reg.CORE_ECC, Reg.CORE_VSTAT, Reg.CORE_LIST, Reg.CORE_LSEL, Reg.CORE_CMP, Reg.CORE_DSTAT, Reg.CORE_DPOS, Reg.CORE_SCTX]
    ++ [Reg.CORE_RCTX, Reg.CORE_CHSEQ, Reg.CORE_CHERR, Reg.CORE_FRONT, Reg.CORE_TOK, Reg.CORE_TOKINC, Reg.CORE_PRM, Reg.CORE_PRMS]
    ++ [Reg.CSP_CTL, Reg.CSP_EVT, Reg.CLU_FAULT, Reg.CLU_STAT, Reg.CLU_LSEL, Reg.TRL_STAT, Reg.CLU_ECC, Reg.CLU_FRONTGO]
    ++ [Reg.CLU_SPMAP, Reg.STEP_CFG, Reg.STEP_KEEPBASE, Reg.STEP_KEEPSIZE, Reg.STEP_BISIZE, Reg.STEP_BLK, Reg.STEP_GDONE, Reg.STEP_STAT]
    ++ [Reg.STEP_STATCFG, Reg.STEP_STATSTS, Reg.UPD_STEPLO, Reg.UPD_STEPHI, Reg.UPD_TCNT, Reg.UPD_JBASE, Reg.UPD_STBASE, Reg.UPD_STCNT]
    ++ [Reg.UPD_HPS, Reg.UPD_HP, Reg.UPD_AUDIT, Reg.UPD_STAT, Reg.UPD_DDONE, Reg.UPD_MODE, Reg.RKE_FPFLAGS, Reg.RKE_SQ]
    ++ [Reg.RKE_STAT, Reg.RKE_DROP, Reg.SIV_CFG, Reg.SIV_CEIL, Reg.SIV_CLIPN, Reg.SIV_SPIKE, Reg.SIV_LS, Reg.SIV_STAT]
    ++ [Reg.SIV_NORM, Reg.SIV_MED, Reg.SIV_FACTOR, Reg.TRL_QCFG, Reg.TRL_AMAP, Reg.TRL_HBMSTAT, Reg.TRL_HBMUELO, Reg.TRL_HBMUEHI]
    ++ [Reg.TRL_SCRUB, Reg.LNK_GRID, Reg.LNK_MMAP, Reg.LNK_CSTAT, Reg.LNK_CSTALE, Reg.LNK_PCFG, Reg.LNK_PSTAT, Reg.LNK_LANEMAP]
    ++ [Reg.LNK_ERR, Reg.LNK_COORD, Reg.LNK_GROUPID, Reg.LNK_JOBTAG, Reg.LNK_TRANSIT, Reg.LNK_V1RING, Reg.SDL_CNTLO, Reg.SDL_CNTHI]
    ++ [Reg.SDL_STAT, Reg.SDL_LAUNCHLO, Reg.SDL_LAUNCHHI, Reg.SDL_GCOMP, Reg.HRV_CFG, Reg.HRV_STAGE, Reg.HRV_RSV, Reg.HRV_STAT]
    ++ [Reg.RGA_CFG, Reg.RGA_BIN, Reg.RGA_STAT, Reg.RGA_SEQLO, Reg.RGA_SEQHI, Reg.RGA_FLOORLO, Reg.RGA_FLOORHI, Reg.RST_CAUSE]
    ++ [Reg.RST_STAT, Reg.RST_WDOG, Reg.RST_GRTICKLO, Reg.RST_GRTICKHI, Reg.RST_BKP, Reg.RST_CFIDX, Reg.RST_CFDATA, Reg.CLK_STAT]
    ++ [Reg.CLK_CFG, Reg.PWR_MPLAN, Reg.PWR_STATE, Reg.PWR_CAP, Reg.PWR_THR, Reg.PWR_WSEL, Reg.PWR_WEAR, Reg.PWR_RAILEV]
    ++ [Reg.SEC_STAT, Reg.SEC_LCDBG, Reg.SEC_SKEY, Reg.SEC_PROV, Reg.SEC_GKEY, Reg.DBG_STAT, Reg.DBG_TRSEL, Reg.FAC_STAT]
    ++ [Reg.FAC_CFG, Reg.GRF_SUBLO, Reg.GRF_SUBHI, Reg.GRF_QSTAT, Reg.GRF_ABORT, Reg.GRF_SLOT, Reg.GRF_RGN, Reg.GRF_EVT0]
    ++ [Reg.GRF_EVT1, Reg.GRF_SDLLO, Reg.GRF_SDLHI, Reg.MBX_NCAP, Reg.MBX_SHDR, Reg.MBX_SACK, Reg.MBX_TKT, Reg.MBX_TKTACK]
    ++ [Reg.MBX_KPAGE, Reg.MBX_CPAGE, Reg.MBX_HWIN, Reg.MBX_RWERRLO, Reg.MBX_RWERRHI]

/-- The spec's table of each register. -/
def Reg.info : Reg → RegInfo
  | .CORE_FPCTL => ⟨.core, 0xC00, 1, 0, 0x0, [⟨0, 3, .rw⟩]⟩  -- after R41
  | .CORE_FPFLAGS => ⟨.core, 0xC04, 1, 0, 0x0, [⟨0, 1, .w1c⟩, ⟨1, 1, .w1c⟩, ⟨2, 1, .w1c⟩, ⟨3, 1, .w1c⟩, ⟨4, 1, .w1c⟩]⟩  -- after R42
  | .CORE_CFG => ⟨.core, 0xC08, 1, 0, 0x0, [⟨0, 1, .rw⟩]⟩  -- after R87
  | .CORE_STAT => ⟨.core, 0xC0C, 1, 0, 0x0, [⟨0, 1, .ro⟩, ⟨1, 3, .ro⟩, ⟨4, 1, .ro⟩, ⟨5, 1, .w1c⟩]⟩  -- after R87
  | .CORE_HZCNT => ⟨.core, 0xC10, 1, 0, 0x0, [⟨0, 16, .rc⟩, ⟨16, 16, .rc⟩]⟩  -- after R87
  | .CORE_BKCNT => ⟨.core, 0xC14, 1, 0, 0x0, [⟨0, 16, .rc⟩]⟩  -- after R87
  | .CORE_HZLOG => ⟨.core, 0xC18, 1, 0, 0x0, [⟨0, 6, .ro⟩, ⟨6, 2, .ro⟩, ⟨8, 16, .ro⟩, ⟨31, 1, .w1c⟩]⟩  -- after R87
  | .CORE_HZCYC => ⟨.core, 0xC1C, 1, 0, 0x0, [⟨0, 32, .ro⟩]⟩  -- after R87
  | .CORE_ECC => ⟨.core, 0xC20, 1, 0, 0x0, [⟨0, 16, .rc⟩, ⟨16, 1, .w1c⟩]⟩  -- after R87
  | .CORE_VSTAT => ⟨.core, 0xC24, 1, 0, 0x0, [⟨0, 16, .rc⟩, ⟨16, 8, .rc⟩]⟩  -- after R108
  | .CORE_LIST => ⟨.core, 0xC28, 4, 0, 0x0, [⟨0, 13, .rw⟩, ⟨13, 1, .rw⟩, ⟨15, 1, .rw⟩, ⟨16, 16, .rw⟩]⟩  -- after R141
  | .CORE_LSEL => ⟨.core, 0xC38, 1, 0, 0x0, [⟨0, 2, .rw⟩, ⟨2, 2, .ro⟩]⟩  -- after R141
  | .CORE_CMP => ⟨.core, 0xC3C, 4, 0, 0x0, [⟨0, 6, .rw⟩, ⟨6, 6, .rw⟩, ⟨12, 3, .rw⟩]⟩  -- after R141
  | .CORE_DSTAT => ⟨.core, 0xC4C, 1, 0, 0x0, [⟨0, 2, .ro⟩, ⟨2, 4, .ro⟩, ⟨6, 3, .ro⟩, ⟨16, 16, .ro⟩]⟩  -- after R141
  | .CORE_DPOS => ⟨.core, 0xC50, 1, 0, 0x0, [⟨0, 16, .ro⟩, ⟨16, 16, .ro⟩]⟩  -- after R141
  | .CORE_SCTX => ⟨.core, 0xC54, 4, 0, 0x0, [⟨0, 7, .rw⟩, ⟨7, 6, .rw⟩, ⟨13, 6, .rw⟩, ⟨19, 2, .rw⟩, ⟨21, 1, .rw⟩, ⟨22, 4, .ro⟩]⟩  -- after R161
  | .CORE_RCTX => ⟨.core, 0xC64, 4, 0, 0x0, [⟨0, 7, .rw⟩, ⟨7, 6, .rw⟩, ⟨13, 6, .rw⟩, ⟨19, 2, .rw⟩, ⟨21, 5, .rw⟩, ⟨26, 1, .rw⟩, ⟨27, 4, .ro⟩]⟩  -- after R161
  | .CORE_CHSEQ => ⟨.core, 0xC74, 8, 0, 0x0, [⟨0, 16, .ro⟩, ⟨16, 16, .ro⟩]⟩  -- after R161
  | .CORE_CHERR => ⟨.core, 0xC94, 1, 0, 0x0, [⟨0, 1, .w1c⟩, ⟨1, 1, .w1c⟩, ⟨2, 1, .w1c⟩, ⟨3, 2, .ro⟩, ⟨8, 8, .rc⟩]⟩  -- after R161
  | .CORE_FRONT => ⟨.core, 0xC98, 1, 0, 0x0, [⟨0, 7, .rw⟩, ⟨7, 6, .rw⟩, ⟨13, 6, .rw⟩, ⟨19, 1, .rw⟩, ⟨20, 1, .ro⟩, ⟨21, 1, .w1c⟩]⟩  -- after R178
  | .CORE_TOK => ⟨.core, 0xA00, 32, 0, 0x0, [⟨0, 16, .rw⟩]⟩  -- after R141
  | .CORE_TOKINC => ⟨.core, 0xA80, 1, 0, 0x0, [⟨0, 5, .wo⟩, ⟨8, 8, .wo⟩]⟩  -- after R141
  | .CORE_PRM => ⟨.core, 0x900, 64, 0, 0x0, [⟨0, 32, .ro⟩]⟩  -- after R141
  | .CORE_PRMS => ⟨.core, 0x800, 64, 0, 0x0, [⟨0, 32, .rw⟩]⟩  -- after R141
  | .CSP_CTL => ⟨.cluster, 0x0, 1, 1, 0x0, [⟨0, 1, .rw⟩, ⟨1, 1, .rw⟩]⟩  -- after R141
  | .CSP_EVT => ⟨.cluster, 0x4, 32, 1, 0x0, [⟨0, 16, .rc⟩]⟩  -- after R141
  | .CLU_FAULT => ⟨.cluster, 0x84, 1, 1, 0x0, [⟨0, 6, .ro⟩, ⟨6, 2, .ro⟩, ⟨8, 8, .rc⟩, ⟨31, 1, .w1c⟩]⟩  -- after R141
  | .CLU_STAT => ⟨.cluster, 0x88, 1, 1, 0x0, [⟨0, 7, .ro⟩, ⟨7, 1, .w1c⟩, ⟨8, 8, .rc⟩]⟩  -- after R141
  | .CLU_LSEL => ⟨.cluster, 0x8C, 1, 1, 0x0, [⟨0, 2, .wo⟩]⟩  -- after R141
  | .TRL_STAT => ⟨.cluster, 0x90, 1, 1, 0x0, [⟨0, 16, .rc⟩, ⟨16, 1, .w1c⟩, ⟨17, 1, .w1c⟩, ⟨18, 14, .rc⟩]⟩  -- after R161
  | .CLU_ECC => ⟨.cluster, 0x94, 1, 1, 0x0, [⟨0, 16, .rc⟩, ⟨16, 1, .w1c⟩]⟩  -- after R178
  | .CLU_FRONTGO => ⟨.cluster, 0x98, 1, 1, 0x0, [⟨0, 8, .wo⟩, ⟨8, 4, .wo⟩]⟩  -- after R178
  | .CLU_SPMAP => ⟨.cluster, 0x9C, 1, 6, 0x0, [⟨0, 6, .rwp⟩, ⟨6, 1, .rwp⟩, ⟨7, 1, .rwp⟩, ⟨8, 6, .rwp⟩, ⟨14, 1, .rwp⟩, ⟨15, 1, .rwp⟩, ⟨16, 6, .rwp⟩, ⟨22, 1, .rwp⟩, ⟨23, 1, .rwp⟩, ⟨24, 6, .rwp⟩, ⟨30, 1, .rwp⟩, ⟨31, 1, .rwp⟩]⟩  -- after R363
  | .STEP_CFG => ⟨.hub, 0x0, 1, 3, 0x20, [⟨0, 1, .rw⟩, ⟨1, 1, .rw⟩, ⟨2, 1, .ro⟩, ⟨3, 2, .rw⟩, ⟨5, 2, .rw⟩, ⟨7, 6, .rw⟩, ⟨13, 1, .rw⟩]⟩  -- after R199
  | .STEP_KEEPBASE => ⟨.hub, 0x4, 1, 3, 0x0, [⟨0, 27, .rw⟩]⟩  -- after R199
  | .STEP_KEEPSIZE => ⟨.hub, 0x8, 1, 3, 0x0, [⟨0, 27, .rw⟩]⟩  -- after R199
  | .STEP_BISIZE => ⟨.hub, 0xC, 1, 3, 0x0, [⟨0, 27, .rw⟩]⟩  -- after R199
  | .STEP_BLK => ⟨.hub, 0x10, 1, 3, 0x0, [⟨0, 11, .rw⟩]⟩  -- after R199
  | .STEP_GDONE => ⟨.hub, 0x14, 1, 3, 0x0, [⟨0, 12, .wo⟩]⟩  -- after R199
  | .STEP_STAT => ⟨.hub, 0x18, 1, 3, 0x0, [⟨0, 1, .w1c⟩, ⟨1, 1, .w1c⟩, ⟨2, 1, .ro⟩, ⟨3, 1, .w1c⟩]⟩  -- after R199
  | .STEP_STATCFG => ⟨.hub, 0x1C, 1, 3, 0x0, [⟨0, 16, .rw⟩, ⟨16, 6, .rw⟩, ⟨22, 1, .rw⟩, ⟨23, 6, .rw⟩, ⟨29, 1, .rw⟩]⟩  -- after R212
  | .STEP_STATSTS => ⟨.hub, 0x20, 1, 3, 0x0, [⟨0, 1, .ro⟩, ⟨1, 1, .ro⟩, ⟨2, 1, .w1c⟩, ⟨3, 1, .w1c⟩, ⟨4, 1, .ro⟩, ⟨8, 8, .ro⟩, ⟨16, 16, .rc⟩]⟩  -- after R212
  | .UPD_STEPLO => ⟨.hub, 0x1000, 1, 3, 0x0, [⟨0, 32, .rw⟩]⟩  -- after R271
  | .UPD_STEPHI => ⟨.hub, 0x1004, 1, 3, 0x0, [⟨0, 32, .rw⟩]⟩  -- after R271
  | .UPD_TCNT => ⟨.hub, 0x1008, 1, 3, 0x0, [⟨0, 32, .rw⟩]⟩  -- after R271
  | .UPD_JBASE => ⟨.hub, 0x100C, 1, 3, 0x0, [⟨0, 27, .rwp⟩]⟩  -- after R271
  | .UPD_STBASE => ⟨.hub, 0x1010, 1, 3, 0x0, [⟨0, 27, .rw⟩]⟩  -- after R271
  | .UPD_STCNT => ⟨.hub, 0x1014, 1, 3, 0x0, [⟨0, 16, .rw⟩]⟩  -- after R271
  | .UPD_HPS => ⟨.hub, 0x1018, 128, 3, 0x0, [⟨0, 32, .rw⟩]⟩  -- after R271
  | .UPD_HP => ⟨.hub, 0x1218, 128, 3, 0x0, [⟨0, 32, .ro⟩]⟩  -- after R271
  | .UPD_AUDIT => ⟨.hub, 0x1418, 1, 3, 0x0, [⟨0, 16, .rw⟩, ⟨16, 12, .ro⟩]⟩  -- after R271
  | .UPD_STAT => ⟨.hub, 0x141C, 1, 3, 0x0, [⟨0, 1, .w1c⟩, ⟨1, 1, .w1c⟩, ⟨2, 2, .ro⟩, ⟨8, 8, .rc⟩, ⟨16, 16, .ro⟩]⟩  -- after R271
  | .UPD_DDONE => ⟨.hub, 0x1420, 1, 3, 0x0, [⟨0, 12, .wo⟩]⟩  -- after R271
  | .UPD_MODE => ⟨.hub, 0x1424, 1, 3, 0x0, [⟨0, 1, .rw⟩]⟩  -- after R292
  | .RKE_FPFLAGS => ⟨.hub, 0x2000, 1, 3, 0x0, [⟨0, 5, .ro⟩]⟩  -- after R43
  | .RKE_SQ => ⟨.hub, 0x2004, 10, 3, 0x0, [⟨0, 32, .ro⟩]⟩  -- after R271
  | .RKE_STAT => ⟨.hub, 0x202C, 1, 3, 0x0, [⟨0, 15, .ro⟩, ⟨15, 15, .ro⟩, ⟨30, 1, .ro⟩]⟩  -- after R271
  | .RKE_DROP => ⟨.hub, 0x2030, 1, 3, 0x0, [⟨0, 32, .ro⟩]⟩  -- after R271
  | .SIV_CFG => ⟨.hub, 0x3000, 1, 3, 0x4, [⟨0, 1, .rw⟩, ⟨1, 1, .rw⟩, ⟨2, 1, .rw⟩, ⟨3, 1, .rw⟩, ⟨4, 6, .rw⟩, ⟨16, 8, .rw⟩]⟩  -- after R271
  | .SIV_CEIL => ⟨.hub, 0x3004, 1, 3, 0x7F800000, [⟨0, 32, .rw⟩]⟩  -- after R271
  | .SIV_CLIPN => ⟨.hub, 0x3008, 1, 3, 0x7F800000, [⟨0, 32, .rw⟩]⟩  -- after R271
  | .SIV_SPIKE => ⟨.hub, 0x300C, 1, 3, 0x7F800000, [⟨0, 32, .rw⟩]⟩  -- after R271
  | .SIV_LS => ⟨.hub, 0x3010, 1, 3, 0x7F8200, [⟨0, 8, .rw⟩, ⟨8, 8, .rw⟩, ⟨16, 8, .rw⟩, ⟨24, 7, .rw⟩, ⟨31, 1, .rw⟩]⟩  -- after R271
  | .SIV_STAT => ⟨.hub, 0x3014, 1, 3, 0x0, [⟨0, 3, .ro⟩, ⟨3, 1, .ro⟩, ⟨4, 1, .ro⟩, ⟨5, 1, .wo⟩, ⟨6, 1, .wo⟩, ⟨8, 8, .ro⟩]⟩  -- after R271
  | .SIV_NORM => ⟨.hub, 0x3018, 1, 3, 0x0, [⟨0, 32, .ro⟩]⟩  -- after R271
  | .SIV_MED => ⟨.hub, 0x301C, 1, 3, 0x0, [⟨0, 32, .ro⟩]⟩  -- after R271
  | .SIV_FACTOR => ⟨.hub, 0x3020, 1, 3, 0x0, [⟨0, 32, .ro⟩]⟩  -- after R271
  | .TRL_QCFG => ⟨.hub, 0x4000, 1, 3, 0x32, [⟨0, 16, .rw⟩]⟩  -- after R161
  | .TRL_AMAP => ⟨.hub, 0x4004, 1, 3, 0x0, [⟨0, 1, .rwp⟩, ⟨1, 1, .ro⟩]⟩  -- after R178
  | .TRL_HBMSTAT => ⟨.hub, 0x4008, 16, 3, 0x0, [⟨0, 16, .rc⟩, ⟨16, 1, .w1c⟩, ⟨17, 1, .w1c⟩, ⟨18, 8, .ro⟩]⟩  -- after R178
  | .TRL_HBMUELO => ⟨.hub, 0x4048, 16, 3, 0x0, [⟨5, 27, .ro⟩]⟩  -- after R178
  | .TRL_HBMUEHI => ⟨.hub, 0x4088, 16, 3, 0x0, [⟨0, 7, .ro⟩, ⟨7, 1, .ro⟩, ⟨31, 1, .w1c⟩]⟩  -- after R178
  | .TRL_SCRUB => ⟨.hub, 0x40C8, 1, 3, 0x118, [⟨0, 8, .rwp⟩, ⟨8, 1, .rwp⟩, ⟨16, 16, .ro⟩]⟩  -- after R363
  | .LNK_GRID => ⟨.hub, 0x5000, 1, 4, 0x81, [⟨0, 7, .rwp⟩, ⟨7, 7, .rwp⟩, ⟨14, 1, .rwp⟩, ⟨15, 8, .rwp⟩, ⟨23, 6, .ro⟩, ⟨29, 1, .ro⟩]⟩  -- after R292
  | .LNK_MMAP => ⟨.hub, 0x5004, 64, 4, 0x0, [⟨0, 3, .rwp⟩, ⟨3, 3, .rwp⟩, ⟨6, 1, .rwp⟩, ⟨16, 3, .rwp⟩, ⟨19, 3, .rwp⟩, ⟨22, 1, .rwp⟩]⟩  -- after R292
  | .LNK_CSTAT => ⟨.hub, 0x5104, 1, 3, 0x0, [⟨0, 12, .ro⟩, ⟨12, 12, .ro⟩, ⟨24, 1, .ro⟩, ⟨25, 1, .ro⟩, ⟨26, 1, .ro⟩, ⟨27, 1, .w1c⟩]⟩  -- after R292
  | .LNK_CSTALE => ⟨.hub, 0x5108, 1, 3, 0x0, [⟨0, 16, .rc⟩]⟩  -- after R292
  | .LNK_PCFG => ⟨.hub, 0x510C, 4, 4, 0x1, [⟨0, 1, .rwp⟩, ⟨1, 1, .rwp⟩]⟩  -- after R317
  | .LNK_PSTAT => ⟨.hub, 0x511C, 4, 4, 0x0, [⟨0, 3, .ro⟩, ⟨3, 1, .ro⟩, ⟨4, 1, .w1c⟩, ⟨5, 2, .ro⟩]⟩  -- after R317
  | .LNK_LANEMAP => ⟨.hub, 0x512C, 4, 4, 0x4, [⟨0, 2, .rwp⟩, ⟨2, 2, .rwp⟩, ⟨4, 3, .rwp⟩]⟩  -- after R317
  | .LNK_ERR => ⟨.hub, 0x513C, 4, 4, 0x0, [⟨0, 16, .rc⟩, ⟨16, 8, .rc⟩, ⟨24, 8, .rc⟩]⟩  -- after R317
  | .LNK_COORD => ⟨.hub, 0x514C, 1, 4, 0x0, [⟨0, 3, .rwp⟩, ⟨3, 3, .rwp⟩, ⟨6, 3, .rwp⟩, ⟨9, 3, .rwp⟩, ⟨12, 1, .rwp⟩, ⟨13, 1, .ro⟩]⟩  -- after R317
  | .LNK_GROUPID => ⟨.hub, 0x5150, 1, 4, 0x0, [⟨0, 32, .rwp⟩]⟩  -- after R317
  | .LNK_JOBTAG => ⟨.hub, 0x5154, 1, 4, 0x0, [⟨0, 16, .rwp⟩]⟩  -- after R317
  | .LNK_TRANSIT => ⟨.hub, 0x5158, 1, 4, 0x19, [⟨0, 6, .rwp⟩]⟩  -- after R317
  | .LNK_V1RING => ⟨.hub, 0x515C, 1, 4, 0x0, [⟨0, 27, .rw⟩, ⟨27, 5, .rw⟩]⟩  -- after R317
  | .SDL_CNTLO => ⟨.hub, 0x6000, 1, 3, 0x0, [⟨0, 32, .ro⟩]⟩  -- after R317
  | .SDL_CNTHI => ⟨.hub, 0x6004, 1, 3, 0x0, [⟨0, 32, .ro⟩]⟩  -- after R317
  | .SDL_STAT => ⟨.hub, 0x6008, 1, 3, 0x0, [⟨0, 2, .ro⟩, ⟨2, 1, .ro⟩, ⟨3, 4, .ro⟩, ⟨8, 16, .ro⟩]⟩  -- after R317
  | .SDL_LAUNCHLO => ⟨.hub, 0x600C, 1, 3, 0x0, [⟨0, 32, .rw⟩]⟩  -- after R317
  | .SDL_LAUNCHHI => ⟨.hub, 0x6010, 1, 3, 0x0, [⟨0, 31, .rw⟩, ⟨31, 1, .rw⟩]⟩  -- after R317
  | .SDL_GCOMP => ⟨.hub, 0x6014, 8, 3, 0x0, [⟨0, 12, .rw⟩]⟩  -- after R317
  | .HRV_CFG => ⟨.hub, 0x7000, 1, 3, 0x0, [⟨0, 8, .rw⟩, ⟨8, 3, .rw⟩, ⟨11, 3, .rw⟩, ⟨14, 1, .rw⟩]⟩  -- after R363
  | .HRV_STAGE => ⟨.hub, 0x7004, 1, 3, 0x0, [⟨0, 27, .rw⟩, ⟨27, 5, .rw⟩]⟩  -- after R363
  | .HRV_RSV => ⟨.hub, 0x7008, 1, 3, 0x0, [⟨0, 27, .rw⟩, ⟨27, 5, .rw⟩]⟩  -- after R363
  | .HRV_STAT => ⟨.hub, 0x700C, 1, 3, 0x0, [⟨0, 3, .ro⟩, ⟨3, 7, .ro⟩, ⟨10, 1, .w1c⟩, ⟨11, 1, .w1c⟩, ⟨16, 16, .ro⟩]⟩  -- after R363
  | .RGA_CFG => ⟨.hub, 0x8000, 1, 4, 0x1, [⟨0, 1, .rwp⟩]⟩  -- after R374
  | .RGA_BIN => ⟨.hub, 0x8004, 64, 4, 0x0, [⟨0, 8, .rwp⟩, ⟨8, 4, .rwp⟩]⟩  -- after R374
  | .RGA_STAT => ⟨.hub, 0x8104, 1, 4, 0x0, [⟨0, 1, .ro⟩, ⟨1, 1, .ro⟩, ⟨2, 3, .ro⟩, ⟨5, 3, .ro⟩, ⟨8, 11, .ro⟩]⟩  -- after R374
  | .RGA_SEQLO => ⟨.hub, 0x8108, 1, 4, 0x0, [⟨0, 32, .ro⟩]⟩  -- after R374
  | .RGA_SEQHI => ⟨.hub, 0x810C, 1, 4, 0x0, [⟨0, 32, .ro⟩]⟩  -- after R374
  | .RGA_FLOORLO => ⟨.hub, 0x8110, 1, 4, 0x0, [⟨0, 32, .ro⟩]⟩  -- after R374
  | .RGA_FLOORHI => ⟨.hub, 0x8114, 1, 4, 0x0, [⟨0, 32, .ro⟩]⟩  -- after R374
  | .RST_CAUSE => ⟨.hub, 0x9000, 1, 5, 0x50, [⟨0, 4, .ro⟩, ⟨4, 3, .ro⟩, ⟨7, 1, .ro⟩, ⟨8, 10, .ro⟩]⟩  -- after R388
  | .RST_STAT => ⟨.hub, 0x9004, 1, 5, 0x0, [⟨0, 1, .w1c⟩, ⟨1, 1, .w1c⟩, ⟨2, 4, .ro⟩, ⟨16, 16, .rc⟩]⟩  -- after R388
  | .RST_WDOG => ⟨.hub, 0x9008, 1, 5, 0x3E8, [⟨0, 16, .rw⟩, ⟨16, 1, .wo⟩]⟩  -- after R388
  | .RST_GRTICKLO => ⟨.hub, 0x900C, 1, 5, 0x0, [⟨0, 32, .ro⟩]⟩  -- after R388
  | .RST_GRTICKHI => ⟨.hub, 0x9010, 1, 5, 0x0, [⟨0, 32, .ro⟩]⟩  -- after R388
  | .RST_BKP => ⟨.hub, 0x9014, 16, 5, 0x0, [⟨0, 32, .rw⟩]⟩  -- after R388
  | .RST_CFIDX => ⟨.hub, 0x9054, 1, 5, 0x0, [⟨0, 8, .rw⟩]⟩  -- after R388
  | .RST_CFDATA => ⟨.hub, 0x9058, 1, 5, 0x0, [⟨0, 32, .rw⟩]⟩  -- after R388
  | .CLK_STAT => ⟨.hub, 0xA000, 1, 5, 0x0, [⟨0, 1, .ro⟩, ⟨1, 1, .ro⟩, ⟨2, 4, .ro⟩, ⟨6, 16, .ro⟩, ⟨22, 8, .ro⟩]⟩  -- after R402
  | .CLK_CFG => ⟨.hub, 0xA004, 1, 5, 0x0, [⟨0, 1, .rwp⟩]⟩  -- after R402
  | .PWR_MPLAN => ⟨.hub, 0xB000, 8, 5, 0x0, [⟨0, 4, .rwp⟩, ⟨4, 1, .rwp⟩, ⟨5, 1, .rwp⟩, ⟨8, 8, .rwp⟩]⟩  -- after R363
  | .PWR_STATE => ⟨.hub, 0xB020, 1, 5, 0x0, [⟨0, 3, .ro⟩, ⟨3, 3, .ro⟩, ⟨6, 1, .ro⟩, ⟨7, 1, .ro⟩]⟩  -- after R402
  | .PWR_CAP => ⟨.hub, 0xB024, 1, 5, 0x34BC, [⟨0, 14, .rwp⟩]⟩  -- after R402
  | .PWR_THR => ⟨.hub, 0xB028, 8, 5, 0x0, [⟨0, 4, .ro⟩, ⟨4, 4, .ro⟩, ⟨8, 4, .ro⟩]⟩  -- after R402
  | .PWR_WSEL => ⟨.hub, 0xB048, 1, 5, 0x0, [⟨0, 28, .rw⟩]⟩  -- after R402
  | .PWR_WEAR => ⟨.hub, 0xB04C, 1, 5, 0x0, [⟨0, 20, .ro⟩, ⟨20, 1, .ro⟩, ⟨21, 1, .ro⟩]⟩  -- after R402
  | .PWR_RAILEV => ⟨.hub, 0xB050, 1, 5, 0x0, [⟨0, 3, .rwp⟩, ⟨3, 1, .rwp⟩]⟩  -- after R440
  | .SEC_STAT => ⟨.hub, 0xC000, 1, 4, 0x0, [⟨0, 2, .ro⟩, ⟨2, 1, .ro⟩, ⟨3, 7, .ro⟩, ⟨10, 1, .ro⟩]⟩  -- after R424
  | .SEC_LCDBG => ⟨.hub, 0xC004, 1, 4, 0x0, [⟨0, 1, .rwp⟩]⟩  -- after R424
  | .SEC_SKEY => ⟨.hub, 0xC008, 33, 4, 0x0, [⟨0, 32, .rw⟩]⟩  -- after R424
  | .SEC_PROV => ⟨.hub, 0xC08C, 1, 4, 0x0, [⟨0, 1, .wo⟩]⟩  -- after R424
  | .SEC_GKEY => ⟨.hub, 0xC090, 33, 4, 0x0, [⟨0, 32, .rwp⟩]⟩  -- after R424
  | .DBG_STAT => ⟨.hub, 0xD000, 1, 4, 0x0, [⟨0, 2, .ro⟩, ⟨2, 1, .ro⟩, ⟨3, 1, .ro⟩, ⟨4, 1, .ro⟩]⟩  -- after R424
  | .DBG_TRSEL => ⟨.hub, 0xD004, 1, 4, 0x0, [⟨0, 13, .rw⟩, ⟨13, 1, .rw⟩]⟩  -- after R424
  | .FAC_STAT => ⟨.hub, 0xE000, 1, 5, 0x0, [⟨0, 1, .ro⟩, ⟨1, 1, .ro⟩, ⟨2, 1, .ro⟩, ⟨3, 1, .ro⟩, ⟨4, 1, .ro⟩, ⟨5, 1, .ro⟩, ⟨6, 1, .ro⟩, ⟨7, 1, .ro⟩, ⟨8, 1, .ro⟩, ⟨9, 3, .ro⟩]⟩  -- after R432
  | .FAC_CFG => ⟨.hub, 0xE004, 1, 5, 0x10A, [⟨0, 8, .rwp⟩, ⟨8, 1, .rwp⟩]⟩  -- after R432
  | .GRF_SUBLO => ⟨.grafter, 0x0, 1, 2, 0x0, [⟨6, 26, .wo⟩]⟩  -- after R239
  | .GRF_SUBHI => ⟨.grafter, 0x4, 1, 2, 0x0, [⟨0, 16, .wo⟩]⟩  -- after R239
  | .GRF_QSTAT => ⟨.grafter, 0x8, 1, 2, 0x0, [⟨0, 5, .ro⟩]⟩  -- after R239
  | .GRF_ABORT => ⟨.grafter, 0xC, 1, 2, 0x0, [⟨0, 2, .wo⟩, ⟨2, 1, .wo⟩]⟩  -- after R239
  | .GRF_SLOT => ⟨.grafter, 0x10, 4, 2, 0x6000, [⟨0, 3, .ro⟩, ⟨3, 6, .ro⟩, ⟨9, 4, .ro⟩, ⟨13, 2, .ro⟩, ⟨15, 1, .ro⟩, ⟨16, 16, .ro⟩]⟩  -- after R239
  | .GRF_RGN => ⟨.grafter, 0x20, 4, 2, 0x0, [⟨0, 5, .rw⟩, ⟨5, 5, .rw⟩, ⟨10, 6, .rw⟩, ⟨16, 5, .rw⟩, ⟨21, 1, .rw⟩, ⟨22, 1, .ro⟩]⟩  -- after R239
  | .GRF_EVT0 => ⟨.grafter, 0x30, 1, 2, 0x0, [⟨0, 8, .rc⟩, ⟨8, 8, .rc⟩, ⟨16, 8, .rc⟩, ⟨24, 8, .rc⟩]⟩  -- after R239
  | .GRF_EVT1 => ⟨.grafter, 0x34, 1, 2, 0x0, [⟨0, 8, .rc⟩, ⟨8, 8, .rc⟩, ⟨16, 8, .rc⟩]⟩  -- after R239
  | .GRF_SDLLO => ⟨.grafter, 0x38, 1, 2, 0x0, [⟨0, 32, .ro⟩]⟩  -- after R239
  | .GRF_SDLHI => ⟨.grafter, 0x3C, 1, 2, 0x0, [⟨0, 32, .ro⟩]⟩  -- after R239
  | .MBX_NCAP => ⟨.mailbox, 0x3000, 1, 4, 0x223, [⟨0, 1, .ro⟩, ⟨1, 1, .ro⟩, ⟨2, 4, .ro⟩, ⟨6, 4, .ro⟩]⟩  -- after R340
  | .MBX_SHDR => ⟨.mailbox, 0x3040, 16, 4, 0x0, [⟨0, 16, .ro⟩, ⟨16, 16, .ro⟩]⟩  -- after R340
  | .MBX_SACK => ⟨.mailbox, 0x3080, 1, 4, 0x0, [⟨0, 8, .wo⟩]⟩  -- after R340
  | .MBX_TKT => ⟨.mailbox, 0x30C0, 16, 4, 0x0, [⟨0, 16, .ro⟩, ⟨16, 16, .ro⟩]⟩  -- after R340
  | .MBX_TKTACK => ⟨.mailbox, 0x3100, 1, 4, 0x0, [⟨0, 8, .wo⟩]⟩  -- after R340
  | .MBX_KPAGE => ⟨.mailbox, 0x3140, 1, 4, 0x0, [⟨0, 5, .rw⟩]⟩  -- after R340
  | .MBX_CPAGE => ⟨.mailbox, 0x3144, 1, 4, 0x0, [⟨0, 5, .rw⟩]⟩  -- after R340
  | .MBX_HWIN => ⟨.mailbox, 0x3148, 1, 4, 0x0, [⟨0, 3, .rw⟩]⟩  -- after R340
  | .MBX_RWERRLO => ⟨.mailbox, 0x3180, 1, 4, 0x0, [⟨0, 32, .ro⟩]⟩  -- after R340
  | .MBX_RWERRHI => ⟨.mailbox, 0x3184, 1, 4, 0x0, [⟨0, 16, .ro⟩, ⟨16, 2, .ro⟩, ⟨18, 1, .ro⟩, ⟨31, 1, .w1c⟩]⟩  -- after R340

/-- Byte offset of register `r`, index `i`. -/
def Reg.offset (r : Reg) (i : Nat) : Nat := r.info.off + 4 * i

/-- The mask of the bits whose fields have one of the given access types. -/
def Reg.mask (r : Reg) (p : Access → Bool) : Nat :=
  (r.info.fields.map fun f => if p f.acc then (2 ^ f.w - 1) * 2 ^ f.lo else 0).foldl (· + ·) 0

/-- The register of a home at a byte offset, with its array index. -/
def regAt (h : Home) (off : Nat) : Option (Reg × Nat) :=
  (Reg.all.find? fun r =>
    r.info.home == h && decide (r.info.off ≤ off) && decide (off < r.info.off + 4 * r.info.count)).map
    fun r => (r, (off - r.info.off) / 4)

/-- A register file: byte offset to value, registers that hold zero unlisted. -/
abbrev Regs := List (Nat × Word)

/-- The value of register `r`, index `i`, as a number. -/
def rg (f : Regs) (r : Reg) (i : Nat := 0) : Nat := (Sparse.get (fun _ => (0 : Word)) f (r.offset i)).toNat

/-- Set register `r`, index `i`. -/
def sg (f : Regs) (r : Reg) (i : Nat) (v : Nat) : Regs :=
  Sparse.set (fun _ => (0 : Word)) f (r.offset i) (BitVec.ofNat 32 v)

/-- Bits of register `r`, index `i`. -/
def rf (f : Regs) (r : Reg) (i lo w : Nat) : Nat := bits (rg f r i) lo w

/-- Set bits of register `r`, index `i`. -/
def sf (f : Regs) (r : Reg) (i lo w x : Nat) : Regs := sg f r i (putBits (rg f r i) lo w x)

/-- Add to a counter field that saturates at all ones. -/
def satField (f : Regs) (r : Reg) (i lo w n : Nat) : Regs := sf f r i lo w (min (rf f r i lo w + n) (2 ^ w - 1))

/-- A reset of reach `k` of one register file's registers of home `h`: every register whose reach is at most `k` takes
its reset value in all but its RWP fields (R375, R11). -/
def resetRegs (h : Home) (k : Nat) (f : Regs) : Regs :=
  Reg.all.foldl (fun f r =>
    if r.info.home == h && decide (r.info.reach ≤ k) then
      (List.range r.info.count).foldl (fun f i =>
        let keep := r.mask (· == .rwp)
        sg f r i ((rg f r i &&& keep) + (r.info.init &&& (2 ^ 32 - 1 - keep)))) f
    else f) f

/-- A register file at first power-on: every register of the home at its reset value. -/
def initRegs (h : Home) : Regs :=
  Reg.all.foldl (fun f r =>
    if r.info.home == h && decide (r.info.init ≠ 0) then
      (List.range r.info.count).foldl (fun f i => sg f r i r.info.init) f
    else f) []

end Sys2Proof.Machine
end

