-- ==== Sys2Proof/Machine/CoreState.lean ====
section
/-! DEFINITION. The state of one core (R62), of one cluster, and the packets of the Trellis, as plain data. -/

namespace Sys2Proof.Machine

/-- Memory by DPA: (address, byte), addresses rising, zero bytes unlisted. -/
abbrev Mem := List (Nat × Byte)

/-- An outstanding ECC flaw in a stored 64-bit word (R79, R168), with the bits that are wrong: one, which a read corrects (memory holds the
good word), or more, which it does not (memory holds the bad word). -/
inductive Flaw where
  | single (mask : Nat)
  | double (mask : Nat)
  deriving DecidableEq, Repr

/-- Flaws by word index. -/
abbrev Flaws := List (Nat × Option Flaw)

/-- Upsets that strike just before a command reads: the word and the bits they flip. A word below 2^45 is DPA / 8; word
2^45 + 1088·core + 544·slot + 34·lane + w is word `w` of a lane of a weight slot, as in `Core.slotFlaws`. -/
structure Upset where
  word : Nat
  mask : Nat
  deriving DecidableEq, Repr

/-- A result in flight (R67, R82): register (0-31 V, 32-39 A), due cycle, issue order, value, and for an accumulator the
class of the pass that wrote it. -/
structure Flight where
  reg : Nat
  due : Nat
  seq : Nat
  val : Nat
  cls : Option RowClass
  deriving DecidableEq, Repr

/-- A descriptor that has issued (R119-R127): what it latched, and how far it has run. -/
structure Run where
  idx : Nat               -- index in the list
  desc : Nat              -- the 512 bits
  counts : List Nat       -- N0-N3 as latched
  hs : Handles            -- handle entries as latched
  tol : Bool              -- HZMODE sampled at the start
  chain : Option (List Nat)   -- the chain buffer, once loaded
  iter : Nat              -- iterations done
  wait : Bool             -- a transfer's packet is on its way
  slot : Nat              -- slot of a fill
  got : List Byte         -- bytes a FILL_IN has taken
  done : Bool             -- everything but completion has happened
  deriving DecidableEq, Repr

/-- An entry of the issue window; `bad` is the static failure of R113, 0 for none. -/
structure WinEntry where
  idx : Nat
  desc : Nat
  bad : Nat
  deriving DecidableEq, Repr

/-- The dynamic part of a send context and its replay image (R152, R158). -/
structure SendCtx where
  credit : Nat
  seq : Nat
  imgCredit : Nat
  imgSeq : Nat
  deriving DecidableEq, Repr

/-- The dynamic part of a receive context: NEXT, armed buffers (address, length) oldest first, held increments
(TSEQ, sum), and its replay image, with the step it was taken for (R152, R157, R158). -/
structure RecvCtx where
  next : Nat
  armed : List (Nat × Nat)
  held : List (Nat × Nat)
  imgNext : Nat
  imgArmed : List (Nat × Nat)
  imgStep : Nat
  early : Bool                    -- the image was taken by a packet of the step to come (R158)
  deriving DecidableEq, Repr

/-- An endpoint of the Trellis (R150). -/
inductive Endpoint where
  | core (gi : Nat)
  | cluster (ci : Nat)
  | hub
  | grafter (k : Nat)
  | hbm (s : Nat)
  deriving DecidableEq, Repr

/-- The agents with a latch of their own under R441. -/
inductive Agent where
  | host | shed
  | csp (ci : Nat)
  deriving DecidableEq, Repr

/-- A place in the register space (R321, R322): a hub window, the front tables, a Grafter, a cluster's block with its CSP memories, a core slot, BAR0
(R320), or nothing. Offsets are from the start of each. -/
inductive RegPlace where
  | hub (off : Nat)
  | front (off : Nat)
  | grafter (k off : Nat)
  | cluster (ci off : Nat)
  | core (gi off : Nat)
  | bar0 (off : Nat)
  | unmapped
  deriving DecidableEq, Repr

/-- Who accesses a register, and where: the host through BAR0 or BAR2, a CSP through its map (R138), or the Shed. -/
inductive RegAddr where
  | bar0 (off : Nat)
  | bar2 (off : Nat)
  | csp (ci addr : Nat)
  | shed (p : RegPlace)
  deriving DecidableEq, Repr

/-- What a packet carries (R150, R154, R174). -/
inductive Payload where
  | msg (ch seq : Nat) (data : List Byte)
  | token (ch tseq inc : Nat)
  | credit (ch n : Nat)
  | mrd (addr flits tag : Nat)
  | mwr (addr : Nat) (data : List Byte)
  | mrsp (tag : Nat) (data : List Byte)
  | regRd (addr : Nat)
  | regWr (addr : Nat) (v : Nat) (be : Nat)
  | regRsp (v : Nat)
  | frontReq (stack entry : Nat)
  | frontMark (tile left : Nat)
  | frontTile (tile left : Nat) (data : List Byte)
  | urg (code arg : Nat)
  deriving DecidableEq, Repr

/-- The traffic classes and virtual channels of R147. -/
inductive TClass where
  | tc0 | tc1 | tc2q | tc2r
  deriving DecidableEq, Repr

/-- A packet in flight, with the step tag of R150. -/
structure Packet where
  src : Endpoint
  dst : Endpoint
  cls : TClass
  stag : Nat
  body : Payload
  deriving DecidableEq, Repr

/-- A flit error met by a packet (R149): where it was detected (a cluster, or none for a hub port), and for a payload error
the flit and the bits it changed. -/
inductive FlitErr where
  | corrected (at_ : Option Nat)
  | payload (at_ : Option Nat) (flit mask : Nat)
  | header (at_ : Option Nat)
  deriving DecidableEq, Repr

/-- Whom the hub's HALT and RESUME address (R146, R154): a core, a cluster, or a rectangle of clusters with a core mask. -/
inductive UrgTarget where
  | core (gi : Nat)
  | cluster (ci : Nat)
  | rect (x0 y0 x1 y1 mask : Nat)
  deriving DecidableEq, Repr

/-- What an HBM read met in a 32-byte unit (R169, R170): a corrected error, or an uncorrectable one with the bits it changed, which
a re-read either still shows or not. -/
inductive HbmErr where
  | corrected (unit : Nat)
  | uncorrectable (unit mask : Nat) (persist : Bool)
  deriving DecidableEq, Repr

/-- A front tile being taken (R176): bytes per core, cores left, bytes seen so far. -/
structure FrontTake where
  tile : Nat
  left : Nat
  seen : Nat
  deriving DecidableEq, Repr

/-- The vector engine's clock within a descriptor (R90, R91): the last issue, and when each pipe is free. -/
structure VClock where
  last : Option Nat
  valu : Nat
  vtu : Nat
  vls : Nat
  vrd : Nat
  deriving DecidableEq, Repr

/-- One core. -/
structure Core where
  regs : Regs
  handles : Handles
  v : List (Nat × Nat)            -- V0-V31, 512 bits each
  acc : List (Nat × Nat)          -- A0-A7, 16 lanes of 64 bits each
  slots : List (Nat × Nat)        -- key 16·slot + lane: 2,048 bits; key 64 + 16·slot + lane: 128 bits of scales; 96 + slot: filled as MX
  slotFlaws : Flaws               -- outstanding ECC flaws of the slots, key 544·slot + 34·lane + word: 0-31 data, 32-33 scales
  slotPtr : Nat
  pend0 : Bool                    -- fill-pending of SLOT0
  pend1 : Bool
  clock : VClock
  flights : List Flight
  seq : Nat                       -- vector and row issues so far
  landed : List (Nat × Nat)       -- per register, 1 + the issue order of the last result kept
  fetch : Nat
  fetchEnd : Bool                 -- the last entry of the list has been fetched
  beyond : Bool                     -- the next entry lies beyond the list's memory
  rep : Option (Nat × Nat)        -- a REPEAT in progress: its index, repetitions left
  win : List WinEntry
  comp : Option Run
  tq : List Run
  idle : List Run                 -- issued entries that run nothing, oldest first (NOP and zero iterations)
  stop : Nat                      -- the status of a stop in progress, 0 for none
  haltReq : Bool                  -- a debug HALT waits for the descriptor boundary (R421)
  send : List SendCtx
  recv : List RecvCtx
  front : Option (Nat × Nat)      -- a marker held: tile, left
  take : Option FrontTake
  frontSrc : Option Endpoint      -- the sender of the first FRONT packet since REPLAY
  wb : List Nat                   -- words with a pending ECC write-back, one per bank
  eject : List Packet             -- TC1 packets waiting at the ejection behind a fifth token message (R157)
  deriving DecidableEq, Repr

/-- A Grafter's or CSP's command-window latches are in `State`; the cluster holds the rest. -/
structure Cluster where
  regs : Regs
  csp : List (Nat × Byte)         -- instruction memory at 0, data memory at 0x1_0000
  irq : Bool                      -- the CSP's external interrupt
  released : Bool                 -- ramp group released (R398)
  arrived : Option Nat            -- barrier the cluster has arrived at
  wb : List Nat                   -- store words with a pending ECC write-back
  quiet : Bool                    -- QUIESCE has stopped its injections (R156)
  quiesced : Bool                 -- it has reported QUIESCED (R155)
  grfLo : Nat                     -- the CSP's GRF_SUBLO latch (R215)
  loaded : Nat                    -- what the CSP's last load or register read returned
  deriving DecidableEq, Repr

def SendCtx.init : SendCtx := ⟨0, 0, 0, 0⟩
def RecvCtx.init : RecvCtx := ⟨0, [], [], 0, [], 0, false⟩

/-- A core after a reset of CORE reach or wider (R375). (DESIGN CHOICE: log 5) -/
def Core.init : Core :=
  { regs := [], handles := [], v := [], acc := [], slots := [], slotFlaws := [], slotPtr := 0, pend0 := false, pend1 := false
    clock := ⟨none, 0, 0, 0, 0⟩, flights := [], seq := 0, landed := [], fetch := 0, fetchEnd := false, beyond := false, rep := none, win := []
    comp := none, tq := [], idle := [], stop := 0, haltReq := false
    send := [SendCtx.init, SendCtx.init, SendCtx.init, SendCtx.init]
    recv := [RecvCtx.init, RecvCtx.init, RecvCtx.init, RecvCtx.init]
    front := none, take := none, frontSrc := none, wb := [], eject := [] }

/-- A cluster after a reset of CLUSTER reach or wider. -/
def Cluster.init : Cluster :=
  { regs := [], csp := [], irq := false, released := true, arrived := none, wb := [], quiet := false, quiesced := false, grfLo := 0, loaded := 0 }

/-- Read a byte; an unlisted address reads zero. (DESIGN CHOICE: log 1) -/
def mget (m : Mem) (a : Nat) : Byte := Sparse.get (fun _ => 0) m a

/-- Read `n` bytes. -/
def mgets (m : Mem) (a n : Nat) : List Byte := (List.range n).map fun i => mget m (a + i)

/-- Write one byte, keeping the canonical form. -/
def mset (m : Mem) (a : Nat) (b : Byte) : Mem := Sparse.set (fun _ => 0) m a b

/-- Write bytes at consecutive addresses. -/
def msets (m : Mem) (a : Nat) (bs : List Byte) : Mem := Sparse.setRun (fun _ => 0) m a bs

/-- The DPA of a core's local memory and of a cluster's store (R162). -/
def localBase (gi : Nat) : Nat := 0x020000000000 + 0x10000 * gi
def storeBase (ci : Nat) : Nat := 0x010000000000 + 0x100000 * ci

/-- The cluster of a core and the core's index in it (R19, R138, R162). -/
def coreCi (gi : Nat) : Nat := 128 * (gi / 1024 / 8) + gi % 1024 / 8
def coreK (gi : Nat) : Nat := 8 * (gi / 1024 % 8) + gi % 8

/-- The core `k` of cluster `ci`. -/
def coreOf (ci k : Nat) : Nat := 1024 * (8 * (ci / 128) + k / 8) + 8 * (ci % 128) + k % 8

/-- The cores of a cluster. -/
def coresOf (ci : Nat) : List Nat := (List.range 64).map (coreOf ci)

/-- The die of a cluster (R19). -/
def dieOf (ci : Nat) : Nat := ci % 128 / 32 + 4 * (ci / 128 / 20)

def nCores : Nat := 327680
def nClusters : Nat := 5120

/-- Replace element `i` of a list. -/
def setAt {α : Type} (l : List α) (i : Nat) (x : α) : List α := l.set i x

end Sys2Proof.Machine
end

