-- ==== Sys2Proof/Machine/Crypto.lean ====
section
/-! DEFINITION. The check codes and signatures the rules name: CRC-32 with the IEEE 802.3 polynomial (R369), CRC-32C, CRC-64 with
the ECMA-182 polynomial (R264), SHA-512 (R287, R359, R405), and P-521 signature verification (R382, R406, R415). -/

namespace Sys2Proof.Machine

/-! ### CRC -/

/-- One bit of a reflected CRC with polynomial `p`. -/
def crcBit (p c : Nat) : Nat := if c % 2 = 1 then (c / 2) ^^^ p else c / 2

/-- One byte of a reflected CRC. -/
def crcByte (p c : Nat) (b : Byte) : Nat := (List.range 8).foldl (fun c _ => crcBit p c) (c ^^^ b.toNat)

/-- CRC-32, IEEE 802.3: reflected, initial and final complement. -/
def crc32 (bs : List Byte) : Nat := bs.foldl (crcByte 0xEDB88320) 0xFFFFFFFF ^^^ 0xFFFFFFFF

/-- CRC-32C, Castagnoli: reflected, initial and final complement. -/
def crc32c (bs : List Byte) : Nat := bs.foldl (crcByte 0x82F63B78) 0xFFFFFFFF ^^^ 0xFFFFFFFF

/-- CRC-64 with the ECMA-182 polynomial, most significant bit first, initial value zero. -/
def crc64 (bs : List Byte) : Nat :=
  bs.foldl (fun c b => (List.range 8).foldl (fun c _ =>
    if 2 ^ 63 ≤ c then (2 * c % 2 ^ 64) ^^^ 0x42F0E1EBA9EA3693 else 2 * c) (c ^^^ b.toNat * 2 ^ 56)) 0

/-! ### SHA-512 -/

/-- The round constants. -/
def shaK : List Nat :=
  [0x428A2F98D728AE22, 0x7137449123EF65CD, 0xB5C0FBCFEC4D3B2F, 0xE9B5DBA58189DBBC]
    ++ [0x3956C25BF348B538, 0x59F111F1B605D019, 0x923F82A4AF194F9B, 0xAB1C5ED5DA6D8118]
    ++ [0xD807AA98A3030242, 0x12835B0145706FBE, 0x243185BE4EE4B28C, 0x550C7DC3D5FFB4E2]
    ++ [0x72BE5D74F27B896F, 0x80DEB1FE3B1696B1, 0x9BDC06A725C71235, 0xC19BF174CF692694]
    ++ [0xE49B69C19EF14AD2, 0xEFBE4786384F25E3, 0x0FC19DC68B8CD5B5, 0x240CA1CC77AC9C65]
    ++ [0x2DE92C6F592B0275, 0x4A7484AA6EA6E483, 0x5CB0A9DCBD41FBD4, 0x76F988DA831153B5]
    ++ [0x983E5152EE66DFAB, 0xA831C66D2DB43210, 0xB00327C898FB213F, 0xBF597FC7BEEF0EE4]
    ++ [0xC6E00BF33DA88FC2, 0xD5A79147930AA725, 0x06CA6351E003826F, 0x142929670A0E6E70]
    ++ [0x27B70A8546D22FFC, 0x2E1B21385C26C926, 0x4D2C6DFC5AC42AED, 0x53380D139D95B3DF]
    ++ [0x650A73548BAF63DE, 0x766A0ABB3C77B2A8, 0x81C2C92E47EDAEE6, 0x92722C851482353B]
    ++ [0xA2BFE8A14CF10364, 0xA81A664BBC423001, 0xC24B8B70D0F89791, 0xC76C51A30654BE30]
    ++ [0xD192E819D6EF5218, 0xD69906245565A910, 0xF40E35855771202A, 0x106AA07032BBD1B8]
    ++ [0x19A4C116B8D2D0C8, 0x1E376C085141AB53, 0x2748774CDF8EEB99, 0x34B0BCB5E19B48A8]
    ++ [0x391C0CB3C5C95A63, 0x4ED8AA4AE3418ACB, 0x5B9CCA4F7763E373, 0x682E6FF3D6B2B8A3]
    ++ [0x748F82EE5DEFB2FC, 0x78A5636F43172F60, 0x84C87814A1F0AB72, 0x8CC702081A6439EC]
    ++ [0x90BEFFFA23631E28, 0xA4506CEBDE82BDE9, 0xBEF9A3F7B2C67915, 0xC67178F2E372532B]
    ++ [0xCA273ECEEA26619C, 0xD186B8C721C0C207, 0xEADA7DD6CDE0EB1E, 0xF57D4F7FEE6ED178]
    ++ [0x06F067AA72176FBA, 0x0A637DC5A2C898A6, 0x113F9804BEF90DAE, 0x1B710B35131C471B]
    ++ [0x28DB77F523047D84, 0x32CAAB7B40C72493, 0x3C9EBE0A15C9BEBC, 0x431D67C49C100D4C]
    ++ [0x4CC5D4BECB3E42B6, 0x597F299CFC657E2A, 0x5FCB6FAB3AD6FAEC, 0x6C44198C4A475817]

/-- The initial hash value. -/
def shaH : List Nat :=
  [0x6A09E667F3BCC908, 0xBB67AE8584CAA73B, 0x3C6EF372FE94F82B, 0xA54FF53A5F1D36F1]
    ++ [0x510E527FADE682D1, 0x9B05688C2B3E6C1F, 0x1F83D9ABFB41BD6B, 0x5BE0CD19137E2179]

/-- Rotate a 64-bit word right. -/
def ror64 (x n : Nat) : Nat := x / 2 ^ n ||| x * 2 ^ (64 - n) % 2 ^ 64

/-- The big-endian value of bytes. -/
def beNat (bs : List Byte) : Nat := bs.foldl (fun a b => 256 * a + b.toNat) 0

/-- The `n` big-endian bytes of a number. -/
def toBe (n v : Nat) : List Byte := (toLe n v).reverse

/-- Extend the message schedule to `n` more words; `w` holds the words newest first. -/
def shaSchedule : Nat → List Nat → List Nat
  | 0, w => w
  | n + 1, w =>
    let a := w.getD 14 0
    let b := w.getD 1 0
    let s0 := ror64 a 1 ^^^ ror64 a 8 ^^^ a / 2 ^ 7
    let s1 := ror64 b 19 ^^^ ror64 b 61 ^^^ b / 2 ^ 6
    shaSchedule n ((w.getD 15 0 + s0 + w.getD 6 0 + s1) % 2 ^ 64 :: w)

/-- One round on the eight working words. -/
def shaRound (v : List Nat) (kw : Nat × Nat) : List Nat :=
  match v with
  | [a, b, c, d, e, f, g, h] =>
    let s1 := ror64 e 14 ^^^ ror64 e 18 ^^^ ror64 e 41
    let ch := (e &&& f) ^^^ ((2 ^ 64 - 1 - e) &&& g)
    let t1 := h + s1 + ch + kw.1 + kw.2
    let s0 := ror64 a 28 ^^^ ror64 a 34 ^^^ ror64 a 39
    let maj := (a &&& b) ^^^ (a &&& c) ^^^ (b &&& c)
    [(t1 + s0 + maj) % 2 ^ 64, a, b, c, (d + t1) % 2 ^ 64, e, f, g]
  | v => v

/-- One 128-byte block. -/
def shaBlock (h : List Nat) (b : List Byte) : List Nat :=
  let w := (List.range 16).map fun i => beNat ((b.drop (8 * i)).take 8)
  let ws := (shaSchedule 64 w.reverse).reverse
  let v := (shaK.zip ws).foldl shaRound h
  (h.zip v).map fun p => (p.1 + p.2) % 2 ^ 64

/-- The padded message. -/
def shaPad (bs : List Byte) : List Byte :=
  let n := bs.length
  bs ++ [0x80#8] ++ List.replicate ((239 - n % 128) % 128) 0#8 ++ toBe 16 (8 * n)

/-- The blocks of a padded message. -/
def shaBlocks : Nat → List Nat → List Byte → List Nat
  | 0, h, _ => h
  | n + 1, h, bs => shaBlocks n (shaBlock h (bs.take 128)) (bs.drop 128)

/-- SHA-512: 64 bytes. -/
def sha512 (bs : List Byte) : List Byte :=
  let m := shaPad bs
  ((shaBlocks (m.length / 128) shaH m).map (toBe 8)).flatten

/-- HMAC-SHA-512 (R403) with a key of at most 128 bytes. -/
def hmac512 (key msg : List Byte) : List Byte :=
  let k := key ++ List.replicate (128 - key.length) 0#8
  sha512 (k.map (· ^^^ 0x5C#8) ++ sha512 (k.map (· ^^^ 0x36#8) ++ msg))

/-! ### P-521 -/

def p521P : Nat := 2 ^ 521 - 1
def p521N : Nat := 2 ^ 521 - 0x5AE79787C40D069948033FEB708F65A2FC44A36477663B851449048E16EC79BF7
def p521B : Nat :=
  0x0051953EB9618E1C9A1F929A21A0B68540EEA2DA725B99B315F3B8B489918EF109E156193951EC7E937B1652C0BD3BB1BF073573DF883D2C34F1EF451FD46B503F00
def p521Gx : Nat :=
  0x00C6858E06B70404E9CD9E3ECB662395B4429C648139053FB521F828AF606B4D3DBAA14B5E77EFE75928FE1DC127A2FFA8DE3348B3C1856A429BF97E7E31C2E5BD66
def p521Gy : Nat :=
  0x011839296A789A3BC0045C8A5FB42C7D1BD998F54449579B446817AFBD17273E662C97EE72995EF42640C550B9013FAD0761353C7086A272C24088BE94769FD16650

/-- A point in Jacobian coordinates; `z = 0` is the point at infinity. -/
structure JPoint where
  x : Nat
  y : Nat
  z : Nat
  deriving DecidableEq, Repr

/-- Modular subtraction. -/
def subP (a b : Nat) : Nat := (a + p521P - b % p521P) % p521P

/-- Twice a point, with curve coefficient -3. -/
def jDouble (q : JPoint) : JPoint :=
  if q.z = 0 ∨ q.y = 0 then ⟨1, 1, 0⟩
  else
    let zz := q.z * q.z % p521P
    let m := 3 * subP q.x zz * ((q.x + zz) % p521P) % p521P
    let yy := q.y * q.y % p521P
    let s := 4 * q.x * yy % p521P
    let x := subP (m * m % p521P) (2 * s)
    let y := subP (m * subP s x % p521P) (8 * yy * yy)
    ⟨x, y, 2 * q.y * q.z % p521P⟩

/-- The sum of two points. -/
def jAdd (a b : JPoint) : JPoint :=
  if a.z = 0 then b
  else if b.z = 0 then a
  else
    let za := a.z * a.z % p521P
    let zb := b.z * b.z % p521P
    let u1 := a.x * zb % p521P
    let u2 := b.x * za % p521P
    let s1 := a.y * zb % p521P * b.z % p521P
    let s2 := b.y * za % p521P * a.z % p521P
    let h := subP u2 u1
    let r := subP s2 s1
    if h = 0 then (if r = 0 then jDouble a else ⟨1, 1, 0⟩)
    else
      let hh := h * h % p521P
      let hhh := hh * h % p521P
      let v := u1 * hh % p521P
      let x := subP (subP (r * r % p521P) hhh) (2 * v)
      ⟨x, subP (r * subP v x % p521P) (s1 * hhh), a.z * b.z % p521P * h % p521P⟩

/-- A multiple of a point over the `n` low bits of the scalar, most significant first. -/
def jMul (k : Nat) (q : JPoint) : Nat → JPoint
  | 0 => ⟨1, 1, 0⟩
  | n + 1 =>
    -- the scalar's bits above bit 0, then bit 0
    let d := jDouble (jMul (k / 2) q n)
    if k % 2 = 1 then jAdd d q else d

/-- A power modulo the group order, for the inverse of a scalar. -/
def powN (a e : Nat) : Nat → Nat
  | 0 => 1
  | n + 1 =>
    let r := powN a (e / 2) n
    let s := r * r % p521N
    if e % 2 = 1 then s * a % p521N else s

/-- Whether a public key is a point of the curve. -/
def p521OnCurve (x y : Nat) : Bool :=
  decide (x < p521P) && decide (y < p521P) && decide (y * y % p521P = subP ((x * x % p521P * x + p521B) % p521P) (3 * x))

/-- ECDSA verification over P-521 with a SHA-512 digest: a signature of r and s, and a key of x and y, each of 66 bytes, little-endian
(R8, R406). The digest's bytes are a number most significant byte first, as ECDSA takes them. -/
def p521Verify (key sig digest : List Byte) : Bool :=
  let x := leNat (key.take 66)
  let y := leNat ((key.drop 66).take 66)
  let r := leNat (sig.take 66)
  let s := leNat ((sig.drop 66).take 66)
  let z := beNat digest
  if key.length = 132 ∧ sig.length = 132 ∧ 0 < r ∧ r < p521N ∧ 0 < s ∧ s < p521N ∧ p521OnCurve x y then
    let w := powN s (p521N - 2) 521
    let q := jAdd (jMul (z * w % p521N) ⟨p521Gx, p521Gy, 1⟩ 521) (jMul (r * w % p521N) ⟨x, y, 1⟩ 521)
    let zz := q.z * q.z % p521P
    decide (q.z ≠ 0) && (decide (q.x = r * zz % p521P)
      || (decide (r + p521N < p521P) && decide (q.x = (r + p521N) * zz % p521P)))
  else false

/-- A public key from 33 register words, low word first: 1,056 bits of x and y, or any smaller key's packing (R382). -/
def wordsBytes (ws : List Nat) : List Byte := (ws.map (toLe 4)).flatten

end Sys2Proof.Machine
end

