-- ==== Sys2Proof/Machine/Status.lean ====
section
/-! DEFINITION. The status codes of R15 and R338, and the event log each enters when it is raised as an event. -/

namespace Sys2Proof.Machine.St

def OK : Nat := 0x0000
def PENDING : Nat := 0x0001
def IN_PROGRESS : Nat := 0x0002
def UNSUPPORTED : Nat := 0x0003
def INVALID_PAYLOAD : Nat := 0x0004
def ROLE_DENIED : Nat := 0x0005
def TICKETS_EXHAUSTED : Nat := 0x0006
def TICKET_UNKNOWN : Nat := 0x0007
def BUSY_JOB : Nat := 0x0008
def RESOURCE_BUSY : Nat := 0x0009
def ABORTED : Nat := 0x000A
def REG_UNMAPPED : Nat := 0x0010
def RESET_ABORTED : Nat := 0x0011
def HDM_UNAVAILABLE : Nat := 0x0012
def DESC_ILLEGAL : Nat := 0x0100
def HANDLE_RANGE : Nat := 0x0101
def TOKEN_OVERFLOW : Nat := 0x0102
def CHAN_UNBOUND : Nat := 0x0103
def KEEP_RANGE : Nat := 0x0104
def HAZARD : Nat := 0x0108
def SLOT_HAZARD : Nat := 0x0109
def LMEM_UNCORRECTABLE : Nat := 0x010A
def DESC_FAULT : Nat := 0x010B
def HBM_UNCORRECTABLE : Nat := 0x0200
def CSTORE_UNCORRECTABLE : Nat := 0x0201
def FLIT_UNCORRECTABLE : Nat := 0x0202
def CHANNEL_FAULT : Nat := 0x0203
def FRONT_BROKEN : Nat := 0x0204
def QUIESCE_TIMEOUT : Nat := 0x0205
def HBM_REPAIR_EXHAUSTED : Nat := 0x0206
def HBM_DATA_LOSS : Nat := 0x0210
def ROOT_STALE : Nat := 0x0300
def GRAD_INCOMPLETE : Nat := 0x0301
def DIR_INCOMPLETE : Nat := 0x0302
def SIEVE_HALT : Nat := 0x0303
def STEP_REPLAY_EXHAUSTED : Nat := 0x0304
def COMMIT_CORRUPT : Nat := 0x0305
def HPARAM_INVALID : Nat := 0x0306
def JOB_ILLEGAL : Nat := 0x0400
def JOB_CONFLICT : Nat := 0x0401
def PIVOT : Nat := 0x0402
def RANGE : Nat := 0x0403
def CAP : Nat := 0x0404
def ACCEPT_LOOSE : Nat := 0x0405
def STALE_KEPT : Nat := 0x0406
def VOTE_MISMATCH : Nat := 0x0407
def PERMUTE_ILLEGAL : Nat := 0x0500
def SHARD_LOST : Nat := 0x0501
def PERMUTE_MISMATCH : Nat := 0x0502
def PLAN_MISMATCH : Nat := 0x0503
def PERMUTE_FAILED : Nat := 0x0504
def PERMUTE_SPLIT : Nat := 0x0508
def LINK_DEGRADED : Nat := 0x0600
def LINK_DOWN : Nat := 0x0601
def LINK_V1_REFUSED : Nat := 0x0602
def MISWIRED : Nat := 0x0603
def TOPOLOGY_CHANGED : Nat := 0x0604
def LINK_UNREACHABLE : Nat := 0x0605
def SUNDIAL_HOLDOVER : Nat := 0x0606
def ROOT_LOST : Nat := 0x0607
def DISCOVERY_FAILED : Nat := 0x0608
def CORE_RETIRED : Nat := 0x0700
def LANE_SPARED : Nat := 0x0701
def ROW_REPAIRED : Nat := 0x0702
def AUDIT_REPAIRED : Nat := 0x0703
def RGA_CLEARED : Nat := 0x0704
def DEBUG_ENTERED : Nat := 0x0705
def POWER_CAPPED : Nat := 0x0706
def SPARE_EXHAUSTED : Nat := 0x0710
def MARGIN_EXHAUSTED : Nat := 0x0711
def BIST_FAIL : Nat := 0x0712
def HARVEST_OVERRUN : Nat := 0x0713
def CHECKPOINT_INVALID : Nat := 0x0714
def RECORD_CRC : Nat := 0x0715
def RWP_WORN : Nat := 0x0716
def THERMAL_THROTTLE : Nat := 0x0717
def SIGNATURE_INVALID : Nat := 0x0800
def ROLLBACK_REFUSED : Nat := 0x0801
def TOKEN_INVALID : Nat := 0x0802
def NONCE_STALE : Nat := 0x0803
def DEBUG_DENIED : Nat := 0x0804
def LIFECYCLE_DENIED : Nat := 0x0805
def RECOVERY_WAIT : Nat := 0x0806
def WATCHDOG_RESET : Nat := 0x0900
def COOLANT_FAULT : Nat := 0x0901
def THERMAL_TRIP : Nat := 0x0908
def RAIL_FAULT : Nat := 0x0909
def REFCLK_LOSS : Nat := 0x090A
def FAC_EMERGENCY : Nat := 0x090B

end Sys2Proof.Machine.St

namespace Sys2Proof.Machine

/-- The event log a status enters (R338): 0 Informational, 1 Warning, 2 Failure, 3 Fatal; none for a dash. -/
def statusLog (c : Nat) : Option Nat :=
  if 0x0010 ≤ c ∧ c ≤ 0x0012 then some 1
  else if 0x0100 ≤ c ∧ c ≤ 0x0104 then some 1
  else if 0x0108 ≤ c ∧ c ≤ 0x010B then some 1
  else if 0x0200 ≤ c ∧ c ≤ 0x0206 then some 1
  else if c = 0x0210 then some 2
  else if c = 0x0300 then some 1
  else if 0x0301 ≤ c ∧ c ≤ 0x0306 then some 2
  else if 0x0500 ≤ c ∧ c ≤ 0x0504 then some 1
  else if c = 0x0508 then some 2
  else if 0x0600 ≤ c ∧ c ≤ 0x0607 then some 1
  else if c = 0x0608 then some 2
  else if 0x0700 ≤ c ∧ c ≤ 0x0706 then some 0
  else if 0x0710 ≤ c ∧ c ≤ 0x0717 then some 1
  else if 0x0800 ≤ c ∧ c ≤ 0x0806 then some 1
  else if 0x0900 ≤ c ∧ c ≤ 0x0901 then some 2
  else if 0x0908 ≤ c ∧ c ≤ 0x090B then some 3
  else none

end Sys2Proof.Machine
end

