-- ==== Sys2Proof/Machine/Gauge.lean ====
section
/-! DEFINITION. The Rain gauge (R364-R374): channels, bins, extremes, tallies, windows, sheets, the ring and the clear log. -/

namespace Sys2Proof.Machine

/-- The extreme of a channel (R366). -/
structure Extreme where
  val : Nat               -- FP32
  tick : Nat
  step : Nat
  kind : Nat
  idx : Nat
  deriving DecidableEq, Repr

/-- The open window (R367-R369). -/
structure Window where
  openTick : Nat
  openStep : Nat
  first : Bool                    -- it began at release from a reset
  reach : Nat                     -- the reach of that reset: 1 WARM, 2 POR
  settings : List (Nat × Nat)     -- RGA_BIN of each channel, latched at opening
  counts : List (Nat × Nat)       -- key 16·channel + bin
  nf : List (Nat × Nat)           -- by channel
  sat : List (Nat × Bool)         -- by channel
  ext : List (Nat × Option Extreme)
  tally : List (Nat × Nat)        -- by status
  notable : List (List Byte)      -- 60-byte records, four at most
  deriving DecidableEq, Repr

/-- The recorder. -/
structure Gauge where
  win : Window
  seq : Nat                       -- the next SEQ
  floor : Nat
  ring : List (Nat × List Byte)   -- slot to its 8 KiB image; an unlisted slot holds zeros
  clearLog : List (List Byte)     -- 64-byte clear records, oldest first
  writing : Option (Nat × List Byte)
  queued : Option (Nat × List Byte)
  due : Nat                       -- the Sundial tick at which the next hourly close falls due
  discards : Nat                  -- discarded exchanges of factor blocks recorded (R208); no record of a sheet holds them
  deriving DecidableEq, Repr

def Window.new (tick step : Nat) (first : Bool) (reach : Nat) (settings : List (Nat × Nat)) : Window :=
  ⟨tick, step, first, reach, settings, [], [], [], [], [], []⟩

/-- The FP32 value of an exact one, rounded with RNE (R364). -/
def fp32Of (m : Nat) (e : Int) : Nat := (fp32.round .rne false m e false).1

/-- The FP32 value of a ratio, rounded with RNE. -/
def fp32Ratio (n d : Nat) : Nat := (fp32.round .rne false (n * 2 ^ 64 / d) (-64) (decide (n * 2 ^ 64 % d ≠ 0))).1

/-- The channel's direction of extreme: Min for input voltage and slack, Max for the rest (R364). -/
def chanMin (ch : Nat) : Bool := ch = 50 || (decide (53 ≤ ch) && decide (ch ≤ 60))

/-- Whether a finite value lies below B(i) = 2^(LEXP + i·WQ/4): compare fourth powers (R365). -/
def belowBin (lexp : Int) (wq i : Nat) (neg : Bool) (m : Nat) (e : Int) : Bool :=
  neg || decide (m = 0) || dyGt 1 (4 * lexp + (i * wq : Nat)) (m ^ 4) (4 * e)

/-- The bin of a finite value (R365). -/
def binOf (lexp : Int) (wq : Nat) (neg : Bool) (m : Nat) (e : Int) : Nat :=
  ((List.range 15).find? fun i => belowBin lexp wq i neg m e).getD 15

/-- Bin and compare one sample (R365, R366). -/
def Window.sample (w : Window) (ch x tick step kind idx : Nat) : Window :=
  let set := Sparse.get (fun _ => 0) w.settings ch
  match fp32.decode x with
  | .fin neg m e =>
    let b := binOf (signed 8 set) (bits set 8 4 + 1) neg m e
    let n := Sparse.get (fun _ => 0) w.counts (16 * ch + b)
    let w := if n < 0xFFFFFF then { w with counts := Sparse.set (fun _ => 0) w.counts (16 * ch + b) (n + 1) }
      else { w with sat := Sparse.set (fun _ => false) w.sat ch true }
    let better := match Sparse.get (fun _ => (none : Option Extreme)) w.ext ch with
      | none => true
      | some o =>
        let c := cmpV (.fin neg m e) (fp32.decode o.val)
        if chanMin ch then decide (c < 0) else decide (0 < c)
    if better then
      { w with ext := Sparse.set (fun _ => (none : Option Extreme)) w.ext ch (some ⟨x, tick, step, kind, idx⟩) }
    else w
  | _ => { w with nf := Sparse.set (fun _ => 0) w.nf ch (min (Sparse.get (fun _ => 0) w.nf ch + 1) 0xFFFFFFFF) }

/-- Tally a status raised as an event (R367). -/
def Window.tallyOne (w : Window) (status : Nat) : Window :=
  { w with tally := Sparse.set (fun _ => 0) w.tally status (Sparse.get (fun _ => 0) w.tally status + 1) }

/-- A 64-byte record from its first 60 bytes: padded with zeros, and its CRC-32 (R369). -/
def record (bs : List Byte) : List Byte :=
  let b := (bs ++ List.replicate (60 - bs.length) 0#8).take 60
  b ++ toLe 4 (crc32 b)

/-- Every status that can be raised as an event, in ascending order (R338). -/
def eventStatuses : List Nat := (List.range 0x0A00).filter fun c => (statusLog c).isSome

def recHeader (w : Window) (cause seq serial closeTick closeStep : Nat) : List Byte :=
  let flags := b2n w.first + 2 * b2n (!w.sat.isEmpty)
  record (toLe 1 1 ++ toLe 1 cause ++ toLe 1 flags ++ toLe 1 w.reach ++ toLe 4 serial ++ toLe 8 seq ++ toLe 8 w.openTick
    ++ toLe 8 closeTick ++ toLe 8 w.openStep ++ toLe 8 closeStep ++ toLe 1 w.notable.length)

def recHist (w : Window) (ch : Nat) : List Byte :=
  let set := Sparse.get (fun _ => 0) w.settings ch
  record (toLe 1 2 ++ toLe 1 ch ++ toLe 1 (b2n (Sparse.get (fun _ => false) w.sat ch)) ++ toLe 1 0
    ++ ((List.range 16).map fun b => toLe 3 (Sparse.get (fun _ => 0) w.counts (16 * ch + b))).flatten
    ++ toLe 4 (Sparse.get (fun _ => 0) w.nf ch) ++ toLe 1 set ++ toLe 1 (bits set 8 4 + 1))

def extBytes (e : Option Extreme) : List Byte :=
  match e with
  | none => List.replicate 28 0#8
  | some e => toLe 4 e.val ++ toLe 8 e.tick ++ toLe 8 e.step ++ toLe 1 e.kind ++ toLe 1 1 ++ toLe 2 0 ++ toLe 4 e.idx

def recExt (w : Window) (j : Nat) : List Byte :=
  let x := fun ch => Sparse.get (fun _ => (none : Option Extreme)) w.ext ch
  record (toLe 1 3 ++ toLe 1 (2 * j) ++ toLe 2 0 ++ extBytes (x (2 * j)) ++ extBytes (x (2 * j + 1)))

def recTally (w : Window) (i : Nat) : List Byte :=
  let ss := (eventStatuses.drop (14 * i)).take 14
  record (toLe 1 4 ++ toLe 1 i ++ toLe 2 ss.length
    ++ (ss.map fun s => toLe 2 s ++ toLe 2 (min (Sparse.get (fun _ => 0) w.tally s) 0xFFFF)).flatten)

def recTrailer (seq valid : Nat) : List Byte :=
  record (toLe 1 7 ++ toLe 7 0 ++ toLe 8 seq ++ toLe 4 valid)

/-- The 8 KiB image of a closed window (R369). -/
def sheetImage (w : Window) (cause seq serial closeTick closeStep : Nat) : List Byte :=
  recHeader w cause seq serial closeTick closeStep
    ++ ((List.range 64).map (recHist w)).flatten
    ++ ((List.range 32).map (recExt w)).flatten
    ++ ((List.range 5).map (recTally w)).flatten
    ++ ((List.range 4).map fun i => record (w.notable.getD i [])).flatten
    ++ (List.replicate 21 (record [])).flatten
    ++ recTrailer seq (seq % 2 ^ 32)

/-- An image whose trailer says it is being written (R370). -/
def markWriting (seq : Nat) (old : List Byte) : List Byte :=
  ((old ++ List.replicate 8192 0#8).take (127 * 64)) ++ recTrailer seq 0xFFFFFFFF

def Gauge.slot (g : Gauge) (i : Nat) : List Byte := Sparse.get (fun _ => ([] : List Byte)) g.ring i

def Gauge.setSlot (g : Gauge) (i : Nat) (b : List Byte) : Gauge :=
  { g with ring := Sparse.set (fun _ => ([] : List Byte)) g.ring i b }

/-- Begin writing a sheet: its slot's trailer says so (R370 step 1). -/
def Gauge.startWrite (g : Gauge) (seq : Nat) (img : List Byte) : Gauge :=
  { g.setSlot (seq % 8192) (markWriting seq (g.slot (seq % 8192))) with writing := some (seq, img) }

/-- Finish the sheet being written, and begin the one that waits (R370). -/
def Gauge.finishWrite (g : Gauge) : Gauge :=
  match g.writing with
  | none => g
  | some (q, img) =>
    let g := { g.setSlot (q % 8192) img with writing := none }
    match g.queued with
    | none => g
    | some (q, img) => { g.startWrite q img with queued := none }

/-- Close the open window into the next sheet, and open a new one (R368). At most one sheet waits: when one does already,
the sheet being written is finished first. -/
def Gauge.close (g : Gauge) (cause serial tick step : Nat) (settings : List (Nat × Nat)) : Gauge :=
  let g := if g.queued.isSome then g.finishWrite else g
  let img := sheetImage g.win cause g.seq serial tick step
  let q := g.seq
  let g := { g with seq := g.seq + 1, win := Window.new tick step false 0 settings }
  if g.writing.isSome then { g with queued := some (q, img) } else g.startWrite q img

/-- Put a notable record into the open window; a fifth closes it first, with cause NOTABLE (R367). -/
def Gauge.addNotable (g : Gauge) (bs : List Byte) (serial tick step : Nat) (settings : List (Nat × Nat)) : Gauge :=
  let g := if g.win.notable.length < 4 then g else g.close 2 serial tick step settings
  { g with win := { g.win with notable := g.win.notable ++ [bs] } }

/-- Whether a record's CRC is right. -/
def recordOk (r : List Byte) : Bool := decide (r.length = 64) && decide (leNat (r.drop 60) = crc32 (r.take 60))

def sheetSeq (img : List Byte) : Nat := leNat ((img.drop 8).take 8)

/-- Whether a ring image is a valid sheet (R370). -/
def sheetValid (img : List Byte) : Bool :=
  decide (img.length = 8192)
    && (List.range 128).all (fun i => recordOk ((img.drop (64 * i)).take 64))
    && decide (leNat ((img.drop (127 * 64 + 16)).take 4) = sheetSeq img % 2 ^ 32)

/-- The highest SEQ of the valid sheets that `p` accepts. -/
def Gauge.latest (g : Gauge) (p : Nat → Bool) : Option (List Byte) :=
  (g.ring.filter fun e => sheetValid e.2 && p (sheetSeq e.2)).foldl (fun best e =>
    match best with
    | none => some e.2
    | some b => if sheetSeq b < sheetSeq e.2 then some e.2 else some b) none

/-- The next SEQ after a power-on scan (R371). -/
def Gauge.scanSeq (g : Gauge) : Nat :=
  match g.latest fun _ => true with
  | none => 0
  | some b => sheetSeq b + 1

/-- The floor the clear log's latest record holds (R373). -/
def Gauge.scanFloor (g : Gauge) : Nat :=
  match g.clearLog.getLast? with
  | none => 0
  | some r => leNat ((r.drop 4).take 8)

/-- The count of a log's statuses over a sheet's tallies. -/
def sheetCount (img : List Byte) (log : Nat) : Nat :=
  ((List.range 5).map fun i =>
    let r := (img.drop (64 * (97 + i))).take 64
    ((List.range (leNat ((r.drop 2).take 2))).map fun k =>
      let st := leNat ((r.drop (4 + 4 * k)).take 2)
      if statusLog st = some log then leNat ((r.drop (6 + 4 * k)).take 2) else 0).foldl (· + ·) 0).foldl (· + ·) 0

/-- The extreme value of a channel in a sheet, +0 when empty. -/
def sheetExt (img : List Byte) (ch : Nat) : List Byte :=
  let r := (img.drop (64 * (65 + ch / 2) + 4 + 28 * (ch % 2))).take 28
  if leNat ((r.drop 21).take 1) = 1 then r.take 4 else toLe 4 0

/-- The 112-byte summary (R374). -/
def Gauge.summary (g : Gauge) : List Byte :=
  let b := match g.latest fun q => decide (g.floor ≤ q) with
    | none => List.replicate 108 0#8
    | some img =>
      toLe 8 (sheetSeq img) ++ (img.drop 24).take 8 ++ ((List.range 4).map fun l => toLe 4 (sheetCount img l)).flatten
        ++ ((List.range 17 ++ [49, 50]).map (sheetExt img)).flatten
  b ++ toLe 4 (crc32 b)

/-- The ring image a reader sees: zeros below the floor or where nothing was written (R372). -/
def Gauge.readSlot (g : Gauge) (i : Nat) : List Byte :=
  let b := g.slot (i % 8192)
  if b.length = 8192 ∧ g.floor ≤ sheetSeq b then b
  else List.replicate 8192 0#8

end Sys2Proof.Machine
end

