-- ==== Sys2Proof/Machine/Parts.lean ====
section
/-! DEFINITION. The parts of the state beside the cores: the step and its boundary, the Sieve, the collectives, the links, the
Grafters, Harvest and the reliability counts, as plain data. -/

namespace Sys2Proof.Machine

/-! ### The step -/

/-- Where the module is in its step (R23, R24): no step, running its lists, or at a boundary with the next action due. -/
inductive Phase where
  | idle
  | running
  | boundary (action : Nat)
  deriving DecidableEq, Repr

/-- A broadcast patch (R135): every core, or a rectangle of clusters with a core mask; first register and values. -/
structure Patch where
  rect : Option (Nat × Nat × Nat × Nat × Nat)   -- near cx, cy, far cx, cy, 64-bit mask
  first : Nat
  vals : List Nat
  deriving DecidableEq, Repr

/-- The fields of the norm all-reduce (R255). -/
structure Norm where
  sq : Nat
  nf : Nat
  abs : Nat
  drop : Nat
  sat : Bool
  flags : Nat
  vmin : Nat
  vmax : Nat
  deriving DecidableEq, Repr

/-- The Sieve (R256-R261): the median window, oldest first, the run of R259, and the SIV_ registers latched at REPLAY. -/
structure Sieve where
  window : List Nat
  run : Nat
  cfg : Nat
  ceil : Nat
  clipn : Nat
  spike : Nat
  ls : Nat
  clear : Bool            -- WCLR written: the window empties at the next boundary
  nfDone : Bool           -- this step has replayed a NONFINITE outcome
  bc : List (Nat × Nat)   -- BC table: key 2·set (BC1), 2·set + 1 (BC2)
  deriving DecidableEq, Repr

/-- The scan of one factor block (R207 steps 1-3): fidx, side, block, the FP32 maxima of its bands, and the flag. -/
structure Scan where
  fidx : Nat
  side : Nat
  blk : Nat
  maxima : List Nat
  flag : Bool
  deriving DecidableEq, Repr

/-- The exchange of a statistics step (R206-R211): this module's scans, the group's once combined, the sums that have arrived by tile
(fidx, side, block, tile number), the tiles folded, the blocks discarded, and the tick since which a fold has waited. -/
structure Exchange where
  step : Nat
  k : Nat
  replays : Nat
  scans : List Scan
  group : Option (List Scan)
  sums : List (Nat × Nat × Nat × Nat × List Nat)
  done : List (Nat × Nat × Nat × Nat)
  dropped : List (Nat × Nat × Nat)
  wait : Option Nat
  deriving DecidableEq, Repr

/-- The job and the step in progress. -/
structure StepState where
  job : Bool              -- a job runs (R335)
  starting : Bool         -- its first REPLAY has not been applied
  stopping : Bool         -- JOB_STOP waits for the boundary
  first : Bool            -- the step in progress is the job's first
  area : Nat              -- record area
  launch : Nat            -- launch tick of JOB_START, 0 for none
  held : Nat              -- status of a hold at the boundary, 0 for none
  phase : Phase
  act : Nat               -- STEP_CFG.ACT_MODE as read at REPLAY (R185)
  closed : Bool           -- the Rake has closed
  own : Norm              -- this module's fields
  group : Option Norm     -- the combined fields
  decided : Bool          -- JVALID of the step is written
  commit : Bool           -- a sweep is due
  swept : List Nat        -- shard-table entries swept
  late : Nat              -- outcome of the decision, journal coding
  k : Nat                 -- step factor, FP32
  faulted : Bool          -- a step replay is due
  recover : Bool          -- a recovery sweep is due (R267)
  recovered : Bool        -- it has run in this step
  gdone : List (Nat × Nat)
  ddone : List (Nat × Nat)
  rsSent : List Nat       -- layers whose reduce-scatter has begun
  landed : List Nat       -- layers whose reduce-scatter has landed
  final : List Nat        -- layers whose working copy is final for the step
  counted : Nat           -- how many of them CSP_EVT31 has counted (R196)
  patches : List Patch    -- accepted, not landed
  prePatch : Bool         -- PRM[EPRM] goes back to 0 at the next boundary
  statCfg : Nat           -- STEP_STATCFG in force
  stat : Bool             -- the step in progress is a statistics step
  statK : Nat             -- statistics steps committed (R204)
  exch : Option Exchange
  due : Option Nat        -- a committed statistics step whose exchange has not begun
  folded : Option Exchange  -- complete, awaiting publication
  audit : Option Nat      -- layer under audit in this step
  auditIn : Nat           -- committed steps since the last audit
  repairs : List (Nat × Nat)  -- layer and first element of a chunk to re-derive at the boundary
  sweepWait : List Nat    -- gathers owed: shard-table entries swept and not yet gathered
  votes : Option (List Nat)   -- the vote vector contributed in this step (R233, R236)
  voted : Bool            -- it has been combined and acted on
  voteFrom : Nat          -- the first VSTEP that no vote has carried yet (R233)
  adopted : List (Nat × Nat × Nat)   -- blocks whose published root buffer toggles at the next REPLAY: fidx, side, block
  begun : Nat             -- tick of the last REPLAY
  ramp : Nat              -- tick from which the issue ramp is timed: the last REPLAY, step replays included (R398)
  bound : Nat             -- tick at which the boundary began
  restored : Option Nat   -- record area of a HARVEST_RESTORE whose count k the next job there keeps
  solo : Bool             -- the job began with no link trained (R26)
  rerun : Bool            -- the step replay due is a REPLAY_STEP, whose replay count restarts (R335)
  deriving DecidableEq, Repr

def Norm.zero : Norm := ⟨0, 0, 0, 0, false, 0, 2 ^ 64 - 1, 2 ^ 64 - 1⟩

def StepState.init : StepState :=
  { job := false, starting := false, stopping := false, first := false, area := 0, launch := 0, held := 0
    phase := .idle, act := 0, closed := false, own := Norm.zero, group := none, decided := false, commit := false, swept := []
    late := 0, k := 0, faulted := false, recover := false, recovered := false, gdone := [], ddone := [], rsSent := []
    landed := [], final := [], counted := 0, patches := [], prePatch := false, statCfg := 0, stat := false, statK := 0, exch := none
    due := none, folded := none, audit := none, auditIn := 0, repairs := [], sweepWait := []
    votes := none, voted := false, voteFrom := 0, adopted := [], begun := 0, ramp := 0, bound := 0, restored := none, solo := false, rerun := false }

/-- What outlives a job (R197, R210, R235, R282): patches and gathers still to land, a fold and roots still to be published, the count k, and
which VSTEPs have voted. -/
def StepState.ended (x : StepState) : StepState :=
  { StepState.init with patches := x.patches, sweepWait := x.sweepWait, folded := x.folded, adopted := x.adopted, statK := x.statK, voteFrom := x.voteFrom }

/-- SIV_ registers at their reset values. -/
def Sieve.init : Sieve := ⟨[], 0, 4, 0x7F800000, 0x7F800000, 0x7F800000, 0x7F8200, false, false, []⟩

/-! ### Dorhel frames and ports -/

/-- The HELLO payload (R303). -/
structure HelloMsg where
  serial : Nat
  port : Nat
  lcs : Nat
  depth : Nat
  groupId : Nat
  jobTag : Nat
  coord : Nat             -- [2:0] x, [5:3] y, [7] valid
  rootSer : Nat
  attest : List Byte
  deriving DecidableEq, Repr

/-- An entry of the discovery table (R305, R313): serial, coordinates, ATTEST, job tag, the ports whose link is usable, and the port towards the
module's parent with its tree depth. -/
structure DiscEntry where
  serial : Nat
  x : Nat
  y : Nat
  attest : List Byte
  tag : Nat
  links : List Nat
  parent : Option Nat
  depth : Nat
  deriving DecidableEq, Repr

/-- A module as the root's probes find it (R305, R307): serial, ATTEST, job tag, the coordinates it overrides with, the peer's serial on each
usable port, and the ports skipped, cabled with a link that is down, isolated or miswired. -/
structure Node where
  serial : Nat
  attest : List Byte
  tag : Nat
  ovr : Option (Nat × Nat)
  peers : List (Option Nat)
  skip : List Nat
  deriving DecidableEq, Repr

/-- What a DISC frame carries. -/
inductive DiscMsg where
  | table (entries : List DiscEntry) (xs ys : Nat)
  | fail
  deriving DecidableEq, Repr

/-- The collectives a COLL frame belongs to. -/
inductive CollKind where
  | reduce | gradGather | gather | norm | scan | tile | tileGather | move | crc
  deriving DecidableEq, Repr

/-- A collective frame (R285): the fields it is checked by, and a run of elements of one chunk. `phase` is 1 or 2, and for the
norm, the scan of the exchange and the audit's values 1-4 (R284). For a move `dpa` names where the data goes; for a tile it names the
side and block. -/
structure CollMsg where
  kind : CollKind
  step : Nat
  replays : Nat
  epoch : Nat
  layer : Nat
  quarter : Nat
  run : Nat
  phase : Nat
  off : Nat               -- first element, within the layer
  dpa : Nat
  data : List Nat         -- element codes on the wire
  scales : List Nat       -- MX: one E8M0 byte for each element
  deriving DecidableEq, Repr

/-- A logical grid with its member map: sizes, the coordinate of each rank (x + 8y), epoch, and the step at whose boundary it stands. -/
structure Grid where
  xl : Nat
  yl : Nat
  map : List Nat
  epoch : Nat
  step : Nat
  replays : Nat           -- the step's replay count, which a permutation's frames carry (R285)
  deriving DecidableEq, Repr

/-- A root or factor block that a restoring owner sends to every member (R361): KIND, FIDX, SIDE, BLK, its 24 bytes of versions, data. -/
structure HBlock where
  kind : Nat
  fidx : Nat
  side : Nat
  blk : Nat
  vers : List Byte
  data : List Byte
  deriving DecidableEq, Repr

/-- Group management messages (R288): the command with the grid in force, a plan's hash, plans agree, the scalars a joining module
receives (R289), acknowledgement, COMMIT, an end with a status; and a restored block (R361). -/
inductive MgmtMsg where
  | permute (body : List Byte) (old : Grid)
  | planHash (hash : List Byte)
  | agree
  | shared (vals : List Nat)
  | ack
  | commit
  | ended (status : Nat)
  | block (b : HBlock)
  deriving DecidableEq, Repr

/-- A module as the coordinator finds it (R287): coordinate (x + 8y), LNK_JOBTAG, and the SHA-512 of its three tables. -/
structure Peer where
  code : Nat
  tag : Nat
  tables : List Byte
  deriving DecidableEq, Repr

/-- The body of a Dorhel frame (R297). -/
inductive FrameBody where
  | hello (h : HelloMsg)
  | disc (d : DiscMsg)
  | urg (code : Nat) (arg : List Nat)
  | mgmt (m : MgmtMsg)
  | coll (c : CollMsg)
  | v1msg (data : List Byte)
  | reset (payload : List Byte)
  | harvest (off : Nat) (data : List Byte)
  deriving DecidableEq, Repr

/-- A Dorhel frame; its LSEQ is given where it is sent or received. -/
structure Frame where
  sx : Nat
  sy : Nat
  dx : Nat
  dy : Nat
  tag : Nat
  vc : Nat
  body : FrameBody
  deriving DecidableEq, Repr

/-- A frame in the retry buffer (R300): LSEQ, frame, times replayed. -/
structure Unacked where
  lseq : Nat
  frame : Frame
  replays : Nat
  deriving DecidableEq, Repr

/-- One port. LNK_ registers hold its state; this holds what they do not. -/
structure Port where
  tx : Nat                -- next LSEQ to send
  rx : Nat                -- next LSEQ expected
  retry : List Unacked
  nak : Bool              -- a NAK has been sent and its LSEQ has not arrived
  acked : Nat             -- the last LSEQ acknowledged to the peer, plus one
  peer : Option HelloMsg  -- the peer's last HELLO
  v1 : Bool               -- trained down to v1
  windows : List Nat      -- consecutive lane windows over the rate, per physical lane
  spareOk : Bool
  lost : List Nat         -- physical lanes that have lost signal or lock (R296)
  deriving DecidableEq, Repr

def Port.init : Port := ⟨0, 0, [], false, 0, none, false, [0, 0, 0], true, []⟩

/-- Discovery and the Sundial's discipline (R303-R307, R313-R315). -/
structure Links where
  ports : List Port
  rootSer : Nat
  rootTick : Nat              -- when ROOTSER last changed
  excluded : Option Nat       -- a lost master's serial
  electing : Bool             -- a fresh ROOTSER exchange runs after a lost master
  table : List DiscEntry
  running : Bool              -- discovery runs
  parent : Option Nat         -- port of the Sundial parent
  depth : Nat
  stamp : Nat                 -- master stamp held
  stampTick : Nat             -- own count when it last advanced
  respTick : Nat              -- own count at the parent's last SYNC_RESP
  slew : Int                  -- correction still to make, in 1/16 st
  lastSlew : Nat              -- tick of the last slew
  t1 : Nat                    -- stamp of the SYNC_REQ awaiting its answer
  v1Write : Nat               -- entries written to the v1 ring
  deriving DecidableEq, Repr

def Links.init : Links :=
  { ports := [Port.init, Port.init, Port.init, Port.init], rootSer := Sys2Proof.Config.serial % 2 ^ 64, rootTick := 0, excluded := none, electing := false, table := []
    running := true, parent := none, depth := 0xFFFF, stamp := 0, stampTick := 0, respTick := 0, slew := 0, lastSlew := 0, t1 := 0, v1Write := 0 }

/-! ### Collectives and SHARD_PERMUTE -/

/-- A move of the permutation plan (R288): layer, rows, old and new owner. -/
structure Move where
  layer : Nat
  row0 : Nat
  rows : Nat
  old : Nat
  new : Nat
  deriving DecidableEq, Repr

/-- A SHARD_PERMUTE (R287-R291). `stage`: 1 accepted, 2 plan computed, 3 plans agree, 4 own moves made, 5 acknowledged, 6 COMMIT sent or
seen. -/
structure Permute where
  body : List Byte
  old : Grid
  chief : Nat                 -- the coordinator's coordinate
  stage : Nat
  plan : List Move
  hash : List Byte
  hashes : List (Nat × List Byte)
  acks : List Nat             -- coordinates that have acknowledged
  bytes : Nat                 -- bytes landed here
  shared : Bool               -- the scalars of R289 have landed
  deriving DecidableEq, Repr

/-- Collective progress (R275-R285). Layer counts are keyed 4·layer + 0 reduce-scatter, 1 gradient all-gather, 2 gather. -/
structure Coll where
  owners : List (Nat × Option Nat)  -- trained layers when the shard table was built: none split, else the whole layer's number
  partials : List (Nat × Nat)     -- first-phase results awaiting the second, by element: code + 1
  sent : List (Nat × Nat)         -- elements sent
  got : List (Nat × Nat)          -- elements landed
  held : List CollMsg             -- frames waiting for this module's own values
  reqs : List (Nat × Nat × Nat)   -- replay requests ahead of this module: step, replay count, cause
  extra : List (Nat × Option Nat) -- trained layers that the shard table does not hold: unfrozen since (R191)
  gStep : Nat                     -- step and replay count of the gather, and of the exchange
  gReplays : Nat
  gLayers : List Nat              -- the layers it gathers: those its step updated (R196)
  normOn : Bool                   -- this module takes part in the norm all-reduce of the step
  normAcc : Option (List Nat)     -- a row's combined fields, awaiting the column (R284)
  scanAcc : Option (List Nat)     -- the same of the exchange's maxima and flags
  tiles : List (Nat × List Int)   -- first-phase sums of factor tiles, by tile
  perm : Option Permute
  plan : List Move                -- the last permutation's plan (R292)
  was : Option Grid               -- the grid the last permutation left, for its re-issue (R291)
  wasShards : List (Nat × Nat)    -- the shard table of that grid: record DPA and layer
  deriving DecidableEq, Repr

def Coll.init : Coll :=
  { owners := [], partials := [], sent := [], got := [], held := [], reqs := [], extra := [], gStep := 0, gReplays := 0, gLayers := []
    normOn := false, normAcc := none, scanAcc := none, tiles := [], perm := none, plan := [], was := none, wasShards := [] }

/-! ### Grafters -/

/-- A matrix as its rows of 48-bit fractions under one exponent (R220). -/
structure Mat where
  rows : List (List Int)
  e : Int
  deriving DecidableEq, Repr

/-- An exact dyadic number. -/
structure Dy where
  m : Int
  e : Int
  deriving DecidableEq, Repr

/-- A submitted job: descriptor address and the submitting cluster, none for the Shed and the host. -/
structure Submitted where
  addr : Nat
  who : Agent
  deriving DecidableEq, Repr

/-- A vector: 48-bit fractions under an exponent of its own (R220). -/
structure WVec where
  v : List Int
  e : Int
  deriving DecidableEq, Repr

/-- A job in a slot (R218-R236). `phase` codes GRF_SLOT.STATE. -/
structure GJob where
  sub : Submitted
  desc : Nat
  phase : Nat
  pub : Nat                   -- factor buffer read
  dexp : Nat
  retry : Bool
  cold : Bool
  reg : Bool
  iter : Nat
  tested : Bool               -- the iterate's residual test has completed
  tsum : Dy                   -- t of R221
  lam : Dy                    -- λ
  lamr : Option Int           -- exponent of λr, once regularised
  q : Int
  raw : Mat                   -- the input as converted
  a : Mat                     -- the damped input
  x : Mat
  m : Mat                     -- ROOT: M; ORTH: X Xᵀ
  xs : List WVec              -- CG: x, r and p by column; TRSV: y
  rs : List WVec
  ps : List WVec
  bs : List WVec              -- right-hand sides
  resid : Dy
  reserve : Option (Nat × Mat × Dy)
  result : Option (Nat × Mat × Dy)
  done : Bool                 -- it has stopped
  lstatus : Nat
  rank : Nat                  -- latched local rank, 3 before latching
  group : Option Nat          -- group rank once voted: 0-2, 4 for a mismatch
  tstop : Nat
  deriving DecidableEq, Repr

/-- One Grafter: queue, slots, registers, regions in force, Sundial copy and latches (R213-R215, R316). -/
structure Grafter where
  regs : Regs
  queue : List Submitted
  stalled : List Submitted        -- writers waiting for a place
  gone : List GJob                -- VOTE jobs the vote took from the queue, awaiting their record
  slots : List (Option GJob)
  rgn : List Nat                  -- GRF_RGN in force, per slot
  loHost : Nat
  loShed : Nat
  skew : Int                      -- Sundial copy minus the hub's count, in st
  slew : Int                      -- correction still to make, in st
  lastSlew : Nat                  -- hub tick of its last slew
  deriving DecidableEq, Repr

def Grafter.init : Grafter :=
  { regs := initRegs .grafter, queue := [], stalled := [], gone := [], slots := [none, none, none, none], rgn := [0, 0, 0, 0], loHost := 0
    loShed := 0, skew := 0, slew := 0, lastSlew := 0 }

/-! ### Harvest -/

/-- An item of a snapshot (R353, R359): its 128-byte entry without the hash, and where its data lies. -/
structure HItem where
  kind : Nat
  side : Nat
  blk : Nat
  idx : Nat
  rows : Nat                  -- ROW0 + 2^32 · ROWS
  off : Nat
  src : Nat                   -- DPA of the data at opening
  len : Nat
  pieces : List (Nat × Nat)   -- (address, length) runs of the data still to drain, in order
  vers : List Byte            -- 24 bytes of PVER, RVER, LSTALE, RSTALE
  deriving DecidableEq, Repr

/-- Harvest (R354-R360). HRV_STAT.STATE tells armed from open. -/
structure Harvest where
  ticket : Nat                    -- ticket of the HARVEST_START, 8 for none
  body : List Byte                -- the command body
  target : Nat
  step : Nat                      -- S
  openTick : Nat
  header : List Byte              -- manifest header, captured at opening
  items : List HItem              -- still to drain
  entries : List (List Byte)      -- manifest entries written
  total : Nat
  drained : Nat                   -- bytes drained
  inStep : Nat                    -- bytes drained since REPLAY
  draining : Bool                 -- REPLAY of S+1 has been applied
  staged : List (Nat × Nat)       -- 4 KiB unit number to the staging place that holds its copy
  part : List Byte                -- what has drained of the item in progress
  owed : List (Nat × Nat × Nat × Nat)   -- a restore waits for these blocks of other members: KIND, FIDX, SIDE, BLK
  arrived : List HBlock           -- blocks that have come from other members
  hostMem : Mem                   -- what the module has written to host memory
  deriving DecidableEq, Repr

def Harvest.init : Harvest :=
  { ticket := 8, body := [], target := 0, step := 0, openTick := 0, header := [], items := [], entries := [], total := 0
    drained := 0, inStep := 0, draining := false, staged := [], part := [], owed := [], arrived := [], hostMem := [] }

/-! ### Reliability counts -/

/-- A tracked HBM row (R342, R344): key, tick at which the 24 h from its first counted error end, count. -/
structure RowTrack where
  row : Nat
  due : Nat
  count : Nat
  deriving DecidableEq, Repr

/-- A rolling BIST (R352): ticket, the next slice, deferred clusters, clusters tested, tests, save area. -/
structure Bist where
  ticket : Nat
  slice : Nat
  deferred : List Nat
  tested : Nat
  set : Nat
  save : Nat
  cdpa : Nat
  failed : Bool
  deriving DecidableEq, Repr

/-- Counts and decisions of R342-R352. -/
structure Rel where
  buckets : List (Nat × List Nat)     -- gi to its three 24 h buckets, newest first
  retire : List Nat                   -- cores decided, awaiting a boundary or a spare
  exhausted : List Nat                -- cores for which SPARE_EXHAUSTED has been raised
  dead : List (Nat × Nat)             -- cluster to the mask of spares now dead in silicon terms
  rows : List (Nat × List RowTrack)   -- stack to its tracker
  repairQ : List Nat                  -- rows queued for repair, by HBM address of the row
  repairs : List (Nat × Nat)          -- stack to entries of its persistent repair list
  fixed : List Nat                    -- repaired rows
  noSpare : List Nat                  -- banks with no spare row left
  divider : List Nat                  -- dies whose divider change waits for a boundary
  bist : Option Bist
  unattributed : Nat
  ues : List (Nat × Nat × Bool)       -- uncorrectable HBM units whose notice is on its way: stack, unit, and whether the re-read fails (R170)
  bucketDue : Nat                     -- tick at which the core buckets roll next (R344)
  replanDue : Nat                     -- tick of the next daily re-plan (R348)
  monitorDue : Nat                    -- tick of the next hourly reading (R347)
  deriving DecidableEq, Repr

def Rel.init : Rel := ⟨[], [], [], [], [], [], [], [], [], [], none, 0, [], 21600000000000, 21600000000000, 900000000000⟩

/-- Path-delay readings of a die at one setting (R347, R348): die, divider bit, VSTEP, and every core below the target with its slack
in 1/64 cc. A core is named by its cluster and its place there: 0-63, or 64 + j for spare j. -/
structure Slack where
  die : Nat
  div : Nat
  vstep : Nat
  low : List (Nat × Nat × Int)
  deriving DecidableEq, Repr

/-- What a re-plan meets: the readings, and the voltage steps (die, divider bit, VSTEP reached) that the power cap prevents. -/
structure Margin where
  reads : List Slack
  capped : List (Nat × Nat × Nat)
  deriving DecidableEq, Repr

/-- A unit that fails a self-test (R351, R352): a core as `Slack` names it, a store, a router or bridge, a stack, a port. -/
inductive TestUnit where
  | core (ci p : Nat)
  | store (ci : Nat)
  | router (ci : Nat)
  | bridge (ci : Nat)
  | stack (k : Nat)
  | port (p : Nat)
  deriving DecidableEq, Repr

/-! ### The host interface -/

/-- A response slot (R330): 0 EMPTY, 1 PENDING, 2 VALID. -/
structure Slot where
  state : Nat
  tag : Nat
  status : Nat
  data : List Byte
  again : Bool                    -- a VALID response already read: REPEAT
  tick : Nat                      -- when the command was accepted
  deriving DecidableEq, Repr

/-- An accepted Ngumal command waiting to run (R329, R332). -/
structure Cmd where
  opcode : Nat
  tag : Nat
  slot : Nat
  body : List Byte
  deriving DecidableEq, Repr

/-- A ticket (R331). `abort` asks for its end at its next slice boundary (R333). -/
structure Ticket where
  active : Bool
  done : Bool
  tag : Nat
  status : Nat
  progress : Nat
  opcode : Nat
  body : List Byte
  abort : Bool
  deriving DecidableEq, Repr

/-- The mailbox (R329-R332): slots, queue, tickets, the ticket whose slice runs, a CXL-defined command being run with its input,
and what the mailbox last returned (return code, payload). -/
structure Mailbox where
  slots : List Slot
  cmds : List Cmd
  tickets : List Ticket
  turn : Option Nat
  cxl : Option (Nat × List Byte)
  ret : Nat
  out : List Byte
  deriving DecidableEq, Repr

def Slot.init : Slot := ⟨0, 0, 0, [], false, 0⟩
def Ticket.init : Ticket := ⟨false, false, 0, 0, 0, 0, [], false⟩
def Mailbox.init : Mailbox :=
  ⟨List.replicate 8 Slot.init, [], List.replicate 8 Ticket.init, none, none, 0, []⟩

/-- A host register access that waits behind a held CLU_FRONTGO write in the hub's register-write path (R173): a launch with its cluster,
stack, entry and tick, a write with its byte enables, or a read of some bytes. -/
inductive HostAcc where
  | go (ci stack entry tick : Nat)
  | write (a : RegAddr) (v be : Nat)
  | read (a : RegAddr) (be : Nat)
  deriving DecidableEq, Repr

/-- The host's side of the link (R318, R319, R325-R327, R386, R441): the link's mode (0 CXL 3.1, 1 CXL 2.0, 2 CXL 1.1, 3 PCIe 6.0, 4 PCIe 5.0,
5 PCIe 4.0) and its width in lanes, the HDM decoder, whether HDM_UNAVAILABLE has been raised in this period, register reads awaiting their response, the
latches of R441 by 16·agent + pair, the PCIe power state, and what the last access returned. -/
structure HostSide where
  mode : Nat
  width : Nat
  hdm : Bool                      -- the decoder is committed
  hdmErr : Bool                   -- Error Not Committed
  unavail : Bool
  reads : List (Endpoint × Nat × Nat × Nat)   -- register reads sent: endpoint, DPA, bytes requested, tick
  behind : List HostAcc           -- accesses that wait behind a held launch, oldest first
  latch : List (Nat × Nat)
  dstate : Nat                    -- 0 D0, 3 D3hot, 4 D3cold
  readData : Nat                  -- value of the last register read
  data : List Byte                -- bytes of the last memory read by the host, Harvest's receiver or the debugger
  deriving DecidableEq, Repr

def HostSide.init : HostSide := ⟨0, 16, false, false, false, [], [], [], 0, 0, []⟩

/-! ### Security and debug -/

/-- The flash (R406-R410): the image the module was made with, an erased or half-written one, or an image written since. -/
inductive Flash where
  | factory
  | erased
  | image (bytes : List Byte)
  deriving DecidableEq, Repr

/-- An SPDM session (R404): established after FINISH; `keys` counts key updates. -/
structure Session where
  id : Nat
  established : Bool
  keys : Nat
  deriving DecidableEq, Repr

/-- What an SPDM request was answered with. -/
inductive SpdmRsp where
  | none
  | error (code : Nat)
  | ok (code : Nat) (data : List Byte)
  deriving DecidableEq, Repr

/-- The security block (R403-R423): fuses, flash, staged and booted image, nonce, SPDM, trace ring, and what the TAP last shifted out. -/
structure Security where
  fuse : Nat                      -- fused lifecycle: 0 BLANK, 1 SECURED, 3 RETURNED
  skey : List Byte                -- fused SERVICE key
  svn : Nat                       -- fused count
  flash : Flash
  boot : Flash                    -- the image that runs
  staged : Option (List Byte)
  nonce : Option (List Byte × Nat)    -- bytes, tick of issue
  sessions : List Session
  negotiated : Nat                -- SPDM: 0 none, 1 version, 2 capabilities, 3 algorithms
  spdm : SpdmRsp
  trace : List (List Byte)        -- 16-byte entries, oldest first
  tap : List Byte
  cells : List Byte               -- boundary-scan cells as last preloaded (R417)
  extest : Bool                   -- EXTEST drives the pins from the cells
  shed : Mem                      -- Shed SRAM bytes that DEBUG_OP has written
  deriving DecidableEq, Repr

/-- BLANK, nothing fused or staged, the image it was made with booted (DESIGN CHOICE: log 6). -/
def Security.init : Security :=
  { fuse := 0, skey := [], svn := 0, flash := .factory, boot := .factory, staged := none, nonce := none, sessions := []
    negotiated := 0, spdm := .none, trace := [], tap := [], cells := [], extest := false, shed := [] }

/-! ### Reset, power and the facility side -/

/-- The reset sampler (R376-R385): sources asserted, the latched reach with its targets below FABRIC, the sources accepted in order,
the Cold frame, the watchdog, and the reference clock. -/
structure Sampler where
  asserted : List Nat
  reach : Option Nat
  dies : List Nat
  clusters : List Nat
  cores : List Nat
  accepted : List Nat             -- sources accepted since the last completed reset, in order
  releasing : Bool
  cold : List (Nat × Nat)
  kick : Nat                      -- tick of the last kick or of Ngumal ready
  refLost : Bool
  ready : Bool                    -- Ngumal is ready
  compute : Bool                  -- compute ready
  grant : Option (Nat × Nat)      -- a Ngumal RESET answered and not yet asserted: reach, index
  hung : List Endpoint            -- endpoints whose link a narrow reset left blocked (R386)
  deriving DecidableEq, Repr

def Sampler.init : Sampler :=
  { asserted := [], reach := none, dies := [], clusters := [], cores := [], accepted := [], releasing := false, cold := [], kick := 0
    refLost := false, ready := true, compute := true, grant := none, hung := [] }

/-- Power and persistence (R14, R391-R402): transitions waiting (state, ticket, 8 for none), the next wake wave, dies waking, RWP
commits in progress with the values they replace, committed-write counts, and registers whose freezing has been reported. -/
structure Power where
  queue : List (Nat × Nat)
  ticket : Nat                    -- ticket of the transition in progress, 8 for none
  wave : Nat                      -- next wake wave, 20 when none is due
  waking : List Nat               -- dies that are waking
  commits : List (Nat × Nat)      -- register-space key, value before the write
  wear : List (Nat × Nat)         -- register-space key to committed writes
  coolForce : Bool                -- every die is held at level 15 (R430)
  blocked : Nat                   -- re-plan steps blocked by the cap (R348)
  trips : Nat                     -- rail trips seen by the supervisor
  throttleDue : Nat               -- tick of the next throttle update (R399)
  wsel : Option Nat               -- the RWP register PWR_WSEL names, by its key
  deriving DecidableEq, Repr

def Power.init : Power := ⟨[], 8, 20, [], [], [], false, 0, 0, 250000, none⟩

/-- The facility endpoint (R425-R431): identify, arming tick, a power cap held through a clock loss, its copy of the summary, when the
coolant input fell, and its last answer (none: not acknowledged). -/
structure Facility where
  identify : Bool
  armed : Option Nat
  held : Option Nat
  summary : List Byte
  coolTick : Option Nat
  reply : Option (List Byte)
  deriving DecidableEq, Repr

/-- Coolant present, nothing armed or held (DESIGN CHOICE: log 6). -/
def Facility.init : Facility := ⟨false, none, none, List.replicate 112 0#8, none, none⟩

end Sys2Proof.Machine
end

