-- ==== Sys2Proof/Syntax.lean ====
section
/-! DEFINITION. The commands of the module, one constructor per row of the table. The table gives a row no operand fields: the
operands are what the command's rule needs to know of the outside world (who, where, what arrived). -/

namespace Sys2Proof

open Sys2Proof.Machine

/-- The commands. Each constructor's comment is its row. -/
inductive Instr where
  /-- REGISTER_WRITE (R11): A write to a register that has no row of its own takes effect according to its access type, with reserved-encoding and partial-write checks. -/
  | registerWrite (a : RegAddr) (v be : Nat)
  /-- RWP_COMMIT (R14): The MRAM commit of an RWP register write completes, the wear count advances, and the register may freeze. -/
  | rwpCommit
  /-- LO_READ_LATCH (R441): A read of the LO half of a latching pair returns the low half and copies the high half into the reading agent's latch. -/
  | loReadLatch (a : RegAddr)
  /-- COLD_FRAME_ACCESS (R388): An access to RST_CFDATA reads or writes the Cold frame word at RST_CFIDX, and the index then advances with wrap. -/
  | coldFrameAccess (a : RegAddr) (w : Option Nat)
  /-- LIST_ENTRY_FETCH (R109): The fetch unit fetches the next list entry into the issue window and tests its static encoding. -/
  | listEntryFetch (gi : Nat) (ups : List Upset)
  /-- DESC_ISSUE (R121): The oldest window entry whose waits are met and whose lane can accept it issues, consuming its waits and latching counts and handles. -/
  | descIssue (gi : Nat)
  /-- CHAIN_BODY_LOAD (R443): The chain body is copied into the chain buffer, and cycle 0 of the descriptor begins when the copy completes. -/
  | chainBodyLoad (gi : Nat) (ups : List Upset)
  /-- DESC_COMPLETE (R123): A descriptor completes and fires its signals S0 and then S1. -/
  | descComplete (gi : Nat)
  /-- DESC_ENGINE_STOP (R113): The descriptor engine stops when a failing entry becomes the oldest unissued entry, or fails its issue-time test, and raises DESC_FAULT. -/
  | descEngineStop (gi : Nat)
  /-- NOP (R120): A NOP descriptor occupies no lane and completes in the cycle after it issues. -/
  | nop (gi : Nat)
  /-- PASS (R127): A PASS runs its iterations of interleaved matrix broadcasts together with its chain body. -/
  | pass (gi : Nat) (ups : List Upset)
  /-- EMUL (R71): Element mode multiplies accumulator Aj of all lanes by s. -/
  | emul (gi : Nat)
  /-- EADD (R71): Element mode adds b to accumulator Aj of all lanes. -/
  | eadd (gi : Nat)
  /-- EFMA (R71): Element mode computes Aj × s + b fused on all lanes. -/
  | efma (gi : Nat)
  /-- CHAIN (R128): A CHAIN descriptor runs its chain body once per iteration. -/
  | chain (gi : Nat) (ups : List Upset)
  /-- FILL (R74): A slot is filled from local memory with weight decode, and its fill-pending bit is set. -/
  | fill (gi : Nat) (ups : List Upset)
  /-- FILL_T (R74): A slot is filled from local memory by a transposed read. -/
  | fillT (gi : Nat) (ups : List Upset)
  /-- FILL_IN (R176): A FILL_IN waits at the transfer head for a front marker and then fills a slot from weight-front ingress. -/
  | fillIn (gi : Nat)
  /-- FILL_COMPLETE (R74): The last byte of a slot fill lands and the slot's fill-pending bit clears. -/
  | fillComplete (gi : Nat)
  /-- LOAD (R111): A LOAD copies LEN bytes per iteration into local memory. -/
  | load (gi : Nat)
  /-- STORE (R111): A STORE copies LEN bytes per iteration from local memory, subject to the keep-region check. -/
  | store (gi : Nat)
  /-- SEND (R152): A SEND on a send context is queued, waits for a credit and sends one message. -/
  | send (gi : Nat)
  /-- SEND_INJECT (R152): A SEND that holds a credit injects its MSG with the next SEQ and consumes the credit. -/
  | sendInject (gi : Nat)
  /-- POST (R152): A POST arms a receive buffer and returns a credit to the bound sender. -/
  | post (gi : Nat)
  /-- POST_ARM (R152): A POST waiting at the transfer head for a free buffer arms its buffer once one is consumed. -/
  | postArm (gi : Nat)
  /-- RAKE_SQ (R252): RAKE_SQ delivers FP32 values tagged with a layer to the cluster's Rake node. -/
  | rakeSq (gi : Nat) (ups : List Upset) (hbm : List HbmErr)
  /-- REPEAT (R129): A REPEAT entry makes the fetch unit refetch the previous BACK entries n more times. -/
  | repeatEntry (gi : Nat)
  /-- RESULT_LAND (R84): An in-flight result lands, or is discarded as older, and the register's pending bit clears. -/
  | resultLand (gi : Nat)
  /-- LMEM_ECC_WRITEBACK (R79): A corrected local-memory word is written back through the external port in its first free cycle. -/
  | lmemEccWriteback (gi : Nat)
  /-- VNOP (R93): VNOP occupies no pipe and extends the issue gap. -/
  | vnop (gi w : Nat)
  /-- VADD (R93): Vector add, correctly rounded. -/
  | vadd (gi w : Nat)
  /-- VSUB (R93): Vector subtract, correctly rounded. -/
  | vsub (gi w : Nat)
  /-- VMUL (R93): Vector multiply, correctly rounded. -/
  | vmul (gi w : Nat)
  /-- VFMA (R93): Vector fused multiply-add with one rounding. -/
  | vfma (gi w : Nat)
  /-- VFNMA (R93): Vector negated fused multiply-add with one rounding. -/
  | vfnma (gi w : Nat)
  /-- VMAX (R37): Vector maximumNumber. -/
  | vmax (gi w : Nat)
  /-- VMIN (R37): Vector minimumNumber. -/
  | vmin (gi w : Nat)
  /-- VABS (R93): Clears the sign bit of each element. -/
  | vabs (gi w : Nat)
  /-- VNEG (R93): Inverts the sign bit of each element. -/
  | vneg (gi w : Nat)
  /-- VCEQ (R37): Quiet equality compare writing all-ones or all-zeros masks. -/
  | vceq (gi w : Nat)
  /-- VCLT (R37): Signalling less-than compare. -/
  | vclt (gi w : Nat)
  /-- VCLE (R37): Signalling less-or-equal compare. -/
  | vcle (gi w : Nat)
  /-- VCLASS (R93): Writes a ten-bit class mask per element without raising flags. -/
  | vclass (gi w : Nat)
  /-- VSEL (R93): Selects VA or VB per element by the mask in VC. -/
  | vsel (gi w : Nat)
  /-- VMOV (R93): Copies VA. -/
  | vmov (gi w : Nat)
  /-- VAND (R93): Bitwise AND. -/
  | vand (gi w : Nat)
  /-- VOR (R93): Bitwise OR. -/
  | vor (gi w : Nat)
  /-- VXOR (R93): Bitwise XOR. -/
  | vxor (gi w : Nat)
  /-- VSHL (R93): Shift left by VB modulo the element width. -/
  | vshl (gi w : Nat)
  /-- VSRA (R93): Arithmetic shift right. -/
  | vsra (gi w : Nat)
  /-- VSRL (R93): Logical shift right. -/
  | vsrl (gi w : Nat)
  /-- VIADD (R93): Integer add modulo the element width. -/
  | viadd (gi w : Nat)
  /-- VISUB (R93): Integer subtract modulo the element width. -/
  | visub (gi w : Nat)
  /-- VDIV (R93): Correctly rounded division on the VTU. -/
  | vdiv (gi w : Nat)
  /-- VSQRT (R93): Correctly rounded square root on the VTU. -/
  | vsqrt (gi w : Nat)
  /-- VCVT (R96): Converts a segment of elements between the formats named by ET and TF. -/
  | vcvt (gi w : Nat)
  /-- VCVT_MX (R97): Converts an FP32 block to MX, choosing the scale and merging codes and scale byte. -/
  | vcvtMx (gi w : Nat)
  /-- VCVTW_MX (R97): Widens an MX block to FP32 exactly. -/
  | vcvtwMx (gi w : Nat)
  /-- VLSPLIT (R105): Splits WQ48 containers into limb bytes in the slot-fill layout. -/
  | vlsplit (gi w : Nat)
  /-- VLJOIN (R105): Recombines six limb class sums into WQ48 containers with one rounding. -/
  | vljoin (gi w : Nat)
  /-- VLD (R98): Loads 64 bytes through a tensor handle, zeroing inactive elements. -/
  | vld (gi w : Nat) (ups : List Upset)
  /-- VST (R98): Stores 64, 48, 32 or 16 bytes through a tensor handle, leaving inactive elements unchanged. -/
  | vst (gi w : Nat) (ups : List Upset)
  /-- VLDS (R98): Loads from a handle's scale array without masking. -/
  | vlds (gi w : Nat) (ups : List Upset)
  /-- VSTS (R98): Stores to a handle's scale array without masking. -/
  | vsts (gi w : Nat) (ups : List Upset)
  /-- ACCRD (R70): Copies accumulator Aj of all lanes into vector registers, optionally clearing it. -/
  | accrd (gi w : Nat)
  /-- VRED_SUM (R100): Sums the active elements over a fixed binary tree. -/
  | vredSum (gi w : Nat)
  /-- VRED_MAX (R100): Takes the maximum of the active elements over a fixed tree. -/
  | vredMax (gi w : Nat)
  /-- VRED_MIN (R100): Takes the minimum of the active elements over a fixed tree. -/
  | vredMin (gi w : Nat)
  /-- VRED2_NORM (R101): Accumulates or applies the normalisation backward in phase 0 or phase 1. -/
  | vred2Norm (gi w : Nat)
  /-- VRED2_SMAX (R102): Accumulates or applies the soft-maximum backward in phase 0 or phase 1. -/
  | vred2Smax (gi w : Nat)
  /-- VEXP2 (R103): Transcendental 2^x. -/
  | vexp2 (gi w : Nat)
  /-- VEXP (R103): Transcendental e^x. -/
  | vexp (gi w : Nat)
  /-- VLOG2 (R103): Transcendental log2 x. -/
  | vlog2 (gi w : Nat)
  /-- VRCP (R103): Reciprocal. -/
  | vrcp (gi w : Nat)
  /-- VRSQ (R103): Reciprocal square root. -/
  | vrsq (gi w : Nat)
  /-- VSINPI (R103): sin(πx). -/
  | vsinpi (gi w : Nat)
  /-- VCOSPI (R103): cos(πx). -/
  | vcospi (gi w : Nat)
  /-- VTANH (R103): tanh x. -/
  | vtanh (gi w : Nat)
  /-- VERF (R103): erf x. -/
  | verf (gi w : Nat)
  /-- VLEAF (R106): Runs an accepted SP1 leaf program through the interpreter. -/
  | vleaf (gi w : Nat)
  /-- TOKINC_WRITE (R124): A write of CORE_TOKINC adds its increment to the named token. -/
  | tokincWrite (gi tok inc : Nat)
  /-- CLU_LSEL_WRITE (R141): Sets CORE_LSEL.SEL of all 64 active cores in one cycle. -/
  | cluLselWrite (ci sel : Nat)
  /-- PATCH (R134): A write of 1–16 consecutive shadow parameter registers of one core lands in one cycle. -/
  | patch (gi first : Nat) (vals : List Nat)
  /-- BROADCAST_PATCH_LAND (R135): An accepted broadcast patch lands in the shadow banks of every targeted core. -/
  | broadcastPatchLand
  /-- LIST_COMPLETE (R130): A core completes its list, reports completion to its cluster and becomes IDLE. -/
  | listComplete (gi : Nat)
  /-- REPLAY (R131): REPLAY of a step is applied: shadow banks are copied, lists are selected and restarted, and the hub's per-REPLAY actions run. -/
  | replay
  /-- RAMP_GROUP_RELEASE (R398): A cluster's ramp group is released and its compute lanes begin accepting descriptors. -/
  | rampGroupRelease (g : Nat)
  /-- AUDIT_REPAIR (R264): Working-copy chunks that failed the audit are re-derived from the owner at action 1 of the boundary. -/
  | auditRepair (codes : List (Nat × Nat)) (hbm : List HbmErr)
  /-- SPARE_CORE_SWAP (R345): A retired core's state is copied into a spare and its logical coordinate is rerouted. -/
  | spareCoreSwap (ups : List Upset) (m : Margin)
  /-- SHARD_PERMUTE_RUN (R288): An accepted SHARD_PERMUTE distributes the command, computes and compares plans, and runs the moves at action 3. -/
  | shardPermuteRun (hbm : List HbmErr)
  /-- ROLLING_BIST_SLICE (R352): One slice of clusters is saved, self-tested and restored at action 4 of the boundary. -/
  | rollingBistSlice (extra : Nat) (fails : List TestUnit)
  /-- PHASE_SWITCH (R197): A GENERATE or LEARN switch writes CLU_LSEL, patches the phase-entry flag and updates PHASE_EFF. -/
  | phaseSwitch
  /-- MSG (R152): An arriving message fills the oldest armed buffer and increments NEXT and the token, with the channel fault checks. -/
  | msg (n : Nat) (flits : List FlitErr)
  /-- TOKEN (R157): A token message is applied to its receive context or held until its TSEQ is passed. -/
  | token (n : Nat) (flits : List FlitErr)
  /-- CREDIT (R152): An arriving CREDIT adds to the credits of the bound send context. -/
  | credit (n : Nat) (flits : List FlitErr)
  /-- MRD (R151): A memory read request is served by its DPA endpoint and answered with one MRSP. -/
  | mrd (n : Nat) (ups : List Upset) (hbm : List HbmErr) (flits : List FlitErr)
  /-- MWR (R151): A memory write carries its data to its DPA endpoint. -/
  | mwr (n : Nat) (flits : List FlitErr)
  /-- MRSP (R151): A read response delivers its data to the requester. -/
  | mrsp (n : Nat) (flits : List FlitErr)
  /-- REGRD (R151): A register read request is served by its endpoint. -/
  | regrd (n : Nat) (flits : List FlitErr)
  /-- REGWR (R151): A register write request is applied by its endpoint. -/
  | regwr (n : Nat) (flits : List FlitErr)
  /-- REGRSP (R151): A register read response returns to the requester. -/
  | regrsp (n : Nat) (flits : List FlitErr)
  /-- TC0_POLICE_ADMIT (R161): A TC0 packet waiting for a policing token is admitted when the bucket refills. -/
  | tc0PoliceAdmit (n ci cycles : Nat)
  /-- HALT (R154): An urgent HALT from the hub reaches its core, cluster or rectangle. -/
  | halt (to_ : UrgTarget) (reason : Nat) (flits : List FlitErr)
  /-- RESUME (R154): An urgent RESUME from the hub reaches its targets. -/
  | resume (to_ : UrgTarget) (flits : List FlitErr)
  /-- QUIESCE_URGENT (R156): An endpoint receiving QUIESCE stops injecting new requests, drains its traffic and then reports QUIESCED. -/
  | quiesceUrgent (e : Endpoint) (flits : List FlitErr)
  /-- QUIESCED (R155): QUIESCED reports combine up the fixed tree to the hub. -/
  | quiesced
  /-- QUIESCE_TIMEOUT (R156): QUIESCED has not reached the hub within TRL_QCFG.TIMEOUT, so QUIESCE_TIMEOUT is reported. -/
  | quiesceTimeout
  /-- BARRIER_ARRIVE (R155): Barrier arrivals combine toward HP0 once every contributor has arrived. -/
  | barrierArrive (ci id : Nat) (flits : List FlitErr)
  /-- BARRIER_RELEASE (R154): The hub releases a barrier to all clusters. -/
  | barrierRelease
  /-- SDL_SYNC (R316): A Grafter receives SDL_SYNC and slews its Sundial copy. -/
  | sdlSync (n : Nat) (flits : List FlitErr)
  /-- SDL_SYNC_SEND (R316): Every 4,096 st the hub sends SDL_SYNC with path compensation to each Grafter. -/
  | sdlSyncSend
  /-- ERROR_NOTICE (R139): An ERROR_NOTICE reaches the hub, and the Shed raises the event and starts the fault handling. -/
  | errorNotice (n : Nat) (flits : List FlitErr)
  /-- FRONTGO (R173): A write of CLU_FRONTGO sends a launch request to the named HBM controller. -/
  | frontgo (who : Agent) (ci v : Nat)
  /-- FRONTGO_HOLD_TIMEOUT (R173): A held host CLU_FRONTGO write finds no queue place within 1 ms and is discarded with REG_UNMAPPED. -/
  | frontgoHoldTimeout
  /-- FRONT_LAUNCH_REQUEST (R174): A launch request arrives at a controller and is queued. -/
  | frontLaunchRequest (n : Nat) (flits : List FlitErr)
  /-- FRONT_STREAM_START (R173): A controller starts a queued front, tests its entry and streams the marker and tiles. -/
  | frontStreamStart (k : Nat) (hbm : List HbmErr)
  /-- FRONT_MARKER (R176): A front marker reaches a core, is held or taken by a FILL_IN, and is re-injected. -/
  | frontMarker (n : Nat) (flits : List FlitErr)
  /-- FRONT_TILE (R176): Front tile bytes are taken as fill data or forwarded to the next core. -/
  | frontTile (n : Nat) (flits : List FlitErr)
  /-- CSTORE_ECC_WRITEBACK (R168): A corrected cluster-store word is written back in a free bank cycle. -/
  | cstoreEccWriteback (ci : Nat)
  /-- ROW_REPAIR (R172): An HBM row is repaired online by soft post-package repair. -/
  | rowRepair (spare : Bool)
  /-- HBM_PATROL_SCRUB (R350): Patrol scrub reads a unit, writes back corrections and handles uncorrectable units. -/
  | hbmPatrolScrub (unit : Nat) (e : Option HbmErr) (last : Bool)
  /-- MRAM_PATROL_SCRUB (R350): MRAM scrub rewrites correctable words and raises RECORD_CRC on bad records. -/
  | mramPatrolScrub (slot rec : Nat) (bad : Option (List Byte))
  /-- GDONE_NOTICE (R194): A STORE to STEP_GDONE counts a gradient-completion notice, and the reduction begins when NCON is reached. -/
  | gdoneNotice (n : Nat) (flits : List FlitErr)
  /-- DDONE_NOTICE (R250): A STORE to UPD_DDONE counts a direction notice toward DNCON. -/
  | ddoneNotice (n : Nat) (flits : List FlitErr)
  /-- FACTOR_EXCHANGE (R206): The statistics exchange of a statistics step begins once its all-gather has completed. -/
  | factorExchange (hbm : List HbmErr)
  /-- FACTOR_FOLD_TILE (R209): A summed factor tile arrives and is folded into the non-published buffer. -/
  | factorFoldTile (fidx side blk t : Nat) (hbm : List HbmErr)
  /-- GRF_SUBLO_WRITE (R215): Latches the low descriptor address for the writing agent. -/
  | grfSubloWrite (who : Agent) (k v : Nat)
  /-- GRF_SUBMIT (R215): A write of GRF_SUBHI queues a job, stalling the writer when the queue is full. -/
  | grfSubmit (who : Agent) (k v : Nat)
  /-- GRAFTER_JOB_START (R218): A queued job starts in its slot, is checked and runs range analysis. -/
  | grafterJobStart (k : Nat) (hbm : List HbmErr)
  /-- ROOT (R224): ROOT computes an inverse p-th root by coupled Newton iteration. -/
  | root (k i : Nat)
  /-- ORTH (R225): ORTH computes the orthogonal polar factor by a quintic iteration. -/
  | orth (k i : Nat)
  /-- CHOL (R226): CHOL computes a block Cholesky factor with pivot regularisation. -/
  | chol (k i : Nat)
  /-- TRSV (R227): TRSV solves triangular systems by substitution. -/
  | trsv (k i : Nat)
  /-- CG (R228): CG solves a damped symmetric system by conjugate gradients. -/
  | cg (k i : Nat)
  /-- GRAFTER_ITERATION_COMPLETE (R229): A job iterate completes its residual test and may become the reserve or the result. -/
  | grafterIterationComplete (k i : Nat)
  /-- JOB_DEADLINE (R232): The Grafter's Sundial reaches a job's DEADLINE, and the job stops and latches its rank. -/
  | jobDeadline (k i : Nat)
  /-- GRF_ABORT (R232): A write of GRF_ABORT stops a slot's job or sets an awaiting job's rank to 0b00. -/
  | grfAbort (k v : Nat)
  /-- RAKE_CLOSE (R254): The module Rake closes once all lists are complete, collecting sums, flags and counters. -/
  | rakeClose
  /-- NORM_ALLREDUCE (R255): The norm all-reduce combines SQ, counts, flags and vote fields across the group. -/
  | normAllreduce
  /-- SIEVE_DECIDE (R256): The Sieve decides commit, clip, skip, replay or halt from the group payload. -/
  | sieveDecide
  /-- SWEEP_RECORD (R263): A controller sweeps one shard record into the other bank and writes its step word. -/
  | sweepRecord (i : Nat) (hbm : List HbmErr)
  /-- WORKING_COPY_AUDIT (R264): One layer's working copy is checked by CRC-64 against the owner's once it is final. -/
  | workingCopyAudit (hbm : List HbmErr)
  /-- RECOVERY_SWEEP (R266): The Shed completes an interrupted commit record by record from the journal. -/
  | recoverySweep (hbm : List HbmErr)
  /-- STEP_REPLAY (R269): A faulted step is quiesced, restored and restarted from entry 0 on every member. -/
  | stepReplay
  /-- SIEVE_RESUME (R261): A write of SIV_STAT.RESUME leaves the Sieve halt and clears CONSEC. -/
  | sieveResume
  /-- WINDOW_CLEAR (R260): A write of SIV_STAT.WCLR empties the median window at the next boundary. -/
  | windowClear
  /-- REDUCE_SCATTER_LAYER (R280): A layer's reduce-scatter starts once its notices are complete and the previous layer has been sent. -/
  | reduceScatterLayer (hbm : List HbmErr)
  /-- COLL_FRAME (R285): A collective frame arrives and is checked, summed or widened in the receive path and forwarded. -/
  | collFrame (p lseq : Nat) (f : Frame) (hbm : List HbmErr)
  /-- RS_LANDED (R280): A layer's reduce-scatter has landed on a member, and CSP_EVT29 and CSP_EVT30 count. -/
  | rsLanded
  /-- GATHER (R282): A swept master is narrowed and all-gathered, and each arriving run is widened into the working copy. -/
  | gather (hbm : List HbmErr)
  /-- PERMUTE_ACK (R288): A module acknowledges to the coordinator that every byte bound for it has landed. -/
  | permuteAck
  /-- PERMUTE_COMMIT (R288): On COMMIT each module writes its new shard table, member map and grid epoch. -/
  | permuteCommit
  /-- MGMT_FRAME (R288): A group management frame is delivered to the Shed. -/
  | mgmtFrame (p lseq : Nat) (f : Frame)
  /-- FRAME_FORWARD (R299): A frame not addressed to this module is forwarded along its route. -/
  | frameForward (p lseq : Nat) (f : Frame)
  /-- ACK (R300): An ACK releases acknowledged frames from the retry buffer. -/
  | ack (p lseq : Nat)
  /-- NAK (R300): A NAK makes the sender replay every frame from the named LSEQ. -/
  | nak (p lseq : Nat)
  /-- PORT_RETRAIN (R300): A frame replayed eight times without ACK makes the port retrain. -/
  | portRetrain (p : Nat) (ok : Bool)
  /-- LANE_SPARE (R295): A failed or error-prone lane is replaced by the spare and unacknowledged frames are replayed. -/
  | laneSpare (p lane : Nat)
  /-- LANE_LOSS (R296): A lane is lost with no spare left, and the port degrades or goes down. -/
  | laneLoss (p lane : Nat)
  /-- V1MSG (R302): An arriving V1MSG payload lands in the v1 receive ring. -/
  | v1msg (p : Nat) (peer : Nat) (data : List Byte)
  /-- HELLO_SEND (R303): Every 1 ms each up v2 port sends a HELLO. -/
  | helloSend
  /-- HELLO (R304): A received HELLO updates eligibility, ROOTSER, depth and the miswire checks. -/
  | hello (p lseq : Nat) (h : HelloMsg)
  /-- DISCOVERY_ROOT_ASSIGN (R305): ROOTSER is stable for 10 ms, and the root assigns coordinates and distributes the discovery table. -/
  | discoveryRootAssign (ns : List Node)
  /-- DISC (R305): A DISC frame carries coordinate assignment or the discovery table. -/
  | disc (p lseq : Nat) (d : DiscMsg)
  /-- PORT_REJOIN (R308): A port that comes up again outside discovery rejoins, or is isolated with TOPOLOGY_CHANGED. -/
  | portRejoin (p : Nat) (h : Option HelloMsg)
  /-- REPLAY_REQ (R312): A REPLAY_REQ for the current step and replay count starts a step replay. -/
  | replayReq (p lseq : Nat) (f : Frame)
  /-- SUNDIAL_SYNC_TIMER (R313): Every 250,000 st a module sends SYNC_REQ to its parent. -/
  | sundialSyncTimer (ph : Nat)
  /-- SYNC_REQ (R313): A parent answers SYNC_REQ with SYNC_RESP and the master stamp. -/
  | syncReq (p lseq t2 ph : Nat)
  /-- SYNC_RESP (R314): A module computes its offset from SYNC_RESP and steps or slews its Sundial. -/
  | syncResp (p lseq t2 t3 t4 stamp : Nat)
  /-- PARENT_LOST (R315): A module that has lost its Sundial parent re-parents or enters HOLDOVER. -/
  | parentLost
  /-- ROOT_LOST (R315): The master stamp has not advanced for 10 ms, and a new time master is elected. -/
  | rootLost
  /-- LAUNCH_TIME (R316): The Sundial reaches SDL_LAUNCH.TIME and the held REPLAY proceeds. -/
  | launchTime
  /-- RESET_FRAME (R382): A Dorhel RESET frame is verified and accepted as reset source 4, or discarded. -/
  | resetFrame (p lseq : Nat) (f : Frame)
  /-- MAILBOX_DOORBELL (R329): A set doorbell presents a mailbox command, which is accepted or refused with a CXL return code. -/
  | mailboxDoorbell (op : Nat) (payload : List Byte)
  /-- SLOT_ACK (R330): A write of MBX_SACK returns VALID slots to EMPTY. -/
  | slotAck (mask : Nat)
  /-- TICKET_ACK (R331): A write of MBX_TKTACK frees DONE tickets. -/
  | ticketAck (mask : Nat)
  /-- SLICE_END (R332): An L command slice ends, queued S commands run and the next ticket's slice begins. -/
  | sliceEnd
  /-- GET_EVENT_RECORDS (R318): CXL mailbox command returning event records. -/
  | getEventRecords
  /-- CLEAR_EVENT_RECORDS (R318): CXL mailbox command clearing event records. -/
  | clearEventRecords
  /-- GET_EVENT_INTERRUPT_POLICY (R318): CXL mailbox command reading the event interrupt policy. -/
  | getEventInterruptPolicy
  /-- SET_EVENT_INTERRUPT_POLICY (R340): CXL mailbox command routing each log to a vector. -/
  | setEventInterruptPolicy
  /-- GET_FW_INFO (R318): CXL mailbox command returning firmware information. -/
  | getFwInfo
  /-- GET_SUPPORTED_LOGS (R318): CXL mailbox command listing supported logs. -/
  | getSupportedLogs
  /-- GET_LOG (R318): CXL mailbox command returning the command effects log. -/
  | getLog
  /-- GET_INFO (R335): Returns serial, stepping, versions, lifecycle state and event UUID. -/
  | getInfo
  /-- GET_STATUS (R335): Returns power state, job state, phase, step and hold status. -/
  | getStatus
  /-- GET_TELEMETRY (R401): Returns the selected sensor readings. -/
  | getTelemetry
  /-- FPFLAG_REDUCE (R43): OR-reduces all core flags into RKE_FPFLAGS while no job runs. -/
  | fpflagReduce
  /-- RESET (R377): Ngumal RESET answers OK and then asserts reset source 3 at the named reach. -/
  | reset
  /-- QUIESCE (R335): Ngumal QUIESCE quiesces the Trellis and answers OK or QUIESCE_TIMEOUT. -/
  | quiesce
  /-- SET_POWER_STATE (R393): Requests a transition to RUN, HOLD, NAP or DARK. -/
  | setPowerState
  /-- SET_POWER_CAP (R400): Writes the module power cap. -/
  | setPowerCap
  /-- BROADCAST_PATCH (R135): Accepts a broadcast patch to all cores or a rectangle. -/
  | broadcastPatch
  /-- COPY_SRAM (R335): Copies HBM data into SRAM by manifest and writes a completion record. -/
  | copySram (hbm : List HbmErr)
  /-- LAYER_WRITE (R199): Checks and writes a range of layer-table entries. -/
  | layerWrite (hbm : List HbmErr)
  /-- LAYER_READ (R335): Reads layer-table entries to memory. -/
  | layerRead
  /-- FACTOR_WRITE (R201): Checks and writes a range of factor-table entries. -/
  | factorWrite (hbm : List HbmErr)
  /-- FACTOR_READ (R335): Reads factor-table entries to memory. -/
  | factorRead
  /-- JOB_START (R335): Builds the shard table and starts a job, answering once the first REPLAY has been applied. -/
  | jobStart (hbm : List HbmErr)
  /-- JOB_STOP (R335): Ends the job at the next step boundary. -/
  | jobStop
  /-- REPLAY_STEP (R335): JOB_RESUME action that leaves a hold and reruns the step with its replay count restarted. -/
  | replayStep
  /-- SKIP_STEP (R335): JOB_RESUME action that decides the held step as a Sieve skip. -/
  | skipStep
  /-- JOB_RESUME_STOP (R335): JOB_RESUME action that ends the job at the held boundary. -/
  | jobResumeStop
  /-- DISCOVER (R303): Runs discovery while no job runs. -/
  | discover
  /-- DISCOVERY_READ (R335): Writes the discovery table to memory. -/
  | discoveryRead
  /-- SET_GRID (R272): Writes the logical grid and member map while no job runs. -/
  | setGrid
  /-- SHARD_PERMUTE (R287): The coordinator checks and accepts a permutation for the next boundary. -/
  | shardPermute (peers : List Peer)
  /-- PLAN_READ (R292): Writes the last permutation plan to memory. -/
  | planRead
  /-- V1_SEND (R302): Sends a V1MSG on a v1 port. -/
  | v1Send (hbm : List HbmErr)
  /-- GROUP_RESET (R382): Builds and sends a signed Dorhel RESET frame to the named module. -/
  | groupReset
  /-- HARVEST_START (R354): Arms a Harvest snapshot toward the host or a buddy. -/
  | harvestStart
  /-- SNAPSHOT_OPEN (R355): A snapshot opens at the boundary of step S and the scalar items are captured. -/
  | snapshotOpen
  /-- HARVEST_DRAIN (R356): Harvest drains snapshot items within the step budget and writes the manifest last. -/
  | harvestDrain (n : Nat) (hbm : List HbmErr) (refused : Bool)
  /-- HARVEST_DATA_RECEIVE (R358): A buddy accepts or refuses arriving Harvest data. -/
  | harvestDataReceive (p lseq : Nat) (f : Frame)
  /-- HARVEST_RESTORE (R361): Restores records, blocks, journal and working copies from a snapshot. -/
  | harvestRestore (img : List Byte)
  /-- SELFTEST (R351): Runs the selected self-tests, or arms a rolling BIST during a job. -/
  | selftest (fails : List TestUnit)
  /-- MARGIN_REPLAN (R348): Re-plans every die's voltage, spares and divider on command. -/
  | marginReplan (m : Margin)
  /-- MARGIN_REPLAN_DAILY (R348): The 24 h timer runs the margin re-plan. -/
  | marginReplanDaily (m : Margin)
  /-- SPARE_READ (R363): Writes the spare report to memory. -/
  | spareRead
  /-- RGA_READ (R372): Copies Rain gauge sheets or clear-log pages to memory. -/
  | rgaRead
  /-- RGA_FLUSH (R372): Closes the open window. -/
  | rgaFlush
  /-- RGA_CLEAR (R373): With a SERVICE token, appends a clear record, raises the floor and discards the window. -/
  | rgaClear
  /-- FW_STAGE (R408): Copies and verifies a firmware image into the C0 cluster stores. -/
  | fwStage (hbm : List HbmErr)
  /-- RECOVERY_FW_STAGE (R410): In recovery, the boot ROM programs an image from host memory and resets on success. -/
  | recoveryFwStage (img : List Byte)
  /-- FW_COMMIT (R409): Writes the staged image to flash with the header last. -/
  | fwCommit
  /-- DEBUG_CHALLENGE (R414): Returns a fresh nonce. -/
  | debugChallenge
  /-- DEBUG_UNLOCK (R418): Opens or raises a debug session at level 1 or 2. -/
  | debugUnlock
  /-- TO_DEBUG_UNLOCKED (R411): DEBUG_UNLOCK level 3 moves SECURED to DEBUG_UNLOCKED. -/
  | toDebugUnlocked
  /-- TO_SECURED (R411): DEBUG_UNLOCK level 4 returns DEBUG_UNLOCKED to SECURED. -/
  | toSecured
  /-- TO_RETURNED (R412): DEBUG_UNLOCK level 5 enters RETURNED, erases secrets and requests a WARM reset. -/
  | toReturned
  /-- TRACE_READ (R423): Copies the trace ring. -/
  | traceRead
  /-- DEBUG_HALT (R421): Halts targeted cores at their next descriptor boundary with CAUSE DEBUG. -/
  | debugHalt
  /-- DEBUG_RESUME (R421): Clears DEBUG halts. -/
  | debugResume
  /-- MEM_READ (R422): Reads DPA, halted-core private state or Shed SRAM. -/
  | memRead (hbm : List HbmErr)
  /-- MEM_WRITE (R422): Writes DPA, halted-core private state or Shed SRAM. -/
  | memWrite (hbm : List HbmErr)
  /-- DEBUG_RESET (R376): A DEBUG_OP that requests a reset of any reach as source 8. -/
  | debugReset (cut : List Endpoint)
  /-- DEBUG_END (R418): Ends the debug session and resumes debug-halted cores. -/
  | debugEnd
  /-- TICKET_ABORT (R333): Ends a ticket at its next slice boundary with ABORTED. -/
  | ticketAbort
  /-- V1_IDENTIFY (R337): v1 command acting as GET_INFO. -/
  | v1Identify
  /-- V1_HEALTH (R337): v1 command acting as GET_TELEMETRY with every sensor. -/
  | v1Health
  /-- V1_RESET (R337): v1 command acting as a WARM RESET. -/
  | v1Reset
  /-- V1_SET_PCAP (R337): v1 command acting as SET_POWER_CAP. -/
  | v1SetPcap
  /-- V1_GET_LOG (R374): v1 command returning the Rain gauge summary. -/
  | v1GetLog
  /-- V1_FW_UPDATE (R337): v1 command acting as FW_STAGE then FW_COMMIT. -/
  | v1FwUpdate (hbm : List HbmErr)
  /-- GET_VERSION (R404): SPDM version request. -/
  | getVersion
  /-- GET_CAPABILITIES (R404): SPDM capabilities request. -/
  | getCapabilities
  /-- NEGOTIATE_ALGORITHMS (R404): SPDM algorithm negotiation. -/
  | negotiateAlgorithms (asym hash dhe aead : Nat)
  /-- GET_DIGESTS (R404): SPDM certificate digests request. -/
  | getDigests
  /-- GET_CERTIFICATE (R404): SPDM certificate chain request. -/
  | getCertificate (slot off len : Nat)
  /-- CHALLENGE (R404): SPDM challenge signed by the identity key. -/
  | challenge (slot : Nat) (nonce : List Byte)
  /-- GET_MEASUREMENTS (R405): Returns the five measurement blocks. -/
  | getMeasurements (index : Nat) (sign : Bool) (nonce : List Byte)
  /-- KEY_EXCHANGE (R404): SPDM ECDHE key exchange. -/
  | keyExchange (slot : Nat) (key : List Byte)
  /-- FINISH (R404): SPDM session finish. -/
  | finish (id : Nat) (ok : Bool)
  /-- HEARTBEAT (R404): SPDM session heartbeat. -/
  | heartbeat (id : Nat)
  /-- KEY_UPDATE (R404): SPDM session key update. -/
  | keyUpdate (id op : Nat)
  /-- END_SESSION (R404): SPDM session end. -/
  | endSession (id : Nat)
  /-- TAP_CHALLENGE (R418): The JTAG CHALLENGE instruction returns a nonce. -/
  | tapChallenge
  /-- TAP_UNLOCK (R418): The JTAG UNLOCK instruction opens a debug session with a token. -/
  | tapUnlock (level : Nat) (token : List Byte)
  /-- TAP_END (R418): The JTAG END instruction ends the session. -/
  | tapEnd
  /-- IDCODE (R417): JTAG IDCODE instruction. -/
  | idcode
  /-- BYPASS (R417): JTAG BYPASS instruction. -/
  | bypass (tdi : List Byte)
  /-- SAMPLE_PRELOAD (R417): JTAG SAMPLE/PRELOAD instruction, available at NONINVASIVE. -/
  | samplePreload (pins preload : List Byte)
  /-- EXTEST (R417): JTAG EXTEST instruction, available at INVASIVE. -/
  | extest (pins next_ : List Byte)
  /-- NONCE_EXPIRE (R414): A nonce expires 60 s after issue. -/
  | nonceExpire
  /-- PROVISION (R411): A write of SEC_PROV.GO fuses the SERVICE key and the SECURED state. -/
  | provision
  /-- HDM_COMMIT (R326): The host commits the HDM decoder, which takes only the required values. -/
  | hdmCommit (size ways dpa : Nat)
  /-- HDM_READ (R327): A host read of HBM through HDM or BAR4. -/
  | hdmRead (bar4 : Bool) (x n : Nat) (hbm : List HbmErr)
  /-- HDM_WRITE (R327): A host write of HBM through HDM or BAR4. -/
  | hdmWrite (bar4 : Bool) (x : Nat) (data : List Byte)
  /-- REG_RESPONSE_TIMEOUT (R386): A host register access without a response for 1 ms is completed by the hub and logged. -/
  | regResponseTimeout
  /-- PCIE_POWER_STATE (R392): A host D-state change maps the module to DARK or OFF. -/
  | pciePowerState (d : Nat)
  /-- POWER_TRANSITION_COMPLETE (R394): A power-state transition completes and its ticket ends with OK. -/
  | powerTransitionComplete
  /-- WAKE_WAVE (R397): One wake wave powers a die-local cluster row every 2 µs. -/
  | wakeWave
  /-- THROTTLE_UPDATE (R399): Every 1 ms the Shed adjusts cap and thermal throttle levels. -/
  | throttleUpdate (power : Nat) (temps : List Nat)
  /-- ECC_BUCKET_ROLL (R344): Core error buckets roll over every 86,400 s and retirements are decided. -/
  | eccBucketRoll
  /-- LANE_WINDOW (R342): A 10-minute lane error window closes and may trigger sparing. -/
  | laneWindow (p lane symbols received : Nat)
  /-- MONITOR_READING (R347): Hourly ring-oscillator and slack readings reach the Rain gauge. -/
  | monitorReading (slack : List Nat)
  /-- SPARE_EYE_CHECK (R350): A spare-lane eye margin check runs every 10 minutes per port. -/
  | spareEyeCheck (p : Nat) (ok : Bool)
  /-- RGA_SAMPLE (R364): A channel sample is binned and compared with the channel's extreme. -/
  | rgaSample (ch x : Nat)
  /-- WINDOW_CLOSE (R368): The hourly schedule closes the open window into the next sheet. -/
  | windowClose
  /-- SHEET_WRITE (R370): A closed window is written as a sheet to the MRAM ring, trailer last. -/
  | sheetWrite
  /-- POWER_ON (R376): The supply supervisor releases power-on, requesting POR. -/
  | powerOn
  /-- SUPPLY_TRIP (R435): An input or rail out of range trips the supervisor, records PWR_RAILEV and asserts POR. -/
  | supplyTrip (cause : Nat)
  /-- CXL_PERST (R378): A filtered assertion of CXL_PERST_N requests a WARM reset. -/
  | cxlPerst (on : Bool)
  /-- FUNCTION_LEVEL_RESET (R376): A CXL function-level reset requests FABRIC reach. -/
  | functionLevelReset
  /-- DBG_SRST (R417): A filtered DBG_SRST_N assertion at INVASIVE requests a WARM reset. -/
  | dbgSrst (on : Bool)
  /-- RESET_REQUEST (R380): An accepted reset request widens the latched reach, restarting any release. -/
  | resetRequest (cut : List Endpoint)
  /-- RESET_RELEASE (R384): Once every source has deasserted, release runs in its fixed order for the latched reach. -/
  | resetRelease (cool : Bool) (width : Nat) (modes : List Nat) (offers : List (Option Bool))
  /-- WATCHDOG_KICK (R383): A write of RST_WDOG.KICK restarts the watchdog count. -/
  | watchdogKick
  /-- WATCHDOG_TIMEOUT (R383): The watchdog expires and asserts source 5. -/
  | watchdogTimeout
  /-- THERMAL_TRIP (R439): A junction reaches 110 °C and asserts source 6. -/
  | thermalTrip (t : Nat)
  /-- REFCLK_LOSS (R379): The reference shows no edge for 1 µs, clocks stop and FAC_ALERT is asserted. -/
  | refclkLoss
  /-- REFCLK_RETURN (R379): The reference returns, the PLL relocks and source 9 asserts WARM. -/
  | refclkReturn
  /-- FAC_CAP_HELD_APPLY (R428): A facility cap write held during a clock loss is written in the first AON cycle after the clock returns. -/
  | facCapHeldApply
  /-- CLEAR_FAULTS (R427): PMBus CLEAR_FAULTS clears the latched FAC_STAT bits. -/
  | clearFaults (pec : Bool)
  /-- CAPABILITY (R427): PMBus CAPABILITY read. -/
  | capability
  /-- STATUS_WORD (R428): PMBus STATUS_WORD read. -/
  | statusWord (uv : Bool)
  /-- READ_VIN (R427): Reads input voltage. -/
  | readVin
  /-- READ_IIN (R427): Reads input current. -/
  | readIin
  /-- READ_PIN (R427): Reads input power. -/
  | readPin
  /-- READ_TEMPERATURE_1 (R427): Reads coolant inlet temperature. -/
  | readTemperature1
  /-- READ_TEMPERATURE_2 (R427): Reads the highest junction temperature. -/
  | readTemperature2
  /-- READ_TEMPERATURE_3 (R427): Reads coolant outlet temperature. -/
  | readTemperature3
  /-- MFR_SERIAL (R427): Block-reads the module serial. -/
  | mfrSerial
  /-- MFR_COOLANT_FLOW (R427): Reads coolant flow. -/
  | mfrCoolantFlow
  /-- MFR_POWER_CAP (R428): Reads or writes the power cap directly into PWR_CAP. -/
  | mfrPowerCap (w : Option Nat) (pec : Bool)
  /-- MFR_POWER_STATE (R427): Reads the power state. -/
  | mfrPowerState
  /-- MFR_IDENTIFY (R427): Reads or sets the identify indicator. -/
  | mfrIdentify (v : Option Nat)
  /-- MFR_EMERG_ARM (R431): Arms the emergency reset for 100 ms. -/
  | mfrEmergArm (v : Nat) (pec : Bool)
  /-- MFR_EMERG_RESET (R431): Fires an armed emergency reset as source 7. -/
  | mfrEmergReset (v : Nat) (pec : Bool)
  /-- EMERG_ARM_EXPIRE (R431): The emergency-reset arming lapses after 100 ms. -/
  | emergArmExpire
  /-- MFR_RGA_SUMMARY (R374): Block-reads the endpoint's copy of the Rain gauge summary. -/
  | mfrRgaSummary
  /-- ALERT_RESPONSE (R427): The Alert Response Address returns the endpoint's address while FAC_ALERT is asserted. -/
  | alertResponse
  /-- FAC_EMERG_OFF_ASSERT (R429): Accepted FAC_EMERG_OFF switches off all domains except H_AON and holds source 7. -/
  | facEmergOffAssert
  /-- FAC_EMERG_OFF_DEASSERT (R429): FAC_EMERG_OFF deasserts, source 7 deasserts and WARM release follows. -/
  | facEmergOffDeassert
  /-- COOLANT_FAULT (R430): FAC_COOLANT_OK deasserts, every die is held at throttle level 15 and COOLANT_FAULT is raised. -/
  | coolantFault
  /-- COOLANT_GRACE_EXPIRE (R430): The coolant fault persists for CGRACE with COOLACT 1, and the module enters DARK. -/
  | coolantGraceExpire
  /-- COOLANT_RESTORED (R430): FAC_COOLANT_OK reasserts and the forced throttle level is removed. -/
  | coolantRestored
  /-- REGISTER_READ (R11): A read of a register whose read has effects of its own: an RC field returns its value and clears, a partial read acts as a whole read, and an MBX_SHDR read marks REPEAT. -/
  | registerRead (a : RegAddr) (be : Nat)
  /-- CSP_MEMORY_ACCESS (R138): A CSP load or store to its cluster store, a core's local memory through the external port, or an unmapped address, with bank arbitration, ECC correction or UE, and port-collision rules. -/
  | cspMemoryAccess (ci a len : Nat) (w : Option Nat) (ups : List Upset)
  /-- BAD_CRC_FRAME (R300): A Dorhel frame arrives with a bad CRC or an unexpected LSEQ; it is discarded, one NAK is sent, and later frames are discarded until the expected LSEQ arrives. -/
  | badCrcFrame (p : Nat) (crc : Bool)
  /-- ROW_ERROR_WINDOW_EXPIRE (R342): The 24 h window that began with a tracked HBM row's first counted error runs out, and the row's count restarts without a repair. -/
  | rowErrorWindowExpire (k row : Nat)
  /-- PMBUS_UNSUPPORTED_CODE (R427): A PMBus transaction with an unsupported command code, or a write that needs PEC and lacks a correct one, is not acknowledged at its data byte and sets CML. -/
  | pmbusUnsupportedCode (code : Nat) (badPec : Bool)
  deriving DecidableEq, Repr

end Sys2Proof
end

