-- ==== Sys2Proof/Decode.lean ====
section
/-! DEFINITION. Decoding a word by the table's bits. The table of this block gives no row any bits (its rows have no fields), so no
word spells a command. -/

namespace Sys2Proof

/-- The command that the low `nbits` bits of `w` spell: none, because no row of the table has bits. (DESIGN CHOICE: log 3) -/
def decodeTableWord (_nbits _w : Nat) : Option Instr := none

end Sys2Proof
end

