-- ==== Sys2Proof/Machine/Trans.lean ====
section
/-! DEFINITION. The nine transcendentals of R103.

Each is a fixed function of its operand bits within 2 units in the last place of the exact value. The model forms the
FP32 values around it from a fixed-point series and lets `Config.ulpPick` choose among those within 2 units; exact
and special results follow the table of R103. -/

namespace Sys2Proof.Machine

/-- The functions of R103, in opcode order 0x60-0x68. -/
inductive Trans where
  | exp2 | exp | log2 | rcp | rsq | sinpi | cospi | tanh | erf
  deriving DecidableEq, Repr

/-- The number `Config.ulpPick` knows a function by. -/
def Trans.code : Trans → Nat
  | .exp2 => 0 | .exp => 1 | .log2 => 2 | .rcp => 3 | .rsq => 4
  | .sinpi => 5 | .cospi => 6 | .tanh => 7 | .erf => 8

/-- π, ln 2, log2 e and 2/√π, each times 2^200. -/
def piC : Nat := 5048344754617993871973410141242436836214643421488662971535368
def ln2C : Nat := 1113844574712631719546256151097547306333272293549090750737802
def log2eC : Nat := 2318321547468254865173387471183990171487108758923299108729110
def twoSqrtPiC : Nat := 1813235411955051368075975534027907639852476658415964181376627

/-- An approximation `(-1)^neg · m · 2^e`, with whether it is the exact value. -/
structure Approx where
  neg : Bool
  m : Nat
  e : Int
  exact : Bool
  deriving DecidableEq, Repr

/-- `m · 2^e` in fixed point with `p` fraction bits, rounded down. -/
def fixed (p : Nat) (m : Nat) (e : Int) : Nat :=
  if 0 ≤ e + p then m * 2 ^ (e + p).toNat else m / 2 ^ (-(e + p)).toNat

/-- `Σ y^k / k!` for `y` with 200 fraction bits, by Horner's rule from term `n` down. -/
def expSeries (y : Nat) : Nat → Nat → Nat
  | 0, acc => acc
  | n + 1, acc => expSeries y n (2 ^ 200 + acc * y / 2 ^ 200 / (n + 1))

/-- `2^f` for `f` with 200 fraction bits, below 1. -/
def exp2Frac (f : Nat) : Nat := expSeries (f * ln2C / 2 ^ 200) 60 (2 ^ 200)

/-- `2^x` for `x = t / 2^200`. -/
def exp2Fixed (t : Int) : Approx := ⟨false, exp2Frac (t % (2 ^ 200 : Nat)).toNat, t / (2 ^ 200 : Nat) - 200, false⟩

/-- The fraction bits of `log2 t` for `t` in [1, 2) with 200 fraction bits. -/
def log2Bits : Nat → Nat → Nat → Nat
  | 0, _, acc => acc
  | n + 1, t, acc =>
    let q := t * t / 2 ^ 200
    if 2 ^ 201 ≤ q then log2Bits n (q / 2) (2 * acc + 1) else log2Bits n q (2 * acc)

/-- `log2 (m · 2^e)`. -/
def log2Dy (m : Nat) (e : Int) : Approx :=
  let k := Nat.log2 m
  let v : Int := ((k : Int) + e) * (2 ^ 120 : Nat) + log2Bits 120 (fixed 200 m (-(k : Int))) 0
  ⟨decide (v < 0), v.natAbs, -120, decide (m = 2 ^ k)⟩

/-- `Σ (-z)^k · c_k` with `c_k` from the ratio `r k`, by Horner's rule; `z` and the result have 200 fraction bits. -/
def altSeries (z : Nat) (r : Nat → Nat × Nat) : Nat → Int → Int
  | 0, acc => acc
  | n + 1, acc =>
    altSeries z r n ((2 ^ 200 : Nat) - acc * z / (2 ^ 200 : Nat) * (r (n + 1)).1 / (r (n + 1)).2)

/-- `sin(π r)` for a dyadic `r = m · 2^e` in [0, 1/2]. -/
def sinHalf (m : Nat) (e : Int) : Nat × Int :=
  let y := fixed 200 (m * piC) (e - 200)
  let s := altSeries (y * y / 2 ^ 200) (fun k => (1, 2 * k * (2 * k + 1))) 40 (2 ^ 200 : Nat)
  (m * (piC * s.toNat / 2 ^ 200), e - 200)

/-- `sin(π · a / d)` for a quarter index: `a` in [0, 2d), `d` a power of two of exponent `q`. -/
def sinPi (a : Nat) (q : Nat) : Approx :=
  let d := 2 ^ q
  let neg := decide (d ≤ a)
  let b := a % d
  let r := if d < 2 * b then d - b else b
  if r = 0 then ⟨neg, 0, 0, true⟩
  else if 2 * r = d then ⟨neg, 1, 0, true⟩
  else
    let s := sinHalf r (-(q : Int))
    ⟨neg, s.1, s.2, false⟩

/-- `tanh` of a positive dyadic. -/
def tanhDy (m : Nat) (e : Int) : Nat × Int :=
  let top := (Nat.log2 m : Int) + e
  if 4 ≤ top then (2 ^ 64 - 1, -64)
  else if top < -14 then
    let z := fixed 200 (m * m) (2 * e)
    (m * (2 ^ 200 - z / 3 + z * z / 2 ^ 200 * 2 / 15), e - 200)
  else
    let x := exp2Fixed (-(fixed 200 (2 * m * log2eC) (e - 200) : Int))
    let t := fixed 200 x.m x.e
    ((2 ^ 200 - t) * 2 ^ 200 / (2 ^ 200 + t), -200)

/-- `erf` of a positive dyadic. -/
def erfDy (m : Nat) (e : Int) : Nat × Int :=
  let top := (Nat.log2 m : Int) + e
  if 3 ≤ top then (2 ^ 64 - 1, -64)
  else
    let z := fixed 200 (m * m) (2 * e)
    if 25 * 2 ^ 200 ≤ z then (2 ^ 64 - 1, -64)
    else
      -- the ratio of the coefficients (-1)^k / (k! (2k+1)) is (2k-1) / (k (2k+1))
      let s := altSeries z (fun k => (2 * k - 1, k * (2 * k + 1))) 130 (2 ^ 200 : Nat)
      (m * (twoSqrtPiC * s.toNat / 2 ^ 200), e - 200)

/-- What a function of a finite operand comes to: an approximation, or a special result with its flags (R103). -/
def Trans.finite (f : Trans) (neg : Bool) (m : Nat) (e : Int) : Approx ⊕ (Nat × Flags) :=
  let one : Approx := ⟨false, 1, 0, true⟩
  let isInt : Bool := if 0 ≤ e then true else decide (m % 2 ^ (-e).toNat = 0)
  match f with
  | .exp2 | .exp =>
    if m = 0 then .inl one
    else if 9 ≤ (Nat.log2 m : Int) + e then
      -- beyond every FP32 exponent: overflow, or a value below half the least subnormal
      if neg then .inl ⟨false, 1, -400, false⟩ else .inl ⟨false, 1, 400, false⟩
    else
      let t := if f = .exp then fixed 200 (m * log2eC) (e - 200) else fixed 200 m e
      let t : Int := if neg then -(t : Int) else t
      if f = .exp2 && isInt then .inl ⟨false, 1, t / (2 ^ 200 : Nat), true⟩ else .inl (exp2Fixed t)
  | .log2 =>
    if m = 0 then .inr (fp32.sign true fp32.infCode, flagDZ)
    else if neg then .inr (fp32.nanR flagNV)
    else .inl (log2Dy m e)
  | .rcp =>
    if m = 0 then .inr (fp32.sign neg fp32.infCode, flagDZ)
    else
      let q := quot 100 1 m (-e)
      .inl ⟨neg, q.1, q.2.1, !q.2.2⟩
  | .rsq =>
    if m = 0 then .inr (fp32.sign neg fp32.infCode, flagDZ)
    else if neg then .inr (fp32.nanR flagNV)
    else
      let q := quot 200 1 m (-e)
      let r := sqrtDy 100 q.1 q.2.1
      .inl ⟨false, r.1, r.2.1, !q.2.2 && !r.2.2⟩
  | .sinpi =>
    if m = 0 || isInt then .inr (fp32.sign neg 0, flagNone)
    else
      let q := (-e).toNat
      let s := sinPi (m % 2 ^ (q + 1)) q
      .inl { s with neg := s.neg != neg }
  | .cospi =>
    if m = 0 then .inl one
    else
      let q := (-e).toNat + 1
      -- cos(πx) = sin(π(x + 1/2))
      let a := if 0 ≤ e then m * 2 ^ (e.toNat + 1) else 2 * m
      let s := sinPi ((a + 2 ^ (q - 1)) % 2 ^ (q + 1)) q
      .inl (if s.m = 0 then ⟨false, 0, 0, true⟩ else s)
  | .tanh => if m = 0 then .inr (fp32.sign neg 0, flagNone) else let s := tanhDy m e; .inl ⟨neg, s.1, s.2, false⟩
  | .erf => if m = 0 then .inr (fp32.sign neg 0, flagNone) else let s := erfDy m e; .inl ⟨neg, s.1, s.2, false⟩

/-- Round an approximation to FP32: of an inexact finite value, the free choice is among the four codes within 2 units of it. (DEDUCED: log 15) -/
def Approx.fp32 (f : Trans) (opnd : Nat) (a : Approx) : Nat × Flags :=
  let r := Machine.fp32.round .rne a.neg a.m a.e (!a.exact)
  let mag := r.1 % 2 ^ 31
  if a.exact then r
  else if mag = Machine.fp32.infCode then r
  else
    let below := (Machine.fp32.round .rtz a.neg a.m a.e true).1 % 2 ^ 31
    let mag' := min (below + Config.ulpPick f.code opnd % 4 - 1) Machine.fp32.maxCode
    (Machine.fp32.sign a.neg mag', flagNX ||| (if mag' < 2 ^ 23 then flagUF else flagNone))

/-- A transcendental of an FP32 operand (R103). (DEDUCED: log 15) -/
def Trans.run32 (f : Trans) (a : Nat) : Nat × Flags :=
  match fp32.decode a with
  | .nan s => fp32.nanR (sigFlag s)
  | .inf neg =>
    match f with
    | .exp2 | .exp => (if neg then 0 else fp32.infCode, flagNone)
    | .log2 => if neg then fp32.nanR flagNV else (fp32.infCode, flagNone)
    | .rcp => (fp32.sign neg 0, flagNone)
    | .rsq => if neg then fp32.nanR flagNV else (0, flagNone)
    | .sinpi | .cospi => fp32.nanR flagNV
    | .tanh | .erf => (fp32.sign neg 0x3F800000, flagNone)
  | .fin neg m e =>
    match f.finite neg m e with
    | .inr r => r
    | .inl x => x.fp32 f a

/-- A transcendental in FP32, BF16 or FP16: the narrow result is the FP32 value of the widened operand, rounded (R103). -/
def Trans.run (f : Trans) (fmt : Fmt) (a : Nat) : Nat × Flags :=
  if fmt = fp32 then f.run32 a
  else
    let r := f.run32 (convert fmt fp32 .rne a).1
    let sig := sigFlag (fmt.decode a).isSig
    let n := convert fp32 fmt .rne r.1
    let fl := n.2 ||| (r.2 &&& ~~~flagUF) ||| sig
    let tiny := decide (n.1 % 2 ^ (fmt.width - 1) < 2 ^ fmt.mb)
    (n.1, fl ||| (if tiny && (fl &&& flagNX) = flagNX then flagUF else flagNone))

end Sys2Proof.Machine
end

