-- ==== Sys2Proof/Machine/Vec.lean ====
section
/-! DEFINITION. What a vector word computes (R88-R107): from operand registers, the iteration's mask and the parameters to the
destination registers and the flags. Nothing here reads or writes the core's state. -/

namespace Sys2Proof.Machine

/-- Width in bits of an element of type ET (R88). -/
def etBits (et : Nat) : Nat :=
  match et with
  | 2 => 16 | 3 => 16 | 4 => 64 | 5 => 64 | 6 => 8 | 7 => 8 | _ => 32

/-- The floating-point layout of an ET, FP32 for the integer types (not used there). -/
def etFmt (et : Nat) : Fmt :=
  match et with
  | 2 => bf16 | 3 => fp16 | 4 => fp64 | 6 => e4m3 | 7 => e5m2 | _ => fp32

def etFloat (et : Nat) : Bool := [0, 2, 3, 4].contains et
def etInt (et : Nat) : Bool := [1, 5].contains et

/-- The column of the latency table an ET selects (R93). -/
def etCol (et : Nat) : Nat := if et = 4 ∨ et = 5 then 2 else if et = 2 ∨ et = 3 then 1 else 0

/-- Element `i` of width `w` of a register. -/
def elem (v w i : Nat) : Nat := bits v (w * i) w

/-- Pack elements of width `w`, element 0 lowest. -/
def packElems (w : Nat) : List Nat → Nat
  | [] => 0
  | x :: r => x % 2 ^ w + 2 ^ w * packElems w r

/-- The elements of a register. -/
def unpack (v w n : Nat) : List Nat := (List.range n).map fun i => elem v w i

/-- The mask bit that decides element `i` of width `w` (R99): the slot that holds its bit 0. -/
def activeAt (mask : Nat) (w i : Nat) : Bool := bit mask (w * i / 32)

/-- One element's result and flags. -/
abbrev ER := Nat × Flags

/-- Collect elements; the flags of inactive elements are dropped (R99). -/
def collect (mask w : Nat) (rs : List ER) : Nat × Flags :=
  (packElems w (rs.map (·.1)),
   ((List.range rs.length).map fun i => if activeAt mask w i then (rs.getD i (0, 0)).2 else flagNone).foldl (· ||| ·) 0)

/-- An arithmetic operation of opcodes 0x01-0x05, 0x18, 0x19. -/
def arithElem (op : Nat) (f : Fmt) (rm : RMode) (a b c : Nat) : ER :=
  if op = 0x01 then f.add rm a b
  else if op = 0x02 then f.sub rm a b
  else if op = 0x03 then f.mul rm a b
  else if op = 0x04 then f.fmaV rm Config.fmaInvalid (f.decode a) (f.decode b) (f.decode c)
  else if op = 0x05 then f.fmaV rm Config.fmaInvalid (f.decode a).negate (f.decode b) (f.decode c)
  else if op = 0x18 then f.div rm a b
  else f.sqrt rm a

/-- All ones or all zeros (R93). -/
def maskElem (w : Nat) (b : Bool) : Nat := if b then 2 ^ w - 1 else 0

/-- The simple operations of opcodes 0x06-0x17 on one element of width `w`. -/
def simpleElem (op et : Nat) (a b c : Nat) : ER :=
  let f := etFmt et
  let w := etBits et
  let m := 2 ^ w
  match op with
  | 0x06 => f.maxMin true a b
  | 0x07 => f.maxMin false a b
  | 0x08 => (a % 2 ^ (w - 1), flagNone)
  | 0x09 => (a ^^^ 2 ^ (w - 1), flagNone)
  | 0x0A => let r := f.cmp .eq a b; (maskElem w r.1, r.2)
  | 0x0B => let r := f.cmp .lt a b; (maskElem w r.1, r.2)
  | 0x0C => let r := f.cmp .le a b; (maskElem w r.1, r.2)
  | 0x0D => (f.classMask a, flagNone)
  | 0x0E => (if c ≠ 0 then a else b, flagNone)
  | 0x0F => (a, flagNone)
  | 0x10 => (a &&& b, flagNone)
  | 0x11 => (a ||| b, flagNone)
  | 0x12 => (a ^^^ b, flagNone)
  | 0x13 => (a * 2 ^ (b % w) % m, flagNone)
  | 0x14 => (unsigned w (signed w a / (2 ^ (b % w) : Nat)), flagNone)
  | 0x15 => (a / 2 ^ (b % w), flagNone)
  | 0x16 => ((a + b) % m, flagNone)
  | _ => ((a + (m - b % m)) % m, flagNone)

/-- An element-wise operation over whole registers. -/
def elementWise (op et : Nat) (rm : RMode) (mask a b c : Nat) : Nat × Flags :=
  let w := etBits et
  let n := 512 / w
  collect mask w ((List.range n).map fun i =>
    let x := elem a w i
    let y := elem b w i
    let z := elem c w i
    if op ≤ 0x05 ∨ op = 0x18 ∨ op = 0x19 then arithElem op (etFmt et) rm x y z
    else if 0x60 ≤ op then
      (match op with
        | 0x60 => Trans.exp2 | 0x61 => Trans.exp | 0x62 => Trans.log2 | 0x63 => Trans.rcp | 0x64 => Trans.rsq
        | 0x65 => Trans.sinpi | 0x66 => Trans.cospi | 0x67 => Trans.tanh | _ => Trans.erf).run (etFmt et) x
    else simpleElem op et x y z)

/-! ### Converts -/

/-- What VCVT's ET or TF names: a float format, INT32 or WQ48. -/
inductive CvtTy where
  | fl (f : Fmt)
  | int32
  | wq48
  deriving DecidableEq, Repr

def cvtSrc (et : Nat) : CvtTy := if et = 1 then .int32 else if et = 5 then .wq48 else .fl (etFmt et)

def cvtDst (tf : Nat) : Option CvtTy :=
  match tf with
  | 0 => some (.fl fp64) | 1 => some (.fl fp32) | 2 => some (.fl fp16) | 3 => some (.fl bf16)
  | 4 => some (.fl e4m3) | 5 => some (.fl e5m2) | 6 => some .int32 | 7 => some .wq48 | _ => none

/-- Register width of an element of a convert's side. -/
def CvtTy.bits : CvtTy → Nat
  | .fl f => f.width
  | .int32 => 32
  | .wq48 => 64

/-- The pairs of R44. -/
def cvtPair (s t : CvtTy) : Bool :=
  match s, t with
  | .fl _, .fl _ => true
  | .fl f, .int32 => f == fp32
  | .int32, .fl f => f == fp32
  | .fl f, .wq48 => f == fp32
  | .wq48, .fl f => f == fp32
  | _, _ => false

/-- The number of elements a VCVT converts (R96). -/
def cvtN (s t : CvtTy) : Nat := if s.bits = 64 ∨ t.bits = 64 then 8 else 16

/-- Whether a VCVT's formats and segment are defined (R96). -/
def cvtLegal (et tf seg : Nat) : Bool :=
  match cvtDst tf with
  | none => false
  | some t =>
    let s := cvtSrc et
    let n := cvtN s t
    let cs := 512 / s.bits
    let ct := 512 / t.bits
    cvtPair s t && (cs ≤ n || decide (seg * n < cs)) && (ct ≤ n || decide (seg * n < ct))
      && (decide (n < cs) || decide (n < ct) || seg == 0)

/-- One converted element; `ex` is the WQ48 block exponent (R44, R45, R56). -/
def cvtElem (s t : CvtTy) (rm : RMode) (ex : Int) (x : Nat) : ER :=
  match s, t with
  | .fl f, .fl g => convert f g rm x
  | .fl _, .int32 => fpToInt32 rm x
  | .int32, .fl _ => int32ToFp rm x
  | .fl _, .wq48 => let r := fpToWq ex x; (wqContainer r.1, r.2)
  | .wq48, .fl _ => wqToFp rm ex (wqRead x)
  | _, _ => (x, flagNone)

/-- Replace elements `[k, k + xs.length)` of width `w` of a register. -/
def mergeElems (old w k : Nat) (xs : List Nat) : Nat := putBits old (w * k) (w * xs.length) (packElems w xs)

/-- VCVT (R96): `rm i` gives the rounding mode of destination element `i` (SR draws per element). A WQ48 target's inactive elements are padding,
written zero (R55). (DEDUCED: log 97) -/
def vcvt (et tf seg : Nat) (rm : Nat → RMode) (ex : Int) (mask va vd : Nat) : Nat × Flags :=
  match cvtDst tf with
  | none => (vd, flagNone)
  | some t =>
    let s := cvtSrc et
    let n := cvtN s t
    let k := if n < 512 / s.bits then seg * n else 0
    let j := if n < 512 / t.bits then seg * n else 0
    let rs := (List.range n).map fun i =>
      if t = .wq48 ∧ activeAt mask t.bits (j + i) = false then (0, flagNone) else cvtElem s t (rm (j + i)) ex (elem va s.bits (k + i))
    (mergeElems vd t.bits j (rs.map (·.1)),
     ((List.range n).map fun i =>
        if activeAt mask t.bits (j + i) then (rs.getD i (0, 0)).2 else flagNone).foldl (· ||| ·) 0)

/-- The MX element format a TF names (R96). -/
def mxTf (tf : Nat) : Option Fmt :=
  match tf with
  | 8 => some e4m3 | 9 => some e5m2 | 10 => some e3m2 | 11 => some e2m3 | 12 => some e2m1 | _ => none

/-- VCVT.MX (R97, R33, R99): the element codes merged into VD and the scale byte. -/
def vcvtMx (f : Fmt) (part : Nat) (rm : Nat → RMode) (mask va vb vd : Nat) : Nat × Nat × Flags :=
  let w := f.width
  let act := fun i => activeAt mask w (32 * part + i)
  let src := (List.range 32).map fun i => if i < 16 then elem va 32 i else elem vb 32 (i - 16)
  let xs := (List.range 32).map fun i => if act i then fp32.decode (src.getD i 0) else FV.fin false 0 0
  let sc := mxScale f xs
  let rs : List ER := (List.range 32).map fun i =>
    if sc.2.2 || !act i then (0, flagNone) else mxElem f (rm i) sc.1 (xs.getD i (.fin false 0 0))
  (mergeElems vd w (32 * part) (rs.map (·.1)), sc.1,
   sc.2.1 ||| (rs.map (·.2)).foldl (· ||| ·) 0 |||
     (if xs.any FV.isSig then flagNV else flagNone))

/-- VCVTW.MX (R97, R44). -/
def vcvtwMx (f : Fmt) (part half scale mask va : Nat) : Nat × Flags :=
  collect mask 32 ((List.range 16).map fun i => mxToFp32 f scale (elem va f.width (32 * part + 16 * half + i)))

/-! ### Limbs (R58, R59, R105) -/

/-- VLSPLIT: eight containers to 48 limb bytes. A limb byte is the fraction's byte (R58). -/
def vlsplit (va : Nat) : Nat := packElems 48 ((List.range 8).map fun i => elem va 64 i % 2 ^ 48)

/-- `R = Σ S_s · 2^(8(s-5))` (R59). -/
def limbRecombine (cls : List Int) : Int :=
  (List.range 6).foldl (fun a s => a + cls.getD s 0 * (2 ^ (8 * s) : Nat)) 0

/-- The class sums S5-S10 of one WQ48 product: limb 5 signed, the others unsigned, pairs with i + j ≥ 5 (R58, R59). -/
def limbClasses (fa fb : Int) : List Int :=
  let limb := fun (x : Int) (i : Nat) =>
    let b := bits (unsigned 48 x) (8 * i) 8
    if i = 5 then signed 8 b else (b : Int)
  (List.range 6).map fun s =>
    (List.range 6).foldl (fun a i => if 5 < s + 5 - i then a else a + limb fa i * limb fb (s + 5 - i)) 0

/-- VLJOIN: per lane `RNE(R · 2^sh)` as a container, saturated (R105). The 12 source registers come as one number. -/
def vljoin (src : Nat) (sh : Int) : Nat × Bool :=
  let rs := (List.range 16).map fun lane =>
    let cls := (List.range 6).map fun s => signed 64 (bits src (1024 * s + 64 * lane) 64)
    wqSat (rneShift (limbRecombine cls) (-sh))
  (packElems 64 (rs.map fun r => wqContainer r.1), rs.any (·.2))

/-! ### Reductions (R100-R102) -/

/-- One level of the tree over optional values. -/
def treeLevel (f : Nat → Nat → ER) : List (Option Nat) → List (Option Nat) × Flags
  | a :: b :: r =>
    let t := treeLevel f r
    match a, b with
    | some x, some y => (some (f x y).1 :: t.1, (f x y).2 ||| t.2)
    | some x, none => (some x :: t.1, t.2)
    | none, y => (y :: t.1, t.2)
  | l => (l, flagNone)

/-- The whole tree: `n` levels. -/
def tree (f : Nat → Nat → ER) : Nat → List (Option Nat) → Flags → Option Nat × Flags
  | 0, l, fl => (l.headD none, fl)
  | n + 1, l, fl => let t := treeLevel f l; tree f n t.1 (fl ||| t.2)

/-- The node operation of VRED.SUM, VRED.MAX, VRED.MIN. -/
def redNode (f : Fmt) (op : Nat) (x y : Nat) : ER :=
  if op = 0x50 then f.add .rne x y else f.maxMin (decide (op = 0x51)) x y

/-- A reduction of the active elements (R100). -/
def reduce (f : Fmt) (op : Nat) (mask : Nat) (xs : List Nat) : ER :=
  let w := f.width
  let l := (List.range xs.length).map fun i => if activeAt mask w i then some (xs.getD i 0) else none
  let t := tree (redNode f op) 4 l flagNone
  match t.1 with
  | some x => (x, t.2)
  | none => (if op = 0x50 then 0 else f.sign (decide (op = 0x51)) f.infCode, flagNone)

/-- VRED into element 0, the rest +0. -/
def vred (op et mask va : Nat) : Nat × Flags :=
  let f := etFmt et
  reduce f op mask (unpack va f.width (512 / f.width))

/-- VRED2.NORM (`norm`) and VRED2.SMAX, phases 0 and 1 (R101, R102). -/
def vred2 (norm phase1 : Bool) (mask va vb vc : Nat) : Nat × Flags :=
  let st := fun i => elem vc 32 i
  let g := unpack va 32 16
  let y := unpack vb 32 16
  let f := fp32
  if phase1 then
    if norm then
      let m1 := f.mul .rne (st 0) (st 3)
      let m2 := f.mul .rne (st 1) (st 3)
      let r := collect mask 32 ((List.range 16).map fun i =>
        let a := f.sub .rne (g.getD i 0) m1.1
        let b := f.fmaV .rne Config.fmaInvalid (f.decode (y.getD i 0)).negate (f.decode m2.1) (f.decode a.1)
        let d := f.mul .rne (st 2) b.1
        (d.1, a.2 ||| b.2 ||| d.2))
      (r.1, r.2 ||| (if mask % 2 ^ 16 = 0 then flagNone else m1.2 ||| m2.2))
    else
      collect mask 32 ((List.range 16).map fun i =>
        let a := f.sub .rne (g.getD i 0) (st 1)
        let d := f.mul .rne (y.getD i 0) a.1
        (d.1, a.2 ||| d.2))
  else
    let ps := (List.range 16).map fun i => f.mul .rne (g.getD i 0) (y.getD i 0)
    let pf := (collect mask 32 ps).2
    let sp := reduce f 0x50 mask (ps.map (·.1))
    let n1 := f.add .rne (st 1) sp.1
    if norm then
      let sg := reduce f 0x50 mask g
      let n0 := f.add .rne (st 0) sg.1
      (putBits (putBits vc 0 32 n0.1) 32 32 n1.1, pf ||| sp.2 ||| sg.2 ||| n0.2 ||| n1.2)
    else (putBits vc 32 32 n1.1, pf ||| sp.2 ||| n1.2)

/-! ### SP1 leaf programs (R106, R107) -/

/-- A leaf operation: code in R106's order, and the value numbers it writes and reads: 0-2 inputs, 3-10 temporaries,
11-26 constants. -/
structure LeafOp where
  code : Nat
  dst : Nat
  a : Nat
  b : Nat
  c : Nat
  deriving DecidableEq, Repr

/-- A leaf program: BF16 or FP32, its operations and constants. -/
structure Leaf where
  narrow : Bool
  ops : List LeafOp
  consts : List Nat
  deriving DecidableEq, Repr

/-- Values an operation reads besides `a`; a compare's third number is its kind. -/
def LeafOp.arity (o : LeafOp) : Nat :=
  if o.code = 3 ∨ o.code = 6 then 3 else if o.code < 8 then 2 else 1

/-- Whether an operation stays within the limits of R106 and within the temporaries and constants its program declares. -/
def LeafOp.ok (temps consts : Nat) (o : LeafOp) : Bool :=
  let val := fun v : Nat => decide (v < 3 + temps) || (decide (11 ≤ v) && decide (v < 11 + consts))
  decide (o.code < 14) && decide (3 ≤ o.dst) && decide (o.dst < 3 + temps) && val o.a
    && (decide (o.arity < 2) || val o.b) && (decide (o.arity < 3) || val o.c) && (o.code != 7 || decide (o.c < 3))

/-- The program a byte string holds, if it is within the limits of R106. The SP1 format itself is not in the spec: what
each field reads as is the free value `Config.leafWord`. (DESIGN CHOICE: log 17) -/
def leafParse (bs : List Byte) : Option Leaf :=
  let g := Config.leafWord bs
  let ver := g 0
  let n := g 1
  let ops := (List.range n).map fun k => LeafOp.mk (g (16 + 5 * k)) (g (17 + 5 * k)) (g (18 + 5 * k)) (g (19 + 5 * k)) (g (20 + 5 * k))
  if (ver = 2 ∨ ver = 3) ∧ 1 ≤ n ∧ n ≤ 32 ∧ g 3 = 3 ∧ g 4 = 1 ∧ g 5 ≤ 8 ∧ g 6 ≤ 16 ∧ ops.all (LeafOp.ok (g 5) (g 6)) then
    some ⟨decide (g 2 = 1), ops, (List.range (g 6)).map fun k => g (200 + k) % 2 ^ 32⟩
  else none

/-- A value with a NaN made canonical (R35). -/
def Fmt.canon (f : Fmt) (x : Nat) : Nat := if (f.decode x).isNan then f.canNan else x

/-- One leaf operation on one element (R107). Select, absolute value and negate raise no flag. -/
def leafElem (f : Fmt) (o : LeafOp) (get : Nat → Nat) : ER :=
  let a := get o.a
  let b := get o.b
  let c := get o.c
  match o.code with
  | 0 => f.add .rne a b
  | 1 => f.sub .rne a b
  | 2 => f.mul .rne a b
  | 3 => f.fmaV .rne Config.fmaInvalid (f.decode a) (f.decode b) (f.decode c)
  | 4 => f.maxMin false a b
  | 5 => f.maxMin true a b
  | 6 => (f.canon (if a ≠ 0 then b else c), flagNone)
  | 7 => let r := f.cmp (if c = 0 then .eq else if c = 1 then .lt else .le) a b; (maskElem f.width r.1, r.2)
  | 8 => (f.canon (a % 2 ^ (f.width - 1)), flagNone)
  | 9 => (f.canon (a ^^^ 2 ^ (f.width - 1)), flagNone)
  | 10 => Trans.exp2.run f a
  | 11 => Trans.log2.run f a
  | 12 => Trans.rcp.run f a
  | _ => Trans.rsq.run f a

/-- A leaf program on one element: the value the last operation writes. -/
def leafRun (p : Leaf) (a b c : Nat) : ER :=
  let f := if p.narrow then bf16 else fp32
  let k := fun x => if p.narrow then (convert fp32 bf16 .rne x).1 else x
  let init : List Nat := [a, b, c] ++ List.replicate 8 0 ++ p.consts.map k
  let r := p.ops.foldl (fun (st : List Nat × Nat × Flags) o =>
    let x := leafElem f o (fun i => st.1.getD i 0)
    (st.1.set o.dst x.1, x.1, st.2.2 ||| x.2)) (init, 0, flagNone)
  (r.2.1, r.2.2)

/-- A leaf program over registers. -/
def vleaf (p : Leaf) (mask va vb vc : Nat) : Nat × Flags :=
  let w := if p.narrow then 16 else 32
  collect mask w ((List.range (512 / w)).map fun i => leafRun p (elem va w i) (elem vb w i) (elem vc w i))

end Sys2Proof.Machine
end

