-- ==== Sys2Proof/Machine/Chain.lean ====
section
/-! DEFINITION. The core's clocked execution: results in flight (R82-R84), the hazard sentinel (R83-R86), ECC on local reads
(R79), bank conflicts (R77), and the issue of one vector word (R89-R107). -/

namespace Sys2Proof.Machine

/-- A core running a descriptor: the core, its memory and flaws, and the descriptor's clock. -/
structure CX where
  c : Core
  mem : Mem
  flaws : Flaws
  gi : Nat
  step : Nat              -- the 64-bit step number (R47)
  hs : Handles            -- handles as latched (R119)
  sh : Nat                -- the shape handle's index
  ix : List Nat           -- loop indices of the iteration
  idx : Nat               -- the descriptor's list index
  tol : Bool              -- HZMODE in force
  last : Option Nat       -- issue cycle of the chain's previous word
  valu : Nat              -- first cycle each pipe is free
  vtu : Nat
  vls : Nat
  vrd : Nat
  accOff : Nat            -- added to ACCRD's index on odd ADBL iterations (R127)
  fetch : Nat → List Nat × Nat  -- banks the operand fetch uses in a cycle, and its reads that wait
  fetchTo : Nat           -- the cycle from which it uses none
  vlsOff : Nat            -- cycles by which bank conflicts have moved the VLS's accesses (R77)
  stores : List (Nat × Nat × List Byte)  -- stores not yet served, oldest first: cycle, address, bytes
  lines : List (Nat × Nat × List Byte)   -- the element buffer: row, line, bytes (R76)
  scales : Option (Nat × List Byte)      -- the scale buffer: one line
  halted : Bool
  faults : List Nat       -- fault kinds raised to the cluster, CLU_FAULT coding

/-- Set the core. -/
def CX.setC (x : CX) (c : Core) : CX := { x with c := c }

/-- Count into a saturating field of the core. -/
def Core.count (c : Core) (r : Reg) (lo w n : Nat) : Core := { c with regs := satField c.regs r 0 lo w n }

/-- Raise flags in CORE_FPFLAGS (R42). -/
def Core.flag (c : Core) (f : Flags) : Core :=
  { c with regs := sg c.regs .CORE_FPFLAGS 0 (rg c.regs .CORE_FPFLAGS ||| f.toNat) }

/-- Log the first hazard event (R86). -/
def Core.hzlog (c : Core) (reg kind desc cyc : Nat) : Core :=
  if rf c.regs .CORE_HZLOG 0 31 1 = 1 then c
  else
    let g := sg c.regs .CORE_HZLOG 0 (reg + kind * 2 ^ 6 + desc % 2 ^ 16 * 2 ^ 8 + 2 ^ 31)
    { c with regs := sg g .CORE_HZCYC 0 (min cyc (2 ^ 32 - 1)) }

def Core.getV (c : Core) (i : Nat) : Nat := Sparse.get (fun _ => 0) c.v i
def Core.getA (c : Core) (i : Nat) : Nat := Sparse.get (fun _ => 0) c.acc i

/-- The committed value of sentinel register `r` (0-31 V, 32-39 A). -/
def Core.getR (c : Core) (r : Nat) : Nat := if r < 32 then c.getV r else c.getA (r - 32)

def Core.setR (c : Core) (r v : Nat) : Core :=
  if r < 32 then { c with v := Sparse.set (fun _ => 0) c.v r (v % 2 ^ 512) }
  else { c with acc := Sparse.set (fun _ => 0) c.acc (r - 32) (v % 2 ^ 1024) }

/-- One plus the issue order of the last result a register kept. -/
def Core.landedSeq (c : Core) (r : Nat) : Nat := Sparse.get (fun _ => 0) c.landed r

/-- The pending bit of R82: a result of the latest-issued writer has not landed. -/
def Core.pending (c : Core) (r : Nat) : Bool := c.flights.any fun f => f.reg == r && decide (c.landedSeq r ≤ f.seq)

/-- Land one result (R84): kept unless a later-issued one has landed, which counts as WAW and is logged. -/
def Core.landOne (c : Core) (desc : Nat) (f : Flight) : Core :=
  if c.landedSeq f.reg ≤ f.seq then
    { c.setR f.reg f.val with landed := Sparse.set (fun _ => 0) c.landed f.reg (f.seq + 1) }
  else (c.count .CORE_HZCNT 16 16 1).hzlog f.reg 1 desc f.due

/-- Insert by due cycle, then by falling issue order, so that of two results of one cycle the later-issued lands first
and the other is kept over. -/
def flightIns (f : Flight) : List Flight → List Flight
  | [] => [f]
  | g :: r => if f.due < g.due ∨ (f.due = g.due ∧ g.seq < f.seq) then f :: g :: r else g :: flightIns f r

/-- Land every result due by cycle `t`. -/
def Core.land (c : Core) (desc t : Nat) : Core :=
  let now := (c.flights.filter fun f => decide (f.due ≤ t)).foldr flightIns []
  now.foldl (fun c f => c.landOne desc f) { c with flights := c.flights.filter fun f => !decide (f.due ≤ t) }

/-- The last cycle any result in flight lands. -/
def Core.drainAt (c : Core) (t : Nat) : Nat := c.flights.foldl (fun a f => max a f.due) t

/-- Put a result in flight. -/
def Core.fly (c : Core) (reg due val : Nat) (cls : Option RowClass) : Core :=
  { c with flights := c.flights ++ [⟨reg, due, c.seq, val, cls⟩], seq := c.seq + 1 }

/-- Halt the core (R86): CAUSE, and the fault kind the cluster receives. -/
def CX.halt (x : CX) (cause kind : Nat) : CX :=
  { x with c := { x.c with regs := sf (sf x.c.regs .CORE_STAT 0 0 1 1) .CORE_STAT 0 1 3 cause }
           halted := true, faults := x.faults ++ [kind] }

/-- Parameter register of the active bank. -/
def Core.prm (c : Core) (i : Nat) : Nat := rg c.regs .CORE_PRM i

/-! ### ECC (R79) -/

/-- Whether a mask flips one bit. -/
def onebit (m : Nat) : Bool := decide (m ≠ 0) && decide (m = 2 ^ Nat.log2 m)

/-- A flawed or clean word with the bits of `m` flipped as well: what is stored, and its flaw. -/
def struck (old : Option Flaw) (data m : Nat) : Nat × Option Flaw :=
  let p := match old with
    | none => (data, 0)
    | some (.single b) => (data, b)
    | some (.double b) => (data ^^^ b, b)
  let flips := p.2 ^^^ m
  if flips = 0 then (p.1, none)
  else if onebit flips then (p.1, some (.single flips))
  else (p.1 ^^^ flips, some (.double flips))

/-- An upset strikes a stored word (R79, R168). -/
def strike (mem : Mem) (fl : Flaws) (u : Upset) : Mem × Flaws :=
  let r := struck (Sparse.get (fun _ => none) fl u.word) (leNat (mgets mem (8 * u.word) 8)) (u.mask % 2 ^ 64)
  (msets mem (8 * u.word) (toLe 8 r.1), Sparse.set (fun _ => none) fl u.word r.2)

/-- An upset strikes word `k` of a core's slots (R79). -/
def Core.strikeSlot (c : Core) (k mask : Nat) : Core :=
  let w := k % 34
  let key := if w < 32 then k / 34 else 64 + k / 34
  let lo := 64 * (if w < 32 then w else w - 32)
  let old := Sparse.get (fun _ => 0) c.slots key
  let r := struck (Sparse.get (fun _ => none) c.slotFlaws k) (bits old lo 64) (mask % 2 ^ 64)
  { c with slots := Sparse.set (fun _ => 0) c.slots key (putBits old lo 64 r.1)
           slotFlaws := Sparse.set (fun _ => none) c.slotFlaws k r.2 }

/-- The flaw of a word. -/
def flawOf (fl : Flaws) (w : Nat) : Option Flaw := Sparse.get (fun _ => none) fl w

/-- The corrected word of a pending write-back is written (R79, R168): an upset that struck it meanwhile is undone. -/
def writeBack (mem : Mem) (fl : Flaws) (w : Nat) : Mem × Flaws :=
  (match flawOf fl w with
   | some (.double b) => msets mem (8 * w) (toLe 8 (leNat (mgets mem (8 * w) 8) ^^^ b))
   | _ => mem, Sparse.set (fun _ => none) fl w none)

/-- A write makes the words it touches whole again and cancels their write-backs. -/
def healed (fl : Flaws) (a n : Nat) : Flaws := Sparse.dropWhere (fun w => decide (a / 8 ≤ w) && decide (w ≤ (a + n - 1) / 8)) fl

def wbCancel (wb : List Nat) (a n : Nat) : List Nat := wb.filter fun w => !(decide (a / 8 ≤ w) && decide (w ≤ (a + n - 1) / 8))

/-- Whether a pending write-back occupies the bank of word `w` (banks by address bits [6:5], R76). -/
def bankOf (w : Nat) : Nat := w / 4 % 4

/-- Account for the flaws of the words of a local read at `[a, a + n)`: count corrections, queue write-backs, and say
whether an uncorrectable word was read. -/
def Core.eccRead (c : Core) (fl : Flaws) (a n : Nat) : Core × Bool :=
  if n = 0 then (c, false)
  else
    let bad := fl.filter fun e => decide (a / 8 ≤ e.1) && decide (e.1 ≤ (a + n - 1) / 8)
    bad.foldl (fun (st : Core × Bool) e =>
      match e.2 with
      | some (.single _) =>
        if st.1.wb.contains e.1 then st
        else
          let c := st.1.count .CORE_ECC 0 16 1
          if c.wb.any (fun w => bankOf w == bankOf e.1) then (c, st.2) else ({ c with wb := c.wb ++ [e.1] }, st.2)
      | some (.double _) => ({ st.1 with regs := sf st.1.regs .CORE_ECC 0 16 1 1 }, true)
      | none => st) (c, false)

/-- Read `n` bytes of local memory at offset `a`, with the ECC outcome. -/
def CX.readLocal (x : CX) (a n : Nat) : CX × List Byte :=
  let p := localBase x.gi + a
  let r := x.c.eccRead x.flaws p n
  let x' := { x with c := r.1 }
  (if r.2 then x'.halt 3 2 else x', mgets x.mem p n)

/-- Write bytes of local memory. -/
def CX.writeLocal (x : CX) (a : Nat) (bs : List Byte) : CX :=
  let p := localBase x.gi + a
  { x with mem := msets x.mem p bs, flaws := healed x.flaws p bs.length
           c := { x.c with wb := wbCancel x.c.wb p bs.length } }

/-- The stores served by cycle `t` are made. -/
def CX.landStores (x : CX) (t : Nat) : CX :=
  let now := x.stores.takeWhile fun e => decide (e.1 ≤ t)
  now.foldl (fun (x : CX) e => x.writeLocal e.2.1 e.2.2) { x with stores := x.stores.drop now.length }

/-- Every store is made. -/
def CX.storesDone (x : CX) : CX := x.stores.foldl (fun (x : CX) e => x.writeLocal e.2.1 e.2.2) { x with stores := [] }

/-- The words of a slot a broadcast reads, data words `lo` to `hi` of every lane and one scale word (R79): a corrected word is counted and
written back at once; an uncorrectable one sets CORE_ECC.UE and halts the core. -/
def CX.slotRead (x : CX) (slot lo hi : Nat) (scale : Option Nat) : CX :=
  let hit := fun k : Nat => decide (k / 544 = slot)
    && ((decide (lo ≤ k % 34) && decide (k % 34 ≤ hi) && decide (k % 34 < 32)) || scale == some (k % 34))
  let bad := x.c.slotFlaws.filter fun e => hit e.1
  if bad.isEmpty then x
  else
    let two := bad.filter fun e => match e.2 with
      | some (.double _) => true
      | _ => false
    let c := x.c.count .CORE_ECC 0 16 (bad.length - two.length)
    let c := { c with slotFlaws := c.slotFlaws.filter fun e => !hit e.1 || two.contains e }
    if two.isEmpty then { x with c := c }
    else ({ x with c := { c with regs := sf c.regs .CORE_ECC 0 16 1 1 } }).halt 3 2

/-- Words of a slot that are written are whole again: the first `nd` data words and `ns` scale words of every lane. -/
def Core.slotWritten (c : Core) (slot nd ns : Nat) : Core :=
  { c with slotFlaws := Sparse.dropWhere (fun k => decide (k / 544 = slot)
      && (decide (k % 34 < min nd 32) || (decide (32 ≤ k % 34) && decide (k % 34 < 32 + ns)))) c.slotFlaws }

/-! ### Vector words -/

def vUsesB : List Nat :=
  [0x01, 0x02, 0x03, 0x04, 0x05, 0x06, 0x07, 0x0A, 0x0B, 0x0C, 0x0E, 0x10, 0x11, 0x12, 0x13, 0x14, 0x15, 0x16, 0x17, 0x18,
   0x21, 0x58, 0x59, 0x70]
def vUsesC : List Nat := [0x04, 0x05, 0x0E, 0x22, 0x58, 0x59, 0x70]
/-- The instructions that R93 rounds by the word's mode, and that RM 0b111 therefore makes a VNOP (R94); a reduction, a VRED2, a VLJOIN and a
transcendental round as their rules fix and ignore RM. (DEDUCED: log 98) -/
def vRounds : List Nat := [0x01, 0x02, 0x03, 0x04, 0x05, 0x18, 0x19, 0x20, 0x21]
def vOps : List Nat :=
  [0x00, 0x01, 0x02, 0x03, 0x04, 0x05, 0x06, 0x07, 0x08, 0x09, 0x0A, 0x0B, 0x0C, 0x0D, 0x0E, 0x0F, 0x10, 0x11, 0x12, 0x13,
   0x14, 0x15, 0x16, 0x17, 0x18, 0x19, 0x20, 0x21, 0x22, 0x23, 0x24, 0x30, 0x31, 0x32, 0x33, 0x40, 0x50, 0x51, 0x52, 0x58,
   0x59, 0x60, 0x61, 0x62, 0x63, 0x64, 0x65, 0x66, 0x67, 0x68, 0x70]

/-- Whether an opcode moves memory. -/
def vMem (op : Nat) : Bool := [0x30, 0x31, 0x32, 0x33].contains op

/-- Bytes a load or store moves (R98). -/
def vLen (op part : Nat) : Nat :=
  if op = 0x31 then 64 - 16 * part
  else if op = 0x33 then 64 / 2 ^ part
  else 64

/-- The local-memory address of a load or store in the iteration (R98). -/
def CX.vAddr (x : CX) (w : Nat) : Int :=
  let h := hget x.hs (vImm w)
  (if vOp w = 0x30 ∨ vOp w = 0x31 then hPos h x.ix else hPos2 h x.ix) + (64 * vOff w : Nat)

/-- Whether a load or store is aligned, inside local memory, and through a usable handle (R98). -/
def CX.vMemLegal (x : CX) (w : Nat) : Bool :=
  let h := hget x.hs (vImm w)
  let a := x.vAddr w
  let n := vLen (vOp w) (vPart w)
  let al := if n = 48 then 16 else n
  decide (hFmt h ≠ 15) && !hSpace h && decide (0 ≤ a) && decide (a + n ≤ 16384) && decide (a % (al : Int) = 0)

/-- The words R94 executes as VNOP are those this refuses. ET 0b110 and 0b111 are refused on every word but a VCVT and a VNOP, also on one that does
not use ET; the MX converts take FP32 alone; and BSRC with an odd IMM6 is refused where the word has a VB operand. (DEDUCED: log 98) -/
def CX.vLegal (x : CX) (w : Nat) : Bool :=
  let op := vOp w
  let et := vEt w
  vOps.contains op && (!vClr w || op == 0x40)
    && (!vRounds.contains op || vRm w != 7)
    && (!(vBsrc w && vUsesB.contains op && decide (etBits et = 64)) || vImm w % 2 == 0)
    && (if op = 0 then true
        else if op = 0x20 then cvtLegal et (vTf w) (4 * vHalf w + vPart w)
        else if 6 ≤ et then false
        else if op = 0x21 ∨ op = 0x22 then
          et == 0 && (mxTf (vTf w)).isSome && decide (vPart w < (if vTf w = 12 then 4 else 2))
        else if op = 0x23 then et == 5
        else if op = 0x24 then vVa w % 2 == 0 && decide (vVa w ≤ 20) && vVd w % 2 == 0
        else if op = 0x40 then et == 0 || et == 1 || ((et == 4 || et == 5) && vVd w % 2 == 0)
        else if op = 0x50 ∨ op = 0x51 ∨ op = 0x52 then et == 0 || et == 4
        else if op = 0x58 ∨ op = 0x59 then et == 0 && (vPart w % 2 == 1 || vVd w == vVc w)
        else if 0x60 ≤ op ∧ op ≤ 0x68 then et == 0 || et == 2 || et == 3
        else if op ≤ 0x0D ∨ op = 0x18 ∨ op = 0x19 then etFloat et
        else if 0x13 ≤ op ∧ op ≤ 0x17 then etInt et
        else if vMem op then x.vMemLegal w
        else true)

/-- The pipes of R89. -/
inductive Pipe where
  | none | valu | vtu | vls | vrd | both
  deriving DecidableEq, Repr

/-- Pipe, occupancy and latency of a word (R93); VLEAF's depend on its `n`. -/
def vTiming (w n : Nat) : Pipe × Nat × Nat :=
  let op := vOp w
  let c := etCol (vEt w)
  if op = 0 then (.none, 0, 0)
  else if op ≤ 0x05 then (.valu, 4, if c = 2 then 8 else 6)
  else if op ≤ 0x17 then (.valu, 4, 4)
  else if op = 0x18 ∨ op = 0x19 then (.vtu, if c = 1 then 32 else 16, if c = 1 then 36 else if c = 2 then 22 else 20)
  else if op = 0x20 then (.valu, 4, if c = 2 ∨ vTf w = 0 ∨ vTf w = 7 then 8 else 6)
  else if op = 0x21 then (.valu, 8, 8)
  else if op = 0x22 then (.valu, 4, 6)
  else if op = 0x23 then (.valu, 4, 4)
  else if op = 0x24 then (.valu, 8, 12)
  else if op = 0x30 ∨ op = 0x32 then (.vls, 1, 3)
  else if op = 0x31 ∨ op = 0x33 then (.vls, 1, 0)
  else if op = 0x40 then (.vrd, 1, 2)
  else if op ≤ 0x52 then (.valu, 4, 10)
  else if op ≤ 0x59 then (.valu, 4, if vPart w % 2 = 1 then 8 else 12)
  else if op ≤ 0x68 then (.vtu, if c = 1 then 32 else 16, if c = 1 then 38 else 22)
  else (.both, 16 * n, 16 * n + 4)

/-- The first cycle a pipe is free. -/
def CX.pipeFree (x : CX) (p : Pipe) : Nat :=
  match p with
  | .none => 0
  | .valu => x.valu
  | .vtu => x.vtu
  | .vls => x.vls
  | .vrd => x.vrd
  | .both => max x.valu x.vtu

def CX.pipeBusy (x : CX) (p : Pipe) (t : Nat) : CX :=
  match p with
  | .none => x
  | .valu => { x with valu := t }
  | .vtu => { x with vtu := t }
  | .vls => { x with vls := t }
  | .vrd => { x with vrd := t }
  | .both => { x with valu := t, vtu := t }

/-- The bytes from PRM[IMM6] to the end of local memory, where a VLEAF's program begins. -/
def CX.leafBytes (x : CX) (w : Nat) : List Byte :=
  let a := x.c.prm (vImm w)
  mgets x.storesDone.mem (localBase x.gi + a) (16384 - a)

/-- The leaf program a VLEAF names (R106). -/
def CX.leafOf (x : CX) (w : Nat) : Option Leaf := if x.c.prm (vImm w) < 16384 then leafParse (x.leafBytes w) else none

/-- A VLEAF reads its program from local memory, through its ECC (R79). -/
def CX.leafRead (x : CX) (w : Nat) : CX :=
  let a := x.c.prm (vImm w)
  (x.readLocal a (min (16384 - a) (Config.leafSize (x.leafBytes w)))).1

/-- The cycle R90 gives a word. -/
def CX.slotOf (x : CX) (w : Nat) : Nat := match x.last with | none => vDly w | some t => t + 1 + vDly w

/-- Whether a word executes; otherwise it is a VNOP that counts in ILLEGAL (R94, R106). -/
def CX.vRuns (x : CX) (w : Nat) : Bool := x.vLegal w && (vOp w != 0x70 || (x.leafOf w).isSome)

/-- The leaf length, for the timing of VLEAF. -/
def CX.leafN (x : CX) (w : Nat) : Nat := if vOp w = 0x70 then (x.leafOf w).elim 0 (·.ops.length) else 0

/-- The cycle a word issues in, after any structural wait (R91). -/
def CX.issueAt (x : CX) (w : Nat) : Nat :=
  let t := x.slotOf w
  if x.vRuns w then max t (x.pipeFree (vTiming w (x.leafN w)).1) else t

/-- Accumulator index of an ACCRD, moved on odd ADBL iterations (R127). -/
def CX.accIdx (x : CX) (w : Nat) : Nat := (vVa w % 8 + x.accOff) % 8

/-- The registers a word reads, for the sentinel (R83). -/
def CX.vSources (x : CX) (w : Nat) : List Nat :=
  let op := vOp w
  let b := if vUsesB.contains op && !vBsrc w then [vVb w] else []
  let c := if vUsesC.contains op then [vVc w] else []
  (if op = 0 ∨ op = 0x30 ∨ op = 0x32 then []
   else if op = 0x24 then (List.range 12).map (vVa w + ·)
   else if op = 0x40 then [32 + x.accIdx w]
   else if op = 0x20 then
     [vVa w] ++ (match cvtDst (vTf w) with
       | some t => if cvtN (cvtSrc (vEt w)) t < 512 / t.bits then [vVd w] else []
       | none => [])
   else if op = 0x21 then [vVa w] ++ b ++ [vVd w, vVc w]
   else [vVa w] ++ b ++ c).eraseDups

/-- The scalar of BSRC as a whole register (R95). -/
def CX.bcast (x : CX) (w : Nat) : Nat :=
  let et := vEt w
  let n := 512 / etBits et
  let s := if etBits et = 64 then x.c.prm (vImm w) + 2 ^ 32 * x.c.prm (vImm w + 1) else x.c.prm (vImm w)
  packElems (etBits et) (List.replicate n s)

/-- The static rounding mode of a word, SR as RNE (R38, R39). -/
def CX.rmOf (x : CX) (w : Nat) : Nat := if vRm w = 6 then rg x.c.regs .CORE_FPCTL else vRm w

def rmode (n : Nat) : RMode :=
  match n with
  | 1 => .rtz | 2 => .rdn | 3 => .rup | 4 => .rna | _ => .rne

/-- The rounding mode of destination element `j`: SR draws from the shape handle's TID and index (R39, R47, R96). -/
def CX.rmElem (x : CX) (w : Nat) (srTarget : Bool) (j : Nat) : RMode :=
  if x.rmOf w = 5 then
    if srTarget then
      let h := hget x.hs x.sh
      .sr (srBits x.step (hTid h) (hIndex h (hget x.hs (x.sh + 1)) x.ix j))
    else .rne
  else rmode (x.rmOf w)

/-- The iteration's 16-bit active-slot mask (R118). -/
def CX.mask (x : CX) : Nat :=
  let h := hget x.hs x.sh
  (List.range 16).foldl (fun a s => if maskBit h x.ix s then a + 2 ^ s else a) 0

/-- The width of an element of the handle a load or store names. -/
def CX.memWidth (x : CX) (w : Nat) : Nat := let h := hget x.hs (vImm w); if hFmt h = 11 then 64 else fmtBits (hFmt h)

/-- Whether element `e` of the handle's array, counted along dimension 0 from its position, is active (R99): by the slot that holds its bit 0, which may
lie in the line before, and by the handle's own extents. -/
def CX.elemActive (x : CX) (w mask e : Nat) : Bool :=
  let h := hget x.hs (vImm w)
  bit mask (x.memWidth w * e / 32 % 16) && decide (x.ix.getD 0 0 * hT0 h + e < hE h 0)
    && decide (x.ix.getD 1 0 < hE h 1) && decide (x.ix.getD 2 0 < hE h 2) && decide (x.ix.getD 3 0 < hE h 3)

/-- Keep the active elements of `new`, the rest from `old`, over `n` bytes from the line OFF names. An element of FP6 may begin or end in the middle
of the line. -/
def CX.maskedBytes (x : CX) (w mask n old new : Nat) : Nat :=
  let b := x.memWidth w
  let lo := 512 * vOff w
  let hi := lo + 8 * n
  (List.range ((8 * n + b - 1) / b + 1)).foldl (fun a k =>
    let e := lo / b + k
    let p := max (b * e) lo
    let q := min (b * e + b) hi
    if p < q ∧ x.elemActive w mask e then putBits a (p - lo) (q - p) (bits new (p - lo) (q - p)) else a) old % 2 ^ (8 * n)

/-- The cycle the VLS serves an access that it makes at `t`: an operand fetch of the same bank wins (R77). The fetch ends within `n` cycles. -/
def vlsServe (fetch : Nat → List Nat × Nat) (banks : List Nat) : Nat → Nat → Nat
  | 0, t => t
  | n + 1, t => if banks.any (fun b => (fetch t).1.contains b) then vlsServe fetch banks n (t + 1) else t

/-- Run a load or store at cycle `t` (R98, R99). Each cycle lost to a bank conflict moves the access and every later one, and a delayed store
writes when it is served (R77). (DEDUCED: log 22) -/
def CX.vMemRun (x : CX) (w t : Nat) : CX :=
  let op := vOp w
  let a := (x.vAddr w).toNat
  let n := vLen op (vPart w)
  let banks := [a / 32 % 4, (a + n - 1) / 32 % 4]
  let at_ := t + x.vlsOff
  let served := vlsServe x.fetch banks (x.fetchTo - at_) at_
  let x := { x with c := x.c.count .CORE_BKCNT 0 16 (served - at_), vlsOff := served - t }
  let mask := x.mask
  let y := x.storesDone
  if op = 0x30 ∨ op = 0x32 then
    let r := y.readLocal a 64
    let v := leNat r.2
    let v := if op = 0x30 then r.1.maskedBytes w mask 64 0 v else v
    { x with c := r.1.c.fly (vVd w) (served + 3) v none, halted := r.1.halted, faults := r.1.faults }
  else
    let src := x.c.getV (vVa w) % 2 ^ (8 * n)
    let old := leNat (mgets y.mem (localBase x.gi + a) n)
    let v := if op = 0x31 then x.maskedBytes w mask n old src else src
    ({ x with stores := x.stores ++ [(served, a, toLe n v)] }).landStores t

/-- The destinations of a computing word: (register, value) pairs, flags, and whether limbs saturated. -/
def CX.vCompute (x : CX) (w : Nat) : List (Nat × Nat) × Flags × Bool :=
  let op := vOp w
  let et := vEt w
  let mask := x.mask
  let va := x.c.getV (vVa w)
  let vb := if vBsrc w && vUsesB.contains op then x.bcast w else x.c.getV (vVb w)
  let vc := x.c.getV (vVc w)
  let vd := x.c.getV (vVd w)
  if op = 0x20 then
    let sr := vTf w = 3 ∨ vTf w = 4 ∨ vTf w = 5
    let r := vcvt et (vTf w) (4 * vHalf w + vPart w) (x.rmElem w (decide sr)) (signed 16 (x.c.prm (vImm w))) mask va vd
    ([(vVd w, r.1)], r.2, false)
  else if op = 0x21 then
    match mxTf (vTf w) with
    | none => ([], flagNone, false)
    | some f =>
      let sr := vTf w = 8 ∨ vTf w = 9 ∨ vTf w = 12
      let r := vcvtMx f (vPart w) (fun i => x.rmElem w (decide sr) (32 * vPart w + i)) mask va vb vd
      if vVc w = vVd w then ([(vVd w, putBits r.1 (8 * vImm w) 8 r.2.1)], r.2.2, false)
      else ([(vVd w, r.1), (vVc w, putBits vc (8 * vImm w) 8 r.2.1)], r.2.2, false)
  else if op = 0x22 then
    match mxTf (vTf w) with
    | none => ([], flagNone, false)
    | some f =>
      let r := vcvtwMx f (vPart w) (vHalf w) (bits vc (8 * vImm w) 8) mask va
      ([(vVd w, r.1)], r.2, false)
  else if op = 0x23 then ([(vVd w, vlsplit va)], flagNone, false)
  else if op = 0x24 then
    let src := packElems 512 ((List.range 12).map fun i => x.c.getV (vVa w + i))
    let r := vljoin src (signed 32 (x.c.prm (vImm w)))
    ([(vVd w, r.1 % 2 ^ 512), (vVd w + 1, r.1 / 2 ^ 512)], flagNone, r.2)
  else if op = 0x40 then
    let a := x.c.getA (x.accIdx w)
    if et = 4 ∨ et = 5 then ([(vVd w, a % 2 ^ 512), (vVd w + 1, a / 2 ^ 512)], flagNone, false)
    else ([(vVd w, packElems 32 ((List.range 16).map fun i => bits a (64 * i) 32))], flagNone, false)
  else if op = 0x50 ∨ op = 0x51 ∨ op = 0x52 then
    let r := vred op et mask va
    ([(vVd w, r.1)], r.2, false)
  else if op = 0x58 ∨ op = 0x59 then
    let r := vred2 (op == 0x58) (vPart w % 2 == 1) mask va vb vc
    ([(vVd w, r.1)], r.2, false)
  else if op = 0x70 then
    match x.leafOf w with
    | none => ([], flagNone, false)
    | some p => let r := vleaf p mask va vb vc; ([(vVd w, r.1)], r.2, false)
  else
    let r := elementWise op et (rmode (x.rmOf w)) mask va vb vc
    ([(vVd w, r.1)], r.2, false)

/-- The sentinel at issue (R83): STRICT halts on the first pending source, TOLERANT counts and logs each. CORE_HZCNT.RAW counts in TOLERANT mode,
as its field says. (DEDUCED: log 96) -/
def CX.sentinel (x : CX) (t : Nat) (srcs : List Nat) : CX :=
  let bad := srcs.filter fun r => x.c.pending r
  match bad with
  | [] => x
  | r :: _ =>
    if x.tol then
      { x with c := bad.foldl (fun c r => (c.count .CORE_HZCNT 0 16 1).hzlog r 0 x.idx t) x.c }
    else ({ x with c := x.c.hzlog r 0 x.idx t }).halt 1 0

/-- Clear accumulator `j` as a write issued now (R70, R82). -/
def Core.clearAcc (c : Core) (j : Nat) : Core :=
  { c.setR (32 + j) 0 with landed := Sparse.set (fun _ => 0) c.landed (32 + j) (c.seq + 1), seq := c.seq + 1 }

/-- Put a word's results in flight and finish its issue. -/
def CX.vFinish (x : CX) (w t lat : Nat) : CX :=
  let x := if vOp w = 0x70 then x.leafRead w else x
  let r := x.vCompute w
  let c := x.c.flag r.2.1
  let c := if r.2.2 then { c with regs := sf c.regs .CORE_STAT 0 5 1 1 } else c
  let c := r.1.foldl (fun c d => c.fly d.1 (t + lat) d.2 none) c
  let c := if vOp w = 0x40 && vClr w then c.clearAcc (x.accIdx w) else c
  { x with c := c }

/-- Issue one vector word (R89-R107). Nothing issues on a halted core. (DEDUCED: log 23) -/
def CX.vIssue (x : CX) (w : Nat) : CX :=
  if x.halted then x
  else if !x.vRuns w then
    { x with c := x.c.count .CORE_VSTAT 16 8 1, last := some (x.slotOf w) }
  else
    let tm := vTiming w (x.leafN w)
    let t := x.issueAt w
    let x := ({ x with c := (x.c.count .CORE_VSTAT 0 16 (t - x.slotOf w)).land x.idx t }).landStores t
    let x := x.sentinel t (x.vSources w)
    if x.halted then x
    else
      let x := (x.pipeBusy tm.1 (t + tm.2.1))
      let x := { x with last := some t }
      if vOp w = 0 then x
      else if vMem (vOp w) then x.vMemRun w t
      else x.vFinish w t tm.2.2

end Sys2Proof.Machine
end

