-- ==== Sys2Proof/Machine/State.lean ====
section
/-! DEFINITION. The whole state of the module as plain data, its reset value, and the reasons a step can stop. -/

namespace Sys2Proof.Machine

/-- A fault. No command raises one: an access the spec says does not exist is discarded and reads zeros (R138, R163). -/
inductive Fault where
  /-- Raised by nothing: kept so that the type is inhabited. Safe. -/
  | none
  deriving DecidableEq, Repr

/-- Why a command has no meaning. -/
inductive Refusal where
  /-- Raised by `exec` for a command whose meaning is not modelled yet. Safe: no next state is claimed. -/
  | notModelled (mnemonic : String)
  deriving DecidableEq, Repr

/-- A Common Event Record (R339). -/
structure Event where
  log : Nat
  status : Nat
  kind : Nat
  idx : Nat
  step : Nat
  tick : Nat
  arg : Nat
  deriving DecidableEq, Repr

/-- What a full log keeps of the records it drops: count, and the ticks of the first and last (R339). -/
structure Lost where
  n : Nat
  first : Nat
  last : Nat
  deriving DecidableEq, Repr

/-- A weight-front stream at a controller (R173): its stack, its head core, and how many of its packets have still to reach it. -/
structure Stream where
  stack : Nat
  head : Nat
  left : Nat
  deriving DecidableEq, Repr

/-- A CLU_FRONTGO write held until the controller has a place (R173): who wrote it, the cluster, the stack, the entry, and when. -/
structure HeldGo where
  who : Agent
  ci : Nat
  stack : Nat
  entry : Nat
  tick : Nat
  deriving DecidableEq, Repr

/-- A QUIESCE (R156): its identifier and start tick, whether the hub has QUIESCED, and whether it has reported the timeout. -/
structure Quiesce where
  id : Nat
  start : Nat
  done : Bool
  late : Bool
  deriving DecidableEq, Repr

/-- The Rake's open accumulation (R253). -/
structure Rake where
  acc : Nat
  nf : Nat
  abs : Nat
  drop : Nat
  sat : Bool
  deriving DecidableEq, Repr

def Rake.init : Rake := ⟨0, 0, 0, 0, false⟩

/-- The module. -/
structure State where
  mem : Mem                        -- DPA space: HBM, cluster stores, local memories (R162)
  flaws : Flaws                    -- outstanding ECC flaws, by 64-bit word
  hub : Regs                       -- hub window registers, by BAR2 offset (R321)
  mbx : Regs                       -- MBX_ registers, by BAR0 offset (R340)
  cores : Fam Core                 -- by logical gi (R162)
  clusters : Fam Cluster           -- by logical ci
  outbox : List Packet             -- packets that quiet endpoints have ready and may not inject yet (R156)
  net : List Packet                -- packets in flight, in order of injection (R144)
  frontTab : List (Nat × Nat)      -- front tables, key 256·stack + entry: 128 bits (R173)
  frontQ : List (Nat × Nat × Nat)  -- launch requests queued: stack, entry, requesting cluster
  streams : List Stream
  frontHeld : List HeldGo          -- CLU_FRONTGO writes held, oldest first
  quietG : List Endpoint           -- Grafters and HBM controllers that QUIESCE has stopped
  quiescedG : List Endpoint        -- those that have reported QUIESCED
  quiesce : Option Quiesce         -- the QUIESCE in force (R156)
  barrier : Option Nat             -- the barrier every cluster has arrived at, to be released
  rake : Rake                      -- the open Rake (R253)
  step : StepState
  sieve : Sieve
  layers : List (Nat × Nat)        -- layer table: entry to 512 bits (R199)
  layersNext : List (Nat × Nat)    -- entries that take effect at the next boundary
  factors : List (Nat × Nat)       -- factor table: entry to 512 bits; an unlisted entry is empty (R201)
  grafters : List Grafter
  coll : Coll
  links : Links
  harvest : Harvest
  rel : Rel
  gauge : Gauge
  mb : Mailbox
  host : HostSide
  sec : Security
  rst : Sampler
  pwr : Power
  fac : Facility
  hubFlitCe : Nat                  -- corrected flit errors at the hub ports since the last sample (R149)
  sundial : Nat
  logs : List Event                -- the four event logs, oldest first (R339)
  logLost : List (Nat × Lost)      -- by log
  policy : List Nat                -- Event Interrupt Policy: vector of each log, 0 for none (R340)
  msix : List (Nat × Nat)          -- times each MSI-X vector has been raised
  fresh : Nat                      -- the model's own counter of free values drawn
  pending : List Instr             -- the commands waiting, first in first out
  deriving DecidableEq, Repr

/-- An empty factor-table entry: PVER all ones, everything else zero (R201). (DESIGN CHOICE: log 5) -/
def emptyFactor : Nat := (2 ^ 64 - 1) * 2 ^ 192

/-- LEXP and WQ of each channel at first power-on (R364). -/
def binLexpWq (c : Nat) : Int × Nat :=
  if c ≤ 8 then (4, 1)
  else if c ≤ 16 then (0, 2)
  else if c ≤ 32 then (0, 4)
  else if c ≤ 36 then (-50, 6)
  else if c ≤ 38 then (0, 8)
  else if c = 39 then (-8, 4)
  else if c ≤ 41 then (0, 2)
  else if c = 42 then (10, 4)
  else if c = 43 then (4, 4)
  else if c = 44 then (0, 6)
  else if c ≤ 48 then (0, 4)
  else if c = 49 then (10, 2)
  else if c = 50 then (5, 1)
  else if c ≤ 52 then (0, 4)
  else if c ≤ 60 then (0, 2)
  else if c = 61 then (0, 8)
  else (0, 4)

/-- RGA_BIN of each channel at first power-on. -/
def binDefaults : List (Nat × Nat) :=
  (List.range 64).map fun c => (c, unsigned 8 (binLexpWq c).1 + 256 * ((binLexpWq c).2 - 1))

/-- The hub windows at first power-on, after release: every register at its stated value, RGA_BIN at R364's, every PLL locked (R376, R390).
(DEDUCED: log 63) -/
def initHub : Regs := binDefaults.foldl (fun f e => sg f .RGA_BIN e.1 e.2) (sg (initRegs .hub) .CLK_STAT 0 0x3FFFFF)

def Gauge.init : Gauge :=
  { win := Window.new 0 0 true 2 binDefaults, seq := 0, floor := 0, ring := [], clearLog := [], writing := none, queued := none
    due := 900000000000, discards := 0 }

/-- The module after first power-on and POR release (R375, R384). -/
def State.reset : State :=
  { mem := [], flaws := [], hub := initHub, mbx := initRegs .mailbox
    cores := ⟨Core.init, []⟩, clusters := ⟨Cluster.init, []⟩, outbox := [], net := [], frontTab := [], frontQ := [], streams := []
    frontHeld := [], quietG := [], quiescedG := [], quiesce := none, barrier := none, rake := Rake.init
    step := StepState.init, sieve := Sieve.init, layers := [], layersNext := [], factors := []
    grafters := List.replicate 8 Grafter.init, coll := Coll.init, links := Links.init, harvest := Harvest.init
    rel := Rel.init, gauge := Gauge.init, hubFlitCe := 0, mb := Mailbox.init, host := HostSide.init, sec := Security.init, rst := Sampler.init
    pwr := Power.init, fac := Facility.init
    sundial := 0, logs := [], logLost := [], policy := [3, 3, 4, 4], msix := [], fresh := 0, pending := [] }

end Sys2Proof.Machine
end

