-- ==== Sys2Proof/Machine/Flags.lean ====
section
/-! DEFINITION. Register access on the whole state, and the counters and sticky bits of R11-R13 as named operations. -/

namespace Sys2Proof.Machine

/-- The outcome type of a meaning. -/
abbrev Out := Host.Outcome State Fault Refusal

def State.h (s : State) (r : Reg) (i : Nat := 0) : Nat := rg s.hub r i
def State.hf (s : State) (r : Reg) (i lo w : Nat) : Nat := rf s.hub r i lo w
def State.setH (s : State) (r : Reg) (i v : Nat) : State := { s with hub := sg s.hub r i v }
def State.setHf (s : State) (r : Reg) (i lo w v : Nat) : State := { s with hub := sf s.hub r i lo w v }
def State.satH (s : State) (r : Reg) (i lo w n : Nat) : State := { s with hub := satField s.hub r i lo w n }

def State.core (s : State) (gi : Nat) : Core := s.cores.get gi
def State.setCore (s : State) (gi : Nat) (c : Core) : State := { s with cores := s.cores.set gi c }
def State.modCore (s : State) (gi : Nat) (f : Core → Core) : State := s.setCore gi (f (s.core gi))

def State.cluster (s : State) (ci : Nat) : Cluster := s.clusters.get ci
def State.setCluster (s : State) (ci : Nat) (c : Cluster) : State := { s with clusters := s.clusters.set ci c }
def State.modCluster (s : State) (ci : Nat) (f : Cluster → Cluster) : State := s.setCluster ci (f (s.cluster ci))

/-- A field of a cluster register. -/
def State.satC (s : State) (ci : Nat) (r : Reg) (i lo w n : Nat) : State :=
  s.modCluster ci fun c => { c with regs := satField c.regs r i lo w n }
def State.setCf (s : State) (ci : Nat) (r : Reg) (i lo w v : Nat) : State :=
  s.modCluster ci fun c => { c with regs := sf c.regs r i lo w v }

/-- UPD_STEP, the 64-bit step number in force (R240). -/
def State.stepNo (s : State) : Nat := s.h .UPD_STEPLO + 2 ^ 32 * s.h .UPD_STEPHI

def State.setStepNo (s : State) (n : Nat) : State :=
  (s.setH .UPD_STEPLO 0 (n % 2 ^ 32)).setH .UPD_STEPHI 0 (n / 2 ^ 32 % 2 ^ 32)

/-- A fresh open value below `2 ^ w`, and the state with the counter advanced. (DESIGN CHOICE: log 2) -/
def State.draw (s : State) (w : Nat) : Nat × State := (Config.fresh s.fresh % 2 ^ w, { s with fresh := s.fresh + 1 })

/-- What a write leaves of a register, by its fields' access types alone (R11): RW and RWP fields take the value, W1C
fields clear where it has ones, the rest keep theirs. -/
def writeMerge (r : Reg) (old v : Nat) : Nat :=
  let set := r.mask fun a => a == .rw || a == .rwp
  let clr := r.mask fun a => a == .w1c
  let keep := old &&& (2 ^ 32 - 1 - set)
  let keep := keep &&& (2 ^ 32 - 1 - (v &&& clr))
  keep ||| (v &&& set)

/-- What a read returns by access types alone: WO fields read zero (R11). -/
def readView (r : Reg) (v : Nat) : Nat := v &&& (2 ^ 32 - 1 - r.mask (· == .wo))

/-- What a read leaves: RC fields are cleared (R11). -/
def readClear (r : Reg) (v : Nat) : Nat := v &&& (2 ^ 32 - 1 - r.mask (· == .rc))

/-- Whether a register has RC fields. -/
def Reg.hasRc (r : Reg) : Bool := r.info.fields.any fun f => f.acc == .rc

/-- Whether a register has RWP fields. -/
def Reg.hasRwp (r : Reg) : Bool := r.info.fields.any fun f => f.acc == .rwp

end Sys2Proof.Machine
end

