-- ==== Sys2Proof/Machine/Operands.lean ====
section
/-! DEFINITION. Where a device physical address leads (R162-R165), reading and writing memory by DPA with its ECC outcome, and the
extents a descriptor's handles cover. -/

namespace Sys2Proof.Machine

/-- What a DPA names (R162). -/
inductive Place where
  | hbm (x : Nat)
  | store (ci off : Nat)
  | localMem (gi off : Nat)
  | reg (off : Nat)
  | unmapped
  deriving DecidableEq, Repr

/-- The address map of R162. -/
def placeOf (a : Nat) : Place :=
  if a < 0x008000000000 then .hbm a
  else if 0x010000000000 ≤ a ∧ a < storeBase nClusters then
    let o := a - 0x010000000000
    if o % 0x100000 < 0x80000 then .store (o / 0x100000) (o % 0x100000) else .unmapped
  else if 0x020000000000 ≤ a ∧ a < localBase nCores then
    let o := a - 0x020000000000
    if o % 0x10000 < 0x4000 then .localMem (o / 0x10000) (o % 0x10000) else .unmapped
  else if 0x030000000000 ≤ a ∧ a < 0x030010000000 then .reg (a - 0x030000000000)
  else .unmapped

/-- Whether a place is HBM, a cluster store or local memory. -/
def Place.isMem : Place → Bool
  | .hbm _ => true
  | .store _ _ => true
  | .localMem _ _ => true
  | _ => false

/-- Whether a place is SRAM, whose words carry SECDED ECC (R79, R168). -/
def Place.isSram : Place → Bool
  | .store _ _ => true
  | .localMem _ _ => true
  | _ => false

/-- Whether every byte of `[a, a + n)` is mapped memory of one place (R163). Ranges within one place are checked at
their ends, because each mapped range is contiguous. -/
def memRange (a n : Nat) : Bool :=
  match placeOf a, placeOf (a + n - 1) with
  | .hbm _, .hbm _ => true
  | .store c _, .store d _ => c == d
  | .localMem c _, .localMem d _ => c == d
  | _, _ => false

/-- The bytes from `a`, of `n`, that lie in one mapped range or in one stretch without memory, and which it is (R162, R163). -/
def segment (a n : Nat) : Nat × Bool :=
  match placeOf a with
  | .hbm _ => (min n (0x8000000000 - a), true)
  | .store _ _ => (min n (0x80000 - a % 0x100000), true)
  | .localMem _ _ => (min n (0x4000 - a % 0x10000), true)
  | _ => (min n (0x4000 - a % 0x4000), false)

/-- `[a, a + n)` cut into such segments: address, length, mapped. -/
def segmentsFrom : Nat → Nat → Nat → List (Nat × Nat × Bool)
  | 0, _, _ => []
  | f + 1, a, n =>
    if n = 0 then []
    else
      let g := segment a n
      (a, g.1, g.2) :: segmentsFrom f (a + g.1) (n - g.1)

def segments (a n : Nat) : List (Nat × Nat × Bool) := segmentsFrom (n / 0x4000 + 3) a n

/-- The HBM stack and stack address of an HBM address under a mapping mode (R165). -/
def hbmStack (interleaved : Bool) (x : Nat) : Nat :=
  if interleaved then bits x 12 4 ^^^ bits x 16 4
  else 2 * bits x 36 3 + (bits x 12 1 ^^^ bits x 16 1)

def hbmStackAddr (interleaved : Bool) (x : Nat) : Nat :=
  if interleaved then bits x 16 23 * 2 ^ 12 + bits x 0 12 else bits x 13 23 * 2 ^ 12 + bits x 0 12

/-- The mapping mode in force: TRL_AMAP.EFF. -/
def State.interleaved (s : State) : Bool := s.hf .TRL_AMAP 0 1 1 = 1

/-- The endpoint a DPA packet is routed to (R151, R165). -/
def State.endpointOf (s : State) (a : Nat) : Endpoint :=
  match placeOf a with
  | .hbm x => .hbm (hbmStack s.interleaved x)
  | .store ci _ => .cluster ci
  | .localMem gi _ => .core gi
  | _ => .hub

/-- Read and write bytes of memory without ECC effects. Unmapped bytes are never listed, so they read zero. -/
def State.rd (s : State) (a n : Nat) : List Byte := mgets s.mem a n
def State.rdN (s : State) (a n : Nat) : Nat := leNat (s.rd a n)

/-- A write cancels the pending write-backs of the words it touches (R79, R168). -/
def State.cancelWb (s : State) (a n : Nat) : State :=
  match placeOf a with
  | .localMem gi _ =>
    if (s.core gi).wb.isEmpty then s else s.modCore gi fun c => { c with wb := wbCancel c.wb a n }
  | .store ci _ =>
    if (s.cluster ci).wb.isEmpty then s else s.modCluster ci fun c => { c with wb := wbCancel c.wb a n }
  | _ => s

/-- Write bytes to mapped memory of one place: they land, and flaws of the words written are gone. -/
def State.wrPlace (s : State) (a : Nat) (bs : List Byte) : State :=
  { s with mem := msets s.mem a bs, flaws := healed s.flaws a bs.length }.cancelWb a bs.length

/-- Write memory; the bytes of a range that lie at unmapped addresses are discarded (R163). -/
def State.wr (s : State) (a : Nat) (bs : List Byte) : State :=
  if bs.isEmpty then s
  else if memRange a bs.length then s.wrPlace a bs
  else (segments a bs.length).foldl (fun (t : State) g => if g.2.2 then t.wrPlace g.1 ((bs.drop (g.1 - a)).take g.2.1) else t) s

def State.wrN (s : State) (a n v : Nat) : State := s.wr a (toLe n v)

/-- Upsets strike stored SRAM words and weight slots (R79, R168). (DEDUCED: log 12) -/
def State.strikes (s : State) (us : List Upset) : State :=
  us.foldl (fun s u =>
    if u.word / 0x200000000000 = 1 then
      let k := u.word % 0x200000000000
      if k / 1088 < nCores then s.modCore (k / 1088) fun c => c.strikeSlot (k % 1088) u.mask else s
    else if (placeOf (8 * u.word)).isSram then
      let r := strike s.mem s.flaws u
      { s with mem := r.1, flaws := r.2 }
    else s) s

/-- The outcome of reading `[a, a + n)`: corrected and uncorrectable words. -/
def State.flawsIn (s : State) (a n : Nat) : List (Nat × Option Flaw) :=
  if n = 0 then [] else s.flaws.filter fun e => decide (a / 8 ≤ e.1) && decide (e.1 ≤ (a + n - 1) / 8)

/-! ### The extents of a descriptor -/

/-- Whether a test holds in every iteration `0 … n - 1`. -/
def allBelow (p : Nat → Bool) : Nat → Bool
  | 0 => true
  | n + 1 => p n && allBelow p n

/-- Whether `[pos, pos + len)` lies in local memory in every iteration of a run. -/
def localInside (h : Nat) (r : Nat → List Nat) (total len : Nat) : Bool :=
  !hSpace h && allBelow (fun j => let p := hPos h (r j); decide (0 ≤ p) && decide (p + len ≤ 16384)) total

/-- Whether `[pos, pos + len)` lies in mapped memory in every iteration; `notice` also allows the 32-byte registers that
take notices (R113). -/
def farInside (h : Nat) (r : Nat → List Nat) (total len : Nat) (notice : Bool) : Bool :=
  if hSpace h then
    allBelow (fun j =>
      let p := hPos h (r j)
      decide (0 ≤ p) && (memRange p.toNat len ||
        (notice && decide (len = 32) && (p.toNat == 0x030000000000 + Reg.offset .STEP_GDONE 0
          || p.toNat == 0x030000000000 + Reg.offset .UPD_DDONE 0)))) total
  else localInside h r total len

end Sys2Proof.Machine
end

