-- ==== Sys2Proof/Machine/RowOps.lean ====
section
/-! DEFINITION. The matrix row: passes interleaved with their chain body (R63-R72, R127), element mode (R71) and slot fills
with weight decode (R50-R52, R74, R75). -/

namespace Sys2Proof.Machine

/-- Iterations of a run: the product of its counts (R125). -/
def Run.total (r : Run) : Nat := r.counts.foldl (· * ·) 1

/-- The loop indices of iteration `j`, level 0 innermost. -/
def Run.indices (r : Run) (j : Nat) : List Nat :=
  let n := fun k => r.counts.getD k 1
  [j % n 0, j / n 0 % n 1, j / n 0 / n 1 % n 2, j / n 0 / n 1 / n 2 % n 3]

/-- Exact sum of two decoded values, with INVALID for opposite infinities. -/
def exactAdd (a b : FV) : FV × Flags :=
  match a, b with
  | .nan s, .nan t => (.nan (s || t), flagNone)
  | .nan s, _ => (.nan s, flagNone)
  | _, .nan t => (.nan t, flagNone)
  | .inf x, .inf y => if x = y then (.inf x, flagNone) else (.nan false, flagNV)
  | .inf x, _ => (.inf x, flagNone)
  | _, .inf y => (.inf y, flagNone)
  | .fin n1 m1 e1, .fin n2 m2 e2 =>
    let s := dyAdd n1 m1 e1 n2 m2 e2
    if s.1 = 0 then (.fin (n1 && n2) 0 s.2, flagNone) else (.fin (decide (s.1 < 0)) s.1.natAbs s.2, flagNone)

/-- Scale a decoded value by a power of two. -/
def FV.scale (e : Int) : FV → FV
  | .fin n m k => .fin n m (k + e)
  | x => x

/-- One operand element of a pass as an exact value: its format's value times its block scale (R30, R41). `sc` is the
E8M0 byte, or none for a plain format. A NaN scale makes a quiet NaN whatever the element's code, and an INT8 zero times a negative
INT8 is -0, as for the other formats. (DESIGN CHOICE: log 96) -/
def rowElem (fmt code : Nat) (sc : Option Nat) : FV :=
  let v := match fmtFp fmt with
    | some f => f.decode code
    | none => let i := signed 8 code; FV.fin (decide (i < 0)) i.natAbs 0
  match sc with
  | some 255 => .nan false
  | some b => v.scale ((b : Int) - 127)
  | none => v

/-- The dot of one broadcast, exact, with the flags of forming it (R41). -/
def rowDot (ps : List (FV × FV)) : FV × Flags :=
  match ps with
  | [] => (.fin false 0 0, flagNone)
  | p :: ps => ps.foldl (fun (st : FV × Flags) q =>
      let m := mulV q.1 q.2
      let s := exactAdd st.1 m.1
      (s.1, st.2 ||| s.2 ||| m.2)) (mulV p.1 p.2)

/-- Add a dot to an accumulator with one rounding (R41). The FP32 and FP64 MACs are `fused`, of one product each. -/
def rowAcc (fused : Bool) (f : Fmt) (acc : Nat) (ps : List (FV × FV)) : Nat × Flags :=
  let a := f.decode acc
  let d := rowDot ps
  let open_ := fused && a.isNan && !a.isSig && !(ps.any fun p => p.1.isNan || p.2.isNan) && !Config.fmaInvalid
  let s := exactAdd a d.1
  let fl := sigFlag a.isSig ||| (if open_ then flagNone else d.2) ||| s.2
  match s.1 with
  | .nan _ => (f.canNan, fl)
  | .inf n => (f.sign n f.infCode, fl)
  | .fin n m e => let x := f.round .rne n m e false; (x.1, fl ||| x.2)

/-- Stationary data of a lane and its scales. -/
def Core.lane (c : Core) (slot i : Nat) : Nat := Sparse.get (fun _ => 0) c.slots (16 * slot + i)
def Core.laneScale (c : Core) (slot i : Nat) : Nat := Sparse.get (fun _ => 0) c.slots (64 + 16 * slot + i)

def Core.setLane (c : Core) (slot i v : Nat) : Core := { c with slots := Sparse.set (fun _ => 0) c.slots (16 * slot + i) v }
def Core.setLaneScale (c : Core) (slot i v : Nat) : Core :=
  { c with slots := Sparse.set (fun _ => 0) c.slots (64 + 16 * slot + i) v }

/-- Whether a slot was last filled with MX scales. -/
def Core.slotMx (c : Core) (slot : Nat) : Bool := Sparse.get (fun _ => 0) c.slots (96 + slot) == 1

def Core.setSlotMx (c : Core) (slot : Nat) (b : Bool) : Core :=
  { c with slots := Sparse.set (fun _ => 0) c.slots (96 + slot) (b2n b) }

def Core.pendSlot (c : Core) (s : Nat) : Bool := if s = 0 then c.pend0 else c.pend1
def Core.setPend (c : Core) (s : Nat) (b : Bool) : Core := if s = 0 then { c with pend0 := b } else { c with pend1 := b }

/-- The slot a pass names: CUR is the one the slot pointer names (R73). -/
def Core.passSlot (c : Core) (d : Nat) : Nat := if dSlot d = 2 then c.slotPtr else dSlot d

/-- The geometry of a pass, from its descriptor and handles. -/
structure PassGeo where
  cls : RowClass
  sfmt : Nat
  mfmt : Nat
  mmx : Bool
  smx : Bool
  d : Nat
  ival : Nat
  lat : Nat
  nrow : Nat
  k : Nat
  per : Nat        -- broadcasts per iteration
  total : Nat      -- broadcasts in all
  slot : Nat
  deriving DecidableEq, Repr

/-- Whether a stationary format carries MX scales: FP4 and FP6 always, FP8 when it was filled as MX (R29, R74). -/
def statMx (fmt : Nat) (mx : Bool) : Bool := decide (6 ≤ fmt ∧ fmt ≤ 8) || (mx && fmtMx fmt)

def passGeo (r : Run) (c : Core) : PassGeo :=
  let d := r.desc
  let cls := (fmtClass (dSfmt d)).getD .b16
  let mmx := hMx (hget r.hs (dH d 0))
  let per := dNrow d * ((dK d + cls.d - 1) / cls.d)
  let slot := c.passSlot d
  { cls := cls, sfmt := dSfmt d, mfmt := dMfmt d, mmx := mmx, smx := statMx (dSfmt d) (c.slotMx slot), d := cls.d
    ival := cls.interval, lat := cls.latency, nrow := dNrow d, k := dK d, per := per, total := r.total * per
    slot := slot }

/-- The local byte range `[lo, hi]` the operand fetch reads for broadcast `g`, and the scale byte if MX. -/
def passBytes (r : Run) (p : PassGeo) (g : Nat) : Int × Int × Int :=
  let h := hget r.hs (dH r.desc 0)
  let ix := r.indices (g / p.per)
  let b := g % p.per
  let row := b % p.nrow
  let k0 := p.d * (b / p.nrow)
  let k1 := min (k0 + p.d) p.k - 1
  let base := hPos h ix + (32 * dMrs r.desc * row : Nat)
  let w := fmtBits p.mfmt
  let sc := (hBase2 h : Int) + (base - hBase h).tdiv (if p.mfmt = 8 then 16 else if p.mfmt = 6 ∨ p.mfmt = 7 then 24 else 32)
  (base + (k0 * w / 8 : Nat), base + ((k1 * w + w - 1) / 8 : Nat), sc + (k0 / 32 : Nat))

/-- Banks of the lines `[lo, hi]` that the row's previous broadcast `[plo, phi]` did not have. -/
def newBanks (lo hi : Int) (prev : Option (Int × Int)) : List Nat :=
  ([lo / 32, hi / 32].eraseDups.filter fun l =>
    match prev with
    | none => true
    | some p => l != p.1 / 32 && l != p.2 / 32).map fun l => (l % 4).toNat

/-- Element-fetch and scale-fetch banks of the cycle `t` (R76). Each row's line stays in its element buffer through the iteration;
the scale buffer holds one line (DEDUCED: R76 speaks of one buffer and of reading a line into it). -/
def passBanks (r : Run) (p : PassGeo) (t : Nat) : List Nat × List Nat :=
  if t % p.ival = 0 ∧ t / p.ival < p.total then
    let g := t / p.ival
    let cur := passBytes r p g
    let prev := if p.nrow ≤ g % p.per then some (passBytes r p (g - p.nrow)) else none
    let held := if 0 < g then some (passBytes r p (g - 1)).2.2 else none
    (newBanks cur.1 cur.2.1 (prev.map fun q => (q.1, q.2.1)),
     if p.mmx then newBanks cur.2.2 cur.2.2 (held.map fun q => (q, q)) else [])
  else ([], [])

/-- The scale reads that wait, oldest first, meet the banks already taken in a cycle: the banks then in use, and the reads that wait on. -/
def scaleServe (used : List Nat) : List Nat → List Nat × List Nat
  | [] => (used, [])
  | b :: r =>
    if used.contains b then let q := scaleServe used r; (q.1, b :: q.2)
    else scaleServe (b :: used) r

/-- The operand fetch of an MX pass over `n` cycles from `t`, with the scale reads `q` waiting: the banks in use and how many scale reads
wait 1 cc, cycle by cycle (R76, R77). (DEDUCED: log 19) -/
def passSched (r : Run) (p : PassGeo) : Nat → Nat → List Nat → List (List Nat × Nat)
  | 0, _, _ => []
  | n + 1, t, q =>
    let b := passBanks r p t
    let v := scaleServe b.1 (q ++ b.2)
    (v.1, v.2.length) :: passSched r p n (t + 1) v.2

/-- The value a broadcast into accumulator `a` starts from: the newest result in flight, or the committed one (R67). -/
def Core.forwarded (c : Core) (a : Nat) : Nat :=
  let fs := c.flights.filter fun f => f.reg == 32 + a && decide (c.landedSeq (32 + a) ≤ f.seq)
  match fs.getLast? with
  | some f => f.val
  | none => c.getA a

/-- Count the scale reads that wait in a cycle in CORE_BKCNT.DELAY. -/
def CX.scaleDelay (x : CX) (t : Nat) : CX :=
  let n := (x.fetch t).2
  if n = 0 then x else { x with c := x.c.count .CORE_BKCNT 0 16 n }

/-- Bytes `lo` to `hi` of row `row`'s operand, byte `lo` lowest: the fetch reads whole lines into the element buffer, and a row keeps the lines
of its last broadcast (`held`) (R76). (DEDUCED: log 19) -/
def CX.readRow (x : CX) (row lo hi : Nat) (held : Bool) : CX × Nat :=
  let ls := (List.range (hi / 32 - lo / 32 + 1)).map (lo / 32 + ·)
  let old := if held then x.lines.filter fun e => e.1 == row else []
  let x := { x with lines := x.lines.filter fun e => e.1 != row }
  let x := ls.foldl (fun (x : CX) l =>
    match old.find? fun e => e.2.1 == l with
    | some e => { x with lines := x.lines ++ [e] }
    | none => let r := x.readLocal (32 * l) 32; { r.1 with lines := r.1.lines ++ [(row, l, r.2)] }) x
  let got := (x.lines.filter fun e => e.1 == row).map fun e => e.2.2
  (x, leNat got.flatten / 2 ^ (8 * (lo % 32)))

/-- The block scale at byte `b`, through the scale buffer (R76). -/
def CX.readScale (x : CX) (b : Nat) : CX × Nat :=
  let r := match x.scales with
    | some e => if e.1 = b / 32 then (x, e.2) else x.readLocal (b / 32 * 32) 32
    | none => x.readLocal (b / 32 * 32) 32
  ({ r.1 with scales := some (b / 32, r.2) }, (r.2.getD (b % 32) 0).toNat)

/-- One broadcast of a floating-point or INT8 pass (R63, R41, R127). -/
def CX.bcastFp (x : CX) (r : Run) (p : PassGeo) (g : Nat) : CX :=
  let t := g * p.ival
  let j := g / p.per
  let b := g % p.per
  let row := b % p.nrow
  let k0 := p.d * (b / p.nrow)
  let n := min p.d (p.k - k0)
  let by_ := passBytes r p g
  let w := fmtBits p.mfmt
  let sw := fmtBits p.sfmt
  let x := ({ x with c := x.c.land x.idx t }).landStores t
  let rd := x.readRow row by_.1.toNat by_.2.1.toNat (decide (p.nrow ≤ b))
  let x := (rd.1).scaleDelay t
  let mv := rd.2
  let rs := if p.mmx then let q := x.readScale by_.2.2.toNat; (q.1, some q.2) else (x, none)
  let x := rs.1.slotRead p.slot (k0 * sw / 64) (((k0 + n) * sw - 1) / 64) (if p.smx then some (32 + k0 / 32 / 8) else none)
  let sc := rs.2
  let mov := (List.range n).map fun i => rowElem p.mfmt (bits mv (k0 * w % 8 + w * i) w) sc
  let a := dAbase r.desc + row + (if dAdbl r.desc && j % 2 == 1 then p.nrow else 0)
  let clear := bit (dClr r.desc) a && b < p.nrow
  let acc := if clear then 0 else x.c.forwarded a
  let f := if p.cls = .fp64 then fp64 else fp32
  let rs := (List.range 16).map fun i =>
    let st := x.c.lane p.slot i
    let ss := if p.smx then some (bits (x.c.laneScale p.slot i) (8 * (k0 / 32)) 8) else none
    rowAcc (p.cls == .fp32 || p.cls == .fp64) f (bits acc (64 * i) f.width)
      ((List.range n).map fun e => (mov.getD e (.nan false), rowElem p.sfmt (bits st (sw * (k0 + e)) sw) ss))
  let c := x.c.flag ((rs.map (·.2)).foldl (· ||| ·) 0)
  { x with c := c.fly (32 + a) (t + p.lat) (packElems 64 (rs.map (·.1))) (some p.cls) }

/-- One pair of a LIMB pass: 21 products per element, class s into A(s-5), saturating (R72, R59). A pair's 42 products are added together and a
class sum is tested once for each pair; the six classes land together. (DESIGN CHOICE: log 96) -/
def CX.bcastLimb (x : CX) (r : Run) (p : PassGeo) (g : Nat) : CX :=
  let t := g * p.ival
  let b := g % p.per
  let k0 := 2 * b
  let n := min 2 (p.k - k0)
  let by_ := passBytes r p g
  let x := ({ x with c := x.c.land x.idx t }).landStores t
  let rd := x.readRow (b % p.nrow) by_.1.toNat by_.2.1.toNat (decide (p.nrow ≤ b))
  let x := rd.1.slotRead p.slot (k0 * 48 / 64) (((k0 + n) * 48 - 1) / 64) none
  let mv := rd.2
  let accs := (List.range 6).map fun s => if bit (dClr r.desc) s && b = 0 then 0 else x.c.forwarded s
  let lim : Int := 2 ^ 63
  let cells := (List.range 6).map fun s => (List.range 16).map fun i =>
    let st := x.c.lane p.slot i
    let add := (List.range n).foldl (fun (a : Int) e =>
      a + (limbClasses (signed 48 (bits mv (48 * e) 48)) (signed 48 (bits st (48 * (k0 + e)) 48))).getD s 0) 0
    let v := signed 64 (bits (accs.getD s 0) (64 * i) 64) + add
    if lim ≤ v then (lim - 1, true) else if v < -lim then (-lim, true) else (v, false)
  let sat := cells.any fun l => l.any (·.2)
  let c := if sat then { x.c with regs := sf x.c.regs .CORE_STAT 0 5 1 1 } else x.c
  let c := (List.range 6).foldl (fun c s =>
    c.fly (32 + s) (t + 20 + p.lat) (packElems 64 ((cells.getD s []).map fun v => unsigned 64 v.1)) (some .limb)) c
  { x with c := c }

/-- A later-issued write of `reg` makes every pending result of it a discarded one (R83, R84). -/
def Core.supersede (c : Core) (reg : Nat) : Core := { c with landed := Sparse.set (fun _ => 0) c.landed reg c.seq }

/-- The tests at a pass's first broadcast: the slot hazard of R75, and pending results of another class (R83). -/
def CX.passEnter (x : CX) (r : Run) (p : PassGeo) : CX :=
  if x.c.pendSlot p.slot then
    ({ x with c := x.c.hzlog (40 + p.slot) 2 x.idx 0 }).halt 2 1
  else
    let regs := if p.cls = .limb then [32, 33, 34, 35, 36, 37] else (List.range p.nrow).map (32 + dAbase r.desc + ·)
    let bad := regs.filter fun q => x.c.flights.any fun f => f.reg == q && decide (x.c.landedSeq q ≤ f.seq) && f.cls != some p.cls
    match bad with
    | [] => x
    | q :: _ =>
      if x.tol then
        { x with c := bad.foldl (fun c q => ((c.count .CORE_HZCNT 0 16 1).hzlog q 0 x.idx 0).supersede q) x.c }
      else ({ x with c := x.c.hzlog q 0 x.idx 0 }).halt 1 0

/-- Set the iteration the chain runs in: its indices and, on odd ADBL iterations, ACCRD's offset. -/
def CX.atIter (x : CX) (r : Run) (j : Nat) : CX :=
  { x with ix := r.indices j, accOff := if dAdbl r.desc && dOp r.desc == opPass && j % 2 == 1 then dNrow r.desc else 0 }

/-- Run broadcasts `g …` and chain words (iteration `j`, word `k`) in cycle order, a broadcast before a word of its cycle.
`fuel` bounds the events left. -/
def CX.passLoop (x : CX) (r : Run) (p : PassGeo) (words : List Nat) : Nat → Nat → Nat → Nat → CX
  | 0, _, _, _ => x
  | fuel + 1, g, j, k =>
    if x.halted then x
    else
      let wordLeft := decide (j < r.total) && decide (0 < words.length)
      let y := x.atIter r j
      let w := words.getD k 0
      if g < p.total ∧ (wordLeft = false ∨ g * p.ival ≤ y.issueAt w) then
        let z := if p.cls = .limb then x.bcastLimb r p g else x.bcastFp r p g
        CX.passLoop z r p words fuel (g + 1) j k
      else if wordLeft then
        let z := y.vIssue w
        if k + 1 < words.length then CX.passLoop z r p words fuel g j (k + 1)
        else CX.passLoop z r p words fuel g (j + 1) 0
      else x

/-- Let every result in flight land (R81), and every delayed store. -/
def CX.drain (x : CX) : CX :=
  let x := x.storesDone
  { x with c := x.c.land x.idx (x.c.drainAt 0) }

/-- A whole PASS (R127). -/
def CX.runPass (x : CX) (r : Run) : CX :=
  let p := passGeo r x.c
  let words := r.chain.getD []
  let sched := if p.mmx then passSched r p (2 * p.total + 1) 0 [] else []
  let x := { x with fetchTo := if p.mmx then sched.length else p.total * p.ival
                    fetch := fun t => if p.mmx then sched.getD t ([], 0) else ((passBanks r p t).1, 0) }
  let x := x.passEnter r p
  let x := x.passLoop r p words (p.total + r.total * words.length) 0 0 0
  let x := if x.halted then x else (List.range (x.fetchTo - p.total * p.ival)).foldl (fun (x : CX) k => x.scaleDelay (p.total * p.ival + k)) x
  x.drain

/-- The words of one iteration of a chain. -/
def CX.runWords (x : CX) : List Nat → CX
  | [] => x
  | w :: ws => CX.runWords (x.vIssue w) ws

/-- Iterations `j, j + 1, …` of a CHAIN (R128). -/
def CX.chainLoop (x : CX) (r : Run) (words : List Nat) : Nat → Nat → CX
  | 0, _ => x
  | n + 1, j => if x.halted then x else CX.chainLoop ((x.atIter r j).runWords words) r words n (j + 1)

/-- A whole CHAIN. -/
def CX.runChain (x : CX) (r : Run) : CX := (x.chainLoop r (r.chain.getD []) r.total 0).drain

/-! ### Element mode (R71) -/

/-- Lane `i`'s s or b operand of an element-mode descriptor. -/
def Core.elemOperand (c : Core) (d idx i : Nat) : Nat :=
  if dEosrc d then (if dEfmt64 d then c.prm idx + 2 ^ 32 * c.prm (idx + 1) else c.prm idx)
  else if dEfmt64 d then bits (c.getV idx + 2 ^ 512 * c.getV (idx + 1)) (64 * i) 64
  else elem (c.getV idx) 32 i

/-- The vector registers an element-mode operation reads. -/
def elemRegs (d idx : Nat) : List Nat := if dEosrc d then [] else if dEfmt64 d then [idx, idx + 1] else [idx]

/-- One element-mode operation on one lane, rounded once with RNE (R71). -/
def elemLane (eop : Nat) (f : Fmt) (a s b : Nat) : Nat × Flags :=
  if eop = 1 then f.mul .rne a s
  else if eop = 2 then f.add .rne a b
  else f.fmaV .rne Config.fmaInvalid (f.decode a) (f.decode s) (f.decode b)

/-- One iteration of an ELEM issued at cycle `t`. -/
def CX.elemStep (x : CX) (d t : Nat) : CX :=
  let j := dEacc d
  let f := if dEfmt64 d then fp64 else fp32
  let x := ({ x with c := x.c.land x.idx t }).landStores t
  let srcs := ([32 + j] ++ (if dEop d = 2 then [] else elemRegs d (dEsidx d))
    ++ (if dEop d = 1 then [] else elemRegs d (dEbidx d))).eraseDups
  let hit := x.c.pending (32 + j)
  let x := x.sentinel t srcs
  if x.halted then x
  else
    let a := x.c.getA j
    let rs := (List.range 16).map fun i =>
      elemLane (dEop d) f (bits a (64 * i) f.width) (x.c.elemOperand d (dEsidx d) i) (x.c.elemOperand d (dEbidx d) i)
    let c := x.c.flag ((rs.map (·.2)).foldl (· ||| ·) 0)
    let c := if hit then c.supersede (32 + j) else c
    { x with c := c.fly (32 + j) (t + (if dEfmt64 d then 11 else 7)) (packElems 64 (rs.map (·.1))) none }

/-- The iterations of an ELEM, every 4 cc in FP32 and every 8 cc in FP64 (R128). -/
def CX.elemLoop (x : CX) (d : Nat) : Nat → Nat → CX
  | 0, _ => x
  | n + 1, t => if x.halted then x else CX.elemLoop (x.elemStep d t) d n (t + (if dEfmt64 d then 8 else 4))

def CX.runElem (x : CX) (r : Run) : CX := (x.elemLoop r.desc r.total 0).drain

/-! ### Slot fills (R74) -/

/-- The bits of a stored element of a fill source, and whether decode changes it. (DEDUCED: log 20) -/
def fillStoredBits (h sfmt : Nat) : Nat := if hDec h = 1 then 4 else if hDec h = 2 then 8 else fmtBits sfmt

/-- Whether a fill carries MX scales: the stationary format is MX (R74). -/
def fillMx (h sfmt : Nat) : Bool := statMx sfmt (hMx h)

/-- The source size of a fill in bytes (R74). -/
def fillSize (h sfmt k : Nat) : Nat :=
  (16 * k * fillStoredBits h sfmt + 7) / 8 + (if fillMx h sfmt then 16 * ((k + 31) / 32) else 0)

/-- Element number of depth `k`, lane `i` in the source (R74). -/
def fillIndex (transposed : Bool) (kk k i : Nat) : Nat := if transposed then 16 * k + i else kk * i + k

/-- Whether R50 decodes from the stored format of a handle to the stationary format. -/
def fillKnown (h sfmt : Nat) : Bool :=
  match hDec h with
  | 0 => hFmt h == sfmt
  | 1 => hFmt h == 10 && [2, 3, 4, 5, 8, 9].contains sfmt
  | _ => hFmt h == 9 && [2, 3, 4, 5].contains sfmt

/-- Decode one stored code into the stationary format (R50-R52): `lut` is the table, `ent` the SZ8 group entry. (DESIGN CHOICE: log 18) -/
def fillDecode (h sfmt code lut ent : Nat) : Nat × Flags :=
  if fillKnown h sfmt = false then (Config.fillOpen (hDec h) (hFmt h) sfmt code, flagNone)
  else if hDec h = 1 then (bits lut (16 * code) (fmtBits sfmt), flagNone)
  else if hDec h = 2 then
    match fmtFp sfmt with
    | some f => sz8 f (bits ent 0 16) (signed 8 (bits ent 16 8)) (signed 8 code)
    | none => (code, flagNone)
  else (code, flagNone)

/-- Fill depths 0 to `kk - 1` of a slot from its packed source bytes; what lies above keeps its bits (R74). `lut` and `ent` give the decode tables. -/
def Core.fillSlot (c : Core) (transposed : Bool) (h sfmt kk slot : Nat) (src : List Byte) (lut : Nat) (ent : Nat → Nat) : Core :=
  let v := leNat src
  let w := fillStoredBits h sfmt
  let nb := (kk + 31) / 32
  let off := (16 * kk * w + 7) / 8
  (List.range 16).foldl (fun c i =>
    let es := (List.range kk).map fun k =>
      fillDecode h sfmt (bits v (w * fillIndex transposed kk k i) w) lut (ent (i * nb + k / 32))
    let c := c.setLane slot i (putBits (c.lane slot i) 0 (fmtBits sfmt * kk) (packElems (fmtBits sfmt) (es.map (·.1))))
    let c := c.flag ((es.map (·.2)).foldl (· ||| ·) 0)
    if fillMx h sfmt then
      c.setLaneScale slot i (putBits (c.laneScale slot i) 0 (8 * nb) (packElems 8 ((List.range nb).map fun g =>
        bits v (8 * (off + (if transposed then 16 * g + i else nb * i + g))) 8)))
    else c) ((c.setSlotMx slot (fillMx h sfmt)).slotWritten slot ((fmtBits sfmt * kk + 63) / 64) (if fillMx h sfmt then (nb + 7) / 8 else 0))

/-- The LUT4 table and the SZ8 entry reader of a handle in an iteration, from local memory (R51, R52, R116). -/
def CX.lutOf (x : CX) (h : Nat) (ix : List Nat) : Nat := leNat (mgets x.mem (localBase x.gi + (hPos2 h ix).toNat) 32)
def CX.entOf (x : CX) (h : Nat) (ix : List Nat) (e : Nat) : Nat :=
  leNat (mgets x.mem (localBase x.gi + (hPos2 h ix).toNat + 4 * e) 4)

/-- The decode tables of a fill are read: 32 bytes under LUT4, an entry for each lane and block under SZ8 (R51, R52, R79). -/
def CX.readTables (x : CX) (h kk : Nat) (ix : List Nat) : CX :=
  (x.readLocal (hPos2 h ix).toNat (if hDec h = 1 then 32 else if hDec h = 2 then 64 * ((kk + 31) / 32) else 0)).1

/-- Start one iteration of FILL or FILL_T into `slot` (R74, R75): the fill-pending bit is set until FILL_COMPLETE. -/
def CX.startFill (x : CX) (r : Run) (transposed : Bool) (slot : Nat) : CX :=
  let d := r.desc
  let h := hget r.hs (dH d 0)
  let ix := r.indices r.iter
  let rd := x.readLocal (hPos h ix).toNat (fillSize h (dFsfmt d) (dFk d))
  let x := rd.1.readTables h (dFk d) ix
  let c := x.c.fillSlot transposed h (dFsfmt d) (dFk d) slot rd.2 (x.lutOf h ix) (x.entOf h ix)
  { x with c := c.setPend slot true }

end Sys2Proof.Machine
end

