-- ==== Sys2Proof/Machine/Ops.lean ====
section
/-! DEFINITION. The named operations the meanings share: events (R339), packets (R144, R150), core faults (R139), tokens (R124),
CSP events (R139) and running a core's descriptor. -/

namespace Sys2Proof.Machine

/-! ### Events -/

/-- Raise an MSI-X vector (R340). -/
def State.raiseMsix (s : State) (v : Nat) : State :=
  { s with msix := Sparse.set (fun _ => 0) s.msix v (Sparse.get (fun _ => 0) s.msix v + 1) }

/-- Append to a log of at most 256 records and raise its vector; a full log drops the newer record and keeps the overflow
count and timestamps (R339). -/
def State.logEvent (s : State) (e : Event) : State :=
  if (s.logs.filter fun x => x.log == e.log).length < 256 then
    let s := { s with logs := s.logs ++ [e] }
    -- FAC_STAT.FAILEV latches a record of the Failure or Fatal log (R428)
    let s := if 2 ≤ e.log then s.setHf .FAC_STAT 0 5 1 1 else s
    let v := s.policy.getD e.log 0
    if v = 0 then s else s.raiseMsix v
  else
    let l := Sparse.get (fun _ => Lost.mk 0 0 0) s.logLost e.log
    let l' := ⟨l.n + 1, if l.n = 0 then s.sundial else l.first, s.sundial⟩
    { s with logLost := Sparse.set (fun _ => Lost.mk 0 0 0) s.logLost e.log l' }

/-- Raise a status as an event with its source and argument (R339); the Rain gauge tallies it (R367). -/
def State.event (s : State) (status kind idx arg : Nat) : State :=
  match statusLog status with
  | none => s
  | some l =>
    let s := { s with gauge := { s.gauge with win := s.gauge.win.tallyOne status } }
    s.logEvent ⟨l, status, kind, idx, s.stepNo, s.sundial, arg⟩

/-! ### The Rain gauge -/

/-- Give a sample, as an FP32 value, to a channel (R364). -/
def State.sample (s : State) (ch x kind idx : Nat) : State :=
  { s with gauge := { s.gauge with win := s.gauge.win.sample ch x s.sundial s.stepNo kind idx } }

/-- Give an exact count. -/
def State.sampleN (s : State) (ch n : Nat) : State := s.sample ch (fp32Of n 0) 0 0

/-- Give a time of `n` ticks of 4 ns, in microseconds. -/
def State.sampleUs (s : State) (ch n : Nat) : State := s.sample ch (fp32Ratio n 250) 0 0

/-- RGA_BIN of every channel, for the next window. -/
def State.binSettings (s : State) : List (Nat × Nat) :=
  ((List.range 64).map fun c => (c, s.h .RGA_BIN c % 2 ^ 12)).filter fun e => decide (e.2 ≠ 0)

/-- Close the open window with a flush cause (R368). -/
def State.closeWindow (s : State) (cause : Nat) : State :=
  { s with gauge := s.gauge.close cause (Config.serial % 2 ^ 32) s.sundial s.stepNo s.binSettings }

/-- Put a record among the open window's notable records (R367). -/
def State.notable (s : State) (bs : List Byte) : State :=
  { s with gauge := s.gauge.addNotable bs (Config.serial % 2 ^ 32) s.sundial s.stepNo s.binSettings }

/-! ### Packets -/

/-- The step tag of R150. -/
def State.stag (s : State) : Nat := s.stepNo % 256

/-! Paths (R142, R144, R145, R167): routers are named by cluster column and row. -/

/-- The router a stack's controller is reached at through its port `j` (R18, R167). -/
def hbmRouter (k j : Nat) : Nat × Nat := (32 * (k / 2 % 4) + 16 * (k % 2) + j % 16, if k < 8 then 0 else 39)

/-- The router behind the hub port a packet uses (R145): HP0 for TC0, else by the cluster row of its other end. -/
def hubRouter (cls : TClass) (cy : Nat) : Nat × Nat :=
  if cls = .tc0 then (0, 0) else if cy < 20 then (0, cy % 4) else (0, 36 + cy % 4)

/-- The router an endpoint other than the hub joins; the address of a memory access picks the controller's port. A packet without an address
uses a port that the implementation fixes. (DESIGN CHOICE: log 99) -/
def State.routerOf (s : State) (body : Payload) (e : Endpoint) : Nat × Nat :=
  match e with
  | .core gi => (coreCi gi % 128, coreCi gi / 128)
  | .cluster ci => (ci % 128, ci / 128)
  | .grafter k => (32 * (k % 4), 20 * (k / 4))
  | .hbm k =>
    match body with
    | .mrd a _ _ => hbmRouter k (bits (hbmStackAddr s.interleaved a) 12 4)
    | .mwr a _ => hbmRouter k (bits (hbmStackAddr s.interleaved a) 12 4)
    | _ => hbmRouter k (Config.hbmPort k)
  | .hub => (0, 0)

/-- The routers at which a packet enters and leaves the cluster mesh. -/
def State.routeEnds (s : State) (p : Packet) : (Nat × Nat) × (Nat × Nat) :=
  let a := s.routerOf p.body p.src
  let b := s.routerOf p.body p.dst
  (if p.src = .hub then hubRouter p.cls b.2 else a, if p.dst = .hub then hubRouter p.cls a.2 else b)

/-- A number lies between two others. -/
def within (a b x : Nat) : Bool := decide (min a b ≤ x) && decide (x ≤ max a b)

/-- Cluster `ci`'s router is passed by X-then-Y routing from `a` to `b` (R144 step 2). -/
def onRoute (a b : Nat × Nat) (ci : Nat) : Bool :=
  (ci / 128 == a.2 && within a.1 b.1 (ci % 128)) || (ci % 128 == b.1 && within a.2 b.2 (ci / 128))

/-- The route passes a router of die `d`. -/
def crossesDie (a b : Nat × Nat) (d : Nat) : Bool :=
  let meets := fun (u v lo n : Nat) => decide (min u v < lo + n) && decide (lo ≤ max u v)
  (a.2 / 20 == d / 4 && meets a.1 b.1 (32 * (d % 4)) 32) || (b.1 / 32 == d % 4 && meets a.2 b.2 (20 * (d / 4)) 20)

/-- Core `g` of a cluster lies on the X-then-Y way from core `k` to core 0 (out), or from core 0 to core `k` (R144 steps 1 and 3). -/
def onMesh (out : Bool) (k g : Nat) : Bool :=
  if out then (g / 8 == k / 8 && decide (g % 8 ≤ k % 8)) || (g % 8 == 0 && decide (g / 8 ≤ k / 8))
  else (g / 8 == 0 && decide (g % 8 ≤ k % 8)) || (g % 8 == k % 8 && decide (g / 8 ≤ k / 8))

/-- Core `gi` lies on a packet's way inside its source or its destination cluster. -/
def Packet.meshes (p : Packet) (gi : Nat) : Bool :=
  (match p.src with | .core g => coreCi g == coreCi gi && onMesh true (coreK g) (coreK gi) | _ => false)
    || (match p.dst with | .core g => coreCi g == coreCi gi && onMesh false (coreK g) (coreK gi) | _ => false)

/-- An endpoint, or its router, lies on a packet's path. -/
def State.onPath (s : State) (p : Packet) (e : Endpoint) : Bool :=
  e == p.src || e == p.dst || match e with
    | .core gi => p.meshes gi
    | .cluster ci => onRoute (s.routeEnds p).1 (s.routeEnds p).2 ci
    | _ => false

/-- Inject a packet; it is last in its path's order. -/
def State.inject (s : State) (src dst : Endpoint) (cls : TClass) (body : Payload) : State :=
  { s with net := s.net ++ [⟨src, dst, cls, s.stag, body⟩] }

/-- Offer a packet of a core: while its cluster is quiet it waits to be injected (R156). (DEDUCED: log 99) -/
def State.offer (s : State) (gi : Nat) (dst : Endpoint) (cls : TClass) (body : Payload) : State :=
  if (s.cluster (coreCi gi)).quiet then { s with outbox := s.outbox ++ [⟨.core gi, dst, cls, s.stag, body⟩] }
  else s.inject (.core gi) dst cls body

/-- Whether packet `n` may be delivered next: no earlier packet shares its source, destination and class (R144). (DESIGN CHOICE: log 93) -/
def firstOnPath (net : List Packet) (n : Nat) : Bool :=
  match net[n]? with
  | none => false
  | some p => !((net.take n).any fun q => q.src == p.src && q.dst == p.dst && q.cls == p.cls)

/-- Whether an endpoint is in a reset of DIE reach or narrower, or in its release: its links neither accept nor send (R386). -/
def State.inReset (s : State) (e : Endpoint) : Bool :=
  match e with
  | .core gi => s.rst.cores.contains gi || s.rst.clusters.contains (coreCi gi) || s.rst.dies.contains (dieOf (coreCi gi))
  | .cluster ci => s.rst.clusters.contains ci || s.rst.dies.contains (dieOf ci)
  | .grafter k => s.rst.dies.contains k
  | _ => false

/-- Whether a packet cannot move: an end of it is in reset, or a router or core on its path is, or was left blocked by a narrow reset
(R144, R386). (DEDUCED: log 75) -/
def State.stuck (s : State) (n : Nat) : Bool :=
  match s.net[n]? with
  | some p =>
    s.inReset p.src || s.inReset p.dst || s.rst.hung.any (s.onPath p) || s.rst.cores.any p.meshes
      || s.rst.clusters.any (fun ci => s.onPath p (.cluster ci))
      || s.rst.dies.any (fun d => crossesDie (s.routeEnds p).1 (s.routeEnds p).2 d)
  | none => false

/-- Take packet `n` if it may be delivered. (DEDUCED: log 10) -/
def State.takePacket (s : State) (n : Nat) : Option (Packet × State) :=
  if firstOnPath s.net n && !s.stuck n then (s.net[n]?).map fun p => (p, { s with net := s.net.eraseIdx n }) else none

/-- An ERROR_NOTICE from an endpoint (R139, R154): status, source detail, and for DESC_FAULT the stop's status. -/
def State.notice (s : State) (src : Endpoint) (status detail extra : Nat) : State :=
  s.inject src .hub .tc0 (.urg 0x09 (status % 2 ^ 16 + detail % 2 ^ 16 * 2 ^ 16 + extra % 2 ^ 16 * 2 ^ 32))

/-! ### Clusters -/

/-- Raise the CSP's external interrupt while CSP_CTL.IRQEN is set (R139). -/
def State.irq (s : State) (ci : Nat) : State :=
  s.modCluster ci fun c => if rf c.regs .CSP_CTL 0 1 1 = 1 then { c with irq := true } else c

/-- Add to a CSP event counter; one that becomes non-zero raises the interrupt (R139). -/
def Cluster.cspEvent (c : Cluster) (e n : Nat) : Cluster :=
  let was := rf c.regs .CSP_EVT e 0 16
  let c := { c with regs := satField c.regs .CSP_EVT e 0 16 n }
  if was = 0 ∧ 0 < n ∧ rf c.regs .CSP_CTL 0 1 1 = 1 then { c with irq := true } else c

def State.cspEvent (s : State) (ci e n : Nat) : State := s.modCluster ci fun c => c.cspEvent e n

/-- Add to one CSP event counter of every cluster (R196, R250, R280). -/
def State.allCsp (s : State) (e n : Nat) : State :=
  if n = 0 then s else { s with clusters := s.clusters.map fun c => c.cspEvent e n }

/-- A core fault reaches its cluster (R139): kinds 0 HAZARD, 1 SLOT_HAZARD, 2 LMEM_UNCORRECTABLE, 3 DESC_FAULT. -/
def State.coreFault (s : State) (gi kind stop : Nat) : State :=
  let ci := coreCi gi
  let k := coreK gi
  let s := s.satC ci .CLU_FAULT 0 8 8 1
  let s := if rf (s.cluster ci).regs .CLU_FAULT 0 31 1 = 1 then s
    else ((s.setCf ci .CLU_FAULT 0 0 6 k).setCf ci .CLU_FAULT 0 6 2 kind).setCf ci .CLU_FAULT 0 31 1 1
  (s.notice (.cluster ci) (0x0108 + kind) k stop).irq ci

/-! ### The descriptor engine -/

/-- CORE_DSTAT.STATE: 0 IDLE, 1 RUNNING, 2 STOPPED. -/
def Core.state (c : Core) : Nat := rf c.regs .CORE_DSTAT 0 0 2
def Core.setState (c : Core) (v : Nat) : Core := { c with regs := sf c.regs .CORE_DSTAT 0 0 2 v }
def Core.halted (c : Core) : Bool := rf c.regs .CORE_STAT 0 0 1 = 1

/-- Whether nothing that has issued is still to complete. -/
def Core.quietLanes (c : Core) : Bool := c.comp.isNone && c.tq.isEmpty && c.idle.isEmpty

/-- A debug HALT takes effect at the descriptor boundary, once everything issued has completed (R421); any other halt keeps its cause. -/
def Core.settleHalt (c : Core) : Core :=
  if c.haltReq ∧ c.quietLanes ∧ c.halted = false then { c with haltReq := false, regs := sf (sf c.regs .CORE_STAT 0 0 1 1) .CORE_STAT 0 1 3 4 }
  else c

/-- Finish a stop once everything issued has completed: STATE becomes STOPPED and DESC_FAULT is raised (R113), on an IDLE core too, whose tokens
still count (R124, R130). -/
def State.settleStop (s : State) (gi : Nat) : State :=
  let c := s.core gi
  if c.stop ≠ 0 ∧ c.quietLanes ∧ c.state ≠ 2 then (s.setCore gi (c.setState 2)).coreFault gi 3 c.stop else s

/-- Stop the descriptor engine with a status (R113). -/
def State.stopEngine (s : State) (gi status : Nat) : State :=
  let c := s.core gi
  if c.stop ≠ 0 then s
  else
    (s.setCore gi { c with stop := status, regs := sf c.regs .CORE_DSTAT 0 16 16 status }).settleStop gi

/-- Add to a token; a result above 65,535 is held there and stops the engine with TOKEN_OVERFLOW (R124). -/
def State.addToken (s : State) (gi t n : Nat) : State :=
  let c := s.core gi
  let v := rf c.regs .CORE_TOK t 0 16 + n
  let s := s.setCore gi { c with regs := sg c.regs .CORE_TOK t (min v 65535) }
  if 65535 < v then s.stopEngine gi St.TOKEN_OVERFLOW else s

/-- Record in the trace ring (R423): the Sundial tick, the core's index in its cluster, the kind (0 issue, 1 completion), the descriptor
index and CORE_DSTAT.STATUS, for the cluster DBG_TRSEL selects while EN is 1 and a session is open. (DEDUCED: log 88) -/
def State.traceAt (s : State) (gi kind idx : Nat) : State :=
  if s.hf .DBG_TRSEL 0 13 1 = 1 ∧ s.hf .DBG_STAT 0 0 2 ≠ 0 ∧ s.hf .DBG_TRSEL 0 0 13 = coreCi gi then
    let e := toLe 8 s.sundial ++ toLe 1 (coreK gi) ++ toLe 1 kind ++ toLe 2 idx ++ toLe 2 (rf (s.core gi).regs .CORE_DSTAT 0 16 16) ++ toLe 2 0
    let ring := s.sec.trace ++ [e]
    { s with sec := { s.sec with trace := ring.drop (ring.length - 4096) } }
  else s

/-- The core context a run executes in. -/
def State.cx (s : State) (gi : Nat) (r : Run) : CX :=
  { c := s.core gi, mem := s.mem, flaws := s.flaws, gi := gi, step := s.stepNo, hs := r.hs, sh := dSh r.desc
    ix := r.indices 0, idx := r.idx, tol := r.tol, last := none, valu := 0, vtu := 0, vls := 0, vrd := 0, accOff := 0
    fetch := fun _ => ([], 0), fetchTo := 0, vlsOff := 0, stores := [], lines := [], scales := none, halted := false, faults := [] }

/-- The context of a single vector word: the chain in the compute lane if one is loaded, else the core's own tables. -/
def State.vctx (s : State) (gi : Nat) : CX :=
  let c := s.core gi
  let r := c.comp.getD ⟨0, 0, [1, 1, 1, 1], c.handles, rf c.regs .CORE_CFG 0 0 1 = 1, none, 0, false, 0, [], false⟩
  let x := s.cx gi r
  { x.atIter r r.iter with
    last := c.clock.last, valu := c.clock.valu, vtu := c.clock.vtu, vls := c.clock.vls, vrd := c.clock.vrd
    halted := c.halted }

/-- Put a core context back, and raise the faults it met. -/
def State.uncx (s : State) (x : CX) : State :=
  let s := { s.setCore x.gi x.c with mem := x.mem, flaws := x.flaws }
  x.faults.foldl (fun s k => s.coreFault x.gi k 0) s

/-- Put a single word's context back with its clock. -/
def State.unvctx (s : State) (x : CX) : State :=
  s.uncx { x with c := { x.c with clock := ⟨x.last, x.valu, x.vtu, x.vls, x.vrd⟩ } }

/-- Mark the compute descriptor as run, if the core did not halt in it. -/
def markComp (c : Core) : Core :=
  if c.halted then c else { c with comp := c.comp.map fun r => { r with done := true, iter := r.total } }

/-- Run the compute lane's descriptor with `f`. -/
def State.runComp (s : State) (gi : Nat) (ups : List Upset) (r : Run) (f : CX → CX) : State :=
  let s := s.strikes ups
  let x := f (s.cx gi r)
  s.uncx { x with c := markComp x.c }

/-- Whether a core is in its list and may make progress. -/
def Core.active (c : Core) : Bool := c.state == 1 && !c.halted && !c.haltReq

/-- Every result in flight has landed (R81). -/
def Core.settle (c : Core) (desc : Nat) : Core := c.land desc (c.drainAt 0)

/-- The compute descriptor, when it is of operation `op`, loaded, not finished, and the core may run it. -/
def Core.compReady (c : Core) (op : Nat) : Option Run :=
  if c.halted then none
  else
    match c.comp with
    | some r => if dOp r.desc = op ∧ r.chain.isSome ∧ r.done = false then some r else none
    | none => none

/-- The head of the transfer queue, when it is of operation `op` and not finished. -/
def Core.tqReady (c : Core) (op : Nat) : Option Run :=
  match c.tq with
  | r :: _ => if dOp r.desc = op ∧ r.done = false ∧ !c.halted then some r else none
  | [] => none

/-- Replace the head of the transfer queue. -/
def Core.setTq (c : Core) (r : Run) : Core := { c with tq := r :: c.tq.drop 1 }

/-- One more iteration of a transfer is done. (DESIGN CHOICE: log 7) -/
def Run.advance (r : Run) : Run := { r with iter := r.iter + 1, wait := false, done := decide (r.total ≤ r.iter + 1) }

/-- Whether a core's cluster may inject requests (R156). -/
def State.mayInject (s : State) (gi : Nat) : Bool := !(s.cluster (coreCi gi)).quiet

/-! ### SRAM errors -/

/-- Halt a core on an uncorrectable word (R79, R86). A debug halt becomes this one, which RESUME does not clear. -/
def State.lmemUe (s : State) (gi : Nat) : State :=
  let c := s.core gi
  let s := if c.halted && rf c.regs .CORE_STAT 0 1 3 != 4 then s
    else s.setCore gi { c with regs := sf (sf c.regs .CORE_STAT 0 0 1 1) .CORE_STAT 0 1 3 3 }
  s.coreFault gi 2 0

/-- A read of local memory through the external port (R79). -/
def State.extRead (s : State) (gi a n : Nat) : List Byte × State :=
  let r := (s.core gi).eccRead s.flaws a n
  let t := s.setCore gi r.1
  (s.rd a n, if r.2 then t.lmemUe gi else t)

/-- Account for the flaws of a cluster-store read (R168): corrections counted, one write-back a bank, and whether an uncorrectable
word was read. Banks are address bits [8:6]. -/
def Cluster.eccRead (c : Cluster) (bad : List (Nat × Option Flaw)) : Cluster × Bool :=
  bad.foldl (fun (st : Cluster × Bool) e =>
    match e.2 with
    | some (.single _) =>
      if st.1.wb.contains e.1 then st
      else
        let c := { st.1 with regs := satField st.1.regs .CLU_ECC 0 0 16 1 }
        if c.wb.any fun w => w / 8 % 8 == e.1 / 8 % 8 then (c, st.2) else ({ c with wb := c.wb ++ [e.1] }, st.2)
    | some (.double _) => ({ st.1 with regs := sf st.1.regs .CLU_ECC 0 16 1 1 }, true)
    | none => st) (c, false)

/-- A read of a cluster store. -/
def State.storeRead (s : State) (ci a n : Nat) : List Byte × State :=
  let r := (s.cluster ci).eccRead (s.flawsIn a n)
  let t := s.setCluster ci r.1
  (s.rd a n, if r.2 then t.notice (.cluster ci) St.CSTORE_UNCORRECTABLE 0 0 else t)

end Sys2Proof.Machine
end

