-- ==== Sys2Proof/Machine/Shed.lean ====
section
/-! DEFINITION. The Shed's shared operations: slots, tickets and completion records (R328-R332), and writes to memory that a snapshot
in progress must be given a copy of (R357). -/

namespace Sys2Proof.Machine

/-! ### Refused register accesses (R324) -/

/-- Log a refused host register access, if MBX_RWERRHI.VALID is 0, and raise REG_UNMAPPED. `kind`: 0 unmapped, 1 powered off,
2 CSP_RUNNING, 3 PARTIAL. -/
def State.rwErr (s : State) (addr kind : Nat) (write : Bool) : State :=
  let hi := addr / 2 ^ 32 % 2 ^ 16 + kind % 4 * 2 ^ 16 + b2n write * 2 ^ 18 + 2 ^ 31
  let m := sg (sg s.mbx .MBX_RWERRLO 0 (addr % 2 ^ 32)) .MBX_RWERRHI 0 hi
  let s := if rf s.mbx .MBX_RWERRHI 0 31 1 = 1 then s else { s with mbx := m }
  s.event St.REG_UNMAPPED 0 0 addr

/-! ### Persistent registers (R11, R14, R402) -/

/-- The key of a persistent register: its register-space offset, with a cluster's block at 0x100_0000 + 0x2_0000 × ci. -/
def hubKey (r : Reg) (i : Nat) : Nat := Reg.offset r i
def cluKey (ci : Nat) (r : Reg) (i : Nat) : Nat := 0x1000000 + 0x20000 * ci + Reg.offset r i

def State.wearOf (s : State) (key : Nat) : Nat := Sparse.get (fun _ => 0) s.pwr.wear key

/-- The 1,000,000th committed write freezes a register (R402). -/
def State.frozen (s : State) (key : Nat) : Bool := decide (1000000 ≤ s.wearOf key)

/-- The value a register takes when its RWP bits are written. -/
def rwpMerge (r : Reg) (old v : Nat) : Nat :=
  let m := r.mask (· == .rwp)
  (old &&& (2 ^ 32 - 1 - m)) ||| (v &&& m)

/-- Begin a commit (R14): the new value is read from now on; the old one is remembered until the commit completes. -/
def State.beginCommit (s : State) (key old : Nat) : State :=
  { s with pwr := { s.pwr with commits := s.pwr.commits ++ [(key, old)] } }

/-- Write the RWP bits of a hub register. A write that changes nothing is not committed; a frozen register refuses and RWP_WORN names
it again. -/
def State.rwpH (s : State) (r : Reg) (i v : Nat) : State :=
  let old := s.h r i
  let new := rwpMerge r old v
  if new = old then s
  else if s.frozen (hubKey r i) then s.event St.RWP_WORN 0 0 (hubKey r i)
  else (s.setH r i new).beginCommit (hubKey r i) old

/-- Write RWP bits of a field of a hub register. -/
def State.rwpHf (s : State) (r : Reg) (i lo w v : Nat) : State := s.rwpH r i (putBits (s.h r i) lo w v)

/-- Write the RWP bits of a cluster register. -/
def State.rwpC (s : State) (ci : Nat) (r : Reg) (v : Nat) : State :=
  let old := rg (s.cluster ci).regs r
  let new := rwpMerge r old v
  if new = old then s
  else if s.frozen (cluKey ci r 0) then s.event St.RWP_WORN 2 ci (cluKey ci r 0)
  else (s.modCluster ci fun c => { c with regs := sg c.regs r 0 new }).beginCommit (cluKey ci r 0) old

/-! ### Slots and tickets -/

def State.slot (s : State) (k : Nat) : Slot := s.mb.slots.getD k Slot.init
def State.setSlot (s : State) (k : Nat) (x : Slot) : State := { s with mb := { s.mb with slots := s.mb.slots.set k x } }
def State.ticket (s : State) (n : Nat) : Ticket := s.mb.tickets.getD n Ticket.init
def State.setTicket (s : State) (n : Nat) (x : Ticket) : State := { s with mb := { s.mb with tickets := s.mb.tickets.set n x } }

/-- A slot's response becomes VALID, and vector 1 is raised (R330, R340). -/
def State.answer (s : State) (k tag status : Nat) (data : List Byte) : State :=
  ((s.sampleUs 63 (s.sundial - (s.slot k).tick)).setSlot k ⟨2, tag, status, data, false, 0⟩).raiseMsix 1

/-- End a ticket with its final status, and raise vector 2 (R331, R340). (DEDUCED: log 53) -/
def State.endTicket (s : State) (n status : Nat) : State :=
  let t := s.ticket n
  if t.active ∧ t.done = false then (s.setTicket n { t with done := true, status := status, progress := 100 }).raiseMsix 2 else s

/-- The active ticket that runs an opcode, if any. -/
def State.ticketOf (s : State) (opcode : Nat) : Option Nat :=
  (List.range 8).find? fun n => (s.ticket n).active && !(s.ticket n).done && (s.ticket n).opcode == opcode

/-- End every ticket that runs an opcode. -/
def State.endOp (s : State) (opcode status : Nat) : State :=
  (List.range 8).foldl (fun (t : State) n => if (t.ticket n).opcode = opcode then t.endTicket n status else t) s

/-! ### The layer table (R199) -/

def State.layer (s : State) (i : Nat) : Nat := Sparse.get (fun _ => 0) s.layers i

def lWbase (l : Nat) : Nat := bits l 0 48
def lXbase (l : Nat) : Nat := bits l 48 48
def lGbase (l : Nat) : Nat := bits l 96 48
def lNin (l : Nat) : Nat := bits l 144 16
def lNout (l : Nat) : Nat := bits l 160 16
def lXpose (l : Nat) : Bool := bit l 176
def lFrozen (l : Nat) : Bool := bit l 177
def lFpv (l : Nat) : Bool := bit l 178
def lFprm (l : Nat) : Nat := bits l 179 6
def lValid (l : Nat) : Bool := bit l 185
def lNcon (l : Nat) : Nat := bits l 192 16

/-- A layer that takes part in the update: valid and not frozen. -/
def lTrained (l : Nat) : Bool := lValid l && !lFrozen l

/-- The valid entries, in table order. -/
def State.validLayers (s : State) : List Nat := (s.layers.filter fun e => lValid e.2).map (·.1)

/-- The trained layers, in table order. -/
def State.trainedLayers (s : State) : List Nat := (s.layers.filter fun e => lTrained e.2).map (·.1)

/-! ### Harvest staging (R357, R360) -/

/-- HRV_STAT.STATE: 0 IDLE, 1 ARMED, 2 OPEN, 3 MANIFEST, 4 RESTORE. -/
def State.hrv (s : State) : Nat := s.hf .HRV_STAT 0 0 3

/-- Abandon an armed or open snapshot (R360): MVALID stays 0, STATE returns to IDLE, the ticket ends. -/
def State.abandon (s : State) (status : Nat) : State :=
  if s.hrv = 1 ∨ s.hrv = 2 ∨ s.hrv = 3 then
    let n := s.harvest.ticket
    let s := if status = St.HARVEST_OVERRUN then s.setHf .HRV_STAT 0 10 1 1 else s
    let s := ((s.setHf .HRV_STAT 0 0 3 0).setHf .HRV_STAT 0 3 7 0).setHf .HRV_STAT 0 16 16 0
    ({ s with harvest := { Harvest.init with hostMem := s.harvest.hostMem } }.event status 0 0 0).endTicket n status
  else s

/-- Bytes of the staging area. -/
def State.stageSize (s : State) : Nat := 2 ^ (s.hf .HRV_STAGE 0 27 5 + 26)

/-- Whether 4 KiB unit `u` holds bytes of an item not yet drained. -/
def Harvest.wants (h : Harvest) (u : Nat) : Bool :=
  h.items.any fun i => i.pieces.any fun p => decide (4096 * u < p.1 + p.2) && decide (p.1 < 4096 * u + 4096)

/-- Copy one unit into staging before it is written. -/
def State.stageUnit (s : State) (u : Nat) : State :=
  if s.hrv = 2 ∧ s.harvest.wants u ∧ (s.harvest.staged.all fun e => e.1 != u) then
    let k := s.harvest.staged.length
    if s.stageSize < 4096 * k + 4096 then s.abandon St.HARVEST_OVERRUN
    else
      let a := 4096 * s.hf .HRV_STAGE 0 0 27 + 4096 * k
      let t := s.wr a (s.rd (4096 * u) 4096)
      { t with harvest := { t.harvest with staged := t.harvest.staged ++ [(u, a)] } }.setHf .HRV_STAT 0 16 16
        (min ((4096 * (k + 1)) / 2 ^ 20) 0xFFFF)
  else s

/-- Copy what a write of `n` bytes at `a` would change of the items not yet drained. -/
def State.stage (s : State) (a n : Nat) : State :=
  if s.hrv = 2 ∧ 0 < n then
    (List.range ((a + n - 1) / 4096 - a / 4096 + 1)).foldl (fun s i => s.stageUnit (a / 4096 + i)) s
  else s

/-- A write by a core, the host, the Shed, a sweep, a fold or an adoption: staged first, then made. -/
def State.wrS (s : State) (a : Nat) (bs : List Byte) : State := (s.stage a bs.length).wr a bs

/-! ### Completion records -/

/-- Write a completion record at a 64-byte-aligned address (R328). (DEDUCED: log 56) -/
def State.completion (s : State) (cdpa status tag ticket len : Nat) : State :=
  s.wrS (cdpa / 64 * 64) (toLe 2 status ++ toLe 2 tag ++ toLe 1 ticket ++ toLe 3 0 ++ toLe 4 len ++ toLe 8 s.sundial ++ toLe 40 0
    ++ toLe 4 1)

end Sys2Proof.Machine
end

