-- ==== Sys2Proof/Machine/Attest.lean ====
section
/-! DEFINITION. Lifecycle state, measurements and ATTEST (R303, R403-R411). -/

namespace Sys2Proof.Machine

/-- The lifecycle state (R411): 0 BLANK, 1 SECURED, 2 DEBUG_UNLOCKED, 3 RETURNED. -/
def State.lcs (s : State) : Nat := if s.sec.fuse = 1 ∧ s.hf .SEC_LCDBG 0 0 1 = 1 then 2 else s.sec.fuse

/-- SHA-512 of an image's header and body, and its fields (R405, R406). -/
def Flash.digest : Flash → List Byte
  | .factory => toLe 64 Config.fwDigest
  | .erased => sha512 []
  | .image b => sha512 b

def Flash.version : Flash → Nat
  | .factory => Config.fwVersion % 2 ^ 32
  | .erased => 0
  | .image b => leNat ((b.drop 12).take 4)

def Flash.svn : Flash → Nat
  | .factory => Config.fwSvn % 65
  | .erased => 0
  | .image b => leNat ((b.drop 8).take 1)

/-- The group key in force. -/
def State.gkey (s : State) : List Byte := wordsBytes ((List.range 33).map fun i => s.h .SEC_GKEY i)

/-- Measurement block `i`, 1-5 (R405). -/
def State.measurement (s : State) (i : Nat) : List Byte :=
  match i with
  | 1 => toLe 64 Config.romDigest
  | 2 => s.sec.boot.digest
  | 3 => sha512 (toLe 1 s.sec.svn)
  | 4 => sha512 (toLe 1 s.lcs ++ toLe 1 (s.hf .SEC_STAT 0 2 1))
  | _ => sha512 (sha512 s.sec.skey ++ sha512 s.gkey)

/-- ATTEST (R405): SHA-512 of blocks 1-5 in order. -/
def State.attest (s : State) : List Byte := sha512 (((List.range 5).map fun i => s.measurement (i + 1)).flatten)

end Sys2Proof.Machine
end

