-- ==== Sys2Proof/Machine/Engine.lean ====
section
/-! DEFINITION. The descriptor engine: fetch, the window, issue, completion, REPEAT, and the compute and transfer lanes
(R109-R131, R148-R153, R252). -/

namespace Sys2Proof.Machine

/-! ### Fetch (R109, R129) -/

/-- The list in use: BASE, SPACE and LEN of CORE_LISTk for CORE_LSEL.CUR. -/
def Core.list (c : Core) : Nat := rg c.regs .CORE_LIST (rf c.regs .CORE_LSEL 0 2 2)

/-- The DPA of list entry `i`, or none when its 64 bytes lie beyond the list's memory (R113). -/
def listAddr (gi l i : Nat) : Option Nat :=
  let o := 64 * bits l 0 13 + 64 * i
  if bit l 13 then (if o + 64 ≤ 0x80000 then some (storeBase (coreCi gi) + o) else none)
  else if o + 64 ≤ 0x4000 then some (localBase gi + o) else none

/-- Whether entry `i` is the last of its list (R130). -/
def lastEntry (l i d : Nat) : Bool := dLast d || decide (i + 1 = bits l 16 16)

/-- Whether the fetch unit may fetch: RUNNING, not halted or stopping, room in the window, the list not ended. -/
def Core.mayFetch (c : Core) : Bool :=
  c.active && decide (c.stop = 0) && decide (c.win.length < 8) && !c.fetchEnd && !c.beyond

/-- Whether a REPEAT at `i` has a legal range: its BACK entries exist, none is a REPEAT, none has LAST (R129). -/
def State.repeatLegal (s : State) (gi i d : Nat) : Bool :=
  let l := (s.core gi).list
  decide (dBack d ≤ i) && (List.range (dBack d)).all fun k =>
    match listAddr gi l (i - 1 - k) with
    | none => false
    | some a => let e := s.rdN a 64; dOp e != opRepeat && !dLast e

/-- The failure of an entry tested as it enters the window, 0 for none (R113). -/
def State.entryBad (s : State) (gi i d : Nat) : Nat :=
  if staticStatus d ≠ 0 then staticStatus d
  else if dOp d = opRepeat ∧ s.repeatLegal gi i d = false then St.DESC_ILLEGAL
  else 0

/-- LIST_ENTRY_FETCH (R109, R113): read the next entry into the window. A legal REPEAT is left to its own command. -/
def execListEntryFetch (gi : Nat) (ups : List Upset) (s : State) : Out :=
  let s0 := s
  let s := s.strikes ups
  let c := s.core gi
  if !c.mayFetch then .next s0
  else
    let i := c.fetch
    match listAddr gi c.list i with
    | none => .next (s.setCore gi { c with beyond := true })
    | some a =>
      let r := if bit c.list 13 then s.storeRead (coreCi gi) a 64 else s.extRead gi a 64
      let s := r.2
      let c := s.core gi
      let d := leNat r.1
      let bad := s.entryBad gi i d
      if dOp d = opRepeat ∧ bad = 0 then .next s
      else
        .next (s.setCore gi { c with
          win := c.win ++ [⟨i, d, bad⟩], fetch := i + 1, fetchEnd := lastEntry c.list i d && c.rep.isNone })

/-- REPEAT (R129): the fetch unit goes back BACK entries, `n` times in all; `n` is latched on the first arrival. -/
def execRepeatEntry (gi : Nat) (s : State) : Out :=
  let c := s.core gi
  if !c.mayFetch then .next s
  else
    match listAddr gi c.list c.fetch with
    | none => .next s
    | some a =>
      let d := s.rdN a 64
      if dOp d ≠ opRepeat ∨ s.entryBad gi c.fetch d ≠ 0 then .next s
      else
        let n := match c.rep with
          | some (_, left) => left
          | none => if dCsrc d 0 then c.prm (dCp d 0) % 2 ^ 16 else dN d 0
        if n = 0 then
          .next (s.setCore gi { c with rep := none, fetch := c.fetch + 1, fetchEnd := lastEntry c.list c.fetch d })
        else .next (s.setCore gi { c with rep := some (c.fetch, n - 1), fetch := c.fetch - dBack d })

/-! ### Issue (R119-R126) -/

/-- The counts a descriptor latches (R125). -/
def Core.latchCounts (c : Core) (d : Nat) : List Nat :=
  (List.range 4).map fun k => if dCsrc d k then c.prm (dCp d k) % 2 ^ 16 else dN d k

/-- Comparator `k` (R126). -/
def Core.cmp (c : Core) (k : Nat) : Bool :=
  let r := rg c.regs .CORE_CMP k
  let a := c.prm (bits r 0 6)
  let b := c.prm (bits r 6 6)
  match bits r 12 3 with
  | 0 => a == b
  | 1 => a != b
  | 2 => decide (a < b)
  | 3 => decide (b ≤ a)
  | 4 => a &&& b != 0
  | _ => a &&& b == 0

/-- The predicate of a descriptor (R110, R126). -/
def Core.pred (c : Core) (d : Nat) : Bool := (if dPred d = 0 then true else c.cmp (dPred d - 1)) != dPneg d

/-- A descriptor's waits are met: the sum of its counts on each token (R122). -/
def Core.waitsMet (c : Core) (d : Nat) : Bool :=
  (List.range 3).all fun j => !dWaitEn d j ||
    decide ((List.range 3).foldl (fun a i => if dWaitEn d i ∧ dWaitTok d i = dWaitTok d j then a + dWaitCnt d i else a) 0
      ≤ rf c.regs .CORE_TOK (dWaitTok d j) 0 16)

/-- Subtract a descriptor's waits (R122). -/
def Core.consume (c : Core) (d : Nat) : Core :=
  (List.range 3).foldl (fun c j =>
    if dWaitEn d j then
      { c with regs := sg c.regs .CORE_TOK (dWaitTok d j) (rf c.regs .CORE_TOK (dWaitTok d j) 0 16 - dWaitCnt d j) }
    else c) c

/-- Whether a descriptor's lane can accept it (R120, R398). -/
def State.laneFree (s : State) (gi d : Nat) : Bool :=
  let c := s.core gi
  if opCompute (dOp d) then
    c.comp.isNone && !(c.idle.any fun r => opCompute (dOp r.desc)) && (s.cluster (coreCi gi)).released
  else if opTransfer (dOp d) then decide (c.tq.length < 4)
  else true

/-- The window entries that may issue: those before the first failing one. -/
def Core.issuable (c : Core) : List WinEntry := c.win.takeWhile fun e => decide (e.bad = 0)

/-- The oldest entry whose waits are met and whose lane can accept it (R121). -/
def State.ready (s : State) (gi : Nat) : Option WinEntry :=
  let c := s.core gi
  c.issuable.find? fun e => c.waitsMet e.desc && s.laneFree gi e.desc

/-- The bytes of the moving operand of a pass, from the H0 position. -/
def passSpan (d : Nat) : Nat := 32 * dMrs d * (dNrow d - 1) + (dK d * fmtBits (dMfmt d) + 7) / 8

/-- Where the keep region ends (R185, R186). -/
def State.keepTop (s : State) : Nat :=
  let base := 4096 * s.hf .STEP_KEEPBASE 0 0 27
  if s.step.act = 0 then base + 2 * s.hf .STEP_BLK 0 0 11 * (4096 * s.hf .STEP_BISIZE 0 0 27) else base + 4096 * s.hf .STEP_KEEPSIZE 0 0 27

/-- The part of the keep region that wholly holds a range of HBM: its slot under BLOCK_INPUT, the region itself under COMPILER. -/
def State.keepPart (s : State) (p len : Nat) : Option Nat :=
  let base := 4096 * s.hf .STEP_KEEPBASE 0 0 27
  let sz := 4096 * s.hf .STEP_BISIZE 0 0 27
  if decide (base ≤ p) && decide (p + len ≤ s.keepTop) then
    if s.step.act ≠ 0 then some 0
    else if decide (0 < sz) && decide ((p - base) / sz = (p + len - 1 - base) / sz) then some ((p - base) / sz) else none
  else none

/-- The HBM address that iteration `j` of a STORE writes; none when its destination is no HBM. -/
def storeHbm (h : Nat) (r : Run) (j : Nat) : Option Nat :=
  if hSpace h then match placeOf (hPos h (r.indices j)).toNat with | .hbm x => some x | _ => none else none

/-- Whether iteration `j` of a STORE touches the part of the keep region that is clipped to HBM (R186). -/
def State.keepClipped (s : State) (h : Nat) (r : Run) (len j : Nat) : Bool :=
  let p := hPos h (r.indices j)
  hSpace h && decide (0x8000000000 < s.keepTop) && decide (0x8000000000 < p + len) && decide (p < min s.keepTop 0x10000000000)

/-- Whether a STORE of `n` iterations to `h` breaks the keep-region rule (R186): with KEEP it lies wholly within one slot, or the region; without,
it touches none of it; and none touches the clipped part. -/
def State.keepBreaks (s : State) (d h : Nat) (r : Run) (n : Nat) : Bool :=
  let len := dLen d
  let part := fun (j : Nat) => (storeHbm h r j).bind fun x => s.keepPart x len
  if !allBelow (fun j => !s.keepClipped h r len j) n then true
  else if dKeep d then !allBelow (fun j => (part j).isSome && part j == part 0) n
  else !allBelow (fun j => match storeHbm h r j with
    | some x => !(decide (4096 * s.hf .STEP_KEEPBASE 0 0 27 < x + len) && decide (x < s.keepTop))
    | none => true) n

/-- The causes of R113 tested at issue: 0, or the status of the stop. -/
def State.issueStatus (s : State) (gi d : Nat) : Nat :=
  let c := s.core gi
  let hs := c.handles
  let o := dOp d
  let used := (List.range 4).filter fun j => dHv d j
  let fill := o = opFill ∨ o = opFillT ∨ o = opFillIn
  let h0 := hget hs (dH d 0)
  let h1 := hget hs (dH d 1)
  let run := c.pred d
  let r : Run := ⟨0, d, c.latchCounts d, hs, false, none, 0, false, 0, [], false⟩
  let n := if run then r.total else 0
  if !(used.all fun j => handleLegal hs (dH d j) (decide fill && j == 0)) then St.DESC_ILLEGAL
  else if dChained d && !(decide (hFmt (hget hs (dSh d)) ≠ 15)
      && !isExt hs (dSh d)) then St.DESC_ILLEGAL
  else if o = opPass ∧ localInside h0 r.indices n (passSpan d) = false then St.HANDLE_RANGE
  else if (o = opFill ∨ o = opFillT) ∧ localInside h0 r.indices n (fillSize h0 (dFsfmt d) (dFk d)) = false then St.HANDLE_RANGE
  else if o = opLoad ∧ (localInside h1 r.indices n (dLen d) && farInside h0 r.indices n (dLen d) false) = false then
    St.HANDLE_RANGE
  else if o = opStore ∧ (localInside h0 r.indices n (dLen d)
      && allBelow (fun j => farInside h1 (fun _ => r.indices j) 1 (dLen d) true || s.keepClipped h1 r (dLen d) j) n) = false then
    St.HANDLE_RANGE
  else if (o = opSend ∨ o = opPost) ∧ localInside h0 r.indices n (dLen d) = false then St.HANDLE_RANGE
  else if o = opRakeSq ∧ farInside h0 r.indices n (dLen d) false = false then St.HANDLE_RANGE
  else if o = opSend ∧ rf c.regs .CORE_SCTX (dCh d) 21 1 = 0 then St.CHAN_UNBOUND
  else if o = opPost ∧ rf c.regs .CORE_RCTX (dCh d) 26 1 = 0 then St.CHAN_UNBOUND
  else if (List.range 2).any fun j => dSigKind d j = 2 && rf c.regs .CORE_SCTX (dSigCh d j) 21 1 = 0 then St.CHAN_UNBOUND
  else if o = opStore && s.keepBreaks d h1 r n then St.KEEP_RANGE
  else 0

/-- Remove the window entry that issues. -/
def Core.leave (c : Core) (e : WinEntry) : Core := { c with win := c.win.erase e }

/-- The slot a fill names: NEXT is the slot the pointer does not name (R112). -/
def Core.fillSlotOf (c : Core) (d : Nat) : Nat := if dFslot d = 2 then 1 - c.slotPtr else dFslot d

/-- The words of a descriptor's chain body in local memory, as bytes. -/
def State.chainBytes (s : State) (gi d : Nat) : List Byte :=
  if dChained d then s.rd (localBase gi + 8 * dCaddr d) (8 * dClen d) else []

/-- Issue an entry: consume its waits, latch counts, handles, HZMODE, a fill's slot and the chain body `body`, and enter its lane (R112, R119-R126, R443).
A compute descriptor starts once every earlier result has landed (R81). (DEDUCED: log 24) -/
def Core.issue (c : Core) (e : WinEntry) (body : List Byte) : Core :=
  let d := e.desc
  let tol := decide (rf c.regs .CORE_CFG 0 0 1 = 1)
  let run := c.pred d
  let chain := if dChained d then none else some []
  let slot := if dOp d = opFill ∨ dOp d = opFillT then c.fillSlotOf d else 0
  let r : Run := ⟨e.idx, d, c.latchCounts d, c.handles, tol, chain, 0, false, slot, body, false⟩
  let c := { (c.leave e).consume d with regs := sf ((c.leave e).consume d).regs .CORE_STAT 0 4 1 (b2n tol) }
  if dOp d = opNop ∨ run = false ∨ r.total = 0 then { c with idle := c.idle ++ [{ r with done := true }] }
  else if opCompute (dOp d) then { c.settle e.idx with comp := some r, clock := ⟨none, 0, 0, 0, 0⟩ }
  else { c with tq := c.tq ++ [r] }

/-- Whether the engine may issue. -/
def Core.mayIssue (c : Core) : Bool := c.active && decide (c.stop = 0)

/-- Set STEP_STAT.KEEPV when the stop is a KEEP_RANGE (R186). -/
def State.stopIssue (s : State) (gi status : Nat) : State :=
  let s := if status = St.KEEP_RANGE then s.setHf .STEP_STAT 0 1 1 1 else s
  s.stopEngine gi status

/-- DESC_ISSUE (R121, R122, R113): the oldest ready entry issues; if it fails its issue-time test the engine stops. -/
def execDescIssue (gi : Nat) (s : State) : Out :=
  let c := s.core gi
  if !c.mayIssue then .next s
  else
    match s.ready gi with
    | none => .next s
    | some e =>
      let st := s.issueStatus gi e.desc
      if st ≠ 0 then .next (s.stopIssue gi st) else .next ((s.setCore gi (c.issue e (s.chainBytes gi e.desc))).traceAt gi 0 e.idx)

/-- DESC_ENGINE_STOP (R113): the failing entry has become the oldest, the next entry lies beyond the list's memory with
every entry before it issued, or the ready entry fails its issue-time test. -/
def execDescEngineStop (gi : Nat) (s : State) : Out :=
  let c := s.core gi
  if !c.mayIssue then .next s
  else
    match c.win with
    | e :: _ =>
      if e.bad ≠ 0 then .next (s.stopEngine gi e.bad)
      else
        match s.ready gi with
        | none => .next s
        | some e => let st := s.issueStatus gi e.desc; if st ≠ 0 then .next (s.stopIssue gi st) else .next s
    | [] => if c.beyond then .next (s.stopEngine gi St.HANDLE_RANGE) else .next s

/-- CHAIN_BODY_LOAD (R443): the chain words, as they were at issue, are in the chain buffer. -/
def execChainBodyLoad (gi : Nat) (ups : List Upset) (s : State) : Out :=
  let s0 := s
  let s := s.strikes ups
  let c := s.core gi
  match c.comp with
  | none => .next s0
  | some r =>
    if r.chain.isSome ∨ c.halted then .next s0
    else
      let a := localBase gi + 8 * dCaddr r.desc
      let n := dClen r.desc
      let bs := (({ s0 with mem := msets s0.mem a r.got }).strikes ups).rd a (8 * n)
      let words := (List.range n).map fun k => leNat ((bs.drop (8 * k)).take 8)
      let t := (s.extRead gi a (8 * n)).2
      .next (t.setCore gi { t.core gi with comp := some { r with chain := some words } })

/-! ### Completion (R123, R130) -/

/-- Fire one signal (R110, R123, R153). A channel signal whose context has lost VALID is not sent and stops the engine. -/
def State.signal (s : State) (gi d j : Nat) : State :=
  let inc := dSigInc d j
  match dSigKind d j with
  | 1 => s.addToken gi (dSigTok d j) inc
  | 2 =>
    let c := s.core gi
    let ch := dSigCh d j
    let r := rg c.regs .CORE_SCTX ch
    if bit r 21 then
      let dst := coreOf (bits r 0 7 + 128 * bits r 7 6) (bits r 13 6)
      s.offer gi (.core dst) .tc1 (.token (bits r 19 2) (c.send.getD ch SendCtx.init).seq inc)
    else s.stopEngine gi St.CHAN_UNBOUND
  | 3 => s.cspEvent (coreCi gi) (dSigTok d j) inc
  | _ => s

/-- Complete a descriptor: it is traced (R423), then S0, then S1 (R123), then any stop or debug halt that was waiting for it. -/
def State.complete (s : State) (gi : Nat) (r : Run) : State :=
  ((((s.traceAt gi 1 r.idx).signal gi r.desc 0).signal gi r.desc 1).settleStop gi).modCore gi Core.settleHalt

/-- Complete the first of the entries that run nothing (R120, R125). -/
def State.completeIdle (s : State) (gi : Nat) : State :=
  let c := s.core gi
  match c.idle with
  | r :: rest => (s.setCore gi { c with idle := rest }).complete gi r
  | [] => s

/-- Complete the head of the transfer queue, if it is done. -/
def State.completeTq (s : State) (gi : Nat) : State :=
  let c := s.core gi
  match c.tq with
  | t :: rest => if t.done then (s.setCore gi { c with tq := rest }).complete gi t else s
  | [] => s

/-- DESC_COMPLETE (R123): the compute descriptor, once its results have landed (R81), else one that ran nothing, else the head of the transfer
queue. Nothing completes on a halted core, and no signal fires (R86). -/
def execDescComplete (gi : Nat) (s : State) : Out :=
  let c := s.core gi
  if c.halted then .next s
  else
    match c.comp with
    | some r =>
      if r.done then .next ((s.setCore gi { c.settle r.idx with comp := none }).complete gi r)
      else .next (if c.idle.isEmpty then s.completeTq gi else s.completeIdle gi)
    | none => .next (if c.idle.isEmpty then s.completeTq gi else s.completeIdle gi)

/-- NOP (R120): the oldest issued NOP completes, in the cycle after it issued. -/
def execNop (gi : Nat) (s : State) : Out :=
  match (s.core gi).idle with
  | r :: _ => if dOp r.desc = opNop ∧ (s.core gi).halted = false then .next (s.completeIdle gi) else .next s
  | [] => .next s

/-- Whether a core has completed its list (R130). -/
def Core.listDone (c : Core) : Bool :=
  c.active && decide (c.stop = 0) && c.fetchEnd && c.win.isEmpty && c.rep.isNone && c.quietLanes

/-! ### The compute lane -/

/-- PASS (R127): broadcasts interleaved with the chain body, over every iteration. -/
def execPass (gi : Nat) (ups : List Upset) (s : State) : Out :=
  match (s.core gi).compReady opPass with
  | none => .next s
  | some r =>
    let r' := { r with slot := (s.core gi).passSlot r.desc }
    .next ((s.modCore gi fun c => { c with comp := some r' }).runComp gi ups r' fun x => x.runPass r')

/-- CHAIN (R128): the chain body once per iteration. -/
def execChain (gi : Nat) (ups : List Upset) (s : State) : Out :=
  match (s.core gi).compReady opChain with
  | none => .next s
  | some r => .next (s.runComp gi ups r fun x => x.runChain r)

/-- Run the ELEM in the compute lane when its EOP is `eop` (R71). -/
def State.elem (s : State) (gi eop : Nat) : State :=
  match (s.core gi).compReady opElem with
  | none => s
  | some r => if dEop r.desc = eop then s.runComp gi [] r fun x => x.runElem r else s

/-- EMUL (R71): Aj × s. -/
def execEmul (gi : Nat) (s : State) : Out := .next (s.elem gi 1)

/-- EADD (R71): Aj + b. -/
def execEadd (gi : Nat) (s : State) : Out := .next (s.elem gi 2)

/-- EFMA (R71): Aj × s + b, fused. -/
def execEfma (gi : Nat) (s : State) : Out := .next (s.elem gi 3)

/-- Whether a pass that has begun and has not completed reads slot `k`, the slot it resolved at its first broadcast (R73, R75). -/
def Core.passReads (c : Core) (k : Nat) : Bool :=
  match c.comp with
  | some r => dOp r.desc == opPass && r.done && r.slot == k
  | none => false

/-- Halt on a slot hazard (R75, R86). A fill meets it in its first cycle: CORE_HZCYC is 0. (DESIGN CHOICE: log 96) -/
def State.slotHazard (s : State) (gi slot idx : Nat) : State :=
  let c := (s.core gi).hzlog (40 + slot) 2 idx 0
  (s.setCore gi { c with regs := sf (sf c.regs .CORE_STAT 0 0 1 1) .CORE_STAT 0 1 3 2 }).coreFault gi 1 0

/-- Start one iteration of a FILL or FILL_T (R74). A fill whose last iteration is still landing does not start another; one that meets an uncorrectable
word still lands, on a halted core (R79, R86). -/
def State.fill (s : State) (gi : Nat) (ups : List Upset) (op : Nat) : State :=
  let c := s.core gi
  match c.compReady op with
  | none => s
  | some r =>
    if r.wait then s
    else
      let s := s.strikes ups
      let x := (s.cx gi r).startFill r (op == opFillT) r.slot
      s.uncx { x with c := { x.c with comp := some { r with wait := true } } }

/-- FILL (R74). -/
def execFill (gi : Nat) (ups : List Upset) (s : State) : Out := .next (s.fill gi ups opFill)

/-- FILL_T (R74): the transposed read. -/
def execFillT (gi : Nat) (ups : List Upset) (s : State) : Out := .next (s.fill gi ups opFillT)

/-- A FILL_IN whose tile has all arrived is complete: its iteration is done and the slot's fill-pending bit clears (R74, R176). -/
def State.fillInDone (s : State) (gi : Nat) : State :=
  let c := s.core gi
  match c.tq.head?.filter fun r => dOp r.desc == opFillIn && !r.done with
  | none => s
  | some r =>
    let own := match c.take with
      | none => true
      | some k => decide (32 * k.tile ≤ k.seen)
    if r.wait && own && decide (fillSize (hget r.hs (dH r.desc 0)) (dFsfmt r.desc) (dFk r.desc) ≤ r.got.length) then
      s.setCore gi ((c.setPend r.slot false).setTq { r.advance with got := [] })
    else s

/-- FILL_COMPLETE (R74): the last byte of the slot lands and the fill-pending bit clears. For a FILL_IN that is when every
source byte has been taken. -/
def execFillComplete (gi : Nat) (s : State) : Out :=
  let c := s.core gi
  match c.comp with
  | some r =>
    if (dOp r.desc = opFill ∨ dOp r.desc = opFillT) ∧ r.wait then
      .next (s.setCore gi { c.setPend r.slot false with comp := some r.advance })
    else .next (s.fillInDone gi)
  | none => .next (s.fillInDone gi)

/-! ### The transfer engine -/

/-- The local handle's position in the current iteration of a transfer. -/
def Run.localAt (r : Run) (j : Nat) : Nat := (hPos (hget r.hs (dH r.desc j)) (r.indices r.iter)).toNat

/-- The transfer at the head of the queue goes on as `r`, unless its own read has halted the core (R86). -/
def State.goOn (s : State) (gi : Nat) (r : Run) : State := if (s.core gi).halted then s else s.modCore gi fun c => c.setTq r

/-- LOAD (R111, R151): one iteration asks for its bytes, or copies them within local memory. -/
def execLoad (gi : Nat) (s : State) : Out :=
  let c := s.core gi
  match c.tqReady opLoad with
  | none => .next s
  | some r =>
    if r.wait then .next s
    else
      let n := dLen r.desc
      let far := r.localAt 0
      if hSpace (hget r.hs (dH r.desc 0)) then
        if s.mayInject gi then
          let s := s.setCore gi (c.setTq { r with wait := true })
          .next (s.inject (.core gi) (s.endpointOf far) .tc2q (.mrd far (n / 32) (r.iter % 2 ^ 16)))
        else .next s
      else
        let d := s.extRead gi (localBase gi + far) n
        .next ((d.2.wr (localBase gi + r.localAt 1) d.1).goOn gi r.advance)

/-- STORE (R111, R151): one iteration sends its bytes, or copies them within local memory. -/
def execStore (gi : Nat) (s : State) : Out :=
  let c := s.core gi
  match c.tqReady opStore with
  | none => .next s
  | some r =>
    if r.wait then .next s
    else
      let n := dLen r.desc
      let d := s.extRead gi (localBase gi + r.localAt 0) n
      let far := r.localAt 1
      if hSpace (hget r.hs (dH r.desc 1)) then
        if s.mayInject gi then .next ((d.2.goOn gi { r with wait := true }).inject (.core gi) (s.endpointOf far) .tc2q (.mwr far d.1))
        else .next s
      else .next ((d.2.wr (localBase gi + far) d.1).goOn gi r.advance)

def Core.sendCtx (c : Core) (k : Nat) : SendCtx := c.send.getD k SendCtx.init
def Core.recvCtx (c : Core) (k : Nat) : RecvCtx := c.recv.getD k RecvCtx.init
def Core.setSend (c : Core) (k : Nat) (x : SendCtx) : Core := { c with send := c.send.set k x }
def Core.setRecv (c : Core) (k : Nat) (x : RecvCtx) : Core := { c with recv := c.recv.set k x }

/-- SEND (R152): the SEND at the head of the transfer engine waits for a credit; once CREDIT ≥ 1 it may inject. -/
def execSend (gi : Nat) (s : State) : Out :=
  let c := s.core gi
  match c.tqReady opSend with
  | none => .next s
  | some r =>
    if r.wait = false ∧ 1 ≤ (c.sendCtx (dCh r.desc)).credit then .next (s.setCore gi (c.setTq { r with wait := true })) else .next s

/-- SEND_INJECT (R152): one MSG with the next SEQ; the credit is consumed. The binding is read now. -/
def execSendInject (gi : Nat) (s : State) : Out :=
  let c := s.core gi
  match c.tqReady opSend with
  | none => .next s
  | some r =>
    let k := dCh r.desc
    let x := c.sendCtx k
    if r.wait ∧ 1 ≤ x.credit ∧ s.mayInject gi then
      let b := rg c.regs .CORE_SCTX k
      let dst := coreOf (bits b 0 7 + 128 * bits b 7 6) (bits b 13 6)
      let d := s.extRead gi (localBase gi + r.localAt 0) (dLen r.desc)
      let t := d.2.modCore gi fun c => c.setSend k { x with credit := x.credit - 1, seq := (x.seq + 1) % 2 ^ 16 }
      .next ((t.goOn gi r.advance).inject (.core gi) (.core dst) (if dTc2 r.desc then .tc2q else .tc1) (.msg (bits b 19 2) x.seq d.1))
    else .next s

/-- Arm one buffer and return a credit to the bound sender (R152). -/
def State.arm (s : State) (gi : Nat) (r : Run) : State :=
  let c := s.core gi
  let k := dCh r.desc
  let x := c.recvCtx k
  let b := rg c.regs .CORE_RCTX k
  let src := coreOf (bits b 0 7 + 128 * bits b 7 6) (bits b 13 6)
  let c := (c.setRecv k { x with armed := x.armed ++ [(r.localAt 0, dLen r.desc)] }).setTq r.advance
  (s.setCore gi c).inject (.core gi) (.core src) .tc1 (.credit (bits b 19 2) 1)

/-- POST (R152): arm a buffer, or wait at the head while eight are armed. -/
def execPost (gi : Nat) (s : State) : Out :=
  let c := s.core gi
  match c.tqReady opPost with
  | none => .next s
  | some r =>
    if r.wait ∨ s.mayInject gi = false then .next s
    else if (c.recvCtx (dCh r.desc)).armed.length < 8 then .next (s.arm gi r)
    else .next (s.setCore gi (c.setTq { r with wait := true }))

/-- POST_ARM (R152): a waiting POST arms its buffer once one has been consumed. -/
def execPostArm (gi : Nat) (s : State) : Out :=
  let c := s.core gi
  match c.tqReady opPost with
  | none => .next s
  | some r =>
    if r.wait ∧ (c.recvCtx (dCh r.desc)).armed.length < 8 ∧ s.mayInject gi then .next (s.arm gi r) else .next s

/-- A value at the Rake node (R253): NF for a NaN or infinity; else the square of x / 2^ls added exactly in units of 2^-160. -/
def Rake.add (k : Rake) (ls : Int) (x : Nat) : Rake :=
  match fp32.decode x with
  | .fin _ m e =>
    let q := e - ls
    -- (m · 2^q)^2 = m^2 · 2^(2q)
    if m = 0 then k
    else if !dyGt 1 128 (m * m) (2 * q) then { k with abs := k.abs + 1 }
    else if dyGt 1 (-160) (m * m) (2 * q) then { k with drop := k.drop + 1 }
    else
      let v := k.acc + (splitAt (m * m) (2 * q) (-160)).1
      if 2 ^ 320 ≤ v then { k with acc := 2 ^ 320 - 1, sat := true } else { k with acc := v }
  | _ => { k with nf := k.nf + 1 }

/-- The elements of one iteration of a RAKE_SQ that lie within H0's extents (R118, R252). -/
def rakeElems (h : Nat) (ix : List Nat) (data : List Byte) : List Nat :=
  let v := leNat data
  let n := data.length / 4
  if decide (ix.getD 1 0 < hE h 1) && decide (ix.getD 2 0 < hE h 2) && decide (ix.getD 3 0 < hE h 3) then
    ((List.range n).filter fun i => decide (ix.getD 0 0 * hT0 h + i < hE h 0)).map fun i => elem v 32 i
  else []

/-- LMEM_ECC_WRITEBACK (R79): the oldest pending word of a core is written back corrected. -/
def execLmemEccWriteback (gi : Nat) (s : State) : Out :=
  let c := s.core gi
  match c.wb with
  | w :: rest => let r := writeBack s.mem s.flaws w; .next { s.setCore gi { c with wb := rest } with mem := r.1, flaws := r.2 }
  | [] => .next s

/-- RESULT_LAND (R84): the results of the earliest cycle still in flight land, or are discarded as older. -/
def execResultLand (gi : Nat) (s : State) : Out :=
  let c := s.core gi
  match c.flights with
  | [] => .next s
  | f :: r => .next (s.setCore gi (c.land ((c.comp.map (·.idx)).getD 0) (r.foldl (fun a g => min a g.due) f.due)))

/-- TOKINC_WRITE (R124): the increment is added to the named token; 0 has no effect. -/
def execTokincWrite (gi tok inc : Nat) (s : State) : Out :=
  if inc % 256 = 0 then .next s else .next (s.addToken gi (tok % 32) (inc % 256))

/-- CLU_LSEL_WRITE (R141): SEL of every active core of the cluster in one cycle. -/
def execCluLselWrite (ci sel : Nat) (s : State) : Out :=
  .next ((coresOf ci).foldl (fun s gi => s.modCore gi fun c => { c with regs := sf c.regs .CORE_LSEL 0 0 2 sel }) s)

/-- PATCH (R134): 1-16 consecutive shadow registers of one core land together. -/
def execPatch (gi first : Nat) (vals : List Nat) (s : State) : Out :=
  if 1 ≤ vals.length ∧ vals.length ≤ 16 ∧ first + vals.length ≤ 64 then
    .next (s.modCore gi fun c =>
      { c with regs := (List.range vals.length).foldl (fun g i => sg g .CORE_PRMS (first + i) (vals.getD i 0)) c.regs })
  else .next s

end Sys2Proof.Machine
end

