-- ==== Sys2Proof/Machine/CoreReg.lean ====
section
/-! DEFINITION. The register slot of a core (R138, R321, R322): what a read returns and what a write does. -/

namespace Sys2Proof.Machine

/-- Write a 32-bit word of the handle table (R114, R138). -/
def Core.setHandleWord (c : Core) (off v : Nat) : Core :=
  let i := off / 32
  let old := hget c.handles i
  let new := putBits old (8 * (off % 32)) 32 v
  { c with handles := Sparse.set (fun _ => 0) c.handles i (if hDec new = 3 then putBits new 101 2 (hDec old) else new) }

/-- A written value with the fields that hold reserved encodings kept (R12). `res` lists (lowest bit, width, whether the
field's value is reserved). -/
def keepReserved (old v : Nat) (res : List (Nat × Nat × (Nat → Bool))) : Nat :=
  res.foldl (fun v f => if f.2.2 (bits v f.1 f.2.1) then putBits v f.1 f.2.1 (bits old f.1 f.2.1) else v) v

/-- The reserved encodings of the core registers. -/
def coreReserved (r : Reg) : List (Nat × Nat × (Nat → Bool)) :=
  match r with
  | .CORE_FPCTL => [(0, 3, fun x => decide (6 ≤ x))]
  | .CORE_CMP => [(12, 3, fun x => decide (6 ≤ x))]
  | .CORE_SCTX => [(7, 6, fun x => decide (40 ≤ x))]
  | .CORE_RCTX => [(7, 6, fun x => decide (40 ≤ x))]
  | .CORE_FRONT => [(7, 6, fun x => decide (40 ≤ x))]
  | _ => []

/-- A write of a core register, token registers apart (R11, R12, R152). -/
def Core.writeReg (c : Core) (r : Reg) (i v : Nat) : Core :=
  let old := rg c.regs r i
  let v := keepReserved old v (coreReserved r)
  let new := writeMerge r old v
  if r = Reg.CORE_LIST ∧ bit new 15 ∧ bits new 16 16 = 0 then c
  else
    let c' := { c with regs := sg c.regs r i new }
    -- VALID from 0 to 1 sets CREDIT and SEQ, or ARMED and NEXT, to zero (R153)
    if r = Reg.CORE_SCTX ∧ bit old 21 = false ∧ bit new 21 then
      let x := c.sendCtx i
      c'.setSend i { x with credit := 0, seq := 0 }
    else if r = Reg.CORE_RCTX ∧ bit old 26 = false ∧ bit new 26 then
      let x := c.recvCtx i
      c'.setRecv i { x with next := 0, armed := [] }
    else c'

/-- A whole 32-bit write at an offset of the core slot. -/
def State.writeCoreReg (s : State) (gi off v : Nat) : State :=
  if off < 0x800 then s.modCore gi fun c => c.setHandleWord off v
  else
    match regAt .core off with
    | none => s
    | some (r, i) =>
      if r = Reg.CORE_TOKINC then
        if bits v 8 8 = 0 then s else s.addToken gi (bits v 0 5) (bits v 8 8)
      else s.modCore gi fun c => c.writeReg r i v

/-- What a read of a core register returns. -/
def Core.viewReg (c : Core) (r : Reg) (i : Nat) : Nat :=
  let v := readView r (rg c.regs r i)
  match r with
  | .CORE_DSTAT => putBits (putBits v 2 4 c.win.length) 6 3 c.tq.length
  | .CORE_DPOS => c.fetch % 2 ^ 16 + (match c.win with | e :: _ => e.idx | [] => c.fetch) % 2 ^ 16 * 2 ^ 16
  | .CORE_SCTX => putBits v 22 4 (c.sendCtx i).credit
  | .CORE_RCTX => putBits v 27 4 (c.recvCtx i).armed.length
  | .CORE_CHSEQ =>
    if i < 4 then (c.sendCtx i).seq
    else (c.recvCtx (i - 4)).next + (((c.recvCtx (i - 4)).held.map (·.2)).foldl (· + ·) 0) % 2 ^ 16 * 2 ^ 16
  | .CORE_FRONT => putBits v 20 1 (b2n c.front.isSome)
  | _ => v

/-- A read at an offset of the core slot, with its clearing of RC fields (R11). -/
def State.readCoreReg (s : State) (gi off : Nat) : Nat × State :=
  let c := s.core gi
  if off < 0x800 then (bits (hget c.handles (off / 32)) (8 * (off % 32)) 32, s)
  else
    match regAt .core off with
    | none => (0, s)
    | some (r, i) =>
      (c.viewReg r i, if r.hasRc then s.setCore gi { c with regs := sg c.regs r i (readClear r (rg c.regs r i)) } else s)

end Sys2Proof.Machine
end

