-- ==== Sys2Proof/Machine/Trellis.lean ====
section
/-! DEFINITION. Packets and channels (R142-R161): flit errors, messages, token messages, credits, register packets, urgent
traffic, QUIESCE and barriers. -/

namespace Sys2Proof.Machine

/-! ### Flit errors (R149) -/

/-- Where an error may be detected: at a router a packet passes, or at a hub port it uses. -/
def State.metBy (s : State) (p : Packet) (f : FlitErr) : Bool :=
  match (match f with | .corrected a => a | .payload a _ _ => a | .header a => a) with
  | some ci => s.onPath p (.cluster ci)
  | .none => p.src == .hub || p.dst == .hub

/-- Record a flit error where it was detected. -/
def State.flitAt (s : State) (f : FlitErr) : State :=
  let double := fun (a : Option Nat) =>
    match a with
    | some ci => (s.setCf ci .TRL_STAT 0 16 1 1).notice (.cluster ci) St.FLIT_UNCORRECTABLE 0 0
    | .none => s.notice .hub St.FLIT_UNCORRECTABLE 0 0
  match f with
  | .corrected (some ci) => s.satC ci .TRL_STAT 0 0 16 1
  | .corrected .none => { s with hubFlitCe := s.hubFlitCe + 1 }
  | .payload a _ _ => double a
  | .header a => double a

def FlitErr.isHeader (f : FlitErr) : Bool := match f with | .header _ => true | _ => false

/-- The errors of a list that a packet meets, in the order of its hops, up to the one that discards it. -/
def State.meets (s : State) (p : Packet) (fs : List FlitErr) : List FlitErr :=
  let l := fs.filter (s.metBy p)
  l.take ((l.findIdx FlitErr.isHeader) + 1)

/-- A packet meets flit errors on its way: they are recorded, and a header error discards it. -/
def State.flits (s : State) (p : Packet) (fs : List FlitErr) : State × Bool :=
  let l := s.meets p fs
  (l.foldl State.flitAt s, l.any FlitErr.isHeader)

/-- The payload as it arrives: a payload error changes bits of one flit and is not marked. (DEDUCED: log 39) -/
def State.flipped (s : State) (p : Packet) (fs : List FlitErr) (data : List Byte) : List Byte :=
  (s.meets p fs).foldl (fun d f =>
    match f with
    | .payload _ k mask => d.mapIdx fun i b => if i / 32 = k then b ^^^ BitVec.ofNat 8 (mask / 256 ^ (i % 32)) else b
    | _ => d) data

/-! ### The header flit (R150) -/

/-- TYPE. -/
def Payload.type (b : Payload) : Nat :=
  match b with
  | .msg _ _ _ => 0
  | .token _ _ _ => 1
  | .credit _ _ => 2
  | .mrd _ _ _ => 3
  | .mwr _ _ => 4
  | .mrsp _ _ => 5
  | .regRd _ => 6
  | .regWr _ _ _ => 7
  | .regRsp _ => 8
  | .frontReq _ _ => 9
  | .frontMark _ _ => 9
  | .frontTile _ _ _ => 9
  | .urg _ _ => 10

/-- TC. -/
def TClass.code (c : TClass) : Nat := match c with | .tc0 => 0 | .tc1 => 1 | .tc2q => 2 | .tc2r => 3

/-- PFL: the payload flits that follow, or for an MRD those asked for (R151). -/
def Payload.pfl (b : Payload) : Nat :=
  match b with
  | .msg _ _ d => (d.length + 31) / 32
  | .mrd _ k _ => k
  | .mwr _ d => (d.length + 31) / 32
  | .mrsp _ d => (d.length + 31) / 32
  | .frontTile _ _ d => (d.length + 31) / 32
  | .regWr _ _ _ => 1
  | .regRsp _ => 1
  | _ => 0

/-- The column, row and core fields of an endpoint; 127 and 63 name the hub. -/
def State.coordsOf (s : State) (body : Payload) (e : Endpoint) : Nat × Nat × Nat :=
  match e with
  | .hub => (127, 63, 0)
  | .core gi => ((s.routerOf body e).1, (s.routerOf body e).2, coreK gi)
  | e => ((s.routerOf body e).1, (s.routerOf body e).2, 0)

/-- DMODE of a unicast packet. (DEDUCED: log 99) -/
def Packet.dmode (p : Packet) : Nat :=
  match p.body, p.dst with
  | .mrd _ _ _, _ => 2
  | .mwr _ _, _ => 2
  | .regRd _, _ => 2
  | .regWr _ _ _, _ => 2
  | _, .core _ => 0
  | _, _ => 1

/-- SKIND. -/
def Endpoint.skind (e : Endpoint) : Nat :=
  match e with
  | .core _ => 0
  | .cluster _ => 1
  | .hub => 2
  | .grafter _ => 3
  | .hbm _ => 3

/-- The fields of the header above its 96 common bits (R150, R174). -/
def Payload.upper (b : Payload) : Nat :=
  match b with
  | .mrd a _ tag => a * 2 ^ 96 + tag * 2 ^ 144
  | .mwr a _ => a * 2 ^ 96
  | .mrsp tag _ => tag * 2 ^ 144
  | .regRd a => a * 2 ^ 96
  | .regWr a _ _ => a * 2 ^ 96
  | .frontReq _ e => 2 ^ 96 + e * 2 ^ 98
  | .frontMark t left => 2 ^ 97 + t * 2 ^ 106 + left * 2 ^ 114
  | .frontTile t left _ => t * 2 ^ 106 + left * 2 ^ 114
  | .urg c a => c * 2 ^ 176 + a * 2 ^ 184
  | _ => 0

/-- The header flit of a unicast packet. (DEDUCED: log 99) -/
def State.header (s : State) (p : Packet) : Nat :=
  let d := s.coordsOf p.body p.dst
  let c := s.coordsOf p.body p.src
  let own : Nat × Nat × Nat := match p.body with
    | .msg ch seq _ => (ch, seq, 0)
    | .token ch tseq inc => (ch, tseq, inc)
    | .credit ch n => (ch, 0, n)
    | _ => (0, 0, 0)
  p.body.type + p.cls.code * 2 ^ 4 + p.dmode * 2 ^ 6 + d.1 * 2 ^ 8 + d.2.1 * 2 ^ 15 + d.2.2 * 2 ^ 21 + c.1 * 2 ^ 27 + c.2.1 * 2 ^ 34
    + c.2.2 * 2 ^ 40 + p.src.skind * 2 ^ 46 + own.1 * 2 ^ 48 + p.body.pfl * 2 ^ 50 + own.2.1 * 2 ^ 58 + own.2.2 * 2 ^ 74 + p.stag * 2 ^ 82
    + p.body.upper

/-- The header flit of an urgent multicast from the hub to a rectangle: near corner, far corner, core mask, code and argument (R146, R150). -/
def rectHeader (stag code x0 y0 x1 y1 mask arg : Nat) : Nat :=
  10 + 3 * 2 ^ 6 + x0 * 2 ^ 8 + y0 * 2 ^ 15 + 127 * 2 ^ 27 + 63 * 2 ^ 34 + 2 * 2 ^ 46 + stag * 2 ^ 82 + x1 * 2 ^ 96 + y1 * 2 ^ 103
    + mask * 2 ^ 109 + code * 2 ^ 176 + arg * 2 ^ 184

/-! ### Channels (R152, R153, R157, R158) -/

/-- Take the replay image of a receive context when a packet of a newer step arrives (R158). -/
def RecvCtx.see (x : RecvCtx) (stag : Nat) : RecvCtx :=
  let d := (stag + 256 - x.imgStep % 256) % 256
  if 1 ≤ d ∧ d ≤ 127 then { x with imgNext := x.next, imgArmed := x.armed, imgStep := x.imgStep + d, early := true } else x

/-- Whether a token message's increment may be applied (R157). -/
def tokenDue (next tseq : Nat) : Bool := decide ((next + 2 ^ 16 - tseq % 2 ^ 16) % 2 ^ 16 < 2 ^ 15)

/-- Release the held increments that NEXT has passed: their sum, and those still held. -/
def RecvCtx.release (x : RecvCtx) : Nat × RecvCtx :=
  let due := x.held.filter fun h => tokenDue x.next h.1
  ((due.map (·.2)).foldl (· + ·) 0, { x with held := x.held.filter fun h => !tokenDue x.next h.1 })

/-- Log a channel fault: bit 0 TRUNC, 1 NOBUF, 2 SEQERR (R153). -/
def Core.chErr (c : Core) (b k : Nat) : Core :=
  let r := rg c.regs .CORE_CHERR
  let g := if bits r 0 3 = 0 then sf c.regs .CORE_CHERR 0 3 2 k else c.regs
  { c with regs := satField (sf g .CORE_CHERR 0 b 1 1) .CORE_CHERR 0 8 8 1 }

/-- A channel fault: logged, and the cluster sends ERROR_NOTICE. -/
def State.chFault (s : State) (gi b k : Nat) : State :=
  (s.modCore gi fun c => c.chErr b k).notice (.cluster (coreCi gi)) St.CHANNEL_FAULT (coreK gi) 0

/-- A message lands (R152, R153): the oldest armed buffer, NEXT, the token, and the increments it releases. -/
def State.landMsg (s : State) (gi k seq stag : Nat) (data : List Byte) : State :=
  let x := ((s.core gi).recvCtx k).see stag
  let s := if seq = x.next then s else s.chFault gi 2 k
  let x := { x with next := (seq + 1) % 2 ^ 16 }
  let tok := rf (s.core gi).regs .CORE_RCTX k 21 5
  match x.armed with
  | [] =>
    let r := x.release
    let s := (s.modCore gi fun c => c.setRecv k r.2).chFault gi 1 k
    if r.1 = 0 then s else s.addToken gi tok r.1
  | (a, n) :: rest =>
    let s := s.wr (localBase gi + a) (data.take n)
    let s := if n < data.length then s.chFault gi 0 k else s
    let r := { x with armed := rest }.release
    (s.modCore gi fun c => c.setRecv k r.2).addToken gi tok (1 + r.1)

/-- A token message arrives: applied, held, or (none) waiting at the ejection behind four distinct TSEQ values (R157). -/
def State.landToken (s : State) (gi k tseq inc stag : Nat) : Option State :=
  let x := ((s.core gi).recvCtx k).see stag
  let tok := rf (s.core gi).regs .CORE_RCTX k 21 5
  if tokenDue x.next tseq then some ((s.modCore gi fun c => c.setRecv k x).addToken gi tok inc)
  else if x.held.any fun h => h.1 == tseq then
    let held := x.held.map fun h => if h.1 = tseq then (h.1, h.2 + inc) else h
    some (s.modCore gi fun c => c.setRecv k { x with held := held })
  else if x.held.length < 4 then
    some (s.modCore gi fun c => c.setRecv k { x with held := x.held ++ [(tseq, inc)] })
  else none

/-- A CREDIT arrives (R152). -/
def State.landCredit (s : State) (gi k n : Nat) : State :=
  s.modCore gi fun c => let x := c.sendCtx k; c.setSend k { x with credit := x.credit + n }

/-- The address of core `gi`'s register slot in register space, and back (R321); the packets of R150 carry the slot offset. -/
def coreSlotOff (off : Nat) : Nat := off % 0x1000

/-- Deliver one TC1 packet at core `gi`; none when it must wait at the ejection. -/
def State.deliver1 (s : State) (gi : Nat) (p : Packet) : Option State :=
  match p.body with
  | .msg k seq data => some (s.landMsg gi k seq p.stag data)
  | .token k tseq inc => s.landToken gi k tseq inc p.stag
  | .credit k n => some (s.landCredit gi k n)
  | .regRd off =>
    let r := s.readCoreReg gi (coreSlotOff off)
    some (r.2.inject (.core gi) p.src .tc1 (.regRsp r.1))
  | .regWr off v be => some (if be = 15 then s.writeCoreReg gi (coreSlotOff off) v else s)
  | _ => some s

/-- Deliver the packets waiting at the ejection, in order, until one must still wait. -/
def State.drainEject (s : State) (gi : Nat) : Nat → State
  | 0 => s
  | n + 1 =>
    match (s.core gi).eject with
    | [] => s
    | p :: rest =>
      match s.deliver1 gi p with
      | none => s
      | some t => State.drainEject (t.modCore gi fun c => { c with eject := rest }) gi n

/-- A TC1 packet reaches core `gi`: it waits behind one that waits already. -/
def State.arrive1 (s : State) (gi : Nat) (p : Packet) : State :=
  if (s.core gi).eject.isEmpty then
    match s.deliver1 gi p with
    | some t => t
    | none => s.modCore gi fun c => { c with eject := [p] }
  else s.modCore gi fun c => { c with eject := c.eject ++ [p] }

/-- A TC1 or TC2 message, token message or credit at place `n` reaches core `gi`. -/
def State.arriveAt (s t : State) (gi : Nat) (p : Packet) (flits : List FlitErr) : Out :=
  let r := t.flits p flits
  if r.2 then .next r.1
  else
    let t := match p.cls, p.body with
      | .tc1, .msg k seq data => r.1.arrive1 gi { p with body := .msg k seq (s.flipped p flits data) }
      | _, .msg k seq data => r.1.landMsg gi k seq p.stag (s.flipped p flits data)
      | _, _ => r.1.arrive1 gi p
    .next (t.drainEject gi (t.core gi).eject.length)

/-- MSG (R152, R153, R157): the message at place `n` of the net is delivered. -/
def execMsg (n : Nat) (flits : List FlitErr) (s : State) : Out :=
  match s.takePacket n with
  | none => .next s
  | some (p, t) =>
    match p.body, p.dst with
    | .msg _ _ _, .core gi => s.arriveAt t gi p flits
    | _, _ => .next s

/-- TOKEN (R157): the token message at place `n` is delivered. -/
def execToken (n : Nat) (flits : List FlitErr) (s : State) : Out :=
  match s.takePacket n with
  | none => .next s
  | some (p, t) =>
    match p.body, p.dst with
    | .token _ _ _, .core gi => s.arriveAt t gi p flits
    | _, _ => .next s

/-- CREDIT (R152): the credits at place `n` reach their send context. -/
def execCredit (n : Nat) (flits : List FlitErr) (s : State) : Out :=
  match s.takePacket n with
  | none => .next s
  | some (p, t) =>
    match p.body, p.dst with
    | .credit _ _, .core gi => s.arriveAt t gi p flits
    | _, _ => .next s

/-! ### Urgent traffic (R154-R156) -/

/-- The urgent packet at place `n`, when it may be delivered and carries code `code`, with its argument; none once a flit error on its
way has discarded it, which the state shows. -/
def State.takeUrgent (s : State) (n code : Nat) (flits : List FlitErr) : Option (Packet × Option Nat × State) :=
  match s.takePacket n with
  | none => none
  | some (p, t) =>
    match p.body with
    | .urg c a =>
      if c = code then
        let r := t.flits p flits
        some (p, if r.2 then none else some a, r.1)
      else none
    | _ => none

/-- TC0_POLICE_ADMIT (R161, R154): the TC0 packet at place `n` waited `cycles` cc at cluster `ci`'s router for a policing
token and is admitted; one with a reserved code is discarded. -/
def execTc0PoliceAdmit (n ci cycles : Nat) (s : State) : Out :=
  match s.net[n]? with
  | none => .next s
  | some p =>
    match p.body with
    | .urg c _ =>
      let t := s.satC ci .TRL_STAT 0 18 14 cycles
      if 1 ≤ c ∧ c ≤ 9 then .next t else .next { t.setCf ci .TRL_STAT 0 17 1 1 with net := t.net.eraseIdx n }
    | _ => .next s

/-- Halt a core with CAUSE DEBUG at its next descriptor boundary, unless it is halted already (R421). -/
def Core.debugHalt (c : Core) : Core := if c.halted then c else { c with haltReq := true }.settleHalt

/-- Leave a DEBUG halt, or one still waiting (R421); other causes stay. -/
def Core.debugResume (c : Core) : Core :=
  let c := { c with haltReq := false }
  if rf c.regs .CORE_STAT 0 1 3 = 4 then { c with regs := sf (sf c.regs .CORE_STAT 0 0 1 0) .CORE_STAT 0 1 3 0 } else c

/-- The cores a rectangle and core mask name (R135, R146). -/
def rectCores (x0 y0 x1 y1 mask : Nat) : List Nat :=
  ((List.range (y1 + 1 - y0)).map fun y => ((List.range (x1 + 1 - x0)).map fun x =>
    ((List.range 64).filter (bit mask)).map fun k => coreOf (x0 + x + 128 * (y0 + y)) k).flatten).flatten

/-- The cores an urgent packet of the hub is delivered to. -/
def UrgTarget.cores (u : UrgTarget) : List Nat :=
  match u with
  | .core gi => [gi]
  | .cluster ci => coresOf ci
  | .rect x0 y0 x1 y1 mask => rectCores x0 y0 x1 y1 mask

/-- A hub's urgent packet on the tree of R146, as the copy for core `gi` sees it: each copy's path is the unicast path from HP0. -/
def urgCopy (s : State) (code arg gi : Nat) : Packet := ⟨.hub, .core gi, .tc0, s.stag, .urg code arg⟩

/-- Deliver an urgent packet of the hub to its cores: flit errors are recorded where they are detected on the tree, and a copy whose header
meets a double one is lost. (DEDUCED: log 99) -/
def State.multicast (s : State) (u : UrgTarget) (code arg : Nat) (flits : List FlitErr) (f : Core → Core) : State :=
  let gis := u.cores.filter (· < nCores)
  let s' := (flits.filter fun e => gis.any fun gi => s.metBy (urgCopy s code arg gi) e).foldl State.flitAt s
  let lost := flits.filter FlitErr.isHeader
  { s' with cores := s'.cores.mapAt (gis.filter fun gi => !(lost.any (s.metBy (urgCopy s code arg gi)))) f }

/-- HALT (R146, R154, R421): an urgent HALT with its reason code reaches its cores. -/
def execHalt (to_ : UrgTarget) (reason : Nat) (flits : List FlitErr) (s : State) : Out :=
  .next (s.multicast to_ 0x01 reason flits Core.debugHalt)

/-- RESUME (R146, R154, R421). -/
def execResume (to_ : UrgTarget) (flits : List FlitErr) (s : State) : Out := .next (s.multicast to_ 0x02 0 flits Core.debugResume)

/-! ### Weight-front launches held for a place or a quiet cluster (R156, R173) -/

/-- Launch requests bound for a stack: queued, or on their way. -/
def State.frontLoad (s : State) (k : Nat) : Nat :=
  (s.frontQ.filter fun q => q.1 == k).length
    + (s.net.filter fun p => match p.body with | .frontReq st _ => st == k | _ => false).length

/-- Send a launch request from a cluster's endpoint (R173, R174). -/
def State.frontSend (s : State) (ci k entry : Nat) : State := s.inject (.cluster ci) (.hbm k) .tc1 (.frontReq k entry)

/-- A held write may go: its cluster injects, the controller has a place, and no older write of its writer is held. -/
def State.goFree (s : State) (e : HeldGo × Nat) : Bool :=
  !(s.cluster e.1.ci).quiet && decide (s.frontLoad e.1.stack < 64) && (s.frontHeld.take e.2).all fun g => g.who != e.1.who

/-- Send the oldest held write that may go to stack `k`. -/
def State.frontRelease (s : State) (k : Nat) : State :=
  match s.frontHeld.zipIdx.find? fun e => e.1.stack == k && s.goFree e with
  | none => s
  | some (h, i) => { s with frontHeld := s.frontHeld.eraseIdx i }.frontSend h.ci k h.entry

/-- Send every held write that may go, oldest first. -/
def State.releaseAll (s : State) : Nat → State
  | 0 => s
  | n + 1 =>
    match s.frontHeld.zipIdx.find? s.goFree with
    | none => s
    | some (h, i) => State.releaseAll ({ s with frontHeld := s.frontHeld.eraseIdx i }.frontSend h.ci h.stack h.entry) n

/-! ### QUIESCE and barriers (R155, R156) -/

/-- The Shed starts a QUIESCE (R156). -/
def State.startQuiesce (s : State) (id : Nat) : State :=
  { s with quiesce := some ⟨id, s.sundial, false, false⟩, quiescedG := [], quietG := []
           clusters := s.clusters.map fun c => { c with quiet := false, quiesced := false } }

/-- QUIESCE ends: every endpoint may inject again, and what waited to be injected goes. -/
def State.endQuiesce (s : State) : State :=
  let t := { s with quiesce := none, quiescedG := [], quietG := [], net := s.net ++ s.outbox, outbox := []
                    clusters := s.clusters.map fun c => { c with quiet := false, quiesced := false } }
  t.releaseAll t.frontHeld.length

/-- Whether a packet is a TC1 or TC2 packet bound for an endpoint's cores, store or unit. -/
def towards (e : Endpoint) (p : Packet) : Bool :=
  p.cls != .tc0 &&
    match e, p.dst with
    | .cluster ci, .cluster cj => ci == cj
    | .cluster ci, .core gi => ci == coreCi gi
    | a, b => a == b

/-- Nothing is in flight toward an endpoint, and nothing waits at its ejection. -/
def State.drained (s : State) (e : Endpoint) : Bool :=
  !(s.net.any (towards e)) &&
    match e with
    | .cluster ci => (coresOf ci).all fun gi => (s.core gi).eject.isEmpty
    | _ => true

/-- An endpoint has stopped injecting. -/
def State.isQuiet (s : State) (e : Endpoint) : Bool :=
  match e with
  | .cluster ci => (s.cluster ci).quiet
  | e => s.quietG.contains e

/-- An endpoint stops injecting requests, messages, token messages, front data and register accesses. -/
def State.hush (s : State) (e : Endpoint) : State :=
  match e with
  | .cluster ci => s.modCluster ci fun c => { c with quiet := true }
  | e => if s.quietG.contains e then s else { s with quietG := s.quietG ++ [e] }

/-- An endpoint reports QUIESCED. -/
def State.reported (s : State) (e : Endpoint) : State :=
  match e with
  | .cluster ci => s.modCluster ci fun c => { c with quiesced := true }
  | e => if s.quiescedG.contains e then s else { s with quiescedG := s.quiescedG ++ [e] }

/-- The endpoints a QUIESCE reaches (R154). -/
def Endpoint.quiesces (e : Endpoint) : Bool :=
  match e with
  | .cluster ci => decide (ci < nClusters)
  | .grafter k => decide (k < 8)
  | .hbm k => decide (k < 16)
  | _ => false

/-- QUIESCE_URGENT (R156): while a QUIESCE is outstanding, an endpoint that it reaches stops injecting; one that has stopped, with nothing
left in flight toward it, reports QUIESCED. -/
def execQuiesceUrgent (e : Endpoint) (flits : List FlitErr) (s : State) : Out :=
  match s.quiesce with
  | none => .next s
  | some q =>
    if e.quiesces = false then .next s
    else
      let r := s.flits (if s.isQuiet e then ⟨e, .hub, .tc0, s.stag, .urg 0x04 q.id⟩ else ⟨.hub, e, .tc0, s.stag, .urg 0x03 q.id⟩) flits
      if r.2 then .next r.1
      else if s.isQuiet e then .next (if s.drained e then r.1.reported e else r.1)
      else .next (r.1.hush e)

/-- Whether every contributor has reported QUIESCED (R155). -/
def State.allQuiesced (s : State) : Bool :=
  s.clusters.all nClusters (fun c => c.quiesced)
    && (List.range 8).all (fun k => s.quiescedG.contains (.grafter k))
    && (List.range 16).all fun k => s.quiescedG.contains (.hbm k)

/-- No TC1 or TC2 packet is in flight. -/
def State.trellisEmpty (s : State) : Bool :=
  !(s.net.any fun p => p.cls != .tc0) && s.cores.all nCores fun c => c.eject.isEmpty

/-- BARRIER_ARRIVE (R155): a cluster arrives at a barrier; the hub has it once every cluster has arrived at the same one. -/
def execBarrierArrive (ci id : Nat) (flits : List FlitErr) (s : State) : Out :=
  if nClusters ≤ ci then .next s
  else
    let r := s.flits ⟨.cluster ci, .hub, .tc0, s.stag, .urg 0x05 id⟩ flits
    if r.2 then .next r.1
    else
      let t := r.1.modCluster ci fun c => { c with arrived := some id }
      .next (if t.clusters.all nClusters (fun c => c.arrived == some id) then { t with barrier := some id } else t)

/-- BARRIER_RELEASE (R154): the hub releases the barrier every cluster has arrived at. -/
def execBarrierRelease (s : State) : Out :=
  match s.barrier with
  | none => .next s
  | some _ => .next { s with barrier := none, clusters := s.clusters.map fun c => { c with arrived := none } }

end Sys2Proof.Machine
end

