-- ==== Sys2Proof/Machine/Links.lean ====
section
/-! DEFINITION. Dorhel frames, ports, lanes and routes (R293-R302, R309-R312). -/

namespace Sys2Proof.Machine

/-! ### Ports -/

def State.port (s : State) (p : Nat) : Port := s.links.ports.getD p Port.init
def State.setPort (s : State) (p : Nat) (x : Port) : State := { s with links := { s.links with ports := s.links.ports.set p x } }

/-- LNK_PSTAT.STATE: 0 DOWN, 1 TRAINING, 2 UP, 3 ISOLATED, 4 DEGRADED. -/
def State.pstate (s : State) (p : Nat) : Nat := s.hf .LNK_PSTAT p 0 3
def State.setPstate (s : State) (p v : Nat) : State := s.setHf .LNK_PSTAT p 0 3 v

/-- Whether a port carries v2 frames of every type. -/
def State.portUp (s : State) (p : Nat) : Bool := decide (p < 4) && (s.pstate p == 2 || s.pstate p == 4) && !(s.port p).v1 && !s.rst.refLost

/-- This module's physical coordinates, and the sizes of the group. -/
def State.myX (s : State) : Nat := s.hf .LNK_COORD 0 0 3
def State.myY (s : State) : Nat := s.hf .LNK_COORD 0 3 3
def State.sizeX (s : State) : Nat := s.hf .LNK_COORD 0 6 3 + 1
def State.sizeY (s : State) : Nat := s.hf .LNK_COORD 0 9 3 + 1
def State.jobTag (s : State) : Nat := s.hf .LNK_JOBTAG 0 0 16
def State.serial (_ : State) : Nat := Config.serial % 2 ^ 64

/-! ### The grid and the member map (R272, R273) -/

/-- No Dorhel link of the module has trained (R26); a v1 port counts as uncabled (R302). -/
def State.unlinked (s : State) : Bool := (List.range 4).all fun p => decide (s.pstate p < 2) || (s.port p).v1

/-- The module runs as a group of one (R26); within a job, as it stood at JOB_START. -/
def State.solo (s : State) : Bool := if s.step.job then s.step.solo else s.unlinked

def State.xl (s : State) : Nat := if s.solo then 1 else s.hf .LNK_GRID 0 0 7
def State.yl (s : State) : Nat := if s.solo then 1 else s.hf .LNK_GRID 0 7 7
def State.epoch (s : State) : Nat := s.hf .LNK_GRID 0 15 8

/-- Ranks of the group. -/
def State.ranks (s : State) : Nat := s.xl * s.yl

/-- The physical coordinate of rank `r` in a bank of the member map. -/
def State.memberAt (s : State) (bank r : Nat) : Option (Nat × Nat) :=
  if s.hf .LNK_MMAP r (16 * bank + 6) 1 = 1 then some (s.hf .LNK_MMAP r (16 * bank) 3, s.hf .LNK_MMAP r (16 * bank + 3) 3) else none

def State.mapBank (s : State) : Nat := s.hf .LNK_GRID 0 14 1

/-- The rank at a physical coordinate. -/
def State.rankOf (s : State) (x y : Nat) : Option Nat :=
  (List.range s.ranks).find? fun r => s.memberAt s.mapBank r == some (x, y)

/-! ### The frame on the wire (R297) -/

/-- TYPE. -/
def FrameBody.type : FrameBody → Nat
  | .hello _ => 2
  | .disc _ => 3
  | .urg _ _ => 4
  | .reset _ => 4
  | .mgmt _ => 5
  | .harvest _ _ => 6
  | .coll _ => 6
  | .v1msg _ => 7

/-- UCODE of a URG frame (R312). -/
def FrameBody.ucode : FrameBody → Nat
  | .urg c _ => c
  | .reset _ => 4
  | _ => 0

/-- CFIELD: the fields a COLL frame is checked by (R285), a URG frame's argument. Where R285's lie after the step number is open. -/
def FrameBody.cfield : FrameBody → Nat
  | .coll c => c.step % 2 ^ 16 + 2 ^ 16 * (Config.cfieldRest [c.replays, c.epoch, c.layer, c.quarter] % 2 ^ 112)
  | .urg 1 a => a.getD 0 0 % 2 ^ 64 + 2 ^ 64 * (a.getD 1 0 % 2 ^ 8) + 2 ^ 72 * (a.getD 2 0 % 2 ^ 16)
  | .urg _ a => a.getD 0 0 % 2 ^ 128
  | _ => 0

/-- The 32-byte header of a frame with its LSEQ and payload length (R297). -/
def Frame.header (f : Frame) (lseq len : Nat) : Nat :=
  f.body.type + 2 ^ 4 * (f.vc % 8) + 2 ^ 8 * (f.tag % 2 ^ 16) + 2 ^ 24 * (f.sx % 8) + 2 ^ 27 * (f.sy % 8) + 2 ^ 30 * (f.dx % 8) + 2 ^ 33 * (f.dy % 8)
    + 2 ^ 36 * (lseq % 2 ^ 16) + 2 ^ 52 * (len % 2 ^ 13) + 2 ^ 65 * (f.body.ucode % 2 ^ 8) + 2 ^ 128 * f.body.cfield

/-- A frame's bytes: header, payload, and CRC-32C over both. -/
def Frame.wire (f : Frame) (lseq : Nat) (payload : List Byte) : List Byte :=
  let b := toLe 32 (f.header lseq payload.length) ++ payload
  b ++ toLe 4 (crc32c b)

/-! ### Routes (R309) -/

def State.discAt (s : State) (x y : Nat) : Option DiscEntry := s.links.table.find? fun e => e.x == x && e.y == y

/-- Whether the link on port `p` of the module at `(x, y)` is up: the discovery table's link, and this module's own port now. -/
def State.linkUp (s : State) (x y p : Nat) : Bool :=
  (match s.discAt x y with
    | some e => e.links.contains p
    | none => false)
    && (decide (x ≠ s.myX ∨ y ≠ s.myY) || s.portUp p)

/-- The tag a module of the group is known to carry when a frame of job `tag` is routed: this module's own, this job's for a member of its map,
else what discovery and the neighbours' HELLO said. (DEDUCED: log 89) -/
def State.tagOf (s : State) (e : DiscEntry) (tag : Nat) : Nat :=
  if e.x = s.myX ∧ e.y = s.myY then s.jobTag
  else if tag = s.jobTag ∧ (s.rankOf e.x e.y).isSome then tag
  else e.tag

/-- The coordinates passed going from `a` towards `b` on an axis of size `n`, in the + direction or the other. -/
def axisPath (n : Nat) (plus : Bool) : Nat → Nat → Nat → List Nat
  | 0, _, _ => []
  | f + 1, a, b => if a = b then [] else a :: axisPath n plus f (if plus then (a + 1) % n else (a + n - 1) % n) b

/-- The direction a segment takes, none when no route is left. `blocked d` says a link of that direction's segment is down. -/
def axisDir (n a b : Nat) (owned : Bool) (blocked : Bool → Bool) : Option Bool :=
  if owned then
    let first := decide ((b + n - a) % n ≤ (a + n - b) % n)
    if !blocked first then some first else if !blocked (!first) then some (!first) else none
  else
    let d := decide (a < b)
    if blocked d then none else some d

/-- The outgoing port for a frame at `(x, y)`, and whether it has arrived: X first, then Y, the directions fixed by source and
destination. The outer `none` means no route is left. -/
def State.routeAt (s : State) (x y : Nat) (f : Frame) : Option (Option Nat) :=
  let row := (List.range s.sizeX).map fun i => s.discAt i f.sy
  let col := (List.range s.sizeY).map fun i => s.discAt f.dx i
  let owns := fun (es : List (Option DiscEntry)) => es.all fun e => match e with | some e => s.tagOf e f.tag == f.tag | none => false
  let closedX := s.linkUp (s.sizeX - 1) f.sy 0 || s.linkUp 0 f.sy 1
  let closedY := s.linkUp f.dx (s.sizeY - 1) 2 || s.linkUp f.dx 0 3
  if x ≠ f.dx then
    let blocked := fun (plus : Bool) =>
      (axisPath s.sizeX plus s.sizeX x f.dx).any fun i => !s.linkUp i f.sy (if plus then 0 else 1)
    match axisDir s.sizeX f.sx f.dx (owns row && closedX) blocked with
    | some plus => some (some (if plus then 0 else 1))
    | none => none
  else if y ≠ f.dy then
    let blocked := fun (plus : Bool) =>
      (axisPath s.sizeY plus s.sizeY y f.dy).any fun i => !s.linkUp f.dx i (if plus then 2 else 3)
    match axisDir s.sizeY f.sy f.dy (owns col && closedY) blocked with
    | some plus => some (some (if plus then 2 else 3))
    | none => none
  else some none

/-! ### Sending -/

/-- Transmit a frame on a port: it takes the next LSEQ and stays in the retry buffer until acknowledged (R300). -/
def State.transmit (s : State) (p : Nat) (f : Frame) : State :=
  let x := s.port p
  s.setPort p { x with tx := (x.tx + 1) % 2 ^ 16, retry := x.retry ++ [⟨x.tx, f, 0⟩] }

/-- Send a frame along its route from this module; with no route left it is discarded, and at its source LINK_UNREACHABLE is raised (R309). -/
def State.route (s : State) (f : Frame) : State :=
  match s.routeAt s.myX s.myY f with
  | some (some p) => s.transmit p f
  | some none => s
  | none => if f.sx = s.myX ∧ f.sy = s.myY then s.event St.LINK_UNREACHABLE 0 0 (f.dx + 8 * f.dy) else s

/-- Send a body to a physical coordinate on a VC: 0 URGENT, 1 MGMT, 2 COLL, 3 TRANSIT. -/
def State.sendTo (s : State) (x y tag vc : Nat) (b : FrameBody) : State := s.route ⟨s.myX, s.myY, x, y, tag, vc, b⟩

/-! ### Receiving (R299, R300) -/

/-- A frame is discarded and one NAK sent, until the LSEQ it names arrives (R300 step 2). -/
def State.nakFrame (s : State) (p : Nat) : State :=
  let x := s.port p
  if x.nak then s else s.setPort p { x with nak := true }

/-- Take a frame that arrives on port `p` with `lseq`: one with another LSEQ is discarded and NAKed; the next in order is accepted and
acknowledged. An isolated port carries only HELLO frames (R304). -/
def State.takeFrame (s : State) (p lseq : Nat) (hello : Bool) (go : State → State) : State :=
  if s.portUp p || (hello && decide (p < 4) && s.pstate p == 3 && !(s.port p).v1) then
    let x := s.port p
    if lseq % 2 ^ 16 ≠ x.rx then s.nakFrame p
    else go (s.setPort p { x with rx := (x.rx + 1) % 2 ^ 16, nak := false, acked := (x.rx + 1) % 2 ^ 16 })
  else s

/-- Whether a routed frame is delivered here (R299, R310): its coordinates and tag are the module's, and tag 0 takes no COLL or URG. -/
def State.delivers (s : State) (f : Frame) : Bool :=
  f.dx == s.myX && f.dy == s.myY && f.tag == s.jobTag &&
    (decide (s.jobTag ≠ 0) || match f.body with | .coll _ => false | .urg _ _ => false | .harvest _ _ => false | _ => true)

/-- The VC a frame is forwarded on: TRANSIT for another job's, but URGENT frames of every job keep their priority (R299, R311). -/
def State.transit (s : State) (f : Frame) : Frame :=
  if f.tag = s.jobTag ∨ f.body.type = 4 then f else { f with vc := 3 }

/-- FRAME_FORWARD (R299): a frame not delivered here goes on along its route. A delivered URG frame of a reserved code is accepted and
discarded (R312). -/
def execFrameForward (p lseq : Nat) (f : Frame) (s : State) : Out :=
  match f.body with
  | .hello _ => .next s
  | .disc _ => .next s
  | _ =>
    if s.delivers f then
      .next (if f.body.type = 4 ∧ (f.body.ucode = 0 ∨ 4 < f.body.ucode) then s.takeFrame p lseq false id else s)
    else .next (s.takeFrame p lseq false fun s => s.route (s.transit f))

/-- ACK (R300): every frame before `lseq` is released from the port's retry buffer. -/
def execAck (p lseq : Nat) (s : State) : Out :=
  let x := s.port p
  match x.retry.findIdx? fun u => u.lseq == lseq % 2 ^ 16 with
  | some i => .next (if p < 4 then s.setPort p { x with retry := x.retry.drop (i + 1) } else s)
  | none => .next s

/-- Replay every frame from the `i`-th of a retry buffer on. -/
def State.replayFrom (s : State) (p i : Nat) : State :=
  let x := s.port p
  let n := x.retry.length - i
  let s := s.setPort p { x with retry := x.retry.mapIdx fun k u => if i ≤ k then { u with replays := u.replays + 1 } else u }
  s.satH .LNK_ERR p 0 16 n

/-- NAK (R300): every frame from `lseq` is replayed in order. -/
def execNak (p lseq : Nat) (s : State) : Out :=
  match (s.port p).retry.findIdx? fun u => u.lseq == lseq % 2 ^ 16 with
  | some i => .next (if p < 4 then s.replayFrom p i else s)
  | none => .next s

/-- BAD_CRC_FRAME (R300): a frame with a bad CRC, or out of sequence, is discarded and one NAK is sent. -/
def execBadCrcFrame (p : Nat) (crc : Bool) (s : State) : Out :=
  if s.portUp p || (decide (p < 4) && s.pstate p == 3) then
    .next ((if crc then s.satH .LNK_ERR p 16 8 1 else s).nakFrame p)
  else .next s

/-- PORT_RETRAIN (R300): a frame replayed eight times without ACK makes the port retrain; a port that fails to is down. -/
def execPortRetrain (p : Nat) (ok : Bool) (s : State) : Out :=
  let x := s.port p
  if (s.portUp p || (decide (p < 4) && s.pstate p == 3)) && x.retry.any fun u => decide (8 ≤ u.replays) then
    let s := s.satH .LNK_ERR p 24 8 1
    if ok then
      .next ((s.setPort p { x with retry := x.retry.map fun u => { u with replays := 0 } }).satH .LNK_ERR p 0 16 x.retry.length)
    else .next ((s.setPstate p 0).event St.LINK_DOWN 5 p 0)
  else .next s

/-! ### Lanes (R295, R296) -/

/-- The spare lane of a port's map: the lane neither stripe uses and not retired, none left otherwise. -/
def spareLane (m : Nat) : Option Nat :=
  (List.range 3).find? fun j => j != bits m 0 2 && j != bits m 2 2 && !bit m (4 + j)

/-- Replace a lane by the spare: the map is written (both ends), the lane retired, and unacknowledged frames are replayed. A lane map
that is frozen is not changed (R402). -/
def State.laneSwap (s : State) (p lane : Nat) : State :=
  let m := s.h .LNK_LANEMAP p
  match spareLane m with
  | none => s
  | some j =>
    let m' := if bits m 0 2 = lane then putBits m 0 2 j else putBits m 2 2 j
    let m' := putBits m' (4 + lane) 1 1
    if s.frozen (hubKey .LNK_LANEMAP p) then s.event St.RWP_WORN 5 p (hubKey .LNK_LANEMAP p)
    else ((s.rwpH .LNK_LANEMAP p m').replayFrom p 0).event St.LANE_SPARED 5 p (lane + 4 * j)

/-- Whether a lane carries a stripe of a port. -/
def State.laneActive (s : State) (p lane : Nat) : Bool :=
  decide (p < 4) && decide (lane < 3) && (s.hf .LNK_LANEMAP p 0 2 == lane || s.hf .LNK_LANEMAP p 2 2 == lane)

/-- LANE_SPARE (R295): an active lane that lost signal or lock, or met the error-rate rule, is replaced by the spare. -/
def execLaneSpare (p lane : Nat) (s : State) : Out :=
  if s.laneActive p lane && (s.port p).spareOk && !(s.port p).v1 then .next (s.laneSwap p lane) else .next s

/-- The active lanes of a port that still work. -/
def State.workingLanes (s : State) (p : Nat) : List Nat :=
  [s.hf .LNK_LANEMAP p 0 2, s.hf .LNK_LANEMAP p 2 2].filter fun j => !(s.port p).lost.contains j

/-- An active lane is lost with no spare left (R296): the port runs on its other lane, or is down. -/
def State.laneLost (s : State) (p lane : Nat) : State :=
  let x := s.port p
  if x.lost.contains lane then s
  else
    let s := s.setPort p { x with lost := lane :: x.lost }
    if s.pstate p < 2 then s
    else if s.workingLanes p = [] then (s.setPstate p 0).event St.LINK_DOWN 5 p lane
    else (if s.pstate p = 2 then s.setPstate p 4 else s).event St.LINK_DEGRADED 5 p lane

/-- Whether a port can replace a lane (R295, R301): a usable spare is left, and it is no v1 port. -/
def State.spares (s : State) (p : Nat) : Bool := (s.port p).spareOk && (spareLane (s.h .LNK_LANEMAP p)).isSome && !(s.port p).v1

/-- LANE_LOSS (R296): an active lane is lost with no spare left; the port runs on one lane, or goes down. -/
def execLaneLoss (p lane : Nat) (s : State) : Out :=
  if s.laneActive p lane && !s.spares p then .next (s.laneLost p lane) else .next s

/-- LANE_WINDOW (R342): a lane's 10-minute window closes with its corrected symbols and bits received; three windows in a row above
1 × 10^−10 spare the lane, and a lane with no spare left is handled as lost (R346). -/
def execLaneWindow (p lane symbols received : Nat) (s : State) : Out :=
  if s.laneActive p lane then
    let x := s.port p
    let slow := decide (received < symbols * 10 * 10 ^ 10)
    let n := if slow then x.windows.getD lane 0 + 1 else 0
    let s := s.setPort p { x with windows := x.windows.set lane (if 3 ≤ n then 0 else n) }
    .next (if 3 ≤ n then (if s.spares p then s.laneSwap p lane else s.laneLost p lane) else s)
  else .next s

/-- SPARE_EYE_CHECK (R350): an eye below the training limit marks the spare unusable. -/
def execSpareEyeCheck (p : Nat) (ok : Bool) (s : State) : Out :=
  if ok ∨ 4 ≤ p then .next s else .next ((s.setPort p { s.port p with spareOk := false }).event St.SPARE_EXHAUSTED 5 p 0)

/-! ### Dorhel v1 (R302) -/

/-- The v1 receive ring: base and entries of LNK_V1RING. -/
def State.v1Base (s : State) : Nat := 4096 * s.hf .LNK_V1RING 0 0 27
def State.v1Entries (s : State) : Nat := 2 ^ s.hf .LNK_V1RING 0 27 5

/-- V1MSG (R302): a payload of 1-4,096 bytes lands in the next entry of the ring: 4 KiB of payload, then length, the peer's serial and a
valid word written last. An entry whose valid word is still set holds the peer back. (DEDUCED: log 90) -/
def execV1msg (p : Nat) (peer : Nat) (data : List Byte) (s : State) : Out :=
  if 4 ≤ p ∨ (s.port p).v1 = false ∨ (s.pstate p ≠ 2 ∧ s.pstate p ≠ 4) ∨ data.length = 0 ∨ 4096 < data.length then .next s
  else
    let a := s.v1Base + 4160 * (s.links.v1Write % s.v1Entries)
    if s.rdN (a + 4156) 4 ≠ 0 then .next s
    else
      let s := s.wrS a (data ++ List.replicate (4096 - data.length) 0#8)
      let s := s.wrS (a + 4096) (toLe 4 data.length ++ toLe 4 0 ++ toLe 8 peer ++ toLe 44 0 ++ toLe 4 1)
      .next { s with links := { s.links with v1Write := s.links.v1Write + 1 } }

end Sys2Proof.Machine
end

