-- ==== Sys2Proof/Machine/Discovery.lean ====
section
/-! DEFINITION. Discovery and the Sundial (R303-R308, R313-R316). -/

namespace Sys2Proof.Machine

/-! ### HELLO (R303-R306) -/

/-- 10 ms in ticks. -/
def tenMs : Nat := 2500000

/-- Whether the Sundial runs (R315): not in DARK or OFF, not in a release that covers H_FABRIC, the reference present. -/
def State.sundialRuns (s : State) : Bool :=
  decide (s.hf .PWR_STATE 0 0 3 < 3) && !s.rst.refLost && !(match s.rst.reach with | some r => decide (3 ≤ r) | none => false)

/-- Tree depth as HELLO carries it. -/
def State.depth (s : State) : Nat := if s.sundialRuns then s.links.depth else 0xFFFF

/-- The HELLO of a port. -/
def State.hello (s : State) (p : Nat) : HelloMsg :=
  { serial := s.serial, port := p, lcs := s.lcs, depth := s.depth, groupId := s.h .LNK_GROUPID, jobTag := s.jobTag
    coord := if s.hf .LNK_COORD 0 13 1 = 1 then s.myX + 8 * s.myY + 128 else 0
    rootSer := s.links.rootSer, attest := s.attest }

/-- HELLO_SEND (R303): every up v2 port, isolated ones included, sends a HELLO. -/
def execHelloSend (s : State) : Out :=
  .next ((List.range 4).foldl (fun t p =>
    if (s.portUp p || s.pstate p == 3) && !(s.port p).v1 then
      t.transmit p ⟨s.myX, s.myY, s.myX, s.myY, s.jobTag, 1, .hello (s.hello p)⟩
    else t) s)

/-- Whether a peer is eligible (R304). -/
def State.eligible (s : State) (h : HelloMsg) : Bool :=
  h.groupId == s.h .LNK_GROUPID && (h.lcs == 1 || h.lcs == 2)

/-- The eligible peers on ports that carry frames. -/
def State.peers (s : State) : List (Nat × HelloMsg) :=
  (List.range 4).filterMap fun p =>
    if s.portUp p then (match (s.port p).peer with | some h => if s.eligible h then some (p, h) else none | none => none) else none

/-- ROOTSER (R305): the lowest serial of this module and its eligible peers' ROOTSER, a lost master's excluded (R315). -/
def State.findRoot (s : State) : Nat :=
  (s.peers.map fun e => e.2.rootSer).foldl (fun m r => if some r ≠ s.links.excluded ∧ r < m then r else m) s.serial

/-- Take ROOTSER anew; a change restarts its 10 ms. -/
def State.updateRoot (s : State) : State :=
  let r := s.findRoot
  if r = s.links.rootSer then s else { s with links := { s.links with rootSer := r, rootTick := s.sundial } }

/-- The entry a discovery table holds for the neighbour on port `p`: one step along it (R305, R308). -/
def State.neighbour (s : State) (p : Nat) : Option DiscEntry :=
  let x := s.myX
  let y := s.myY
  match p with
  | 0 => s.discAt ((x + 1) % s.sizeX) y
  | 1 => s.discAt ((x + s.sizeX - 1) % s.sizeX) y
  | 2 => s.discAt x ((y + 1) % s.sizeY)
  | _ => s.discAt x ((y + s.sizeY - 1) % s.sizeY)

/-- Whether a peer is the one the discovery table holds (R308). -/
def State.peerHeld (s : State) (p : Nat) (h : HelloMsg) : Bool :=
  match s.neighbour p with
  | some e => e.serial == h.serial && h.port == p ^^^ 1 && h.coord == e.x + 8 * e.y + 128
  | none => false

/-- The argument of MISWIRED (R306): both ports, and the low 30 bits of both serials. (DEDUCED: log 54) -/
def miswireArg (own peer p q : Nat) : Nat := p + 4 * q + 16 * (own % 2 ^ 30) + 2 ^ 34 * (peer % 2 ^ 30)

/-- UP, or DEGRADED for a port that has lost a lane (R296). -/
def State.upState (s : State) (p : Nat) : Nat := if (s.workingLanes p).length = 2 then 2 else 4

/-- A neighbour's HELLO says which job's tag it carries (R303, R309). -/
def State.learnTag (s : State) (h : HelloMsg) : State :=
  { s with links := { s.links with table := s.links.table.map fun e => if e.serial = h.serial then { e with tag := h.jobTag } else e } }

/-- HELLO (R303-R306): the peer's HELLO updates eligibility, ROOTSER, depth and the miswire checks. -/
def execHello (p lseq : Nat) (h : HelloMsg) (s : State) : Out :=
  .next (s.takeFrame p lseq true fun s =>
    let s := s.setPort p { s.port p with peer := some h }
    let s := s.setHf .LNK_PSTAT p 5 2 h.port
    if h.port ≠ p ^^^ 1 ∨ h.serial = s.serial then
      let first := s.hf .LNK_PSTAT p 4 1 = 0
      let s := (s.setPstate p 3).setHf .LNK_PSTAT p 4 1 1
      (if first then s.event St.MISWIRED 5 p (miswireArg s.serial h.serial p h.port) else s).updateRoot
    else if s.eligible h = false then (s.setPstate p 3).updateRoot
    else
      -- an eligible peer leaves isolation during discovery, or when it is the peer the table holds (R308)
      let s := if s.pstate p = 3 ∧ (s.links.running ∨ s.peerHeld p h) then s.setPstate p (s.upState p) else s
      (s.learnTag h).updateRoot)

/-! ### The root's assignment (R305, R307) -/

/-- The node with a serial. -/
def nodeOf (ns : List Node) (serial : Nat) : Option Node := ns.find? fun n => n.serial == serial

/-- Follow one port from a node: the hops made, and whether the probe came back to its start. None after 8 modules. -/
def probe (ns : List Node) (start p : Nat) : Nat → Nat → Nat → Option (Nat × Bool)
  | 0, _, _ => none
  | f + 1, serial, hops =>
    match nodeOf ns serial with
    | none => some (hops, false)
    | some n =>
      match n.peers.getD p none with
      | none => some (hops, false)
      | some q => if q = start then some (hops + 1, true) else probe ns start p f q (hops + 1)

/-- An axis from the root: its size, the root's place on it, and whether it is closed. -/
def probeAxis (ns : List Node) (root plus : Nat) : Option (Nat × Nat × Bool) :=
  match probe ns root plus 9 root 0 with
  | none => none
  | some (n, true) => if n ≤ 8 then some (n, 0, true) else none
  | some (n, false) =>
    match probe ns root (plus + 1) 9 root 0 with
    | none => none
    | some (m, _) => if n + m + 1 ≤ 8 then some (n + m + 1, m, false) else none

/-- A coordinate stepped along a port, modulo the sizes. -/
def stepCoord (xs ys p : Nat) (c : Nat × Nat) : Nat × Nat :=
  match p with
  | 0 => ((c.1 + 1) % xs, c.2)
  | 1 => ((c.1 + xs - 1) % xs, c.2)
  | 2 => (c.1, (c.2 + 1) % ys)
  | _ => (c.1, (c.2 + ys - 1) % ys)

/-- Coordinates given so far: serial, coordinate. -/
def coordOf (cs : List (Nat × Nat × Nat)) (serial : Nat) : Option (Nat × Nat) := (cs.find? fun c => c.1 == serial).map (·.2)

/-- Visit one module's ports: give its neighbours coordinates, or find one that disagrees. -/
def visit (ns : List Node) (xs ys : Nat) (n : Node) (c : Nat × Nat) (cs : List (Nat × Nat × Nat)) :
    Option (List (Nat × Nat × Nat) × List Nat) :=
  (List.range 4).foldl (fun st p =>
    match st, n.peers.getD p none with
    | some (cs, q), some m =>
      let d := stepCoord xs ys p c
      match coordOf cs m with
      | some e => if e = d then some (cs, q) else none
      | none => if (nodeOf ns m).isSome then some (cs ++ [(m, d.1, d.2)], q ++ [m]) else some (cs, q)
    | st, none => st
    | none, _ => none) (some (cs, []))

/-- The loop of R305 over a queue of serials. -/
def assignLoop (ns : List Node) (xs ys : Nat) : Nat → List Nat → List (Nat × Nat × Nat) → Option (List (Nat × Nat × Nat))
  | 0, _, _ => none
  | _, [], cs => some cs
  | f + 1, q :: rest, cs =>
    match nodeOf ns q, coordOf cs q with
    | some n, some c =>
      match visit ns xs ys n c cs with
      | some (cs, new) => assignLoop ns xs ys f (rest ++ new) cs
      | none => none
    | _, _ => assignLoop ns xs ys f rest cs

/-- The tree in which the modules are reached (R305, R313): serial, port towards its parent, depth. `fuel` bounds the visits. -/
def treeLoop (ns : List Node) : Nat → List Nat → List (Nat × Option Nat × Nat) → List (Nat × Option Nat × Nat)
  | 0, _, t => t
  | _, [], t => t
  | f + 1, q :: rest, t =>
    match nodeOf ns q, t.find? fun e => e.1 == q with
    | some n, some e =>
      let new := (List.range 4).filterMap fun p => match n.peers.getD p none with
        | some m => if (nodeOf ns m).isSome then some (m, some (p ^^^ 1), e.2.2 + 1) else none
        | none => none
      let r := new.foldl (fun (st : List (Nat × Option Nat × Nat) × List Nat) x =>
        if st.1.any fun e => e.1 == x.1 then st else (st.1 ++ [x], st.2 ++ [x.1])) (t, [])
      treeLoop ns f (rest ++ r.2) r.1
    | _, _ => treeLoop ns f rest t

/-- The discovery table of a set of coordinates. -/
def discTable (ns : List Node) (root : Nat) (cs : List (Nat × Nat × Nat)) : List DiscEntry :=
  let t := treeLoop ns (ns.length + 1) [root] [(root, none, 0)]
  cs.filterMap fun c => (nodeOf ns c.1).map fun n =>
    let e := (t.find? fun e => e.1 == c.1).map (·.2)
    ⟨n.serial, c.2.1, c.2.2, n.attest, n.tag, (List.range 4).filter fun p => (n.peers.getD p none).isSome,
      (e.map (·.1)).getD none, (e.map (·.2)).getD 0xFFFF⟩

/-- Whether a module's ports fit the shape (R294): a link, or a cable whose link is skipped, exactly where the axis has a neighbour. -/
def portsFit (xs ys : Nat) (cx cy : Bool) (n : Node) (c : Nat × Nat) : Bool :=
  (List.range 4).all fun p =>
    let size := if p < 2 then xs else ys
    let at_ := if p < 2 then c.1 else c.2
    let closed := if p < 2 then cx else cy
    let edge := if p % 2 = 0 then at_ + 1 == size else at_ == 0
    n.skip.contains p || (n.peers.getD p none).isSome == (decide (1 < size) && (closed || !edge))

/-- Whether the coordinates given make a shape of R294: every place taken once, every axis closed on all its rings or open on all. -/
def shapeFits (ns : List Node) (xs ys : Nat) (cx cy : Bool) (cs : List (Nat × Nat × Nat)) : Bool :=
  ns.length == xs * ys && cs.length == xs * ys && ((List.range (xs * ys)).all fun k => cs.any fun c => c.2 == (k % xs, k / xs)) &&
    cs.all fun c => match nodeOf ns c.1 with
      | some n => portsFit xs ys cx cy n c.2
      | none => false

/-- The check of overridden coordinates (R307): every link joins modules one step apart, and all modules override or none does. -/
def ovrOk (ns : List Node) (xs ys : Nat) : Bool :=
  ns.all fun n =>
    match n.ovr with
    | none => false
    | some c => (List.range 4).all fun p =>
        match n.peers.getD p none with
        | none => true
        | some m => match (nodeOf ns m).bind (·.ovr) with
          | some d => d == stepCoord xs ys p c
          | none => false

/-- assign() of R305: sizes and table, none on failure. -/
def assign (ns : List Node) (root xsOvr ysOvr : Nat) : Option (Nat × Nat × List DiscEntry) :=
  if ns.any fun n => n.ovr.isSome then
    if ovrOk ns xsOvr ysOvr then
      some (xsOvr, ysOvr, discTable ns root (ns.filterMap fun n => n.ovr.map fun c => (n.serial, c.1, c.2)))
    else none
  else
    match probeAxis ns root 0, probeAxis ns root 2 with
    | some (xs, x, cx), some (ys, y, cy) =>
      match assignLoop ns xs ys (ns.length + 1) [root] [(root, x, y)] with
      | some cs => if shapeFits ns xs ys cx cy cs then some (xs, ys, discTable ns root cs) else none
      | none => none
    | _, _ => none

/-- Write LNK_COORD from a table entry, unless overridden (R305, R307). Coordinates never change while a job runs (R308). -/
def State.setCoord (s : State) (x y xs ys : Nat) : State :=
  let s := if s.hf .LNK_COORD 0 12 1 = 1 ∨ s.step.job then s
    else s.rwpH .LNK_COORD 0 (x + 8 * y + 64 * (xs - 1) + 512 * (ys - 1))
  s.setHf .LNK_COORD 0 13 1 1

/-- Send a DISC body on every port that carries frames, but for one. -/
def State.spread (s : State) (but : Option Nat) (d : DiscMsg) : State :=
  ((List.range 4).filter fun p => some p ≠ but ∧ s.portUp p).foldl
    (fun t p => t.transmit p ⟨s.myX, s.myY, s.myX, s.myY, s.jobTag, 1, .disc d⟩) s

/-- Discovery has failed: no coordinate is assigned, DISCOVERY_FAILED is raised, and a DISCOVER ticket ends with it. -/
def State.discFail (s : State) : State :=
  let s := { s with links := { s.links with running := false, table := [] } }.setHf .LNK_COORD 0 13 1 0
  (s.event St.DISCOVERY_FAILED 0 0 0).endOp 0xD040 St.DISCOVERY_FAILED

/-- Take a finished table (R305, R313): coordinates, the Sundial's parent and depth, and discovery ends. The root is the time master. -/
def State.discDone (s : State) (t : List DiscEntry) (xs ys : Nat) : State :=
  let s := { s with links := { s.links with running := false, table := t } }
  let s := match t.find? fun e => e.serial == s.serial with
    | some e =>
      let l := { s.links with parent := e.parent, depth := e.depth, slew := 0, respTick := s.sundial, stampTick := s.sundial, electing := false }
      let s := ({ s with links := l }.setHf .SDL_STAT 0 2 1 (b2n e.parent.isNone)).setHf .SDL_STAT 0 3 4 (min e.depth 14)
      (if e.parent.isNone then s.setHf .SDL_STAT 0 0 2 2 else s).setCoord e.x e.y xs ys
    | none => s
  s.endOp 0xD040 St.OK

/-- DISCOVERY_ROOT_ASSIGN (R305, R307): ROOTSER has not changed for 10 ms and names this module, which probes the group (`ns` is what
the probes find), assigns coordinates and sends every module the table. (DEDUCED: log 89) -/
def execDiscoveryRootAssign (ns : List Node) (s : State) : Out :=
  if s.links.running && s.links.rootSer == s.serial && decide (s.links.rootTick + tenMs ≤ s.sundial) then
    match assign ns s.serial s.sizeX s.sizeY with
    | some (xs, ys, t) => .next ((s.discDone t xs ys).spread none (.table t xs ys))
    | none => .next (s.discFail.spread none .fail)
  else .next s

/-- DISC (R305): a table gives the coordinates and the parent, and is passed on once; a failure ends discovery. -/
def execDisc (p lseq : Nat) (d : DiscMsg) (s : State) : Out :=
  .next (s.takeFrame p lseq false fun s =>
    match d with
    | .table t xs ys => if s.links.running then (s.discDone t xs ys).spread (some p) d else s
    | .fail => if s.links.running then (s.discFail).spread (some p) d else s)

/-- A port has trained with its peer (R301, R384): v2, or down to v1 where V1EN allows it; without, it stays down. -/
def State.trained (s : State) (p : Nat) (v1 : Bool) : State :=
  let s := s.setPort p { Port.init with spareOk := (s.port p).spareOk }
  if v1 then
    if s.hf .LNK_PCFG p 1 1 = 1 then (((s.setPort p { s.port p with v1 := true }).setPstate p 2).setHf .LNK_PSTAT p 3 1 1)
    else s.event St.LINK_V1_REFUSED 5 p 0
  else (s.setPstate p 2).setHf .LNK_PSTAT p 3 1 0

/-- Ports train at release (R384 step 4): `offers` says for each port whether a peer is cabled and offers v1 only. -/
def State.trainPorts (s : State) (offers : List (Option Bool)) : State :=
  (List.range 4).foldl (fun (t : State) p =>
    match offers.getD p none with
    | some v1 => if t.hf .LNK_PCFG p 0 1 = 1 then t.trained p v1 else t
    | none => t) s

/-- PORT_REJOIN (R301, R308): a port comes up again, with the HELLO `h` of its peer or with a peer that offers v1 only. Outside discovery the
peer the table holds rejoins, and any other is held isolated. -/
def execPortRejoin (p : Nat) (h : Option HelloMsg) (s : State) : Out :=
  if 4 ≤ p ∨ s.hf .LNK_PCFG p 0 1 = 0 ∨ s.pstate p = 2 ∨ s.pstate p = 4 then .next s
  else
    match h with
    | none => .next (s.trained p true)
    | some h =>
      let s := s.trained p false
      let s := (s.setPort p { s.port p with peer := some h }).setHf .LNK_PSTAT p 5 2 h.port
      if s.links.running ∨ (s.peerHeld p h ∧ s.eligible h) then .next s
      else .next ((s.setPstate p 3).event St.TOPOLOGY_CHANGED 5 p h.serial)

/-! ### The Sundial (R313-R316) -/

/-- SUNDIAL_SYNC_TIMER (R313): SYNC_REQ goes to the parent with this module's stamp, captured to 1/16 st (`ph` sixteenths into the tick). -/
def execSundialSyncTimer (ph : Nat) (s : State) : Out :=
  match s.links.parent with
  | none => .next s
  | some p =>
    if s.portUp p && s.sundialRuns then
      let t1 := 16 * s.sundial + ph % 16
      let s := { s with links := { s.links with t1 := t1 } }
      .next (s.transmit p ⟨s.myX, s.myY, s.myX, s.myY, s.jobTag, 0, .urg 2 [t1]⟩)
    else .next s

/-- The master stamp a SYNC_RESP carries (R315). -/
def State.masterStamp (s : State) : Nat := if s.hf .SDL_STAT 0 2 1 = 1 then s.sundial else s.links.stamp

/-- SYNC_REQ (R313, R315): the answer carries when the request came (`t2`, 1/16 st), when the response leaves (`ph`
sixteenths into the tick), and the master stamp. A module whose Sundial does not run answers nothing. -/
def execSyncReq (p lseq t2 ph : Nat) (s : State) : Out :=
  .next (s.takeFrame p lseq false fun s =>
    if s.sundialRuns then
      s.transmit p ⟨s.myX, s.myY, s.myX, s.myY, s.jobTag, 0, .urg 3 [t2, 16 * s.sundial + ph % 16, s.masterStamp]⟩
    else s)

/-- Take an offset in 1/16 st (R313, R314): more than 64 st with no job, or during a FABRIC release (R385), steps the count to the parent's time, anything less is slewed.
Which of LOCKING and LOCKED the state then shows is open. -/
def State.discipline (s : State) (off : Int) : State :=
  let sat : Int := max (-32768) (min 32767 off)
  let s := s.setHf .SDL_STAT 0 8 16 (unsigned 16 sat)
  let s := s.sample 51 (fp32Of off.natAbs 0) 0 0
  let d := s.draw 1
  let s := d.2.setHf .SDL_STAT 0 0 2 (1 + d.1)
  if (s.step.job = false ∨ s.rst.compute = false) ∧ 64 * 16 < off.natAbs then
    -- the Grafters' copies do not step with the hub (R316)
    let now := ((s.sundial : Int) + off.tdiv 16).toNat
    let gs := s.grafters.map fun g => { g with skew := g.skew + (s.sundial : Int) - now }
    { s with sundial := now, links := { s.links with slew := 0 }, grafters := gs }
  else { s with links := { s.links with slew := off } }

/-- SYNC_RESP (R313-R315): `t2` and `t3` are the parent's stamps, `t4` this module's at arrival, all in 1/16 st. -/
def execSyncResp (p lseq t2 t3 t4 stamp : Nat) (s : State) : Out :=
  .next (s.takeFrame p lseq false fun s =>
    if s.links.parent = some p ∧ s.sundialRuns then
      let off : Int := (((t2 : Int) - s.links.t1) - ((t4 : Int) - t3)).tdiv 2
      let s := s.discipline off
      let newer := decide (s.links.stamp < stamp)
      { s with links := { s.links with stamp := stamp, respTick := s.sundial, stampTick := if newer then s.sundial else s.links.stampTick } }
    else s)

/-- Whether the parent is lost (R315), or this module runs without one and is not the time master. -/
def State.parentLost (s : State) : Bool :=
  match s.links.parent with
  | none => s.hf .SDL_STAT 0 2 1 == 0 && (s.hf .SDL_STAT 0 0 2 == 3 || s.links.electing)
  | some p => !s.portUp p || (match (s.port p).peer with | some h => h.depth == 0xFFFF | none => true)
      || decide (s.links.respTick + tenMs ≤ s.sundial)

/-- The up, eligible neighbour of least depth below 0xFFFF, X+, X−, Y+, Y− in order on a tie (R315). While a new time master is sought, only
one that no longer follows the lost one counts. -/
def State.bestNeighbour (s : State) : Option (Nat × Nat) :=
  let ps := s.peers.filter fun e => !s.links.electing || some e.2.rootSer != s.links.excluded
  (ps.map fun e => (e.1, e.2.depth)).foldl (fun b e =>
    if e.2 < 0xFFFF then (match b with | some c => if e.2 < c.2 then some e else b | none => some e) else b) none

/-- PARENT_LOST (R315): re-parent, or run free in HOLDOVER. -/
def execParentLost (s : State) : Out :=
  if s.parentLost then
    match s.bestNeighbour with
    | some (p, d) =>
      let l := { s.links with parent := some p, depth := d + 1, respTick := s.sundial, stampTick := s.sundial, electing := false }
      .next (({ s with links := l }.setHf .SDL_STAT 0 3 4 (min (d + 1) 14)).setHf .SDL_STAT 0 0 2 1)
    | none =>
      if s.links.parent.isNone then .next s
      else
        .next (({ s with links := { s.links with parent := none, depth := 0xFFFF, slew := 0 } }.setHf .SDL_STAT 0 0 2 3).event
          St.SUNDIAL_HOLDOVER 0 0 0)
  else .next s

/-- ROOT_LOST (R315): the master stamp held has not advanced for 10 ms: the election begins with the lost master excluded; once ROOTSER has
been still for 10 ms, the module it names becomes time master from its own count, with no step. -/
def execRootLost (s : State) : Out :=
  if s.hf .SDL_STAT 0 2 1 = 1 then .next s
  else if s.links.electing = false then
    if s.links.stamp ≠ 0 ∧ s.links.stampTick + tenMs ≤ s.sundial then
      let s := { s with links := { s.links with excluded := some s.links.rootSer, electing := true, depth := 0xFFFF, parent := none, slew := 0 } }
      .next ((s.event St.ROOT_LOST 0 0 0).updateRoot)
    else .next s
  else if s.links.rootSer = s.serial ∧ s.links.rootTick + tenMs ≤ s.sundial then
    let s := { s with links := { s.links with depth := 0, parent := none, electing := false } }.setHf .SDL_STAT 0 2 1 1
    .next ((s.setHf .SDL_STAT 0 0 2 2).setHf .SDL_STAT 0 3 4 0)
  else .next s

def State.grafter (s : State) (k : Nat) : Grafter := s.grafters.getD k Grafter.init
def State.setGrafter (s : State) (k : Nat) (g : Grafter) : State := { s with grafters := s.grafters.set k g }

/-- The Grafter's Sundial copy. -/
def State.copyOf (s : State) (k : Nat) : Nat := ((s.sundial : Int) + (s.grafter k).skew).toNat

/-- SDL_SYNC_SEND (R316): the hub's count with path compensation goes to every Grafter. -/
def execSdlSyncSend (s : State) : Out :=
  .next ((List.range 8).foldl (fun (t : State) k => t.inject .hub (.grafter k) .tc0 (.urg 8 (s.sundial + s.hf .SDL_GCOMP k 0 12))) s)

/-- SDL_SYNC (R316): the value at place `n` reaches its Grafter, which slews its copy toward it. -/
def execSdlSync (n : Nat) (flits : List FlitErr) (s : State) : Out :=
  match s.takeUrgent n 8 flits with
  | none => .next s
  | some (_, none, t) => .next t
  | some (p, some arg, t) =>
    match p.dst with
    | .grafter k => .next (t.setGrafter k { t.grafter k with slew := (arg : Int) - t.copyOf k })
    | _ => .next s

/-- How much a counter moves in one tick: a correction adds 2, or 0, at most once in 1,024 ticks (R314). -/
def slewMove (slew : Int) (last now : Nat) : Nat :=
  if slew ≠ 0 ∧ last + 1024 ≤ now then (if 0 < slew then 2 else 0) else 1

/-- One tick of the Sundial with its slews (R313, R314, R316). -/
def State.idleTick (s : State) : State :=
  if s.sundialRuns = false then s
  else
    let d := slewMove s.links.slew s.links.lastSlew s.sundial
    let now := s.sundial + d
    let links := if d = 1 then s.links
      else { s.links with slew := s.links.slew - 16 * ((d : Int) - 1), lastSlew := s.sundial }
    let gs := s.grafters.map fun g =>
      let e := slewMove g.slew g.lastSlew s.sundial
      let g := if e = 1 then g else { g with slew := g.slew - ((e : Int) - 1), lastSlew := s.sundial }
      { g with skew := g.skew + (e : Int) - d }
    { s with sundial := now, links := links, grafters := gs }

/-- SDL_LAUNCH.TIME (R316). -/
def State.launchTime (s : State) : Nat := s.h .SDL_LAUNCHLO + 2 ^ 32 * s.hf .SDL_LAUNCHHI 0 0 31

end Sys2Proof.Machine
end

