-- ==== Sys2Proof/Machine/GrafterMath.lean ====
section
/-! DEFINITION. The Grafter's integer arithmetic (R220-R228): exact dyadics, matrices under one exponent, range analysis, and the
iterations and factorisations. -/

namespace Sys2Proof.Machine

/-! ### Exact dyadics -/

def Dy.zero : Dy := ⟨0, 0⟩
def Dy.ofInt (n : Int) : Dy := ⟨n, 0⟩
def Dy.add (a b : Dy) : Dy := ⟨a.m * 2 ^ (a.e - min a.e b.e).toNat + b.m * 2 ^ (b.e - min a.e b.e).toNat, min a.e b.e⟩
def Dy.neg (a : Dy) : Dy := ⟨-a.m, a.e⟩
def Dy.sub (a b : Dy) : Dy := a.add b.neg
def Dy.mul (a b : Dy) : Dy := ⟨a.m * b.m, a.e + b.e⟩
def Dy.abs (a : Dy) : Dy := ⟨a.m.natAbs, a.e⟩
def Dy.le (a b : Dy) : Bool := decide ((a.sub b).m ≤ 0)
def Dy.max (a b : Dy) : Dy := if a.le b then b else a
def Dy.min (a b : Dy) : Dy := if a.le b then a else b

/-- A power of two. -/
def pow2 (e : Int) : Dy := ⟨1, e⟩

/-- eb(m) = floor(log2 m) + 1 (R207); 0 for zero, which has no logarithm. -/
def Dy.eb (a : Dy) : Int := if a.m = 0 then 0 else (Nat.log2 a.m.natAbs : Int) + a.e + 1

/-- The least `k` with `a ≤ 2^k`, for a positive value. -/
def Dy.ceilLog (a : Dy) : Int := if a.m.natAbs = 2 ^ Nat.log2 a.m.natAbs then a.eb - 1 else a.eb

/-- The FP32 code of a dyadic, RNE. -/
def Dy.fp32 (a : Dy) : Nat := (Machine.fp32.roundInt .rne false (a.m, a.e)).1

/-- The dyadic of an FP32 code; NaN and infinities read as zero. -/
def dyOfFp (x : Nat) : Dy :=
  match Machine.fp32.decode x with
  | .fin n m e => ⟨if n then -(m : Int) else m, e⟩
  | _ => Dy.zero

/-- RNE of a quotient of integers. -/
def rneDiv (a : Int) (b : Nat) : Int :=
  let q := a.natAbs / b
  let r := a.natAbs % b
  let q := if b < 2 * r ∨ (2 * r = b ∧ q % 2 = 1) then q + 1 else q
  if a < 0 then -(q : Int) else q

/-- RNE of `m · 2^e`, and a little more when `sticky`, to an integer. -/
def rneNat (m : Nat) (e : Int) (sticky : Bool) : Nat :=
  let s := splitAt m e 0
  if roundUp .rne false s.1 s.2.1 s.2.2 sticky then s.1 + 1 else s.1

/-- A positive value rounded once to a 48-bit fraction under its own exponent (R220). -/
def frac48 (m : Nat) (e : Int) (sticky : Bool) : Dy :=
  if m = 0 then Dy.zero
  else
    let q : Int := (Nat.log2 m : Int) + e - 46
    ⟨rneNat m (e - q) sticky, q⟩

/-- A quotient rounded once. -/
def Dy.div (a b : Dy) : Dy :=
  let k := Nat.log2 b.m.natAbs + 64
  let n := a.m.natAbs * 2 ^ k
  let q := frac48 (n / b.m.natAbs) (a.e - b.e - k) (decide (n % b.m.natAbs ≠ 0))
  if (a.m < 0) = (b.m < 0) then q else q.neg

/-- 1 / √a rounded once, for a positive value. -/
def Dy.rsqrt (a : Dy) : Dy :=
  let k := 2 * Nat.log2 a.m.natAbs + 256
  let k := if ((k : Int) + a.e) % 2 = 0 then k else k + 1
  let v := 2 ^ k / a.m.natAbs
  let r := isqrt v
  frac48 r (-(((k : Int) + a.e) / 2)) (decide (r * r ≠ v) || decide (2 ^ k % a.m.natAbs ≠ 0))

/-- √a rounded once to the fraction grid of exponent `ex`. -/
def Dy.sqrtOn (a : Dy) (ex : Int) : Nat :=
  let s := sqrtDy 60 a.m.natAbs a.e
  rneNat s.1 (s.2.1 + 47 - ex) s.2.2

/-! ### Matrices -/

def Mat.cell (m : Mat) (i j : Nat) : Int := (m.rows.getD i []).getD j 0
def Mat.dy (m : Mat) (i j : Nat) : Dy := ⟨m.cell i j, m.e - 47⟩

/-- The transpose of `n` columns. -/
def transpose (rows : List (List Int)) (n : Nat) : List (List Int) := (List.range n).map fun j => rows.map fun r => r.getD j 0

/-- Saturate every element; the Bool says that one did. -/
def satMat (rows : List (List Int)) (e : Int) : Mat × Bool :=
  (⟨rows.map fun r => r.map fun v => (wqSat v).1, e⟩, rows.any fun r => r.any fun v => (wqSat v).2)

/-- Re-express under exponent `e` (R57). -/
def Mat.at (m : Mat) (e : Int) : Mat × Bool := satMat (m.rows.map fun r => r.map fun v => rneShift v (e - m.e)) e

def dotInt (a b : List Int) : Int := (List.zipWith (· * ·) a b).foldl (· + ·) 0

/-- The limb products of two rows of fractions: R of R59, summed exactly over the reduction (R72, R220). -/
def limbDot (a b : List Int) : Int := (List.zipWith (fun x y => limbRecombine (limbClasses x y)) a b).foldl (· + ·) 0

/-- A product: limb products, summed exactly and rounded once into exponent `e` (R59, R60, R220). -/
def Mat.mul (a b : Mat) (n : Nat) (e : Int) : Mat × Bool :=
  let bt := transpose b.rows n
  satMat (a.rows.map fun r => bt.map fun c => rneShift (limbDot r c) (e + 7 - a.e - b.e)) e

/-- Add a value on the matrix's grid to the diagonal. -/
def Mat.addDiag (m : Mat) (v : Int) : Mat × Bool :=
  satMat (m.rows.mapIdx fun i r => r.mapIdx fun j x => if i = j then x + v else x) m.e

/-- The identity times 2^k, under exponent `e`. -/
def idMat (n : Nat) (k e : Int) : Mat := ⟨(List.range n).map fun i => (List.range n).map fun j => if i = j then rneShift 1 (e - 47 - k) else 0, e⟩

def Mat.trace (m : Mat) : Dy := ⟨(m.rows.mapIdx fun i r => r.getD i 0).foldl (· + ·) 0, m.e - 47⟩

def rowAbs (r : List Int) : Int := r.foldl (fun a v => a + v.natAbs) 0

/-- The largest row sum of magnitudes. -/
def Mat.rowMax (m : Mat) : Dy := ⟨(m.rows.map rowAbs).foldl max 0, m.e - 47⟩

/-- resid(m · 2^k): the exact maximum over rows of Σ |m_ij · 2^k − δ_ij|. -/
def Mat.residAt (m : Mat) (k : Int) : Dy :=
  let e := min (m.e - 47 + k) 0
  let one : Int := 2 ^ (-e).toNat
  let sc : Int := 2 ^ (m.e - 47 + k - e).toNat
  ⟨((m.rows.mapIdx fun i r => rowAbs (r.mapIdx fun j v => v * sc - (if i = j then one else 0))).foldl max 0), e⟩

def Mat.resid (m : Mat) : Dy := m.residAt 0

/-! ### Range analysis (R221) -/

/-- λ on the grid of `a`: 2^−DEXP · t / n rounded once. -/
def dampGrid (a : Mat) (n dexp : Nat) : Int := rneDiv a.trace.m (n * 2 ^ dexp)

/-- The bound b from t, g and λ. -/
def boundOf (t g lam : Dy) (n : Nat) : Dy := (t.add (lam.mul (Dy.ofInt n))).min (g.add lam)

/-! ### ROOT (R222, R224, R230) -/

/-- The exponent of X^(2^i) from q and λ. -/
def xExp (p : Nat) (q : Int) (lam : Dy) (i : Nat) : Int :=
  let k := -q * 2 ^ i
  (if lam.m ≤ 0 then k else max k ((-lam.ceilLog * 2 ^ i) / p)) + 1

/-- The exponent of T^(2^i). -/
def tExp (p lg i : Nat) : Int := Dy.eb ⟨((p + 1) ^ (2 ^ i) : Nat), -((lg * 2 ^ i : Nat) : Int)⟩

/-- T = ((p + 1) I − M) / p, rounded once into its exponent. (DEDUCED: log 25) -/
def rootT (p lg : Nat) (m : Mat) : Mat × Bool :=
  let et := tExp p lg 0
  satMat (m.rows.mapIdx fun i r => r.mapIdx fun j v =>
    rneShift ((if i = j then ((p + 1 : Nat) : Int) * 2 ^ 46 else 0) - v) (lg + et - 1)) et

/-- Square a matrix `k` times, the i-th square under exponent `ex i`. -/
def squares (n : Nat) (ex : Nat → Int) : Nat → Nat → Mat → Mat × Bool
  | 0, _, m => (m, false)
  | k + 1, i, m =>
    let s := m.mul m n (ex (i + 1))
    let r := squares n ex k (i + 1) s.1
    (r.1, s.2 || r.2)

/-- One iteration of ROOT, and whether the addition or a product of it saturates. -/
def rootStep (n p lg : Nat) (q : Int) (lam : Dy) (x m : Mat) : Mat × Mat × Bool × Bool :=
  let t := rootT p lg m
  let tp := squares n (tExp p lg) lg 0 t.1
  let x' := x.mul t.1 n (xExp p q lam 0)
  let m' := tp.1.mul m n 1
  (x'.1, m'.1, t.2, !t.2 && (tp.2 || x'.2 || m'.2))

/-- M of a cold start: Ad / c under exponent 1. -/
def rootCold (ad : Mat) (p : Nat) (q : Int) : Mat × Bool :=
  satMat (ad.rows.map fun r => r.map fun v => rneShift v (1 + p * q - ad.e)) 1

/-- M of a warm start: x^p · Ad / c under exponent 1. -/
def rootWarm (n p lg : Nat) (q : Int) (lam : Dy) (x ad : Mat) : Mat × Bool :=
  let xp := squares n (xExp p q lam) lg 0 x
  let r := xp.1.mul ⟨ad.rows, ad.e - p * q⟩ n 1
  (r.1, xp.2 || r.2)

/-! ### ORTH (R225) -/

/-- The exact square of the Frobenius norm. -/
def Mat.normSq (m : Mat) : Dy := ⟨(m.rows.map fun r => dotInt r r).foldl (· + ·) 0, 2 * (m.e - 47)⟩

/-- eb of a square root. -/
def ebSqrt (a : Dy) : Int := if a.m = 0 then 0 else ((Nat.log2 a.m.natAbs : Int) + a.e).fdiv 2 + 1

/-- X Xᵀ of `n` rows under exponent 1. -/
def gram (x : Mat) : Mat × Bool :=
  satMat (x.rows.map fun r => x.rows.map fun c => rneShift (limbDot r c) (1 + 7 - 2 * x.e)) 1

/-- One update of ORTH: x ← (15/8 I − 5/4 A + 3/8 A²) x, each coefficient term rounded once. -/
def orthStep (n nc : Nat) (a x : Mat) : Mat × Bool × Bool :=
  let e := a.mul a n 1
  let c := satMat (a.rows.mapIdx fun i r => r.mapIdx fun j v =>
    (if i = j then 15 * 2 ^ 43 else 0) - rneShift (5 * v) 2 + rneShift (3 * e.1.cell i j) 3) 1
  let y := c.1.mul x nc 1
  (y.1, c.2, e.2 || (!c.2 && y.2))

/-! ### CHOL (R226) -/

/-- How an attempt at a factorisation ends. -/
inductive Attempt (α : Type) where
  | ok (r : α)
  | pivot
  | range

/-- Replace one cell. -/
def setCell (w : List (List Int)) (i j : Nat) (v : Int) : List (List Int) := w.set i ((w.getD i []).set j v)

def cellOf (w : List (List Int)) (i j : Nat) : Int := (w.getD i []).getD j 0

/-- Column `j`: pivot test, its column of L, and the updates of the rest of its panel. -/
def cholColumn (n : Nat) (e el : Int) (low : Dy → Bool) (st : List (List Int) × List (List Int)) (j : Nat) :
    Attempt (List (List Int) × List (List Int)) :=
  let (w, l) := st
  let d : Dy := ⟨cellOf w j j, e - 47⟩
  if low d ∨ d.m ≤ 0 then .pivot
  else
    let ljj : Int := d.sqrtOn el
    let r := d.rsqrt
    let below := (List.range n).filter fun i => decide (j < i)
    let col := below.map fun i => (i, rneShift (cellOf w i j * r.m) (-(e - 47 + r.e + 47 - el)))
    if (wqSat ljj).2 || col.any fun c => (wqSat c.2).2 then .range
    else
      let l := col.foldl (fun l c => setCell l c.1 j c.2) (setCell l j j ljj)
      let top := min n (j / 64 * 64 + 64)
      let upd := fun (i k : Nat) => cellOf w i k - rneShift (cellOf l i j * cellOf l k j) (e + 47 - 2 * el)
      let ws := (below.map fun i => ((List.range top).filter fun k => decide (j < k) && decide (k ≤ i)).map fun k => (i, k, upd i k)).flatten
      if ws.any fun c => (wqSat c.2.2).2 then .range
      else .ok (ws.foldl (fun w c => setCell w c.1 c.2.1 c.2.2) w, l)

/-- The trailing update after a panel that begins at `j0`: one product, rounded once. -/
def cholTrail (n : Nat) (e el : Int) (j0 : Nat) (st : List (List Int) × List (List Int)) : Attempt (List (List Int) × List (List Int)) :=
  let (w, l) := st
  let lp := l.map fun r => (r.drop j0).take 64
  let w' := w.mapIdx fun i r => r.mapIdx fun k v =>
    if j0 + 64 ≤ k ∧ k ≤ i then v - rneShift (limbDot (lp.getD i []) (lp.getD k [])) (e + 7 - 2 * el) else v
  if w'.any fun r => r.any fun v => (wqSat v).2 then .range else if n ≤ j0 + 64 then .ok (w, l) else .ok (w', l)

/-- Right-looking block Cholesky over 64-column panels. -/
def cholesky (n : Nat) (a : Mat) (el : Int) (low : Dy → Bool) : Attempt Mat :=
  let start : Attempt (List (List Int) × List (List Int)) := .ok (a.rows, List.replicate n (List.replicate n 0))
  let r := (List.range n).foldl (fun (st : Attempt (List (List Int) × List (List Int))) j =>
    match st with
    | .ok x =>
      match cholColumn n a.e el low x j with
      | .ok y => if j % 64 = 63 ∨ j + 1 = n then cholTrail n a.e el (j / 64 * 64) y else .ok y
      | other => other
    | other => other) start
  match r with
  | .ok x => .ok ⟨x.2, el⟩
  | .pivot => .pivot
  | .range => .range

/-! ### Vectors, TRSV and CG (R227, R228) -/

def WVec.dy (v : WVec) (i : Nat) : Dy := ⟨v.v.getD i 0, v.e - 47⟩
def WVec.dys (v : WVec) : List Dy := v.v.map fun x => ⟨x, v.e - 47⟩

/-- A vector given its exponent after its exact value is known. -/
def mkVec (xs : List Dy) : WVec :=
  let top := xs.foldl (fun a x => a.max x.abs) Dy.zero
  let at_ := fun (e : Int) => xs.map fun x => rneShift x.m (e - 47 - x.e)
  let e := top.eb
  if (at_ e).any fun v => (wqSat v).2 then ⟨at_ (e + 1), e + 1⟩ else ⟨at_ e, e⟩

/-- Values under one exponent that holds them exactly. -/
def exactVec (xs : List Dy) : WVec :=
  let e := (xs.filterMap fun x => if x.m = 0 then none else some x.e).foldl min 0
  ⟨xs.map fun x => x.m * 2 ^ (x.e - e).toNat, e + 47⟩

def dotDy (a b : List Dy) : Dy := (List.zipWith Dy.mul a b).foldl Dy.add Dy.zero

/-- What is left of row `i`'s right-hand side once the values in `ys` are taken off. -/
def trsvRest (l : Nat → Nat → Dy) (rhs : Nat → Dy) (i : Nat) (ys : List (Nat × Dy)) : Dy :=
  (rhs i).sub (ys.foldl (fun a e => a.add ((l i e.1).mul e.2)) Dy.zero)

/-- A panel solved on the fraction grid of exponent `e`; none when a value saturates. -/
def trsvOn (l : Nat → Nat → Dy) (rhs : Nat → Dy) (order : List Nat) (y : List (Nat × Dy)) (e : Int) : Option (List (Nat × Dy)) :=
  order.foldl (fun (st : Option (List (Nat × Dy))) i =>
    match st with
    | some ys =>
      let num := trsvRest l rhs i ys
      let d := l i i
      let k := Nat.log2 d.m.natAbs + 128
      let n := num.m.natAbs * 2 ^ k
      let v := rneNat (n / d.m.natAbs) (num.e - d.e - k + 47 - e) (decide (n % d.m.natAbs ≠ 0))
      let v : Int := if (num.m < 0) = (d.m < 0) then v else -(v : Int)
      if (wqSat v).2 then none else some (ys ++ [(i, ⟨v, e - 47⟩)])
    | none => none) (some y)

/-- One panel of rows of a substitution: `order` the rows in the order they are solved, `y` what is solved so far. Its exponent holds every value
of the panel (R220, R222); a zero on the diagonal ends the attempt. (DEDUCED: log 25) -/
def trsvPanel (l : Nat → Nat → Dy) (rhs : Nat → Dy) (order : List Nat) (y : List (Nat × Dy)) : Attempt (List (Nat × Dy)) :=
  if order.any fun i => decide ((l i i).m = 0) then .range
  else
    let own := order.foldl (fun ys i => ys ++ [(i, (trsvRest l rhs i ys).div (l i i))]) y
    let e := (own.drop y.length).foldl (fun a x => a.max x.2.abs) Dy.zero |>.eb
    match trsvOn l rhs order y e with
    | some ys => .ok ys
    | none =>
      match trsvOn l rhs order y (e + 1) with
      | some ys => .ok ys
      | none => .range

/-- Forward (or, transposed, backward) substitution over 64-row panels, for one right-hand side. -/
def trsv (n : Nat) (l : Mat) (trans : Bool) (b : WVec) : Attempt (List Dy) :=
  let get := fun (i j : Nat) => if trans then l.dy j i else l.dy i j
  let panels := (List.range ((n + 63) / 64)).map fun k => (List.range n).filter fun i => decide (i / 64 = k)
  let panels := if trans then (panels.map List.reverse).reverse else panels
  let r := panels.foldl (fun (st : Attempt (List (Nat × Dy))) p =>
    match st with
    | .ok y => trsvPanel get b.dy p y
    | other => other) (.ok [])
  match r with
  | .ok y => .ok ((List.range n).map fun i => ((y.find? fun e => e.1 == i).map (·.2)).getD Dy.zero)
  | .pivot => .pivot
  | .range => .range

/-- A matrix times a vector, exactly. (DEDUCED: log 25) -/
def mulVec (a : Mat) (v : WVec) : List Dy := a.rows.map fun r => ⟨dotInt r v.v, a.e - 47 + v.e - 47⟩

/-- One iteration of CG for one column: none on a breakdown. -/
def cgStep (a : Mat) (floor : Dy) (x r p : WVec) : Option (WVec × WVec × WVec) :=
  let q := mkVec (mulVec a p)
  let den := dotDy p.dys q.dys
  if den.le (floor.mul (dotDy p.dys p.dys)) then none
  else
    let rr := dotDy r.dys r.dys
    let alpha := rr.div den
    let x' := mkVec (List.zipWith (fun u w => u.add (alpha.mul w)) x.dys p.dys)
    let r' := mkVec (List.zipWith (fun u w => u.sub (alpha.mul w)) r.dys q.dys)
    let beta := if rr.m = 0 then Dy.zero else (dotDy r'.dys r'.dys).div rr
    some (x', r', mkVec (List.zipWith (fun u w => u.add (beta.mul w)) r'.dys p.dys))

end Sys2Proof.Machine
end

