-- ==== Sys2Proof/Machine/Owner.lean ====
section
/-! DEFINITION. Ranks and the logical grid (R272, R273), the owner map and the shard table (R241, R275), shard records (R242, R243), and
the working copy (R189, R281). -/

namespace Sys2Proof.Machine

/-! ### Layer-table fields (R200, R244, R276) -/

def lBlock (l : Nat) : Nat := bits l 208 10
def lPriv (l : Nat) : Bool := bit l 256
def lSub (l : Nat) : Nat := bits l 257 4
def lFidx (l : Nat) : Nat := bits l 261 10
def lBeta (l : Nat) : Nat := bits l 271 16
def lNsh (l : Nat) : Nat := bits l 287 6
def lNmul (l : Nat) : Nat := bits l 293 16
def lRule (l : Nat) : Nat := bits l 320 4
def lHset (l : Nat) : Nat := bits l 324 4
def lDncon (l : Nat) : Nat := bits l 328 16
def lStaleMax (l : Nat) : Nat := bits l 344 8
def lStaleHalt (l : Nat) : Bool := bit l 352
def lGfmtMx (l : Nat) : Bool := bit l 384
def lRsFp32 (l : Nat) : Bool := bit l 385

/-- A layer whose rule takes a direction: KRON or ORTHM. -/
def lDirected (l : Nat) : Bool := lRule l == 6 || lRule l == 7

/-- A layer owned whole (R275). -/
def lWhole (l : Nat) : Bool := bit l 386 || lPriv l || lRule l == 5 || lDirected l

/-! ### Ranks (R272) -/

/-- This module's rank; a module alone, or a group of one whose map names nobody, is its own rank 0 (R26). -/
def State.myRank (s : State) : Option Nat :=
  if s.solo ∨ (s.ranks = 1 ∧ s.memberAt s.mapBank 0 = none) then some 0 else s.rankOf s.myX s.myY

/-- The rank used for its own share; 0 for a module that is not a member (LNK_GRID.RANK). -/
def State.rank (s : State) : Nat := s.myRank.getD 0

/-- UPD_MODE: SHARDED. -/
def State.sharded (s : State) : Bool := s.hf .UPD_MODE 0 0 1 = 1

/-! ### The owner map (R275) -/

/-- A run of whole rows of a layer, and the rank that owns it. -/
structure RowRun where
  rank : Nat
  row0 : Nat
  rows : Nat
  deriving DecidableEq, Repr

/-- The owner map over the layers trained now: split layers, and whole ones numbered in table order. -/
def ownerMap (ls : List (Nat × Nat)) : List (Nat × Option Nat) :=
  ((ls.filter fun e => lTrained e.2).foldl (fun (a : List (Nat × Option Nat) × Nat) e =>
    if lWhole e.2 then (a.1 ++ [(e.1, some a.2)], a.2 + 1) else (a.1 ++ [(e.1, none)], a.2)) ([], 0)).1

/-- The runs of a layer of `nin` rows over `r` ranks; an empty run has no shard. -/
def rowRuns (own : Option Nat) (nin r : Nat) : List RowRun :=
  match own with
  | some w => [⟨w % r, 0, nin⟩]
  | none => ((List.range r).map fun j => ⟨j, j * nin / r, (j + 1) * nin / r - j * nin / r⟩).filter fun x => decide (0 < x.rows)

/-- The runs of layer `i` under the map in force; a layer the map does not name has none. -/
def State.runsOf (s : State) (i : Nat) : List RowRun :=
  match (s.coll.owners ++ s.coll.extra).find? fun e => e.1 == i with
  | some e => rowRuns e.2 (lNin (s.layer i)) (max s.ranks 1)
  | none => []

/-- The owner of a whole layer. -/
def State.wholeOwner (s : State) (i : Nat) : Option Nat := ((s.runsOf i).find? fun r => r.row0 == 0).map (·.rank)

/-! ### Shard records (R242, R243) -/

def pad4k (n : Nat) : Nat := (n + 4095) / 4096 * 4096

/-- Elements of the state arrays S0 and S1 of a rule. -/
def stateSizes (rule rows nout : Nat) : Nat × Nat :=
  match rule with
  | 0 => (0, 0)
  | 3 => (rows * nout, rows * nout)
  | 5 => (rows, nout)
  | _ => (rows * nout, 0)

/-- The bytes of a record: each bank of each array is padded to 4 KiB. -/
def recSize (rule rows nout : Nat) : Nat :=
  4096 + 2 * pad4k (4 * rows * nout) + 2 * pad4k (4 * (stateSizes rule rows nout).1) + 2 * pad4k (4 * (stateSizes rule rows nout).2)

/-- Where array `k` (0 master, 1 S0, 2 S1) of bank `b` lies in a record at `a`. (DEDUCED: log 44) -/
def recArray (a rule rows nout k b : Nat) : Nat :=
  let m := pad4k (4 * rows * nout)
  let s0 := pad4k (4 * (stateSizes rule rows nout).1)
  let s1 := pad4k (4 * (stateSizes rule rows nout).2)
  match k with
  | 0 => a + 4096 + b * m
  | 1 => a + 4096 + 2 * m + b * s0
  | _ => a + 4096 + 2 * m + 2 * s0 + b * s1

def State.recSstep (s : State) (a : Nat) : Nat := s.rdN a 8
def State.recCur (s : State) (a : Nat) : Nat := s.rdN (a + 8) 1 % 2
def State.recMstep (s : State) (a : Nat) : Nat := s.rdN (a + 0x20) 8
def State.recWstep (s : State) (a : Nat) : Nat := s.rdN (a + 0x40) 8
def State.recRows (s : State) (a : Nat) : Nat := s.rdN (a + 0x64) 4
def State.recRow0 (s : State) (a : Nat) : Nat := s.rdN (a + 0x68) 4
def State.recDdpa (s : State) (a : Nat) : Nat := s.rdN (a + 0x70) 6

/-! ### The shard table (R241, R275) -/

/-- Entries of the shard table: record DPA and layer. -/
def State.shard (s : State) (i : Nat) : Nat × Nat :=
  let e := s.rdN (4096 * s.hf .UPD_STBASE 0 0 27 + 16 * i) 16
  (bits e 0 48, bits e 48 12)

def State.shardCount (s : State) : Nat := s.hf .UPD_STCNT 0 0 16
def State.shards (s : State) : List (Nat × Nat) := (List.range s.shardCount).map s.shard

/-- The shards this module holds under an owner map: layer and run, in table order. -/
def heldRuns (ls : List (Nat × Nat)) (own : List (Nat × Option Nat)) (sharded : Bool) (r me : Nat) : List (Nat × RowRun) :=
  (own.map fun o =>
    let l := Sparse.get (fun _ => 0) ls o.1
    ((rowRuns o.2 (lNin l) r).filter fun x => !sharded || x.rank == me).map fun x => (o.1, x)).flatten

/-- Where consecutive records lie from an area: DPA, layer, run. -/
def layRecords (ls : List (Nat × Nat)) (area : Nat) (rs : List (Nat × RowRun)) : List (Nat × Nat × RowRun) :=
  (rs.foldl (fun (a : List (Nat × Nat × RowRun) × Nat) e =>
    let l := Sparse.get (fun _ => 0) ls e.1
    (a.1 ++ [(a.2, e.1, e.2)], a.2 + recSize (lRule l) e.2.rows (lNout l))) ([], area)).1

/-- Write the shard table (by the Shed). -/
def State.putShards (s : State) (rs : List (Nat × Nat × RowRun)) : State :=
  let base := 4096 * s.hf .UPD_STBASE 0 0 27
  let t := rs.zipIdx.foldl (fun (t : State) e => t.wrS (base + 16 * e.2) (toLe 16 (e.1.1 + e.1.2.1 * 2 ^ 48))) s
  t.setH .UPD_STCNT 0 (min rs.length 65535)

/-- The records a record area would hold on this module, under the layer table and grid in force. -/
def State.planRecords (s : State) (area : Nat) : List (Nat × Nat × RowRun) :=
  layRecords s.layers area (heldRuns s.layers (ownerMap s.layers) s.sharded (max s.ranks 1) s.rank)

/-- Take the owner map and write the shard table from a record area. -/
def State.buildShards (s : State) (area : Nat) : State :=
  { s.putShards (s.planRecords area) with coll := { s.coll with owners := ownerMap s.layers } }

/-! ### The working copy (R189, R281) -/

/-- Narrow FP32 codes of one row, from its first element, into the layer's gather format: codes and scale bytes. -/
def narrowRow (mx : Bool) (xs : List Nat) : List (Nat × Nat) :=
  if mx then
    let n := (xs.length + 31) / 32
    ((List.range n).map fun b =>
      let blk := ((xs.drop (32 * b)).take 32).map fp32.decode
      let sc := mxScale e4m3 blk
      blk.map fun x => (if sc.2.2 then 0 else (mxElem e4m3 .rne sc.1 x).1, sc.1)).flatten
  else xs.map fun x => ((convert fp32 bf16 .rne x).1, 0)

/-- Narrow whole rows. -/
def narrowRows (mx : Bool) (nout : Nat) (xs : List Nat) : List (Nat × Nat) :=
  if nout = 0 then []
  else ((List.range (xs.length / nout)).map fun r => narrowRow mx ((xs.drop (r * nout)).take nout)).flatten

/-- Widen one element of the gather format to BF16. -/
def widenElem (mx : Bool) (c : Nat × Nat) : Nat :=
  if mx then
    if c.2 = 255 then bf16.canNan else (convert fp32 bf16 .rne (mxToFp32 e4m3 c.2 c.1).1).1
  else c.1

/-- The address of element `(r, c)` in a layer's transposed copy (R189). -/
def xposeAddr (l r c : Nat) : Nat :=
  lXbase l + 4096 * (r / 16 * ((lNout l + 127) / 128) + c / 128) + 2 * (128 * (r % 16) + c % 128)

/-- Write element `e` of a layer's working copy, and of its transposed copy (R189). -/
def State.putWeight (s : State) (l e code : Nat) : State :=
  let t := s.wrS (lWbase l + 2 * e) (toLe 2 code)
  if lXpose l ∧ 0 < lNout l then t.wrS (xposeAddr l (e / lNout l) (e % lNout l)) (toLe 2 code) else t

/-- Write a run of a layer's working copy from element `e`. -/
def State.putWeights (s : State) (l e : Nat) (codes : List Nat) : State :=
  codes.zipIdx.foldl (fun (t : State) c => t.putWeight l (e + c.2) c.1) s

/-- Zero the positions of a layer's transposed copy that lie beyond NIN or NOUT (R189). -/
def State.padXpose (s : State) (l : Nat) : State :=
  if lXpose l then
    let rs := (lNin l + 15) / 16 * 16
    let cs := (lNout l + 127) / 128 * 128
    let t := (List.range (lNin l)).foldl (fun (t : State) r =>
      (List.range (cs - lNout l)).foldl (fun (t : State) c => t.wrS (xposeAddr l r (lNout l + c)) [0, 0]) t) s
    (List.range (rs - lNin l)).foldl (fun (t : State) r =>
      (List.range cs).foldl (fun (t : State) c => t.wrS (xposeAddr l (lNin l + r) c) [0, 0]) t) t
  else s

/-- FP32 words from memory. -/
def State.floats (s : State) (a n : Nat) : List Nat := (List.range n).map fun i => s.rdN (a + 4 * i) 4

/-- Write FP32 words. -/
def State.putFloats (s : State) (a : Nat) (xs : List Nat) : State := s.wrS a (xs.map (toLe 4)).flatten

/-- What memory holds becomes undefined: `n` free bytes. (DESIGN CHOICE: log 11) -/
def State.scramble (s : State) (a n : Nat) : State :=
  let bs := (List.range n).map fun i => BitVec.ofNat 8 (Config.fresh (s.fresh + i))
  { s.wr a bs with fresh := s.fresh + n }

/-- What the memory a test names holds becomes undefined. -/
def State.forget (s : State) (p : Nat → Bool) : State :=
  let new := ((Config.openMap s.fresh).filter fun e : Nat × Nat => p e.1).foldl (fun (m : Mem) e => mset m e.1 (BitVec.ofNat 8 e.2))
    (s.mem.filter fun e : Nat × Byte => !p e.1)
  { s with mem := new, flaws := s.flaws.filter (fun e : Nat × Option Flaw => !p (8 * e.1)), fresh := s.fresh + 1 }

/-- HBM's contents become undefined. -/
def State.forgetHbm (s : State) : State := s.forget fun a => decide (a < 0x008000000000)

end Sys2Proof.Machine
end

