-- ==== Sys2Proof/Machine/FactorTab.lean ====
section
/-! DEFINITION. The factor table (R201, R238), factor blocks and their buffers (R55, R202, R203), and root buffers (R238, R239). -/

namespace Sys2Proof.Machine

/-! ### Entries -/

def State.factor (s : State) (i : Nat) : Nat := Sparse.get (fun _ => emptyFactor) s.factors i
def State.setFactor (s : State) (i v : Nat) : State := { s with factors := Sparse.set (fun _ => emptyFactor) s.factors i v }

/-- FAC, STAT and ROOT base of a side: 0 L, 1 Rt. -/
def fFac (f side : Nat) : Nat := bits f (48 * side) 48
def fStat (f side : Nat) : Nat := bits f (96 + 48 * side) 48
def fPver (f : Nat) : Nat := bits f 192 64
def fRoot (f side : Nat) : Nat := bits f (256 + 48 * side) 48
def fPub (f side blk : Nat) : Nat := bits f (352 + 8 * side + blk) 1
def fStale (f side : Nat) : Nat := bits f (368 + 8 * side) 8
def fRver (f : Nat) : Nat := bits f 384 64

/-- PVER of an entry that holds nothing. -/
def pverEmpty : Nat := 2 ^ 64 - 1

/-- Change one field of an entry. -/
def State.setFactorField (s : State) (i lo w v : Nat) : State := s.setFactor i (putBits (s.factor i) lo w v)

/-- The privileged layer of a factor-table index: table index and entry. -/
def State.privLayer (s : State) (fidx : Nat) : Option (Nat × Nat) :=
  s.layers.find? fun e => lValid e.2 && lPriv e.2 && lFidx e.2 == fidx

/-- The dimension of a side's factor: NOUT for L, NIN for Rt (R202). -/
def sideDim (l side : Nat) : Nat := if side = 0 then lNout l else lNin l

/-- The block dimensions of a factor of dimension `d` (R202). -/
def blockDims (d : Nat) : List Nat :=
  if d ≤ 8192 then [d]
  else
    let nb := (d + 8191) / 8192
    let bs := 64 * ((d + 64 * nb - 1) / (64 * nb))
    List.replicate (nb - 1) bs ++ [d - (nb - 1) * bs]

def padTo (n m : Nat) : Nat := (n + m - 1) / m * m
def tilesOf (n : Nat) : Nat := (n + 63) / 64

/-- Bytes of a block's WQ48 matrix and of its exponent array. -/
def matBytes (n : Nat) : Nat := 32768 * (tilesOf n * tilesOf n)
def expBytes (n : Nat) : Nat := 2 * (tilesOf n * tilesOf n)

def sumNat (l : List Nat) : Nat := l.foldl (· + ·) 0

/-- The size of a factor buffer, and where block `b`'s matrix and exponents lie in it (R203). -/
def facSize (ds : List Nat) : Nat := sumNat (ds.map matBytes) + sumNat (ds.map fun n => padTo (expBytes n) 32)
def facMat (ds : List Nat) (b : Nat) : Nat := sumNat ((ds.take b).map matBytes)
def facExp (ds : List Nat) (b : Nat) : Nat := sumNat (ds.map matBytes) + sumNat ((ds.take b).map fun n => padTo (expBytes n) 32)

/-- The size of a statistic buffer, and where block `b` lies in it. -/
def statBytes (n : Nat) : Nat := 4 * (64 * tilesOf n) * (64 * tilesOf n)
def statSize (ds : List Nat) : Nat := sumNat (ds.map statBytes)
def statMat (ds : List Nat) (b : Nat) : Nat := sumNat ((ds.take b).map statBytes)

/-- The size of a block of a root buffer, of the whole buffer, and where block `b` lies in it (R238). -/
def rootBlock (n : Nat) : Nat := 64 + matBytes n + padTo (expBytes n) 64
def rootSize (ds : List Nat) : Nat := sumNat (ds.map rootBlock)
def rootAt (ds : List Nat) (b : Nat) : Nat := sumNat ((ds.take b).map rootBlock)

/-! ### Tiles -/

/-- Tile `t` of a matrix: 4,096 fractions, row-major, and its exponent. -/
def State.readTile (s : State) (mat exps t : Nat) : List Int × Int :=
  ((List.range 4096).map fun i => wqRead (s.rdN (mat + 32768 * t + 8 * i) 8), signed 16 (s.rdN (exps + 2 * t) 2))

def State.writeTile (s : State) (mat exps t : Nat) (v : List Int) (e : Int) : State :=
  (s.wrS (mat + 32768 * t) (v.map fun x => toLe 8 (wqContainer x)).flatten).wrS (exps + 2 * t) (toLe 2 (unsigned 16 e))

/-- Transpose a tile. -/
def flipTile (v : List Int) : List Int := (List.range 4096).map fun i => v.getD (i % 64 * 64 + i / 64) 0

/-- Read an `n × c` WQ48 matrix and re-express it at its largest exponent (R220). -/
def State.readWq (s : State) (mat exps n c : Nat) : Mat :=
  let tc := tilesOf c
  let es := (List.range (tilesOf n * tc)).map fun t => signed 16 (s.rdN (exps + 2 * t) 2)
  let e := es.foldl max (-32768)
  ⟨(List.range n).map fun i => (List.range c).map fun j =>
    let t := i / 64 * tc + j / 64
    rneShift (wqRead (s.rdN (mat + 32768 * t + 8 * (i % 64 * 64 + j % 64)) 8)) (e - es.getD t 0), e⟩

/-- Write a matrix in tiles, padding zero. -/
def State.writeWq (s : State) (mat exps : Nat) (m : Mat) (n c : Nat) : State :=
  let tc := tilesOf c
  (List.range (tilesOf n * tc)).foldl (fun (t : State) k =>
    t.writeTile mat exps k ((List.range 4096).map fun i => m.cell (k / tc * 64 + i / 64) (k % tc * 64 + i % 64)) m.e) s

/-- The range of a factor block of a side's buffer: matrix and exponents. -/
def State.facBlock (s : State) (fidx side buf blk l : Nat) : Nat × Nat :=
  let ds := blockDims (sideDim l side)
  let base := fFac (s.factor fidx) side + buf * facSize ds
  (base + facMat ds blk, base + facExp ds blk)

/-- The published factor buffer. -/
def State.pubBuf (s : State) : Nat := s.hf .STEP_STATSTS 0 4 1

/-- Where a root block lies in a buffer. -/
def State.rootAddr (s : State) (fidx side buf blk l : Nat) : Nat :=
  let ds := blockDims (sideDim l side)
  fRoot (s.factor fidx) side + buf * rootSize ds + rootAt ds blk

end Sys2Proof.Machine
end

