-- ==== Sys2Proof/Machine/Memory.lean ====
section
/-! DEFINITION. Memory traffic and its errors (R151, R154-R156, R163-R172, R342-R344): reads, writes, responses, QUIESCED, write-backs,
patrol scrub and row repair. -/

namespace Sys2Proof.Machine

/-! ### HBM errors -/

/-- Ticks of 4 ns in 24 hours. -/
def dayTicks : Nat := 21600000000000

/-- The HBM stack of a DPA. -/
def State.stackOf (s : State) (a : Nat) : Nat := hbmStack s.interleaved a

/-- A row of a stack, as one number. (DESIGN CHOICE: log 68) -/
def rowKey (stack unit : Nat) : Nat := 16 * Config.hbmRow unit + stack

/-- Whether a row's window is open and still within 24 h (R342). -/
def RowTrack.live (t : RowTrack) (now : Nat) : Bool := decide (now < t.due)

/-- Charge one corrected error to a tracker: 64 rows, the oldest first error replaced (R344). -/
def trackRow (l : List RowTrack) (row now : Nat) : List RowTrack :=
  if l.any fun t => t.row == row && t.live now then
    l.map fun t => if t.row = row then { t with count := t.count + 1 } else t
  else
    let l := l.filter fun t => t.row != row
    let l := if l.length < 64 then l
      else
        let oldest := l.foldl (fun m t => min m t.due) (now + dayTicks)
        l.eraseIdx (l.findIdx fun t => t.due == oldest)
    l ++ [⟨row, now + dayTicks, 1⟩]

def State.tracker (s : State) (k : Nat) : List RowTrack := Sparse.get (fun _ => []) s.rel.rows k
def State.setTracker (s : State) (k : Nat) (l : List RowTrack) : State :=
  { s with rel := { s.rel with rows := Sparse.set (fun _ => []) s.rel.rows k l } }

/-- Queue a row for repair, once. -/
def State.queueRow (s : State) (row : Nat) : State :=
  if s.rel.repairQ.contains row then s else { s with rel := { s.rel with repairQ := s.rel.repairQ ++ [row] } }

/-- A corrected HBM error in a unit (R169, R342). -/
def State.hbmCe (s : State) (unit : Nat) : State :=
  let k := s.stackOf (32 * unit)
  let row := rowKey k unit
  let s := s.satH .TRL_HBMSTAT k 0 16 1
  let l := trackRow (s.tracker k) row s.sundial
  if l.any fun t => t.row == row && decide (16 ≤ t.count) then
    (s.setTracker k (l.filter fun t => t.row != row)).queueRow row
  else s.setTracker k l

/-- Log an uncorrectable HBM unit (R170 step 2). -/
def State.hbmUe (s : State) (unit : Nat) : State :=
  let k := s.stackOf (32 * unit)
  let s := s.setHf .TRL_HBMSTAT k 16 1 1
  if s.hf .TRL_HBMUEHI k 31 1 = 0 then
    (s.setH .TRL_HBMUELO k (unit * 32 % 2 ^ 32)).setH .TRL_HBMUEHI k (unit / 2 ^ 27 % 2 ^ 7 + 2 ^ 31)
  else s

/-- The re-read of a unit was uncorrectable too (R170 step 4): PERSIST if the log holds the unit, HBM_DATA_LOSS, and the row queued. -/
def State.hbmLoss (s : State) (unit : Nat) : State :=
  let k := s.stackOf (32 * unit)
  let logged := s.hf .TRL_HBMUEHI k 31 1 = 1 ∧ s.h .TRL_HBMUELO k + 2 ^ 32 * s.hf .TRL_HBMUEHI k 0 7 = 32 * unit
  let s := if logged then s.setHf .TRL_HBMUEHI k 7 1 1 else s
  (s.event St.HBM_DATA_LOSS 4 k unit).queueRow (rowKey k unit)

/-- The bytes of a unit, as a mask changes them. -/
def maskUnit (data : List Byte) (off mask : Nat) : List Byte :=
  data.mapIdx fun i b => if off ≤ i ∧ i < off + 32 then b ^^^ BitVec.ofNat 8 (mask / 256 ^ (i - off)) else b

/-- Strike one unit of stored HBM. -/
def strikeUnit (m : Mem) (u mask : Nat) : Mem := msets m (32 * u) (maskUnit (mgets m (32 * u) 32) 0 mask)

/-- An error that a read met in a unit (R169, R170): counted, or logged and its notice sent. An uncorrectable one changes the bits read;
one whose re-read shows it still changes the stored bits as well. -/
def State.hbmMeets (s : State) (e : HbmErr) : State :=
  match e with
  | .corrected u => s.hbmCe u
  | .uncorrectable u mask persist =>
    let k := s.stackOf (32 * u)
    let t := (s.hbmUe u).notice (.hbm k) St.HBM_UNCORRECTABLE k 0
    { t with mem := strikeUnit t.mem u mask, rel := { t.rel with ues := t.rel.ues ++ [(k, u, persist)] } }

/-- Give a transient error's unit its stored bits back where nothing has been written over those the read returned. -/
def healUnit (bad now : Mem) (u mask : Nat) : Mem :=
  msets now (32 * u) ((List.range 32).map fun i =>
    if mget now (32 * u + i) = mget bad (32 * u + i) then mget now (32 * u + i) ^^^ BitVec.ofNat 8 (mask / 256 ^ i) else mget now (32 * u + i))

/-- Heal every transient error of a list. -/
def healUnits (es : List HbmErr) (bad now : Mem) : Mem :=
  es.foldl (fun m e => match e with | .uncorrectable u mask false => healUnit bad m u mask | _ => m) now

/-- Run a command whose reads of HBM meet errors (R169, R170). (DEDUCED: log 12) -/
def State.hbmRun (s : State) (es : List HbmErr) (go : State → Out) : Out :=
  if es.isEmpty then go s
  else
    let t := es.foldl State.hbmMeets s
    match go t with
    | .next u => .next { u with mem := healUnits es t.mem u.mem }
    | o => o

/-- An error lies inside `[a, a + n)`. -/
def HbmErr.inside (a n : Nat) (e : HbmErr) : Bool :=
  let u := match e with | .corrected u => u | .uncorrectable u _ _ => u
  decide (a ≤ 32 * u) && decide (32 * u + 32 ≤ a + n)

/-- What a read of `[a, a + n)` of HBM returns, with the effects of the errors it meets. (DEDUCED: log 12) -/
def State.readHbm (s : State) (a n : Nat) (es : List HbmErr) : List Byte × State :=
  let es := es.filter (HbmErr.inside a n)
  let t := es.foldl State.hbmMeets s
  (t.rd a n, { t with mem := healUnits es t.mem t.mem })

/-- A read of mapped memory by DPA with its ECC outcomes. -/
def State.readPlaceAt (s : State) (a n : Nat) (es : List HbmErr) : List Byte × State :=
  match placeOf a with
  | .hbm _ => s.readHbm a n es
  | .store ci _ => s.storeRead ci a n
  | .localMem gi _ => s.extRead gi a n
  | _ => (List.replicate n 0#8, s)

/-- A read by DPA; the unmapped addresses of a range read zeros (R163). -/
def State.readAt (s : State) (a n : Nat) (es : List HbmErr) : List Byte × State :=
  if memRange a n then s.readPlaceAt a n es
  else
    (segments a n).foldl (fun (r : List Byte × State) g =>
      if g.2.2 then
        let d := r.2.readPlaceAt g.1 g.2.1 es
        (r.1 ++ d.1, d.2)
      else (r.1 ++ List.replicate g.2.1 0#8, r.2)) ([], s)

/-! ### Memory packets -/

/-- MRD (R151): the request at place `n` is served and answered with one MRSP of the same tag. -/
def execMrd (n : Nat) (ups : List Upset) (hbm : List HbmErr) (flits : List FlitErr) (s : State) : Out :=
  match s.takePacket n with
  | none => .next s
  | some (p, t) =>
    match p.body with
    | .mrd addr k tag =>
      let r := t.flits p flits
      if r.2 then .next r.1
      else
        let d := (r.1.strikes ups).readAt addr (32 * k) hbm
        .next (d.2.inject p.dst p.src .tc2r (.mrsp tag d.1))
    | _ => .next s

/-- The transfer at the head of the queue, when it is of operation `op` and its packet is on its way. -/
def Core.awaiting (c : Core) (op : Nat) : Option Run :=
  match c.tq with
  | r :: _ => if dOp r.desc = op ∧ r.wait ∧ r.done = false then some r else none
  | [] => none

/-- The next iteration of a core's transfer, once its packet has been served. -/
def State.served (s : State) (gi op : Nat) : State :=
  match (s.core gi).awaiting op with
  | some r => s.modCore gi fun c => c.setTq r.advance
  | none => s

/-- MWR (R151): the write at place `n` reaches its endpoint, and the STORE it came from goes on. Writes to the notice registers have
rows of their own. -/
def execMwr (n : Nat) (flits : List FlitErr) (s : State) : Out :=
  match s.takePacket n with
  | none => .next s
  | some (p, t) =>
    match p.body with
    | .mwr addr data =>
      if addr = 0x030000000000 + Reg.offset .STEP_GDONE 0 ∨ addr = 0x030000000000 + Reg.offset .UPD_DDONE 0 then .next s
      else
        let r := t.flits p flits
        let u := if r.2 then r.1 else r.1.wrS addr (s.flipped p flits data)
        .next (match p.src with
          | .core gi => u.served gi opStore
          | _ => u)
    | _ => .next s

/-- MRSP (R151): the response at place `n` lands in its requester's local memory; one that no request awaits is discarded (R386). -/
def execMrsp (n : Nat) (flits : List FlitErr) (s : State) : Out :=
  match s.takePacket n with
  | none => .next s
  | some (p, t) =>
    match p.body, p.dst with
    | .mrsp _ data, .core gi =>
      let r := t.flits p flits
      if r.2 then .next r.1
      else
        match (r.1.core gi).awaiting opLoad with
        | some run => .next ((r.1.wr (localBase gi + run.localAt 1) (s.flipped p flits data)).served gi opLoad)
        | none => .next r.1
    | .mrsp _ _, _ => .next t
    | _, _ => .next s

/-! ### QUIESCE at the hub -/

/-- QUIESCED (R155, R156): every contributor has reported; the hub has the combined report. -/
def execQuiesced (s : State) : Out :=
  match s.quiesce with
  | none => .next s
  | some q =>
    if q.done = false ∧ s.allQuiesced ∧ s.trellisEmpty then
      let t := { s with quiesce := some { q with done := true } }
      .next ((t.sampleUs 62 (t.sundial - q.start)).endOp 0xD011 St.OK)
    else .next s

/-- QUIESCE_TIMEOUT (R156): TRL_QCFG.TIMEOUT microseconds (250 ticks each) have passed without QUIESCED. -/
def execQuiesceTimeout (s : State) : Out :=
  match s.quiesce with
  | none => .next s
  | some q =>
    if q.done = false ∧ q.late = false ∧ q.start + 250 * s.hf .TRL_QCFG 0 0 16 ≤ s.sundial then
      let t := { s with quiesce := some { q with late := true } }
      .next ((t.event St.QUIESCE_TIMEOUT 0 0 q.id).endOp 0xD011 St.QUIESCE_TIMEOUT)
    else .next s

/-! ### Write-backs, scrub and repair -/

/-- CSTORE_ECC_WRITEBACK (R168): the oldest pending word of a cluster's store is written back corrected. -/
def execCstoreEccWriteback (ci : Nat) (s : State) : Out :=
  let c := s.cluster ci
  match c.wb with
  | w :: rest => let r := writeBack s.mem s.flaws w; .next { s.setCluster ci { c with wb := rest } with mem := r.1, flaws := r.2 }
  | [] => .next s

/-- ROW_REPAIR (R172, R344): the row at the front of the repair queue is repaired into a spare row of its bank, or its bank has none
left. -/
def execRowRepair (spare : Bool) (s : State) : Out :=
  match s.rel.repairQ with
  | [] => .next s
  | row :: rest =>
    let k := row % 16
    let s := { s with rel := { s.rel with repairQ := rest } }
    if spare then
      let n := Sparse.get (fun _ => 0) s.rel.repairs k
      let t := { s with rel := { s.rel with repairs := Sparse.set (fun _ => 0) s.rel.repairs k (n + 1), fixed := s.rel.fixed ++ [row] } }
      .next ((t.satH .TRL_HBMSTAT k 18 8 1).event St.ROW_REPAIRED 4 k row)
    else
      let t := { s with rel := { s.rel with noSpare := s.rel.noSpare ++ [row] } }
      .next ((t.setHf .TRL_HBMSTAT k 17 1 1).event St.HBM_REPAIR_EXHAUSTED 4 k row)

/-- HBM_PATROL_SCRUB (R350): one unit is read; `last` says it ends a pass of every stack. -/
def execHbmPatrolScrub (unit : Nat) (e : Option HbmErr) (last : Bool) (s : State) : Out :=
  if s.hf .TRL_SCRUB 0 8 1 = 0 ∨ 0x400000000 ≤ unit then .next s
  else
    let t := match e with
      | none => s
      | some (.corrected _) => s.hbmCe unit
      | some (.uncorrectable _ mask persist) =>
        let u := (s.hbmUe unit).event St.HBM_UNCORRECTABLE 4 (s.stackOf (32 * unit)) unit
        if persist then { u with mem := strikeUnit u.mem unit mask }.hbmLoss unit else u
    .next (if last then t.satH .TRL_SCRUB 0 16 16 1 else t)

/-- MRAM_PATROL_SCRUB (R350, R371): the record at a ring slot is read. A correctable word is rewritten; `bad` is what an
uncorrectable record now holds. -/
def execMramPatrolScrub (slot rec : Nat) (bad : Option (List Byte)) (s : State) : Out :=
  match bad with
  | none => .next s
  | some bs =>
    if 128 ≤ rec ∨ recordOk bs ∨ bs.length ≠ 64 then .next s
    else
      let old := s.gauge.slot (slot % 8192)
      let img := old.take (64 * rec) ++ bs ++ old.drop (64 * rec + 64)
      let g := if old.length = 8192 then s.gauge.setSlot (slot % 8192) img else s.gauge
      .next ({ s with gauge := g }.event St.RECORD_CRC 0 0 (128 * (slot % 8192) + rec))

/-- ROW_ERROR_WINDOW_EXPIRE (R342): a tracked row of stack `k` whose 24 h have run out is dropped. (DEDUCED: log 69) -/
def execRowErrorWindowExpire (k row : Nat) (s : State) : Out :=
  .next (s.setTracker k ((s.tracker k).filter fun t => !(t.row == row && !t.live s.sundial)))

end Sys2Proof.Machine
end

