-- ==== Sys2Proof/Machine/Grafter.lean ====
section
/-! DEFINITION. The Grafter (R213-R239): submission, starts and checks, iterations, stops, completion records and the vote. -/

namespace Sys2Proof.Machine

/-! ### Job descriptors (R216) -/

def gType (d : Nat) : Nat := bits d 0 4
def gSlot (d : Nat) : Nat := bits d 4 2
def gPcode (d : Nat) : Nat := bits d 6 2
def gP (d : Nat) : Nat := 2 ^ gPcode d
def gWarm (d : Nat) : Bool := bit d 8
def gVote (d : Nat) : Bool := bit d 9
def gOutfmt (d : Nat) : Nat := bits d 10 2
def gTgt (d : Nat) : Bool := bit d 12
def gSide (d : Nat) : Nat := bits d 13 1
def gBlk (d : Nat) : Nat := bits d 14 3
def gFidx (d : Nat) : Nat := bits d 17 10
def gDexp (d : Nat) : Nat := bits d 27 5
def gN (d : Nat) : Nat := bits d 32 14
def gNc (d : Nat) : Nat := bits d 46 14
def gTrans (d : Nat) : Bool := bit d 60
def gMaxit (d : Nat) : Nat := if bits d 64 6 = 0 then 24 else bits d 64 6
def gTole (d : Nat) : Nat := bits d 70 8
def gAtole (d : Nat) : Nat := bits d 78 8
def gPfe (d : Nat) : Nat := bits d 86 8
def gAdpa (d : Nat) : Nat := bits d 128 48
def gAfmt (d : Nat) : Nat := bits d 176 4
def gBdpa (d : Nat) : Nat := bits d 192 48
def gXdpa (d : Nat) : Nat := bits d 256 48
def gSdpa (d : Nat) : Nat := bits d 320 48
def gSsize (d : Nat) : Nat := bits d 384 32
def gTag (d : Nat) : Nat := bits d 416 32
def gDeadline (d : Nat) : Nat := bits d 448 64
def gVstep (d : Nat) : Nat := bits d 512 64
def gCdpa (d : Nat) : Nat := bits d 576 48

def gRoot : Nat := 1
def gOrth : Nat := 2
def gChol : Nat := 3
def gTrsv : Nat := 4
def gCg : Nat := 5

/-- Reserved bits of the descriptor are zero. -/
def gReserved (d : Nat) : Bool :=
  bits d 61 3 == 0 && bits d 94 34 == 0 && bits d 180 12 == 0 && bits d 240 16 == 0 && bits d 304 16 == 0 && bits d 368 16 == 0
    && bits d 624 400 == 0

/-- Scratch minimum in bytes (R217). -/
def gScratch (d : Nat) : Nat :=
  let np := padTo (gN d) 64
  let cp := padTo (gNc d) 64
  match gType d with
  | 1 => 6 * np * np * 8
  | 2 => (3 * np * cp + 2 * min np cp * min np cp) * 8
  | 3 => 2 * np * np * 8
  | 4 => (np * np + 2 * np * 16) * 8
  | _ => (np * np + 6 * np * 16) * 8

/-- The rules of R216-R218 and R230 that a descriptor keeps by itself. -/
def gFieldsOk (d : Nat) : Bool :=
  let ty := gType d
  gReserved d && decide (1 ≤ ty) && decide (ty ≤ 5) && gOutfmt d != 3
    && decide (1 ≤ gN d) && decide (gN d ≤ 8192)
    && (if ty = gOrth then decide (1 ≤ gNc d) && decide (gNc d ≤ 8192)
        else if ty = gTrsv ∨ ty = gCg then decide (1 ≤ gNc d) && decide (gNc d ≤ 16) else gNc d == 0)
    && (if ty = gRoot ∨ ty = gChol then (!gVote d || gTgt d) && (!gTgt d || gOutfmt d == 0) else !gVote d && !gTgt d)
    && (if ty = gOrth then gOutfmt d == 1 || gOutfmt d == 2 else if ty = gTrsv ∨ ty = gCg then gOutfmt d == 1 else true)
    && (gTgt d || gAfmt d == 1 || gAfmt d == 11)
    && !(gWarm d && (ty == gOrth || ty == gTrsv || (ty == gRoot && !gTgt d)))
    && decide (gAtole d ≤ gTole d) && (gVote d || gDeadline d == 2 ^ 64 - 1)
    && decide (gScratch d ≤ gSsize d * 2 ^ 20)

/-! ### Regions (R213, R214) -/

/-- Whether a die-local cluster lies in a region. -/
def rgnHas (r x y : Nat) : Bool :=
  bit r 21 && decide (bits r 0 5 ≤ x) && decide (x < bits r 0 5 + bits r 10 6) && decide (bits r 5 5 ≤ y)
    && decide (y < bits r 5 5 + bits r 16 5)

/-- The die-local coordinate of a cluster. -/
def dieXY (ci : Nat) : Nat × Nat := (ci % 128 % 32, ci / 128 % 20)

/-- The clusters of a region of Grafter `k`. -/
def rgnClusters (k r : Nat) : List Nat :=
  if bit r 21 then
    ((List.range (bits r 16 5)).map fun y => (List.range (bits r 10 6)).map fun x =>
      32 * (k % 4) + bits r 0 5 + x + 128 * (20 * (k / 4) + bits r 5 5 + y)).flatten
  else []

/-- The slot whose region in force holds a cluster. -/
def State.regionSlot (s : State) (ci : Nat) : Option Nat :=
  let g := s.grafter (dieOf ci)
  let c := dieXY ci
  (List.range 4).find? fun i => rgnHas (g.rgn.getD i 0) c.1 c.2

def State.inRegion (s : State) (ci : Nat) : Bool := (s.regionSlot ci).isSome

/-- Two rectangles of a die share a cluster. -/
def rgnOverlap (a b : Nat) : Bool :=
  bit a 21 && bit b 21 && decide (bits a 0 5 < bits b 0 5 + bits b 10 6) && decide (bits b 0 5 < bits a 0 5 + bits a 10 6)
    && decide (bits a 5 5 < bits b 5 5 + bits b 16 5) && decide (bits b 5 5 < bits a 5 5 + bits a 16 5)

/-- A region that R214 lets be written: inside the die, and, when valid, not empty and clear of the other valid regions. -/
def rgnLegal (r : Nat) (others : List Nat) : Bool :=
  decide (bits r 0 5 + bits r 10 6 ≤ 32) && decide (bits r 5 5 + bits r 16 5 ≤ 20)
    && (!bit r 21 || (decide (1 ≤ bits r 10 6) && decide (1 ≤ bits r 16 5) && !(others.any (rgnOverlap r))))

/-- The regions that slot `i`'s may not overlap: those the other slots request, and those in force for them (R214). -/
def Grafter.otherRgns (g : Grafter) (i : Nat) : List Nat :=
  (((List.range 4).filter (· != i)).map fun j => [rg g.regs .GRF_RGN j, g.rgn.getD j 0]).flatten

/-- GRF_RGN_APPLY (R214): at a boundary every slot that holds no job takes its written region. -/
def Grafter.applyRgn (g : Grafter) : Grafter :=
  let rgn := (List.range 4).map fun i => if (g.slots.getD i none).isNone then rg g.regs .GRF_RGN i % 2 ^ 22 else g.rgn.getD i 0
  { g with rgn := rgn }

/-! ### Submission (R215) -/

/-- The window of Grafter `k` that an agent writes: a CSP has its own die's only. -/
def grfReach (who : Agent) (k : Nat) : Bool :=
  decide (k < 8) && match who with
    | .csp ci => decide (ci < nClusters) && dieOf ci == k
    | _ => true

/-- A writer that a write of GRF_SUBHI stalls writes nothing more until a place frees; the host's later accesses are held with it (R215). -/
def State.subStalled (s : State) (who : Agent) : Bool := s.grafters.any fun g => g.stalled.any fun j => j.who == who

/-- Stalled submissions enter the queue as places free, in the order they were made (R215). -/
def Grafter.letIn (g : Grafter) : Grafter :=
  let n := 16 - g.queue.length
  { g with queue := g.queue ++ g.stalled.take n, stalled := g.stalled.drop n }

/-- GRF_SUBLO: latched per agent. -/
def State.subLo (s : State) (who : Agent) (k v : Nat) : State :=
  if grfReach who k = false then s
  else
    let v := v % 2 ^ 32 / 64 * 64
    match who with
    | .csp ci => s.modCluster ci fun c => { c with grfLo := v }
    | .host => s.setGrafter k { s.grafter k with loHost := v }
    | .shed => s.setGrafter k { s.grafter k with loShed := v }

/-- GRF_SUBHI: combine with the agent's latch and queue; the seventeenth waits with its writer. -/
def State.submit (s : State) (who : Agent) (k v : Nat) : State :=
  if grfReach who k = false then s
  else
    let g := s.grafter k
    let lo := match who with
      | .csp ci => (s.cluster ci).grfLo
      | .host => g.loHost
      | .shed => g.loShed
    let j : Submitted := ⟨lo + v % 2 ^ 16 * 2 ^ 32, who⟩
    if g.queue.length < 16 ∧ g.stalled.isEmpty then s.setGrafter k { g with queue := g.queue ++ [j] }
    else s.setGrafter k { g with stalled := g.stalled ++ [j] }

/-- GRF_SUBLO_WRITE (R215). -/
def execGrfSubloWrite (who : Agent) (k v : Nat) (s : State) : Out := .next (if s.subStalled who then s else s.subLo who k v)

/-- GRF_SUBMIT (R215). -/
def execGrfSubmit (who : Agent) (k v : Nat) (s : State) : Out := .next (if s.subStalled who then s else s.submit who k v)

/-! ### Completion records (R219) -/

/-- The result or reserve a record describes. -/
def GJob.written (j : GJob) (rank : Nat) : Option (Nat × Mat × Dy) :=
  if rank = 2 then j.result else if rank = 1 then j.reserve else none

/-- Write a job's completion record; it counts in the submitting cluster, and in channel 41. -/
def State.grfRecord (s : State) (j : GJob) (status lrank : Nat) (w : Option (Nat × Mat × Dy)) : State :=
  let its := (w.map (·.1)).getD 0
  let ex := if gOutfmt j.desc = 0 then (w.map fun x => unsigned 16 x.2.1.e).getD 0 else 0
  let resid := if gType j.desc = gChol ∨ gType j.desc = gTrsv then 0 else (w.map fun x => x.2.2.fp32).getD 0
  let v := status % 2 ^ 16 + j.lstatus % 2 ^ 16 * 2 ^ 16 + its % 64 * 2 ^ 32 + lrank % 4 * 2 ^ 38 + b2n j.cold * 2 ^ 40
    + b2n j.reg * 2 ^ 41 + b2n j.retry * 2 ^ 42 + j.dexp % 32 * 2 ^ 43 + ex * 2 ^ 48 + resid * 2 ^ 64 + j.tstop % 2 ^ 64 * 2 ^ 96
    + gVstep j.desc * 2 ^ 160 + gTag j.desc * 2 ^ 224 + 2 ^ 480
  let s := (s.wrS (gCdpa j.desc / 64 * 64) (toLe 64 v)).sampleN 41 its
  match j.sub.who with
  | .csp ci => (s.satC ci .CLU_STAT 0 8 8 1).irq ci
  | _ => s

/-! ### Output -/

def intFp (m : Mat) (i j : Nat) : Nat := (m.dy i j).fp32

/-- Write a matrix to XDPA in OUTFMT: WQ48 in tiles, the floating formats row-major. -/
def State.grfOut (s : State) (d : Nat) (m : Mat) (n c : Nat) : State :=
  match gOutfmt d with
  | 0 => s.writeWq (gXdpa d) (gXdpa d + 32768 * (tilesOf n * tilesOf c)) m n c
  | 1 => s.putFloats (gXdpa d) ((List.range n).map fun i => (List.range c).map fun j => intFp m i j).flatten
  | _ => s.wrS (gXdpa d) (((List.range n).map fun i => (List.range c).map fun j =>
      toLe 2 (bf16.roundInt .rne false ((m.dy i j).m, (m.dy i j).e)).1).flatten).flatten

/-- The header of a root block (R239). -/
def rootHeader (j : GJob) (nb its : Nat) (ex : Int) : Nat :=
  let d := j.desc
  (if gType d = gRoot then 1 else 2) + gN d * 2 ^ 8 + gPcode d * 2 ^ 22 + (nb - 1) % 16 * 2 ^ 24
    + gBlk d * 2 ^ 28 + j.dexp % 32 * 2 ^ 31 + unsigned 16 j.q * 2 ^ 36 + its % 64 * 2 ^ 54 + b2n j.cold * 2 ^ 60 + b2n j.reg * 2 ^ 61
    + unsigned 16 ex * 2 ^ 64 + gVstep d * 2 ^ 80

/-- Write a result to the non-published buffer of its block. -/
def State.putRoot (s : State) (j : GJob) (w : Nat × Mat × Dy) : State :=
  let d := j.desc
  match s.privLayer (gFidx d) with
  | none => s
  | some (_, l) =>
    let ds := blockDims (sideDim l (gSide d))
    let a := s.rootAddr (gFidx d) (gSide d) (1 - fPub (s.factor (gFidx d)) (gSide d) (gBlk d)) (gBlk d) l
    let t := s.wrS a (toLe 64 (rootHeader j ds.length w.1 w.2.1.e))
    t.writeWq (a + 64) (a + 64 + matBytes (gN d)) w.2.1 (gN d) (gN d)

/-! ### Stops (R232) -/

def statusStale : Nat := St.STALE_KEPT

/-- The local rank and LSTATUS a stop latches. `why`: 0 a deadline or the vote. -/
def GJob.stopWith (j : GJob) (why tick : Nat) : GJob :=
  let hard := why = St.PIVOT ∨ why = St.RANGE ∨ why = St.ABORTED
  let rank := if hard then 0 else if j.result.isSome then 2 else if j.reserve.isSome then 1 else 0
  let ls := if why ≠ 0 then why else if rank = 2 then St.OK else if rank = 1 then St.ACCEPT_LOOSE else St.STALE_KEPT
  { j with done := true, lstatus := ls, rank := rank, tstop := tick, phase := 4 }

/-- Put a job in a slot of Grafter `k`. -/
def State.setJob (s : State) (k i : Nat) (j : Option GJob) : State :=
  s.setGrafter k { s.grafter k with slots := (s.grafter k).slots.set i j }

def State.job (s : State) (k i : Nat) : Option GJob := (s.grafter k).slots.getD i none

/-- Count in an event register of a Grafter. -/
def State.grfCount (s : State) (k : Nat) (r : Reg) (lo : Nat) : State :=
  s.setGrafter k { s.grafter k with regs := satField (s.grafter k).regs r 0 lo 8 1 }

/-- FP32 vectors to XDPA, row-major. -/
def State.vecOut (s : State) (d : Nat) (cols : List WVec) : State :=
  s.putFloats (gXdpa d) ((List.range (gN d)).map fun i => cols.map fun c => (c.dy i).fp32).flatten

/-- The residual a CG record names: the largest ‖r‖ / ‖b‖ over its columns, as a squared ratio's root. -/
def GJob.cgResid (j : GJob) : Nat :=
  let rt := (List.zip j.rs j.bs).map fun e =>
    let rr := dotDy e.1.dys e.1.dys
    let bb := dotDy e.2.dys e.2.dys
    if bb.m = 0 then 0
    else
      let n := rr.m.natAbs * 2 ^ (rr.e - min rr.e bb.e).toNat
      let d := bb.m.natAbs * 2 ^ (bb.e - min rr.e bb.e).toNat
      let v := n * 2 ^ (2 * Nat.log2 d + 256) / d
      let r := isqrt v
      (fp32.round .rne false r (-((Nat.log2 d : Int) + 128)) (decide (r * r ≠ v) || decide (n * 2 ^ (2 * Nat.log2 d + 256) % d ≠ 0))).1
  rt.foldl max 0

/-- A job has stopped: a VOTE job waits for its vote; any other writes its output and record, and leaves its slot. -/
def State.settleJob (s : State) (k i : Nat) (j : GJob) : State :=
  let d := j.desc
  if gVote d then s.setJob k i (some j)
  else
    let w := j.written j.rank
    let s := s.setJob k i none
    let s := match w with
      | none => s
      | some w =>
        if gType d = gTrsv ∨ gType d = gCg then s.vecOut d j.xs
        else if gTgt d then s.putRoot j w
        else s.grfOut d w.2.1 (gN d) (if gType d = gOrth then gNc d else gN d)
    let w := if gType d = gCg then w.map fun x => (x.1, x.2.1, dyOfFp j.cgResid) else w
    s.grfRecord j j.lstatus 3 w

/-- Stop a job. -/
def State.stopJob (s : State) (k i : Nat) (j : GJob) (why : Nat) : State := s.settleJob k i (j.stopWith why (s.copyOf k))

/-! ### Work space (R213, R216) -/

/-- What a job's work leaves in a region core: its lists, handles, tokens, registers and slots are the Grafter's own and open (`f`), as are
the flags its vector instructions raise and the delays it counts. -/
def Core.grfUsed (f : Nat → Nat) (c : Core) : Core :=
  let put := fun (m : List (Nat × Nat)) (i v : Nat) => Sparse.set (fun _ => 0) m i v
  let regs := (List.range 4).foldl (fun g i => sg g .CORE_LIST i (f i % 2 ^ 32 &&& 0xFFFFBFFF)) c.regs
  let regs := (List.range 32).foldl (fun g i => sg g .CORE_TOK i (f (4 + i) % 2 ^ 16)) regs
  let regs := sg regs .CORE_FPFLAGS 0 (rg c.regs .CORE_FPFLAGS ||| f 36 % 32)
  let regs := sg (sg regs .CORE_BKCNT 0 (f 38 % 2 ^ 16)) .CORE_VSTAT 0 (f 39 % 2 ^ 24)
  { c with
    regs := regs
    handles := (List.range 64).foldl (fun m i => put m i (f (40 + i) % 2 ^ 256)) c.handles
    v := (List.range 32).foldl (fun m i => put m i (f (104 + i) % 2 ^ 512)) c.v
    acc := (List.range 128).foldl (fun m i => put m i (f (136 + i) % 2 ^ 64)) c.acc
    slots := (List.range 32).foldl (fun m i => put (put m i (f (264 + i) % 2 ^ 2048)) (64 + i) (f (296 + i) % 2 ^ 128)) c.slots
    slotFlaws := []
    slotPtr := f 328 % 2 }

/-- The memory a job works in: the local memories and stores of its region, and its scratch area. -/
def grfSpace (cis : List Nat) (d a : Nat) : Bool :=
  (decide (0x010000000000 ≤ a) && decide (a < 0x020000000000) && cis.contains ((a - 0x010000000000) / 0x100000))
    || (decide (0x020000000000 ≤ a) && decide (a < 0x030000000000) && cis.contains (coreCi ((a - 0x020000000000) / 0x10000)))
    || (decide (gSdpa d ≤ a) && decide (a < gSdpa d + gSsize d * 2 ^ 20))

/-- The region in force of a slot. -/
def State.regionOf (s : State) (k i : Nat) : List Nat := rgnClusters k ((s.grafter k).rgn.getD i 0)

/-- A job works: what its space and its region's cores hold is open. (DESIGN CHOICE: log 13) -/
def State.grfWork (s : State) (k i d : Nat) : State :=
  let cis := s.regionOf k i
  let n := s.fresh
  let gis := (cis.map coresOf).flatten
  let s := gis.zipIdx.foldl (fun (t : State) e => t.modCore e.1 (Core.grfUsed fun j => Config.fresh (n + 400 * e.2 + j))) s
  { s with fresh := n + 400 * gis.length }.forget (grfSpace cis d)

/-- A VLJOIN saturates: CORE_STAT.LIMBSAT is set in a core of the slot's region. Which core is open. (DESIGN CHOICE: log 13) -/
def State.limbSat (s : State) (k i : Nat) : State :=
  let gis := ((s.regionOf k i).map coresOf).flatten
  let s' := { s with fresh := s.fresh + 1 }
  match gis[Config.fresh s.fresh % gis.length]? with
  | some gi => s'.modCore gi fun c => { c with regs := sg c.regs .CORE_STAT 0 (rg c.regs .CORE_STAT ||| 32) }
  | none => s'

/-! ### Range analysis and starts (R218, R221, R230, R231) -/

/-- PIVOT_FLOOR · t / n as an upper bound on flagged pivots: d · n < 2^−PFE · t. -/
def GJob.low (j : GJob) (d : Dy) : Bool := !((pow2 (-(gPfe j.desc : Int))).mul j.tsum).le (d.mul (Dy.ofInt (gN j.desc)))

/-- floor(log2(t / n)) + 1. -/
def ebRatio (t : Dy) (n : Nat) : Int := ⟨t.m * 2 ^ 64 / n, t.e - 64⟩ |> Dy.eb

/-- λr = 2^(eb(t / n) − PFE + 4) (R226). -/
def GJob.lamrExp (j : GJob) : Int := ebRatio j.tsum (gN j.desc) - gPfe j.desc + 4

/-- What starting or restarting an attempt comes to. -/
inductive Begin where
  | go (j : GJob)
  | pivot (j : GJob)
  | range (j : GJob)

/-- The exponent of L (R222). -/
def cholExp (a : Mat) : Int := ebSqrt ((a.rows.mapIdx fun i r => (⟨r.getD i 0, a.e - 47⟩ : Dy)).foldl Dy.max Dy.zero)

/-- Range analysis of ROOT, CHOL and CG from the raw input (R221). -/
def GJob.analyse (j : GJob) : Begin :=
  let n := gN j.desc
  let t := j.raw.trace
  let lam := dampGrid j.raw n j.dexp
  let ld : Dy := ⟨lam, j.raw.e - 47⟩
  let ad := j.raw.addDiag lam
  let ad := match j.lamr with
    | some e => let r := ad.1.addDiag (rneShift 1 (j.raw.e - 47 - e)); (r.1, ad.2 || r.2)
    | none => ad
  let b := boundOf t j.raw.rowMax ld n
  let q : Int := if gType j.desc = gRoot then -((-b.ceilLog).fdiv (gP j.desc)) else cholExp ad.1
  let j := { j with tsum := t, lam := ld, a := ad.1, q := q, iter := 0, tested := true, result := none }
  if ((t.add (ld.mul (Dy.ofInt n))).m ≤ 0) then .pivot j
  else if ad.2 then .range j
  else .go j

/-- A ROOT's cold start. -/
def GJob.coldRoot (j : GJob) : Begin :=
  let m := rootCold j.a (gP j.desc) j.q
  let x := idMat (gN j.desc) (-j.q) (xExp (gP j.desc) j.q j.lam 0)
  let j := { j with x := x, m := m.1, cold := true, phase := 2 }
  if m.2 then .range j else .go j

/-- CG's start: x from `x0`, r = b − Ad x, p = r. -/
def GJob.cgStart (j : GJob) (x0 : List WVec) : GJob :=
  let rs := (List.zip j.bs x0).map fun e => mkVec (List.zipWith Dy.sub e.1.dys (mulVec j.a e.2))
  { j with xs := x0, rs := rs, ps := rs, phase := 2 }

def zeroVec (n : Nat) : WVec := ⟨List.replicate n 0, 0⟩

/-- A column of FP32 words as a vector. -/
def State.fpCols (s : State) (a n c : Nat) : List WVec :=
  (List.range c).map fun k => mkVec ((List.range n).map fun i => dyOfFp (s.rdN (a + 4 * (i * c + k)) 4))

/-- Read a job's input matrix (R220): a published factor block, WQ48 tiles, or row-major FP32. -/
def State.grfInput (s : State) (d : Nat) : Mat :=
  let n := gN d
  let c := if gType d = gOrth then gNc d else n
  if gTgt d then
    match s.privLayer (gFidx d) with
    | some (_, l) => let f := s.facBlock (gFidx d) (gSide d) s.pubBuf (gBlk d) l; s.readWq f.1 f.2 n n
    | none => ⟨[], 0⟩
  else if gAfmt d = 11 then s.readWq (gAdpa d) (gAdpa d + 32768 * (tilesOf n * tilesOf c)) n c
  else
    let rows := (List.range n).map fun i => s.floats (gAdpa d + 4 * i * c) c
    let e := (rows.foldl (fun a r => r.foldl (fun a x => a.max (dyOfFp x).abs) a) Dy.zero).eb
    ⟨rows.map fun r => r.map fun x => (fpToWq e x).1, e⟩

/-- The checks of R218 that need the state. -/
def State.grfLegal (s : State) (k d : Nat) : Bool :=
  gFieldsOk d && bit ((s.grafter k).rgn.getD (gSlot d) 0) 21 && (!gVote d || decide (s.stepNo < gVstep d))
    && (!gTgt d || match s.privLayer (gFidx d) with
      | none => false
      | some (_, l) =>
        let ds := blockDims (sideDim l (gSide d))
        decide (gBlk d < ds.length) && ds.getD (gBlk d) 0 == gN d)

/-- Whether two jobs have one target block. -/
def sameTarget (a b : Nat) : Bool := gTgt a && gTgt b && gFidx a == gFidx b && gSide a == gSide b && gBlk a == gBlk b

/-- The jobs in every slot. -/
def State.allJobs (s : State) : List GJob := (s.grafters.map fun g => g.slots.filterMap id).flatten

/-- A conflict of R218 or R234 at the start of a job of Grafter `k`. -/
def State.grfConflict (s : State) (k d : Nat) : Bool :=
  (s.allJobs.any fun j => sameTarget j.desc d && j.group.isNone)
    || (gVote d && ((s.grafter k).gone ++ (s.grafter k).slots.filterMap id).any fun j =>
      gVote j.desc && gSlot j.desc == gSlot d && gVstep j.desc == gVstep d)

def GJob.new (sub : Submitted) (d pub : Nat) : GJob :=
  { sub := sub, desc := d, phase := 1, pub := pub, dexp := gDexp d, retry := false, cold := true, reg := false, iter := 0, tested := true
    tsum := Dy.zero, lam := Dy.zero, lamr := none, q := 0, raw := ⟨[], 0⟩, a := ⟨[], 0⟩, x := ⟨[], 0⟩, m := ⟨[], 0⟩, xs := [], rs := []
    ps := [], bs := [], resid := Dy.zero, reserve := none, result := none, done := false, lstatus := 0, rank := 3, group := none
    tstop := 0 }

/-- The header fields a warm start compares (R230). -/
def fingerprint (h : Nat) : Nat × Nat × Nat × Nat × Nat × Nat × Nat :=
  (bits h 0 8, bits h 8 14, bits h 22 2, bits h 24 4, bits h 28 3, bits h 31 5, bits h 36 16)

/-- Carry a start through: a RANGE of ROOT or CHOL restarts once with DEXP − 1, cold (R223). -/
def State.beginJob (s : State) (k i : Nat) (b : Begin) (again : GJob → Begin) : State :=
  match b with
  | .go j => s.setJob k i (some j)
  | .pivot j => s.stopJob k i j St.PIVOT
  | .range j =>
    if (gType j.desc = gRoot ∨ gType j.desc = gChol) ∧ 0 < j.dexp ∧ j.retry = false then
      let s := s.grfCount k .GRF_EVT0 24
      match again { j with dexp := j.dexp - 1, retry := true, cold := true, lamr := none } with
      | .go j => s.setJob k i (some j)
      | .pivot j => s.stopJob k i j St.PIVOT
      | .range j => s.stopJob k i j St.RANGE
    else s.stopJob k i j St.RANGE

/-- Range analysis and a cold start. -/
def GJob.again (j : GJob) : Begin :=
  match j.analyse with
  | .go j => if gType j.desc = gRoot then j.coldRoot else .go { j with phase := 2 }
  | other => other

/-- RANGE in a running attempt: by a VLJOIN that saturates (`joined`), or by an addition (R223). -/
def State.rangeJob (s : State) (k i : Nat) (joined : Bool) (j : GJob) : State :=
  (if joined then s.limbSat k i else s).beginJob k i (.range j) GJob.again

/-- A warm ROOT (R230, R231): from the published root, unless its fingerprint differs or it starts no nearer than cold. -/
def State.warmRoot (s : State) (k i : Nat) (j : GJob) : State :=
  let d := j.desc
  match s.privLayer (gFidx d) with
  | none => s.setJob k i (some j)
  | some (_, l) =>
    let ds := blockDims (sideDim l (gSide d))
    let a := s.rootAddr (gFidx d) (gSide d) (fPub (s.factor (gFidx d)) (gSide d) (gBlk d)) (gBlk d) l
    let h := s.rdN a 64
    if bits h 0 8 = 0 then s.beginJob k i j.coldRoot GJob.again
    else if fingerprint h ≠ fingerprint (rootHeader j ds.length 0 0) then
      (s.grfCount k .GRF_EVT0 0).beginJob k i j.coldRoot GJob.again
    else
      let x := (s.readWq (a + 64) (a + 64 + matBytes (gN d)) (gN d) (gN d)).at (xExp (gP d) j.q j.lam 0)
      let m := rootWarm (gN d) (gP d) (gPcode d) j.q j.lam x.1 j.a
      if x.2 || m.2 then s.rangeJob k i m.2 j
      else if (j.a.residAt (-((gP d : Int) * j.q))).le m.1.resid then (s.grfCount k .GRF_EVT0 8).beginJob k i j.coldRoot GJob.again
      else s.setJob k i (some { j with x := x.1, m := m.1, cold := false, phase := 2 })

/-- Start a legal job in its slot. -/
def State.startJob (s : State) (k i : Nat) (sub : Submitted) (d : Nat) : State :=
  let j := { GJob.new sub d s.pubBuf with raw := s.grfInput d }
  match gType d with
  | 1 =>
    match j.analyse with
    | .go j => if gWarm d then s.warmRoot k i j else s.beginJob k i j.coldRoot GJob.again
    | other => s.beginJob k i other GJob.again
  | 2 =>
    -- ORTH works on Gᵀ when N > NC; x = g / 2^eb(‖g‖) under exponent 1
    let g : Mat := if gNc d < gN d then ⟨transpose j.raw.rows (gNc d), j.raw.e⟩ else j.raw
    let x := satMat (g.rows.map fun r => r.map fun v => rneShift v (1 + ebSqrt g.normSq - g.e)) 1
    let m := gram x.1
    let j := { j with x := x.1, m := m.1, phase := 2, tested := false, resid := m.1.resid }
    if x.2 || m.2 then (if m.2 then s.limbSat k i else s).stopJob k i j St.RANGE else s.setJob k i (some j)
  | 3 =>
    -- a CHOL starts cold; a warm one still tells a differing fingerprint
    let s := if gWarm d ∧ gTgt d then
        match s.privLayer (gFidx d), j.analyse with
        | some (_, l), .go ja =>
          let ds := blockDims (sideDim l (gSide d))
          let h := s.rdN (s.rootAddr (gFidx d) (gSide d) (fPub (s.factor (gFidx d)) (gSide d) (gBlk d)) (gBlk d) l) 64
          if bits h 0 8 ≠ 0 ∧ fingerprint h ≠ fingerprint (rootHeader ja ds.length 0 0) then s.grfCount k .GRF_EVT0 0 else s
        | _, _ => s
      else s
    s.beginJob k i j.again GJob.again
  | 4 => s.setJob k i (some { j with bs := s.fpCols (gBdpa d) (gN d) (gNc d), phase := 2 })
  | _ =>
    let j := { j with bs := s.fpCols (gBdpa d) (gN d) (gNc d) }
    match j.analyse with
    | .go j =>
      let x0 := if gWarm d then s.fpCols (gXdpa d) (gN d) (gNc d) else j.bs.map fun _ => zeroVec (gN d)
      s.setJob k i (some (({ j with cold := !gWarm d } : GJob).cgStart x0))
    | other => s.beginJob k i other GJob.again

/-- Take a job from the queue, and let a stalled writer's in. -/
def Grafter.dequeue (g : Grafter) (i : Nat) : Grafter := Grafter.letIn { g with queue := g.queue.eraseIdx i }

/-! ### Starts -/

/-- Compute clocks run: PWR_STATE is RUN (R396). -/
def State.computing (s : State) : Bool := s.hf .PWR_STATE 0 0 3 = 0

/-- GRAFTER_JOB_START (R215, R218, R221): the oldest queued job of Grafter `k` whose slot is free starts; one that fails its check ends at
once. -/
def execGrafterJobStart (k : Nat) (hbm : List HbmErr) (s : State) : Out :=
  s.hbmRun hbm fun s =>
    let g := s.grafter k
    if 8 ≤ k ∨ s.computing = false then .next s
    else
      match g.queue.zipIdx.find? fun e => (g.slots.getD (gSlot (s.rdN e.1.addr 128)) none).isNone with
      | none => .next s
      | some (sub, i) =>
        let d := s.rdN sub.addr 128
        let s := s.setGrafter k (g.dequeue i)
        let j := GJob.new sub d s.pubBuf
        if s.grfLegal k d = false then
          .next (s.grfRecord { j with lstatus := St.JOB_ILLEGAL, tstop := s.copyOf k } St.JOB_ILLEGAL 3 none)
        else if s.grfConflict k d then
          .next (s.grfRecord { j with lstatus := St.JOB_CONFLICT, tstop := s.copyOf k } St.JOB_CONFLICT 3 none)
        else
          let t := s.startJob k (gSlot d) sub d
          .next (t.grfWork k (gSlot d) d)

/-! ### Iterations -/

/-- The running job of type `ty` in a slot. -/
def State.running (s : State) (k i ty : Nat) : Option GJob :=
  match s.job k i with
  | some j => if gType j.desc = ty ∧ j.done = false ∧ s.computing then some j else none
  | none => none

/-- A VOTE job's DEADLINE has passed: what it completes now no longer counts. A completion in the tick itself does (R232). -/
def State.overdue (s : State) (k : Nat) (j : GJob) : Bool :=
  gVote j.desc && gDeadline j.desc != 0xFFFFFFFFFFFFFFFF && decide (gDeadline j.desc < s.copyOf k)

/-- Such a job stopped in the tick of its DEADLINE. -/
def State.overrun (s : State) (k i : Nat) (j : GJob) : State := s.settleJob k i (j.stopWith 0 (gDeadline j.desc))

/-- ROOT (R224): one iteration of the coupled Newton scheme. -/
def execRoot (k i : Nat) (s : State) : Out :=
  match s.running k i gRoot with
  | none => .next s
  | some j =>
    if s.overdue k j then .next (s.overrun k i j)
    else if j.tested = false then .next s
    else
      let d := j.desc
      let s := s.grfWork k i d
      let r := rootStep (gN d) (gP d) (gPcode d) j.q j.lam j.x j.m
      if r.2.2.1 || r.2.2.2 then .next (s.rangeJob k i r.2.2.2 j)
      else .next (s.setJob k i (some { j with x := r.1, m := r.2.1, iter := j.iter + 1, tested := false, resid := r.2.1.resid }))

/-- ORTH (R225): one iteration of the quintic. -/
def execOrth (k i : Nat) (s : State) : Out :=
  match s.running k i gOrth with
  | none => .next s
  | some j =>
    if j.tested = false then .next s
    else
      let s := s.grfWork k i j.desc
      let n := min (gN j.desc) (gNc j.desc)
      let c := max (gN j.desc) (gNc j.desc)
      let y := orthStep n c j.m j.x
      let m := gram y.1
      if y.2.1 || y.2.2 || m.2 then .next (s.rangeJob k i (y.2.2 || m.2) j)
      else .next (s.setJob k i (some { j with x := y.1, m := m.1, iter := j.iter + 1, tested := false, resid := m.1.resid }))

/-- CHOL (R226): the factorisation. The first flagged pivot restarts it with λr added, the second ends the job with PIVOT. -/
def execChol (k i : Nat) (s : State) : Out :=
  match s.running k i gChol with
  | none => .next s
  | some j =>
    if s.overdue k j then .next (s.overrun k i j)
    else
      let s := s.grfWork k i j.desc
      match cholesky (gN j.desc) j.a j.q j.low with
      | .ok l => .next (s.stopJob k i { j with result := some (0, l, Dy.zero) } St.OK)
      | .range =>
        -- whether the update's VLJOIN or its addition saturates is open
        let joined := Config.fresh s.fresh % 2 == 1
        .next (State.rangeJob { s with fresh := s.fresh + 1 } k i joined j)
      | .pivot =>
        if j.reg then .next (s.stopJob k i j St.PIVOT)
        else .next ((s.grfCount k .GRF_EVT0 16).beginJob k i (GJob.again { j with reg := true, lamr := some j.lamrExp }) GJob.again)

/-- TRSV (R227): the substitution for every right-hand side. -/
def execTrsv (k i : Nat) (s : State) : Out :=
  match s.running k i gTrsv with
  | none => .next s
  | some j =>
    let s := s.grfWork k i j.desc
    let n := gN j.desc
    let diag := (List.range n).map fun r => (j.raw.dy r r).abs
    let top := diag.foldl Dy.max Dy.zero
    let low := diag.foldl Dy.min top
    if !(((pow2 (-(gPfe j.desc : Int))).mul top).le low) then .next (s.stopJob k i j St.PIVOT)
    else
      let ys := j.bs.map fun b => trsv n j.raw (gTrans j.desc) b
      let good := ys.filterMap fun y => match y with | .ok v => some (exactVec v) | _ => none
      if good.length = ys.length then
        .next (s.stopJob k i { j with xs := good, result := some (0, ⟨[], 0⟩, Dy.zero) } St.OK)
      else .next (s.stopJob k i j St.RANGE)

/-- CG (R228): one iteration on every right-hand side. The first breakdown restarts from zero with λr added, the second ends the job. -/
def execCg (k i : Nat) (s : State) : Out :=
  match s.running k i gCg with
  | none => .next s
  | some j =>
    if j.tested = false then .next s
    else
      let s := s.grfWork k i j.desc
      let fl := ((pow2 (-(gPfe j.desc : Int))).mul j.tsum)
      -- PIVOT_FLOOR · t / n: compare with den · n
      let st := (List.zip j.xs (List.zip j.rs j.ps)).map fun e => cgStep ⟨j.a.rows, j.a.e⟩ (fl.div (Dy.ofInt (gN j.desc))) e.1 e.2.1 e.2.2
      if st.all Option.isSome then
        let st := st.filterMap id
        .next (s.setJob k i (some { j with xs := st.map (·.1), rs := st.map (·.2.1), ps := st.map (·.2.2), iter := j.iter + 1, tested := false }))
      else if j.reg then .next (s.stopJob k i j St.PIVOT)
      else
        let s := s.grfCount k .GRF_EVT0 16
        match GJob.analyse { j with reg := true, lamr := some j.lamrExp } with
        | .go j => .next (s.setJob k i (some (j.cgStart (j.bs.map fun _ => zeroVec (gN j.desc)))))
        | .pivot j => .next (s.stopJob k i j St.PIVOT)
        | .range j => .next (s.stopJob k i j St.RANGE)

/-- Whether every column of a CG meets ‖r‖² ≤ tol² ‖b‖². -/
def GJob.cgMet (j : GJob) : Bool :=
  (List.zip j.rs j.bs).all fun e =>
    (dotDy e.1.dys e.1.dys).le ((pow2 (-(2 * (gTole j.desc : Int)))).mul (dotDy e.2.dys e.2.dys))

/-- ORTH's answer is transposed back when it worked on the transpose. -/
def GJob.answer (j : GJob) : Mat :=
  if gType j.desc = gOrth ∧ gNc j.desc < gN j.desc then ⟨transpose j.x.rows (gN j.desc), j.x.e⟩ else j.x

/-- GRAFTER_ITERATION_COMPLETE (R223, R229): the iterate's residual test completes; it may become the reserve or the result, and the cap
ends the job. -/
def execGrafterIterationComplete (k i : Nat) (s : State) : Out :=
  match s.job k i with
  | none => .next s
  | some j =>
    if j.tested ∨ j.done ∨ s.computing = false then .next s
    else if s.overdue k j then .next (s.overrun k i j)
    else
      let d := j.desc
      let j := { j with tested := true }
      if gType d = gCg then
        if j.cgMet then .next (s.stopJob k i { j with result := some (j.iter, ⟨[], 0⟩, Dy.zero) } St.OK)
        else if gMaxit d ≤ j.iter then
          -- at the cap CG writes its last iterate
          .next (s.settleJob k i { (j.stopWith St.CAP (s.copyOf k)) with result := some (j.iter, ⟨[], 0⟩, Dy.zero), rank := 2 })
        else .next (s.setJob k i (some j))
      else
        let w := (j.iter, j.answer, j.resid)
        let j := if j.reserve.isNone ∧ j.resid.le (pow2 (-(gAtole d : Int))) then { j with reserve := some w } else j
        if j.resid.le (pow2 (-(gTole d : Int))) then .next (s.stopJob k i { j with result := some w } St.OK)
        else if gMaxit d ≤ j.iter then .next (s.stopJob k i j St.CAP)
        else .next (s.setJob k i (some j))

/-- JOB_DEADLINE (R232): the Grafter's Sundial copy has reached a VOTE job's DEADLINE; an iteration in progress is discarded. -/
def execJobDeadline (k i : Nat) (s : State) : Out :=
  match s.job k i with
  | none => .next s
  | some j =>
    if gVote j.desc ∧ j.done = false ∧ gDeadline j.desc ≠ 2 ^ 64 - 1 ∧ gDeadline j.desc ≤ s.copyOf k then .next (s.stopJob k i j 0)
    else .next s

/-- A write of GRF_ABORT: stop the slot's job, or set the rank of one that awaits its vote to 0b00. -/
def State.grfAbort (s : State) (k v : Nat) : State :=
  if bit v 2 = false ∨ 8 ≤ k then s
  else
    match s.job k (v % 4) with
    | none => s
    | some j =>
      if j.done = false then s.stopJob k (v % 4) j St.ABORTED
      else if j.group.isNone then s.setJob k (v % 4) (some { j with rank := 0 })
      else s

/-- GRF_ABORT (R232). -/
def execGrfAbort (k v : Nat) (s : State) : Out := .next (s.grfAbort k v)

/-! ### The vote (R232-R236) -/

/-- A started VOTE job that the norm all-reduce of step `n` carries: its VSTEP, or a GENERATE step since (R233). -/
def gDue (d n : Nat) : Bool := gVote d && decide (gVstep d ≤ n)

/-- A VOTE job still queued that this vote carries: its VSTEP lies after the last step that voted. One submitted after its vote stays queued,
its field 0b11 (R233). -/
def State.queueDue (s : State) (d : Nat) : Bool := gDue d s.stepNo && decide (s.step.voteFrom ≤ gVstep d)

/-- Remove the due jobs of a Grafter's queue: one that repeats the slot and VSTEP of an earlier one ends with JOB_CONFLICT. Places freed let
stalled submissions in (R215). -/
def State.voteQueue (s : State) (k : Nat) : State :=
  let g := s.grafter k
  let t := (g.queue ++ g.stalled).foldl (fun (t : State) sub =>
    let d := t.rdN sub.addr 128
    if (t.grafter k).queue.contains sub ∧ s.queueDue d then
      let h := t.grafter k
      let t := t.setGrafter k (Grafter.letIn { h with queue := h.queue.erase sub })
      let j := { GJob.new sub d t.pubBuf with done := true, tstop := t.copyOf k, lstatus := St.STALE_KEPT, rank := 0 }
      let twin := (h.gone ++ h.slots.filterMap id).any fun e => gVote e.desc && gSlot e.desc == gSlot d && gVstep e.desc == gVstep d
      if twin then t.grfRecord { j with lstatus := St.JOB_CONFLICT } St.JOB_CONFLICT 3 none
      else t.setGrafter k { t.grafter k with gone := (t.grafter k).gone ++ [j] }
    else t) s
  t

/-- Stop the due jobs still running, and empty the queues of due ones. -/
def State.voteStop (s : State) : State :=
  (List.range 8).foldl (fun (t : State) k =>
    let t := (List.range 4).foldl (fun (t : State) i =>
      match t.job k i with
      | some j => if gDue j.desc t.stepNo ∧ j.done = false then t.stopJob k i j 0 else t
      | none => t) t
    t.voteQueue k) s

/-- The field of slot `i` of Grafter `k` (R233). -/
def State.voteField (s : State) (k i : Nat) : Nat :=
  match s.job k i with
  | some j =>
    if gDue j.desc s.stepNo then j.rank
    else if (s.grafter k).gone.any fun e => gSlot e.desc == i then 0 else 3
  | none => if (s.grafter k).gone.any fun e => gSlot e.desc == i then 0 else 3

/-- This module's vote vector of the step, latched once (R233, R236). -/
def State.takeVote (s : State) : State :=
  match s.step.votes with
  | some _ => s
  | none =>
    let t := s.voteStop
    let v := ((List.range 8).map fun k => (List.range 4).map fun i => t.voteField k i).flatten
    { t with step := { t.step with votes := some v, voteFrom := t.stepNo + 1 } }

def packVote (v : List Nat) : Nat := (v.mapIdx fun i x => x % 4 * 4 ^ i).foldl (· + ·) 0

/-- Field-wise minimum or maximum of two vectors. -/
def mergeVote (mx : Bool) (a b : Nat) : Nat :=
  packVote ((List.range 32).map fun i => if mx then max (bits a (2 * i) 2) (bits b (2 * i) 2) else min (bits a (2 * i) 2) (bits b (2 * i) 2))

/-- The group rank of a field: 4 for a mismatch. -/
def groupRank (mn mx i : Nat) : Nat :=
  if bits mx (2 * i) 2 = 3 ∧ bits mn (2 * i) 2 ≠ 3 then 4 else bits mn (2 * i) 2

/-- A side's STALE_AGE counts once. -/
def State.staleCount (s : State) (k d : Nat) : State :=
  let a := fStale (s.factor (gFidx d)) (gSide d)
  (s.setFactorField (gFidx d) (368 + 8 * gSide d) 8 (min (a + 1) 255)).grfCount k .GRF_EVT1 0

/-- Act on a VOTE job by its group rank (R235): an adopted block is written now; its buffer toggles, and its record is written, at the
next REPLAY. -/
def State.actVote (s : State) (k g : Nat) (j : GJob) : State :=
  let d := j.desc
  match j.written (if g = 4 then 0 else g) with
  | some w =>
    let s := s.putRoot j w
    let s := (s.setFactorField (gFidx d) (368 + 8 * gSide d) 8 0).setFactorField (gFidx d) 384 64 (gVstep d)
    let s := if g = 1 then s.grfCount k .GRF_EVT1 8 else s
    { s with step := { s.step with adopted := s.step.adopted ++ [(gFidx d, gSide d, gBlk d)] } }
  | none => s.staleCount k d

/-- VOTE_COMBINE (R233, R235): the group ranks of the combined vectors are decided and acted on, once in a step. -/
def State.combineVote (s : State) (mn mx : Nat) : State :=
  if s.step.voted then s
  else
    let s := { s with step := { s.step with voted := true } }
    (List.range 32).foldl (fun (t : State) f =>
      let k := f / 4
      let i := f % 4
      let g := groupRank mn mx f
      let t := if g = 4 then t.grfCount k .GRF_EVT1 16 else t
      let t := match t.job k i with
        | some j => if gDue j.desc t.stepNo ∧ j.group.isNone then (t.actVote k g j).setJob k i (some { j with group := some g }) else t
        | none => t
      (t.grafter k).gone.foldl (fun (t : State) j =>
        if gSlot j.desc = i ∧ j.group.isNone then
          let t := t.actVote k (if g = 4 then 4 else 0) j
          t.setGrafter k { t.grafter k with gone := (t.grafter k).gone.map fun e => if e = j then { e with group := some (if g = 4 then 4 else 0) } else e }
        else t) t) s

/-- The final STATUS of a VOTE job (R235). -/
def GJob.finalStatus (j : GJob) (g : Nat) : Nat :=
  if g = 2 then St.OK else if g = 1 then St.ACCEPT_LOOSE
  else if j.lstatus = St.PIVOT ∨ j.lstatus = St.RANGE ∨ j.lstatus = St.CAP ∨ j.lstatus = St.ABORTED then j.lstatus
  else if g = 4 then St.VOTE_MISMATCH else St.STALE_KEPT

/-- Write the record of a voted job. (DEDUCED: log 91) -/
def State.voteRecord (s : State) (j : GJob) (g : Nat) : State :=
  s.grfRecord j (j.finalStatus g) j.rank (j.written (if g = 4 then 0 else g))

/-- At REPLAY: adopted blocks toggle, voted jobs write their records and leave (R235). -/
def State.publishRoots (s : State) : State :=
  let s := s.step.adopted.foldl (fun (t : State) b =>
    let p := fPub (t.factor b.1) b.2.1 b.2.2
    t.setFactorField b.1 (352 + 8 * b.2.1 + b.2.2) 1 (1 - p)) s
  let s := { s with step := { s.step with adopted := [], votes := none, voted := false } }
  (List.range 8).foldl (fun (t : State) k =>
    let t := (List.range 4).foldl (fun (t : State) i =>
      match t.job k i with
      | some j => (match j.group with | some g => (t.setJob k i none).voteRecord j g | none => t)
      | none => t) t
    let gone := (t.grafter k).gone
    let t := t.setGrafter k { t.grafter k with gone := [] }
    gone.foldl (fun (t : State) j => t.voteRecord j (j.group.getD 0)) t) s

/-- Every VOTE job, queued or in a slot, whose VSTEP lies after this boundary ends at rank 0b00 (R290). -/
def State.endVotes (s : State) : State :=
  (List.range 8).foldl (fun (t : State) k =>
    let t := ((t.grafter k).queue ++ (t.grafter k).stalled).foldl (fun (t : State) sub =>
      let d := t.rdN sub.addr 128
      if gVote d ∧ t.stepNo < gVstep d then
        let g := t.grafter k
        let t := t.setGrafter k (Grafter.letIn { g with queue := g.queue.erase sub, stalled := g.stalled.erase sub })
        let j := { GJob.new sub d t.pubBuf with done := true, tstop := t.copyOf k, lstatus := St.STALE_KEPT, rank := 0 }
        (t.staleCount k d).voteRecord j 0
      else t) t
    (List.range 4).foldl (fun (t : State) i =>
      match t.job k i with
      | some j =>
        if gVote j.desc ∧ j.group.isNone ∧ t.stepNo < gVstep j.desc then
          let j := if j.done then { j with rank := 0 } else { j.stopWith 0 (t.copyOf k) with rank := 0 }
          ((t.setJob k i none).staleCount k j.desc).voteRecord j 0
        else t
      | none => t) t) s

end Sys2Proof.Machine
end

