-- ==== Sys2Proof/Machine/Ring.lean ====
section
/-! DEFINITION. The collectives (R273, R277-R285): neighbours, the ring reduction, the gathers, and the small all-reduces. A frame of the
model carries a run of any length of one chunk. -/

namespace Sys2Proof.Machine

/-! ### The logical grid (R272, R273) -/

/-- The size of the ring on an axis (false X, true Y). -/
def State.ring (s : State) (axis : Bool) : Nat := max 1 (if axis then s.yl else s.xl)

/-- The place of rank `j` on an axis. -/
def State.placeOn (s : State) (axis : Bool) (j : Nat) : Nat := if axis then j / s.ring false else j % s.ring false

/-- Send a collective frame to this module's logical neighbour on an axis. -/
def State.sendNext (s : State) (axis plus : Bool) (c : CollMsg) : State :=
  let p := s.ring axis
  let me := s.placeOn axis s.rank
  let dst := if plus then (me + 1) % p else (me + p - 1) % p
  let r := if axis then s.placeOn false s.rank + s.ring false * dst else dst + s.ring false * s.placeOn true s.rank
  match s.memberAt s.mapBank r with
  | some (x, y) => s.sendTo x y s.jobTag 2 (.coll c)
  | none => s

/-- The turn of place `me` in the ring of `p` bound for place `c`: 1 starts, `p` is the destination (R278). -/
def turn (plus : Bool) (p c me : Nat) : Nat :=
  let t := if plus then (me + p - c % p) % p else (c + p - me % p) % p
  if t = 0 then p else t

/-- The first axis of a quarter's route, and its direction (R277). -/
def firstAxis (q : Nat) : Bool := decide (2 ≤ q)
def quarterPlus (q : Nat) : Bool := q % 2 == 0

/-- Elements of quarter `q` of a run of `e` elements: first and one past the last. -/
def quarter (e q : Nat) : Nat × Nat := (q * e / 4, (q + 1) * e / 4)

/-- UPD_STAT.REPLAYS. -/
def State.replays (s : State) : Nat := s.hf .UPD_STAT 0 2 2

/-- A frame of a collective of the step in force (R285). -/
def State.collMsg (s : State) (kind : CollKind) (layer q run phase off : Nat) (data scales : List Nat) : CollMsg :=
  { kind := kind, step := s.stepNo % 2 ^ 16, replays := s.replays, epoch := s.epoch, layer := layer, quarter := q, run := run
    phase := phase, off := off, dpa := 0, data := data, scales := scales }

/-! ### Progress -/

def State.collGot (s : State) (i k : Nat) : Nat := Sparse.get (fun _ => 0) s.coll.got (4 * i + k)
def State.addGot (s : State) (i k n : Nat) : State :=
  { s with coll := { s.coll with got := Sparse.set (fun _ => 0) s.coll.got (4 * i + k) (s.collGot i k + n) } }
def State.collSent (s : State) (i : Nat) : Nat := Sparse.get (fun _ => 0) s.coll.sent (4 * i)
def State.addSent (s : State) (i n : Nat) : State :=
  { s with coll := { s.coll with sent := Sparse.set (fun _ => 0) s.coll.sent (4 * i) (s.collSent i + n) } }

/-- Elements of a layer. -/
def lElems (l : Nat) : Nat := lNin l * lNout l

/-- Elements of the runs of layer `i` that this module owns. -/
def State.ownElems (s : State) (i : Nat) : Nat :=
  sumNat (((s.runsOf i).filter fun r => r.rank == s.rank).map fun r => r.rows * lNout (s.layer i))

/-! ### Working-copy readiness (R196) -/

/-- How many valid layers, from the first in table order, are final. -/
def finalPrefix (valid final : List Nat) : Nat := (valid.takeWhile fun i => final.contains i).length

/-- Layers become final for the step about to run; CSP_EVT31 counts them in table order. -/
def State.addFinal (s : State) (ls : List Nat) : State :=
  let f := s.step.final ++ ls.filter fun i => !s.step.final.contains i
  let n := finalPrefix s.validLayers f
  { s with step := { s.step with final := f, counted := max n s.step.counted } }.allCsp 31 (n - s.step.counted)

/-! ### Gathers (R279, R282): the origin sends on both axes, and each arrival goes on until its next member is the origin -/

/-- Send what originates here. -/
def State.gatherSend (s : State) (c : CollMsg) : State :=
  let a1 := firstAxis c.quarter
  let s := if 1 < s.ring (!a1) then s.sendNext (!a1) (quarterPlus c.quarter) { c with phase := 1 } else s
  if 1 < s.ring a1 then s.sendNext a1 (quarterPlus c.quarter) { c with phase := 2 } else s

/-- Send an arrival on. -/
def State.gatherOn (s : State) (c : CollMsg) : State :=
  let a1 := firstAxis c.quarter
  let plus := quarterPlus c.quarter
  let axis := if c.phase = 1 then !a1 else a1
  let p := s.ring axis
  let t := turn plus p (s.placeOn axis c.run) (s.placeOn axis s.rank)
  let s := if t + 1 < p then s.sendNext axis plus c else s
  if c.phase = 1 ∧ 1 < s.ring a1 then s.sendNext a1 plus { c with phase := 2 } else s

/-- Write an arrived run of the gather format into the working copy, widening it (R281, R282). -/
def State.gatherLand (s : State) (i off : Nat) (codes : List (Nat × Nat)) : State :=
  let l := s.layer i
  let s := (s.putWeights l off (codes.map (widenElem (lGfmtMx l)))).addGot i 2 codes.length
  if s.collGot i 2 = lElems l then (s.padXpose l).addFinal [i] else s

/-- Gather this module's own run `r` of layer `i`, from its swept master `xs`. -/
def State.gatherRun (s : State) (i : Nat) (r : RowRun) (xs : List Nat) : State :=
  let l := s.layer i
  let codes := narrowRows (lGfmtMx l) (lNout l) xs
  let base := r.row0 * lNout l
  let s := (List.range 4).foldl (fun (t : State) q =>
    let e := quarter codes.length q
    let part := (codes.drop e.1).take (e.2 - e.1)
    if part.isEmpty then t
    else
      let c := t.collMsg .gather i q r.rank 1 (base + e.1) (part.map (·.1)) (part.map (·.2))
      t.gatherSend { c with step := t.coll.gStep % 2 ^ 16, replays := t.coll.gReplays }) s
  s.gatherLand i base codes

/-! ### The reduce-scatter (R277-R280) -/

def rsWire (l : Nat) (xs : List Nat) : List Nat := if lRsFp32 l then xs else xs.map fun x => (convert fp32 bf16 .rne x).1
def rsWiden (l : Nat) (xs : List Nat) : List Nat := if lRsFp32 l then xs else xs.map fun x => (convert bf16 fp32 .rne x).1
def addCodes (a b : List Nat) : List Nat := List.zipWith (fun x y => (fp32.add .rne x y).1) a b

/-- This module's count of a layer's notices is complete (R194). -/
def State.gradReady (s : State) (i : Nat) : Bool := decide (lNcon (s.layer i) ≤ Sparse.get (fun _ => 0) s.step.gdone i)

/-- Reduced elements of an owned run land in GBASE; in FULL mode they are all-gathered in FP32 (R279). -/
def State.rsLand (s : State) (i q j off : Nat) (vals : List Nat) : State :=
  let s := (s.putFloats (lGbase (s.layer i) + 4 * off) vals).addGot i 0 vals.length
  if s.sharded then s else s.gatherSend (s.collMsg .gradGather i q j 1 off vals [])

def State.dropPartials (s : State) (i off n : Nat) : State :=
  { s with coll := { s.coll with partials := Sparse.dropWhere (fun k => decide (2 ^ 32 * i + off ≤ k) && decide (k < 2 ^ 32 * i + off + n)) s.coll.partials } }

/-- The second phase of a chunk whose first-phase results are here. -/
def State.rsSecond (s : State) (i q j off : Nat) (vals : List Nat) : State :=
  let l := s.layer i
  let axis := !firstAxis q
  let plus := quarterPlus q
  let p := s.ring axis
  if p ≤ 1 then s.rsLand i q j off vals
  else if turn plus p (s.placeOn axis j) (s.placeOn axis s.rank) = 1 then
    (s.sendNext axis plus (s.collMsg .reduce i q j 2 off (rsWire l vals) [])).addSent i vals.length
  else
    { s with coll := { s.coll with partials := Sparse.setRun (fun _ => 0) s.coll.partials (2 ^ 32 * i + off) (vals.map (· + 1)) } }

/-- What this module adds in a phase: its gradient, or its first-phase result when it has it. -/
def State.rsOwn (s : State) (c : CollMsg) : Option (List Nat) :=
  if c.phase = 1 then some (s.floats (lGbase (s.layer c.layer) + 4 * c.off) c.data.length)
  else
    let xs := (List.range c.data.length).map fun k => Sparse.get (fun _ => 0) s.coll.partials (2 ^ 32 * c.layer + c.off + k)
    if xs.all fun x => decide (0 < x) then some (xs.map (· - 1)) else none

/-- A reduce-scatter frame in the receive path; none while it must be held (R280). (DEDUCED: log 45) -/
def State.rsFrame (s : State) (c : CollMsg) : Option State :=
  let l := s.layer c.layer
  let n := c.data.length
  if s.gradReady c.layer = false then none
  else
    match s.rsOwn c with
    | none => none
    | some own =>
      let plus := quarterPlus c.quarter
      let axis := if c.phase = 1 then firstAxis c.quarter else !firstAxis c.quarter
      let p := s.ring axis
      let vals := addCodes (rsWiden l c.data) own
      let s := if c.phase = 1 then s else s.dropPartials c.layer c.off n
      if turn plus p (s.placeOn axis c.run) (s.placeOn axis s.rank) = p then
        some (if c.phase = 1 then s.rsSecond c.layer c.quarter c.run c.off vals else s.rsLand c.layer c.quarter c.run c.off vals)
      else some ((s.sendNext axis plus { c with data := rsWire l vals }).addSent c.layer n)

/-- Start one quarter of a run: the chunk's first member on its first axis sends its own values. -/
def State.rsStart (s : State) (i q : Nat) (r : RowRun) : State :=
  let l := s.layer i
  let e := quarter (r.rows * lNout l) q
  let off := r.row0 * lNout l + e.1
  let n := e.2 - e.1
  let axis := firstAxis q
  let plus := quarterPlus q
  let p := s.ring axis
  if n = 0 then s
  else
    let own := s.floats (lGbase l + 4 * off) n
    if p ≤ 1 then s.rsSecond i q r.rank off own
    else if turn plus p (s.placeOn axis r.rank) (s.placeOn axis s.rank) = 1 then
      (s.sendNext axis plus (s.collMsg .reduce i q r.rank 1 off (rsWire l own) [])).addSent i n
    else s

/-- Elements of a layer's reduce-scatter that this module must send (R280). -/
def State.rsRequired (s : State) (i : Nat) : Nat :=
  let l := s.layer i
  sumNat ((s.runsOf i).map fun r => sumNat ((List.range 4).map fun q =>
    let e := quarter (r.rows * lNout l) q
    let a := firstAxis q
    let plus := quarterPlus q
    let t := fun (axis : Bool) => turn plus (s.ring axis) (s.placeOn axis r.rank) (s.placeOn axis s.rank)
    let first := decide (t a < s.ring a)
    let second := decide (t a = s.ring a) && decide (t (!a) < s.ring (!a))
    if first || second then e.2 - e.1 else 0))

/-- Every frame of a layer that this module must send has been sent. -/
def State.rsAllSent (s : State) (i : Nat) : Bool := s.step.rsSent.contains i && s.collSent i == s.rsRequired i

/-- The trained layers that have records, in table order. -/
def State.recLayers (s : State) : List Nat := (s.coll.owners.map (·.1)).filter fun i => lTrained (s.layer i)

/-- The layers reduced in the step, in their order: descending (R280). A frozen layer is not reduced (R191). -/
def State.rsLayers (s : State) : List Nat :=
  (s.trainedLayers.filter fun i => (s.coll.owners ++ s.coll.extra).any fun e => e.1 == i).reverse

/-- The layers that come before `i` in an order. -/
def before (ls : List Nat) (i : Nat) : List Nat := ls.takeWhile (· != i)

/-! ### The small all-reduces (R284): X rings, then Y rings, then the broadcast back; each starts after place 0 and ends at it -/

/-- What a small all-reduce does next: frames (axis, phase, data), a row's result to keep, and the final result. -/
structure Small where
  out : List (Bool × Nat × List Nat)
  acc : Option (List Nat)
  done : Option (List Nat)

/-- The result at the root: broadcast. -/
def smallRoot (xl yl : Nat) (v : List Nat) : Small :=
  ⟨(if 1 < yl then [(true, 3, v)] else []) ++ (if 1 < xl then [(false, 4, v)] else []), none, some v⟩

/-- A row's result at column 0. -/
def smallRow (xl yl y : Nat) (v : List Nat) : Small :=
  if yl ≤ 1 then smallRoot xl yl v else if y = 1 then ⟨[(true, 2, v)], none, none⟩ else ⟨[], some v, none⟩

/-- This module's own value becomes available. -/
def smallStart (xl yl x y : Nat) (own : List Nat) : Small :=
  if xl ≤ 1 then smallRow xl yl y own else if x = 1 then ⟨[(false, 1, own)], none, none⟩ else ⟨[], none, none⟩

/-- A frame arrives; none while it must be held. -/
def smallFrame (xl yl x y phase : Nat) (own acc : Option (List Nat)) (merge : List Nat → List Nat → List Nat) (v : List Nat) : Option Small :=
  match phase with
  | 1 =>
    match own with
    | none => none
    | some o => some (if x = 0 then smallRow xl yl y (merge o v) else ⟨[(false, 1, merge o v)], none, none⟩)
  | 2 =>
    match acc with
    | none => none
    | some a => some (if y = 0 then smallRoot xl yl (merge a v) else ⟨[(true, 2, merge a v)], none, none⟩)
  | 3 => some ⟨(if (y + 1) % yl ≠ 0 then [(true, 3, v)] else []) ++ (if 1 < xl then [(false, 4, v)] else []), none, some v⟩
  | _ => some ⟨if (x + 1) % xl ≠ 0 then [(false, 4, v)] else [], none, some v⟩

/-- Send the frames of a small all-reduce. -/
def State.smallSend (s : State) (c : CollMsg) (r : Small) : State :=
  r.out.foldl (fun (t : State) f => t.sendNext f.1 true { c with phase := f.2.1, data := f.2.2 }) s

/-! ### The norm all-reduce (R255) -/

def Norm.toList (n : Norm) : List Nat := [n.sq, n.nf, n.abs, n.drop, b2n n.sat, n.flags, n.vmin, n.vmax]

def normOf (v : List Nat) : Norm :=
  ⟨v.getD 0 0, v.getD 1 0, v.getD 2 0, v.getD 3 0, v.getD 4 0 != 0, v.getD 5 0, v.getD 6 0, v.getD 7 0⟩

/-- Combine two payloads. -/
def Norm.merge (a b : Norm) : Norm :=
  { sq := min (a.sq + b.sq) (2 ^ 320 - 1), nf := min (a.nf + b.nf) (2 ^ 32 - 1), abs := min (a.abs + b.abs) (2 ^ 32 - 1)
    drop := min (a.drop + b.drop) (2 ^ 64 - 1), sat := a.sat || b.sat || decide (2 ^ 320 ≤ a.sq + b.sq), flags := a.flags ||| b.flags
    vmin := mergeVote false a.vmin b.vmin, vmax := mergeVote true a.vmax b.vmax }

def normMerge (a b : List Nat) : List Nat := ((normOf a).merge (normOf b)).toList

/-- The group payload has arrived: the registers of R255, and the vote (R235). -/
def State.normDone (s : State) (g : Norm) : State :=
  let s := { s with step := { s.step with group := some g }, coll := { s.coll with normOn := false, normAcc := none } }
  let s := (List.range 10).foldl (fun (t : State) i => t.setH .RKE_SQ i (bits g.sq (32 * i) 32)) s
  let s := s.setH .RKE_STAT 0 (min g.nf 0x7FFF + min g.abs 0x7FFF * 2 ^ 15 + b2n g.sat * 2 ^ 30)
  (s.setH .RKE_DROP 0 (min g.drop (2 ^ 32 - 1))).combineVote g.vmin g.vmax

/-- Apply what a norm all-reduce does next. -/
def State.normStep (s : State) (r : Small) : State :=
  let s := s.smallSend (s.collMsg .norm 0 0 0 1 0 [] []) r
  let s := match r.acc with | some a => { s with coll := { s.coll with normAcc := some a } } | none => s
  match r.done with
  | some v => s.normDone (normOf v)
  | none => s

def State.myCol (s : State) : Nat := s.placeOn false s.rank
def State.myRow (s : State) : Nat := s.placeOn true s.rank

/-- A norm frame; none while it must be held. -/
def State.normFrame (s : State) (c : CollMsg) : Option State :=
  (smallFrame (s.ring false) (s.ring true) s.myCol s.myRow c.phase (if s.coll.normOn then some s.step.own.toList else none) s.coll.normAcc
    normMerge c.data).map s.normStep

end Sys2Proof.Machine
end

