-- ==== Sys2Proof/Machine/Factor.lean ====
section
/-! DEFINITION. Curvature statistics (R204-R212): the local scan, the exchange of a statistics step, the fold and publication. -/

namespace Sys2Proof.Machine

/-- A tile of the exchange: factor-table index, side, block, and its place among the upper tiles, row-major. -/
abbrev TileId := Nat × Nat × Nat × Nat

/-- The tiles on or above the diagonal of a block of `t` bands, row-major (R205). -/
def upperTiles (t : Nat) : List (Nat × Nat) :=
  ((List.range t).map fun i => (List.range (t - i)).map fun d => (i, i + d)).flatten

/-- The blocks that take part in an exchange: privileged trained layers in table order, L before Rt, block by block (R206): layer, fidx,
side, block, dimension. -/
def State.exchBlocks (s : State) : List (Nat × Nat × Nat × Nat × Nat) :=
  ((s.layers.filter fun e => lTrained e.2 && lPriv e.2).map fun e =>
    ([0, 1].map fun side => (blockDims (sideDim e.2 side)).mapIdx fun b n => (e.1, lFidx e.2, side, b, n)).flatten).flatten

/-- Where a block of a statistic buffer lies (R203). -/
def State.statBlock (s : State) (fidx side blk k l : Nat) : Nat :=
  let ds := blockDims (sideDim l side)
  fStat (s.factor fidx) side + k % 2 * statSize ds + statMat ds blk

/-- Element `(r, c)` of a statistic block of dimension `n`. -/
def State.statElem (s : State) (base n r c : Nat) : Nat := s.rdN (base + 4 * (r * (64 * tilesOf n) + c)) 4

/-- NaN or infinite. -/
def nonFinite (x : Nat) : Bool := bits x 23 8 == 255

def fpMax (a b : Nat) : Nat := (fp32.maxMin true a b).1

/-- The local scan of a block (R207 step 1): the largest diagonal element of each band, and whether a tile read holds a NaN or infinity. -/
def State.scanBlock (s : State) (k : Nat) (e : Nat × Nat × Nat × Nat × Nat) : Scan :=
  let base := s.statBlock e.2.1 e.2.2.1 e.2.2.2.1 k (s.layer e.1)
  let n := e.2.2.2.2
  let t := tilesOf n
  let mx := (List.range t).map fun i => ((List.range 64).map fun r => s.statElem base n (64 * i + r) (64 * i + r)).foldl fpMax 0
  let bad := (upperTiles t).any fun ij => (List.range 4096).any fun w =>
    nonFinite (s.statElem base n (64 * ij.1 + w / 64) (64 * ij.2 + w % 64))
  ⟨e.2.1, e.2.2.1, e.2.2.2.1, mx, bad⟩

/-- ceil(log2 R). -/
def State.lgr (s : State) : Nat := if s.ranks ≤ 1 then 0 else Nat.log2 (s.ranks - 1) + 1

/-- The exponent of tile (i, j) (R207 step 3). -/
def State.tileExp (s : State) (sc : Scan) (i j : Nat) : Int :=
  let m := fpMax (sc.maxima.getD i 0) (sc.maxima.getD j 0)
  if m % 2 ^ 31 = 0 then -32768 else (dyOfFp m).eb + s.lgr + 1

/-- One tile of this module's statistic in WQ48 (R207 step 4): its elements, and after them how many times it has saturated. (DEDUCED: log 47) -/
def State.ownTile (s : State) (x : Exchange) (layer : Nat) (sc : Scan) (t : Nat) : List Int :=
  let n := (blockDims (sideDim (s.layer layer) sc.side)).getD sc.blk 0
  let base := s.statBlock sc.fidx sc.side sc.blk x.k (s.layer layer)
  let ij := (upperTiles (tilesOf n)).getD t (0, 0)
  let e := s.tileExp sc ij.1 ij.2
  let v := (List.range 4096).map fun w =>
    if e = -32768 then (0, flagNone) else fpToWq e (s.statElem base n (64 * ij.1 + w / 64) (64 * ij.2 + w % 64))
  v.map (·.1) ++ [if v.any fun r => r.2 &&& flagOF != 0 then 1 else 0]

/-- The sum of two tiles; a sum outside WQ48 counts as a saturation (R208). -/
def tileSum (a b : List Int) : List Int :=
  let v := List.zipWith (· + ·) a b
  let e := v.take 4096
  e ++ [v.getD 4096 0 + if e.any fun y => decide (wqMax < y) || decide (y < wqMin) then 1 else 0]

/-! ### Messages -/

/-- A frame of the exchange in progress. -/
def State.exchMsg (s : State) (x : Exchange) (kind : CollKind) (layer q run phase off dpa : Nat) (data : List Nat) : CollMsg :=
  { s.collMsg kind layer q run phase off data [] with step := x.step % 2 ^ 16, replays := x.replays, dpa := dpa }

def packScans (l : List Scan) : List Nat := (l.map fun c => c.maxima ++ [b2n c.flag]).flatten

/-- Read scans of the same shape back. -/
def unpackScans : List Scan → List Nat → List Scan
  | [], _ => []
  | c :: r, v => { c with maxima := v.take c.maxima.length, flag := v.getD c.maxima.length 0 != 0 } :: unpackScans r (v.drop (c.maxima.length + 1))

def mergeScan (a b : Scan) : Scan := { a with maxima := List.zipWith fpMax a.maxima b.maxima, flag := a.flag || b.flag }

def scanMerge (own : List Scan) (a b : List Nat) : List Nat :=
  packScans (List.zipWith mergeScan (unpackScans own a) (unpackScans own b))

/-- The layer of a factor-table index in the exchange. -/
def State.exchLayer (s : State) (fidx : Nat) : Nat := match s.privLayer fidx with | some (i, _) => i | none => 0

/-- A key for a tile's first-phase sum. -/
def tileKey (id : TileId) : Nat := id.1 + 1024 * (id.2.1 + 2 * (id.2.2.1 + 8 * id.2.2.2))

/-- The bits [47:0] of each container, and back. -/
def wire48 (v : List Int) : List Nat := v.map (unsigned 48)
def unwire48 (v : List Nat) : List Int := v.map (signed 48)

/-- A summed tile has arrived, to be folded. -/
def State.tileArrive (s : State) (id : TileId) (v : List Int) : State :=
  match s.step.exch with
  | some x => { s with step := { s.step with exch := some { x with sums := x.sums ++ [(id.1, id.2.1, id.2.2.1, id.2.2.2, v.map (unsigned 64))] } } }
  | none => s

/-- The owner holds the sum of a tile: it sends it to every member (R284), and its own copy takes the same path (R207 step 6). -/
def State.tileLand (s : State) (x : Exchange) (layer q j : Nat) (id : TileId) (v : List Int) : State :=
  (s.gatherSend (s.exchMsg x .tileGather layer q j 1 id.2.2.2 (id.2.1 * 16 + id.2.2.1) (wire48 v))).tileArrive id (unwire48 (wire48 v))

/-- The second phase of a tile. -/
def State.tileSecond (s : State) (x : Exchange) (layer q j : Nat) (id : TileId) (v : List Int) : State :=
  let axis := !firstAxis q
  let p := s.ring axis
  if p ≤ 1 then s.tileLand x layer q j id v
  else if turn (quarterPlus q) p (s.placeOn axis j) (s.placeOn axis s.rank) = 1 then
    s.sendNext axis (quarterPlus q) (s.exchMsg x .tile layer q j 2 id.2.2.2 (id.2.1 * 16 + id.2.2.1) (wire48 v))
  else { s with coll := { s.coll with tiles := Sparse.set (fun _ => ([] : List Int)) s.coll.tiles (tileKey id) v } }

/-- Start one tile on its first axis. -/
def State.tileStart (s : State) (x : Exchange) (layer q j : Nat) (id : TileId) (v : List Int) : State :=
  let axis := firstAxis q
  let p := s.ring axis
  if p ≤ 1 then s.tileSecond x layer q j id v
  else if turn (quarterPlus q) p (s.placeOn axis j) (s.placeOn axis s.rank) = 1 then
    s.sendNext axis (quarterPlus q) (s.exchMsg x .tile layer q j 1 id.2.2.2 (id.2.1 * 16 + id.2.2.1) (wire48 v))
  else s

/-- The quarter of tile `t` of `n` (R277, R284). -/
def tileQuarter (n t : Nat) : Nat := ((List.range 4).find? fun q => decide (t < (quarter n q).2)).getD 3

/-- Exchanges of `n` factor blocks are discarded: NONFIN, and the Rain gauge's record (R208). (DEDUCED: log 47) -/
def State.discarded (s : State) (n : Nat) : State :=
  if n = 0 then s else { s with gauge := { s.gauge with discards := s.gauge.discards + n } }.setHf .STEP_STATSTS 0 2 1 1

/-- The group's maxima and flags are here: a block whose flag is set is discarded, the tiles of the rest are summed (R207, R208). -/
def State.exchScanned (s : State) (x : Exchange) (g : List Scan) : State :=
  let x := { x with group := some g, dropped := (g.filter (·.flag)).map fun c => (c.fidx, c.side, c.blk) }
  let s := { s with step := { s.step with exch := some x }, coll := { s.coll with scanAcc := none } }
  let s := s.discarded x.dropped.length
  (g.filter fun c => !c.flag).foldl (fun (t : State) c =>
    let i := t.exchLayer c.fidx
    let n := (upperTiles c.maxima.length).length
    let j := (t.wholeOwner i).getD 0
    (List.range n).foldl (fun (t : State) k =>
      t.tileStart x i (tileQuarter n k) j (c.fidx, c.side, c.blk, k) (t.ownTile x i c k)) t) s

/-- Apply what the all-reduce of the scans does next. -/
def State.scanStep (s : State) (x : Exchange) (r : Small) : State :=
  let s := s.smallSend (s.exchMsg x .scan 0 0 0 1 0 0 []) r
  let s := match r.acc with | some a => { s with coll := { s.coll with scanAcc := some a } } | none => s
  match r.done with
  | some v => s.exchScanned x (unpackScans x.scans v)
  | none => s

/-- A frame of the exchange's maxima; none while it must be held. -/
def State.scanFrame (s : State) (c : CollMsg) : Option State :=
  match s.step.exch with
  | none => none
  | some x =>
    (smallFrame (s.ring false) (s.ring true) s.myCol s.myRow c.phase (some (packScans x.scans)) s.coll.scanAcc (scanMerge x.scans) c.data).map
      fun r => s.scanStep x r

/-- The tile a frame carries. -/
def State.frameTile (s : State) (c : CollMsg) : TileId := (lFidx (s.layer c.layer), c.dpa / 16, c.dpa % 16, c.off)

/-- A frame of a tile's sum; none while it must be held. -/
def State.tileFrame (s : State) (c : CollMsg) : Option State :=
  match s.step.exch with
  | none => none
  | some x =>
    match x.group with
    | none => none
    | some g =>
      let id := s.frameTile c
      let sc := g.find? fun e => e.fidx == id.1 && e.side == id.2.1 && e.blk == id.2.2.1
      let held := Sparse.get (fun _ => ([] : List Int)) s.coll.tiles (tileKey id)
      let own := if c.phase = 1 then (match sc with | some e => s.ownTile x c.layer e c.off | none => []) else held
      if own.isEmpty then none
      else
        let v := tileSum own (unwire48 c.data)
        let s := if c.phase = 1 then s
          else { s with coll := { s.coll with tiles := Sparse.drop s.coll.tiles (tileKey id) } }
        let axis := if c.phase = 1 then firstAxis c.quarter else !firstAxis c.quarter
        let p := s.ring axis
        if turn (quarterPlus c.quarter) p (s.placeOn axis c.run) (s.placeOn axis s.rank) = p then
          some (if c.phase = 1 then s.tileSecond x c.layer c.quarter c.run id v else s.tileLand x c.layer c.quarter c.run id v)
        else some (s.sendNext axis (quarterPlus c.quarter) { c with data := wire48 v })

/-- A summed tile arrives from its owner; none while the exchange has not begun here. -/
def State.tileGatherFrame (s : State) (c : CollMsg) : Option State :=
  if s.step.exch.isNone then none else some ((s.gatherOn c).tileArrive (s.frameTile c) (unwire48 c.data))

/-! ### The exchange (R206) -/

/-- The gather of a committed step has landed on this module. -/
def State.gatherDone (s : State) : Bool :=
  !s.sharded || (s.coll.gLayers.all fun i => s.collGot i 2 == lElems (s.layer i))

/-! ### The fold (R208-R211) -/

/-- Normalise a tile (R209 step 5). -/
def normTile (v : List Int) (e : Int) : List Int × Int :=
  if v.all (· == 0) then (v, -32768)
  else
    let fits := fun (k : Nat) => v.all fun x => decide (wqMin ≤ x * 2 ^ k) && decide (x * 2 ^ k ≤ wqMax)
    let k := ((List.range 48).reverse.find? fits).getD 0
    (v.map fun x => x * 2 ^ k, e - k)

/-- Combine an arriving sum with the published tile (R209 steps 1-5); none for an empty factor. -/
def foldTile (l : Nat) (sum : List Int) (es : Int) (pub : Option (List Int × Int)) : List Int × Int :=
  let s' := sum.map fun x => rneShift (x * lNmul l) 16
  let es := es - lNsh l
  match pub with
  | none => normTile s' es
  | some (f, ef) =>
    let e := max ef es
    let a := f.map fun x => rneShift x (e - ef)
    let b := s'.map fun x => rneShift x (e - es)
    normTile (List.zipWith (fun x y => rneShift (lBeta l * x + (65536 - lBeta l : Nat) * y) 16) a b) e

/-- A fold may not write a buffer that a running job reads (R211). -/
def State.foldBlocked (s : State) (fidx side : Nat) : Bool :=
  s.allJobs.any fun j => gTgt j.desc && !j.done && j.pub == 1 - s.pubBuf && gFidx j.desc == fidx && gSide j.desc == side

/-- Every tile of every block is folded. -/
def Exchange.complete (x : Exchange) : Bool :=
  match x.group with
  | none => false
  | some g => g.all fun c => (List.range (upperTiles c.maxima.length).length).all fun t => x.done.contains (c.fidx, c.side, c.blk, t)

/-- Record folded tiles; a complete exchange awaits publication. -/
def State.foldDone (s : State) (x : Exchange) : State :=
  if x.complete then { s with step := { s.step with exch := none, folded := some x } }.setHf .STEP_STATSTS 0 0 1 0
  else { s with step := { s.step with exch := some x } }

/-- Whether the exchange of committed statistics step `m` may begin (R206): its all-gather has completed, or, with none, REPLAY of the
next step has been applied; and the fold before it, which holds the other buffer, has been published (R210). -/
def State.exchReady (s : State) (m : Nat) : Bool :=
  s.step.exch.isNone && s.step.folded.isNone && s.gatherDone && (s.sharded || decide (m < s.stepNo))

/-- The exchange of statistics step `m` begins (R206, R207). -/
def State.exchBegin (s : State) (m : Nat) : State :=
  let k := (s.step.statK + 255) % 256
  let scans := s.exchBlocks.map (s.scanBlock k)
  let x : Exchange := ⟨m, k, s.coll.gReplays, scans, none, [], [], [], none⟩
  let s := { s with step := { s.step with due := none, exch := some x } }.setHf .STEP_STATSTS 0 0 1 1
  if scans.isEmpty then s.foldDone { x with group := some [] }
  else s.scanStep x (smallStart (s.ring false) (s.ring true) s.myCol s.myRow (packScans scans))

/-- The published block is copied: its fold for this step (R208). -/
def State.copyBlock (s : State) (fidx side blk l : Nat) : State :=
  let n := (blockDims (sideDim l side)).getD blk 0
  let a := s.facBlock fidx side s.pubBuf blk l
  let b := s.facBlock fidx side (1 - s.pubBuf) blk l
  let m := s.rd a.1 (matBytes n)
  let e := s.rd a.2 (expBytes n)
  (s.wrS b.1 m).wrS b.2 e

/-- A fold waits, or ends its wait, counted in FWAIT in microseconds. -/
def State.foldWait (s : State) (x : Exchange) : State × Exchange :=
  match x.wait with
  | some t => (s.satH .STEP_STATSTS 0 16 16 ((s.sundial - t) / 250), { x with wait := none })
  | none => (s, x)

/-- FACTOR_FOLD_TILE (R208-R211): one summed tile that has arrived is folded into the non-published buffer; a block that was
discarded, or whose sum saturates, takes a copy of its published bits. -/
def execFactorFoldTile (fidx side blk t : Nat) (hbm : List HbmErr) (s : State) : Out :=
  s.hbmRun hbm fun s =>
    match s.step.exch with
    | none => .next s
    | some x =>
      match x.group, s.privLayer fidx with
      | some g, some (_, l) =>
        match g.find? fun c => c.fidx == fidx && c.side == side && c.blk == blk with
        | none => .next s
        | some c =>
          let sum := (x.sums.find? fun e => e.1 == fidx && e.2.1 == side && e.2.2.1 == blk && e.2.2.2.1 == t).map fun e =>
            e.2.2.2.2.map (signed 64)
          let bad := match sum with | some v => decide (v.getD 4096 0 ≠ 0) | none => false
          let drop := x.dropped.contains (fidx, side, blk) || bad
          if x.done.contains (fidx, side, blk, t) ∨ (sum.isNone ∧ drop = false) then .next s
          else if s.foldBlocked fidx side then
            .next { s with step := { s.step with exch := some { x with wait := some (x.wait.getD s.sundial) } } }
          else
            let w := s.foldWait x
            let s := w.1
            let x := w.2
            let n := upperTiles c.maxima.length
            if drop then
              let dropped := if x.dropped.contains (fidx, side, blk) then x.dropped else x.dropped ++ [(fidx, side, blk)]
              let done := x.done ++ (List.range n.length).map fun k => (fidx, side, blk, k)
              .next (((s.discarded (if x.dropped.contains (fidx, side, blk) then 0 else 1)).copyBlock fidx side blk l).foldDone { x with dropped := dropped, done := done })
            else
              let ij := n.getD t (0, 0)
              let w := c.maxima.length
              let a := s.facBlock fidx side s.pubBuf blk l
              let b := s.facBlock fidx side (1 - s.pubBuf) blk l
              let pub := if fPver (s.factor fidx) = pverEmpty then none else some (s.readTile a.1 a.2 (ij.1 * w + ij.2))
              let r := foldTile l ((sum.getD []).take 4096) (s.tileExp c ij.1 ij.2) pub
              let s := s.writeTile b.1 b.2 (ij.1 * w + ij.2) r.1 r.2
              let s := if ij.1 = ij.2 then s else s.writeTile b.1 b.2 (ij.2 * w + ij.1) (flipTile r.1) r.2
              .next (s.foldDone { x with done := x.done ++ [(fidx, side, blk, t)] })
      | _, _ => .next s

/-- The blocks of the factors that took no part in an exchange keep their published bits under the buffer about to be published (R191, R205).
(DEDUCED: log 47) -/
def State.keepFactors (s : State) (x : Exchange) : State :=
  (s.layers.filter fun e => lValid e.2 && lPriv e.2 && !(x.scans.any fun c => c.fidx == lFidx e.2)).foldl (fun (t : State) e =>
    [0, 1].foldl (fun (t : State) side =>
      (List.range (blockDims (sideDim e.2 side)).length).foldl (fun (t : State) b => t.copyBlock (lFidx e.2) side b e.2) t) t) s

/-- Publication (R210): PUB toggles and the folded entries take the statistics step's number. -/
def State.publishFactors (s : State) : State :=
  match s.step.folded with
  | none => s
  | some x =>
    let s := s.keepFactors x
    let s := (x.scans.map (·.fidx)).eraseDups.foldl (fun (t : State) f => t.setFactorField f 192 64 x.step) s
    { s with step := { s.step with folded := none } }.setHf .STEP_STATSTS 0 4 1 (1 - s.pubBuf)

/-- The count k moves: PAR and KLOW follow it. -/
def State.setStatK (s : State) (k : Nat) : State :=
  ({ s with step := { s.step with statK := k } }.setHf .STEP_STATSTS 0 1 1 (k % 2)).setHf .STEP_STATSTS 0 8 8 (k % 256)

end Sys2Proof.Machine
end

