-- ==== Sys2Proof/Machine/Rules.lean ====
section
/-! DEFINITION. The arithmetic of the update: the rules of R247-R249, the bias corrections, and the Sieve's numbers (R256, R258). -/

namespace Sys2Proof.Machine

/-! ### FP32, rounded to nearest even -/

def fAdd (a b : Nat) : Nat := (fp32.add .rne a b).1
def fSub (a b : Nat) : Nat := (fp32.sub .rne a b).1
def fMul (a b : Nat) : Nat := (fp32.mul .rne a b).1
def fDiv (a b : Nat) : Nat := (fp32.div .rne a b).1
def fSqrt (a : Nat) : Nat := (fp32.sqrt .rne a).1

/-- FP32 one. -/
def fOne : Nat := 0x3F800000

/-- FP32 of a count. -/
def fOfNat (n : Nat) : Nat := fp32Of n 0

/-- sign(x): +1, −1, or x's own zero; a NaN gives the canonical one (R247). -/
def fSign (x : Nat) : Nat :=
  match fp32.decode x with
  | .nan _ => fp32.canNan
  | .inf n => if n then 0xBF800000 else fOne
  | .fin n m _ => if m = 0 then (if n then 0x80000000 else 0) else if n then 0xBF800000 else fOne

/-- A hyperparameter set (R245). -/
structure Hyper where
  eta : Nat
  b1 : Nat
  b2 : Nat
  eps : Nat
  lam : Nat
  mu : Nat
  deriving DecidableEq, Repr

def hyperOf (w : List Nat) : Hyper := ⟨w.getD 0 0, w.getD 1 0, w.getD 2 0, w.getD 3 0, w.getD 4 0, w.getD 5 0⟩

/-- w' = w − η × (u + λ × w). -/
def Hyper.final (h : Hyper) (w u : Nat) : Nat := fSub w (fMul h.eta (fAdd u (fMul h.lam w)))

/-- a × x + (1 − a) × y. -/
def fMix (a x y : Nat) : Nat := fAdd (fMul a x) (fMul (fSub fOne a) y)

/-- New S0 and S1 of one element (R248, R249), FACT apart. `g` is the scaled gradient, or the direction. -/
def ruleState (rule : Nat) (h : Hyper) (g m v : Nat) : Nat × Nat :=
  match rule with
  | 1 => (fAdd (fMul h.mu m) g, v)
  | 2 => (fAdd (fMul h.mu m) g, v)
  | 3 => (fMix h.b1 m g, fMix h.b2 v (fMul g g))
  | 4 => (fMix h.b2 m g, v)
  | 6 => (fAdd (fMul h.mu m) g, v)
  | 7 => (fAdd (fMul h.mu m) g, v)
  | _ => (m, v)

/-- u of one element, from the new state `m'`, `v'` and the old `m`. -/
def ruleU (rule : Nat) (h : Hyper) (bc1 bc2 g m m' v' : Nat) : Nat :=
  match rule with
  | 1 => m'
  | 2 => fAdd g (fMul h.mu m')
  | 3 => fDiv (fMul m' bc1) (fAdd (fSqrt (fMul v' bc2)) h.eps)
  | 4 => fSign (fMix h.b1 m g)
  | 6 => m'
  | 7 => m'
  | _ => g

/-- A sum in ascending order, left to right. -/
def fSum (xs : List Nat) : Nat :=
  match xs with
  | [] => 0
  | x :: r => r.foldl fAdd x

/-- FACT's new accumulators (R248): rows, then columns. `g` is the layer's scaled gradient, row-major. -/
def factState (h : Hyper) (nin nout : Nat) (g r c : List Nat) : List Nat × List Nat :=
  let sq := g.map fun x => fMul x x
  let r' := (List.range nin).map fun i =>
    fMix h.b2 (r.getD i 0) (fAdd (fDiv (fSum ((sq.drop (i * nout)).take nout)) (fOfNat nout)) h.eps)
  let c' := (List.range nout).map fun j =>
    fMix h.b2 (c.getD j 0) (fAdd (fDiv (fSum ((List.range nin).map fun i => sq.getD (i * nout + j) 0)) (fOfNat nin)) h.eps)
  (r', c')

/-- FACT's u. -/
def factU (nin nout : Nat) (g r' c' : List Nat) : List Nat :=
  let d := fDiv (fSum r') (fOfNat nin)
  (List.range (nin * nout)).map fun e =>
    fDiv (g.getD e 0) (fSqrt (fDiv (fMul (r'.getD (e / nout) 0) (c'.getD (e % nout) 0)) d))

/-- β^t in FP64 by square-and-multiply from the most significant bit of `t` down (R247). -/
def powBits (b : Nat) (t : Nat) : Nat → Nat → Nat
  | 0, acc => acc
  | k + 1, acc =>
    let sq := (fp64.mul .rne acc acc).1
    powBits b t k (if bit t k then (fp64.mul .rne sq b).1 else sq)

/-- 1 / (1 − β^t) (R247 steps 1-3). (DEDUCED: log 26) -/
def biasCorr (beta t : Nat) : Nat :=
  let b := (convert fp32 fp64 .rne beta).1
  let pw := powBits b t (Nat.log2 t) b
  let d := (fp64.sub .rne 0x3FF0000000000000 pw).1
  match fp64.decode d with
  | .fin n m e =>
    if m = 0 then 0
    else
      let q := quot 60 1 m (-e)
      (fp32.round .rne n q.1 q.2.1 q.2.2).1
  | _ => 0

/-! ### The Sieve's numbers -/

/-- gn: √(SQ · 2^−160), correctly rounded (R256). -/
def gradNorm (sq : Nat) : Nat :=
  if sq = 0 then 0
  else
    let r := sqrtDy 64 sq (-160)
    (fp32.round .rne false r.1 r.2.1 r.2.2).1

/-- Q > x² for an FP32 threshold (never for +∞). -/
def overSquare (sq x : Nat) : Bool :=
  match fp32.decode x with
  | .fin _ m e => dyGt sq (-160) (m * m) (2 * e)
  | _ => false

/-- Q > (x · y)², the product exact. -/
def overProduct (sq x y : Nat) : Bool :=
  match fp32.decode x, fp32.decode y with
  | .fin _ m e, .fin _ k f => dyGt sq (-160) (m * k * (m * k)) (2 * (e + f))
  | _, _ => false

/-- Insert into a rising list. -/
def insertUp (x : Nat) : List Nat → List Nat
  | [] => [x]
  | y :: r => if x ≤ y then x :: y :: r else y :: insertUp x r

/-- The median: the 8th smallest of 16 (R260). FP32 codes of norms rise with their values. -/
def median (w : List Nat) : Option Nat :=
  if w.length = 16 then (w.foldr insertUp [])[7]? else none

/-- k = c × 2^−LS, rounded once (R258). -/
def stepFactor (c : Nat) (ls : Int) : Nat :=
  match fp32.decode c with
  | .fin n m e => (fp32.round .rne n m (e - ls) false).1
  | _ => c

/-- FP32 2^LS (R259). -/
def lossScale (ls : Int) : Nat := (fp32.round .rne false 1 ls false).1

/-- Whether a hyperparameter set is valid (R246); `guard` asks for ε > 0. -/
def hyperOk (h : Hyper) (guard : Bool) : Bool :=
  let fin := fun (x : Nat) => bits x 23 8 != 255
  let nonneg := fun (x : Nat) => x < 2 ^ 31 || x == 2 ^ 31
  let unit := fun (x : Nat) => nonneg x && decide (x % 2 ^ 31 < fOne)
  fin h.eta && fin h.b1 && fin h.b2 && fin h.eps && fin h.lam && fin h.mu && nonneg h.eta && nonneg h.lam && unit h.b1 && unit h.b2
    && unit h.mu && (!guard || (decide (0 < h.eps) && decide (h.eps < 2 ^ 31)))

end Sys2Proof.Machine
end

