-- ==== Sys2Proof/Machine/Boundary.lean ====
section
/-! DEFINITION. The step boundary (R23, R24): broadcast patches (R135), what a boundary begins with, the order of its actions, REPLAY
(R131, R246), the issue ramp (R398) and the phase switch (R197). -/

namespace Sys2Proof.Machine

/-! ### Broadcast patches (R135) -/

/-- Write consecutive shadow registers of a core. -/
def Core.patchShadow (first : Nat) (vals : List Nat) (c : Core) : Core :=
  { c with regs := (List.range vals.length).foldl (fun g i => sg g .CORE_PRMS (first + i) (vals.getD i 0)) c.regs }

/-- The Shed accepts a broadcast patch. -/
def State.addPatch (s : State) (first : Nat) (vals : List Nat) : State :=
  { s with step := { s.step with patches := s.step.patches ++ [⟨none, first, vals⟩] } }

/-- BROADCAST_PATCH_LAND (R135): the oldest accepted broadcast patch lands in every core it targets. -/
def execBroadcastPatchLand (s : State) : Out :=
  match s.step.patches with
  | [] => .next s
  | p :: rest =>
    let cores := match p.rect with
      | none => s.cores.map (Core.patchShadow p.first p.vals)
      | some (x0, y0, x1, y1, m) => s.cores.mapAt (rectCores x0 y0 x1 y1 m) (Core.patchShadow p.first p.vals)
    .next { s with cores := cores, step := { s.step with patches := rest } }

/-! ### Beginning a boundary -/

/-- The step that comes next. -/
def State.nextStep (s : State) : Nat := if s.step.starting then s.stepNo else s.stepNo + 1

/-- Whether step `n` in a phase is a statistics step (R204); `gen` says it is a GENERATE step. -/
def State.statStep (s : State) (n : Nat) (gen : Bool) : Bool :=
  let k := bits s.step.statCfg 0 16
  !gen && !s.step.starting && decide (k ≠ 0) && decide (n % k = 0)

/-- The patch of the statistics flag (R204). -/
def State.statPatch (s : State) (gen : Bool) : State :=
  if bit s.step.statCfg 22 then s.addPatch (bits s.step.statCfg 16 6) [b2n (s.statStep s.nextStep gen)] else s

/-- The patches every boundary accepts (R192, R197, R204, R259). -/
def State.boundaryPatches (s : State) : State :=
  let s := (s.layers.filter fun e => lValid e.2 && lFpv e.2).foldl (fun (t : State) e => t.addPatch (lFprm e.2) [b2n (lFrozen e.2)]) s
  let s := if s.step.prePatch then
      { s.addPatch (s.hf .STEP_CFG 0 7 6) [0] with step := { (s.addPatch (s.hf .STEP_CFG 0 7 6) [0]).step with prePatch := false } }
    else s
  let s := s.statPatch (s.hf .STEP_CFG 0 1 1 = 1)
  let s := if bit s.step.statCfg 29 then s.addPatch (bits s.step.statCfg 23 6) [s.step.statK % 256] else s
  if s.hf .SIV_CFG 0 3 1 = 1 then s.addPatch (s.hf .SIV_CFG 0 4 6) [lossScale (signed 8 (s.hf .SIV_LS 0 0 8))] else s

/-- ROOT_STALE_CHECK (R251): each KRON layer whose STALE_AGE is beyond its STALEMAX. -/
def State.staleCheck (s : State) : State :=
  (s.layers.filter fun e => lValid e.2 && lRule e.2 == 6).foldl (fun (t : State) e =>
    let f := t.factor (lFidx e.2)
    if lStaleMax e.2 < max (fStale f 0) (fStale f 1) then
      let t := t.event St.ROOT_STALE 0 0 e.1
      if lStaleHalt e.2 then { t with step := { t.step with held := St.ROOT_STALE } } else t
    else t) s

/-- The layer the next audit takes (R264). -/
def State.auditLayer (s : State) : Option Nat :=
  let ls := s.coll.owners.map (·.1)
  match ls.find? fun i => decide (s.hf .UPD_AUDIT 0 16 12 ≤ i) with
  | some i => some i
  | none => ls.head?

/-- What has landed of an audit is let go: it begins again (R264). -/
def Coll.auditClear (c : Coll) : Coll :=
  { c with sent := c.sent.filter fun e => e.1 % 4 != 3, got := c.got.filter fun e => e.1 % 4 != 3 }

/-- An audit falls due after INTERVAL committed steps. -/
def State.auditBegin (s : State) : State :=
  let s := { s with coll := s.coll.auditClear }
  let k := s.hf .UPD_AUDIT 0 0 16
  if k ≠ 0 ∧ k ≤ s.step.auditIn then { s with step := { s.step with audit := s.auditLayer, auditIn := 0 } } else s

/-- Layer-table writes that waited for a boundary (R199). A layer trained now that the shard table does not hold is reduced by the owner map
of the layers trained now (R191, R275); it has no record to sweep. (DEDUCED: log 42) -/
def State.mergeLayers (s : State) : State :=
  let ls := s.layersNext.foldl (fun m e => Sparse.set (fun _ => 0) m e.1 e.2) s.layers
  let extra := (ownerMap ls).filter fun e => !(s.coll.owners.any fun o => o.1 == e.1)
  { s with layers := ls, layersNext := [], coll := { s.coll with extra := extra } }

/-- The median window empties (R260). -/
def State.windowClear (s : State) : State :=
  if s.sieve.clear then { s with sieve := { s.sieve with window := [], clear := false } }.setHf .SIV_STAT 0 3 1 0 else s

/-- The job ends (R335): no job runs after it, and its tickets end. UPD_STEP has the number of the boundary's next step; a step that ends
undecided keeps its own. (DEDUCED: log 34) -/
def State.endJob (s : State) : State :=
  let n := if s.step.phase == .running && !s.step.decided then s.stepNo else s.nextStep
  let s := { s with step := s.step.ended }.setStepNo n
  (s.endOp 0xD031 St.OK).endOp 0xD030 St.ABORTED

/-- A boundary begins (R23): everything the spec ties to its beginning. -/
def State.openBoundary (s : State) : State :=
  let s := { s with step := { s.step with phase := .boundary 1, bound := s.sundial } }.mergeLayers
  let s := { s with step := { s.step with statCfg := s.h .STEP_STATCFG }, grafters := s.grafters.map Grafter.applyRgn }
  (s.windowClear.staleCheck.boundaryPatches).auditBegin

/-- The boundary of the step in progress begins; a job that was told to stop ends here. -/
def State.beginBoundary (s : State) : State :=
  let s := if s.step.stat then s.sampleN 52 (s.hf .STEP_STATSTS 0 16 16) else s
  if s.step.stopping then s.openBoundary.endJob else s.openBoundary

/-! ### The order of actions (R24) -/

/-- Whether a die of a cluster's region holds a job. -/
def State.regionBusy (s : State) (ci : Nat) : Bool :=
  match s.regionSlot ci with
  | some i => ((s.grafter (dieOf ci)).slots.getD i none).isSome
  | none => false

/-- The lowest-numbered spare of a cluster that is neither used nor dead (R345). -/
def freeSpare (m : Nat) : Option Nat := (List.range 4).find? fun i => !bit m (8 * i + 6) && !bit m (8 * i + 7)

def State.spareOf (s : State) (ci : Nat) : Option Nat := freeSpare (rg (s.cluster ci).regs .CLU_SPMAP)

/-- Retired cores whose swap can run at this boundary. -/
def State.swaps (s : State) : List Nat := s.rel.retire.filter fun gi => !s.regionBusy (coreCi gi) && (s.spareOf (coreCi gi)).isSome

/-- A snapshot opens at this boundary (R355), before its actions. -/
def State.snapshotDue (s : State) : Bool :=
  s.hrv == 1 && s.step.phase == .boundary 1 && !s.step.starting && decide (s.harvest.target ≤ s.stepNo)
    && !(s.step.stat && s.step.commit) && s.coll.perm.isNone

/-- Whether action `k` of R24 is due. -/
def State.actionDue (s : State) (k : Nat) : Bool :=
  match k with
  | 1 => !s.step.repairs.isEmpty
  | 2 => !s.swaps.isEmpty || !s.rel.divider.isEmpty
  | 3 => s.coll.perm.isSome
  | 4 => s.rel.bist.isSome
  | 5 => s.hf .STEP_CFG 0 1 1 != s.hf .STEP_CFG 0 2 1
  | _ => false

/-- The next action a boundary has reached, none outside one: its number, or 6 when REPLAY is next. -/
def State.nextAction (s : State) : Option Nat :=
  match s.step.phase with
  | .boundary a => if s.snapshotDue then none else some (((List.range 5).find? fun i => decide (a ≤ i + 1) && s.actionDue (i + 1)).elim 6 (· + 1))
  | _ => none

/-- Action `k` runs now. -/
def State.atAction (s : State) (k : Nat) : Bool := s.nextAction == some k

/-- An action is complete. -/
def State.afterAction (s : State) (k : Nat) : State := { s with step := { s.step with phase := .boundary (k + 1) } }

/-! ### REPLAY (R131, R246) -/

/-- The list the core takes at REPLAY is valid. -/
def Core.listValid (c : Core) : Bool := bit (rg c.regs .CORE_LIST (rf c.regs .CORE_LSEL 0 0 2)) 15

/-- The engine reset of R132. (DEDUCED: log 36) (DESIGN CHOICE: log 96) -/
def Core.engineReset (c : Core) : Core :=
  let regs := (List.range 32).foldl (fun g i => sg g .CORE_TOK i 0) c.regs
  let regs := sf (sf (sf regs .CORE_STAT 0 0 4 0) .CORE_DSTAT 0 0 2 0) .CORE_DSTAT 0 16 16 0
  { c with regs := regs, win := [], comp := none, tq := [], idle := [], rep := none, stop := 0, haltReq := false, front := none, take := none }

/-- Start the list in use from entry 0, or stay IDLE when it is not valid. -/
def Core.startList (c : Core) (valid : Bool) : Core :=
  { c with win := [], rep := none, fetch := 0, fetchEnd := false, beyond := false, frontSrc := none, stop := 0 }.setState (if valid then 1 else 0)

/-- Copy PRM00-PRM63 of the shadow bank to the active bank. -/
def Core.copyPrm (c : Core) : Core :=
  { c with regs := (List.range 64).foldl (fun g i => sg g .CORE_PRM i (rg c.regs .CORE_PRMS i)) c.regs }

/-- The replay images of R158, for step `n`. -/
def Core.takeImages (n : Nat) (c : Core) : Core :=
  { c with send := c.send.map fun x => { x with imgCredit := x.credit, imgSeq := x.seq }
           recv := c.recv.map fun x =>
             if x.early ∧ x.imgStep = n then { x with early := false }
             else { x with imgNext := x.next, imgArmed := x.armed, imgStep := n, early := false } }

/-- REPLAY of step `n` on one core. -/
def Core.replay (n : Nat) (c : Core) : Core :=
  let c := if c.state = 2 ∨ c.halted then c.engineReset else c
  let v := c.listValid
  let c := { c.copyPrm with regs := sf c.copyPrm.regs .CORE_LSEL 0 2 2 (rf c.regs .CORE_LSEL 0 0 2) }
  (c.startList v).takeImages n

/-- The clusters that Grafter regions hold. -/
def State.regionClusters (s : State) : List Nat :=
  (List.range 8).foldl (fun acc k => (s.grafter k).rgn.foldl (fun acc r => acc ++ rgnClusters k r) acc) []

/-- A cluster at REPLAY: no core has completed, its interrupt is raised, its ramp group waits. -/
def Cluster.replayed (step : Bool) (c : Cluster) : Cluster :=
  let regs := sf c.regs .CLU_STAT 0 0 7 0
  let c := { c with regs := regs, released := false }
  if step then { c with regs := sf regs .CLU_STAT 0 7 1 1, irq := c.irq || rf c.regs .CSP_CTL 0 1 1 == 1 } else c

/-- REPLAY, or a step replay, of every cluster and core: those of Grafter regions are passed over, and count as complete (R213). (DEDUCED: log 35) -/
def State.replayAll (s : State) (step : Bool) (f : Core → Core) : State :=
  let rc := s.regionClusters
  let s := { s with cores := s.cores.mapBut (rc.map coresOf).flatten f, clusters := s.clusters.map (Cluster.replayed step) }
  rc.foldl (fun (t : State) ci => t.setCf ci .CLU_STAT 0 0 7 64) s

/-- The cores whose selected list is not valid raise DESC_FAULT (CORE_LSEL). (DEDUCED: log 37) -/
def State.badLists (s : State) : List Nat :=
  let rc := s.regionClusters
  (s.cores.units nCores fun c => !c.listValid).filter fun gi => !rc.contains (coreCi gi)

/-- HPARAM_CHECK (R246): the first set a trained layer names whose shadow words are not valid. -/
def State.badHyper (s : State) : Option Nat :=
  (List.range 16).find? fun k =>
    let ls := (s.layers.filter fun e => lTrained e.2 && lHset e.2 == k).map (·.2)
    !ls.isEmpty && !hyperOk (hyperOf ((List.range 8).map fun w => s.h .UPD_HPS (8 * k + w))) (ls.any fun l => lRule l == 3 || lRule l == 5)

/-- Layers whose gather of the committed step has still to land (R196). -/
def State.gatherOwed (s : State) : List Nat :=
  if s.sharded ∧ s.step.commit ∧ s.step.starting = false then s.coll.gLayers.filter fun i => s.collGot i 2 != lElems (s.layer i) else []

/-- The Sieve's settings as REPLAY finds them (R257). -/
def State.latchSieve (s : State) : State :=
  { s with sieve := { s.sieve with cfg := s.h .SIV_CFG, ceil := s.h .SIV_CEIL, clipn := s.h .SIV_CLIPN, spike := s.h .SIV_SPIKE, ls := s.h .SIV_LS, nfDone := false } }

/-- Whether REPLAY of the next step may be applied: every action is done, nothing holds, every accepted patch has landed, and the module
is in RUN (R393). (DEDUCED: log 95) -/
def State.mayReplay (s : State) : Bool :=
  s.atAction 6 && s.step.held == 0 && s.hf .SIV_STAT 0 4 1 == 0 && s.step.patches.isEmpty && s.hf .SDL_LAUNCHHI 0 31 1 == 0
    && (s.sharded || s.step.sweepWait.isEmpty) && !s.step.recover
    && (match s.step.exch with | some x => decide (s.stepNo ≤ x.step) | none => true)
    && (match s.step.due with | some m => decide (s.stepNo ≤ m) | none => true)
    && s.hf .PWR_STATE 0 0 3 == 0 && s.hf .PWR_STATE 0 6 2 == 0 && s.rst.compute && !s.rst.refLost

/-- What the step in progress starts with. -/
def StepState.begin (x : StepState) (act : Nat) (stat : Bool) (now : Nat) : StepState :=
  { x with phase := .running, first := x.starting, starting := false, launch := 0, act := act, closed := false, own := Norm.zero
           group := none, decided := false, commit := false, swept := [], late := 0, k := 0, faulted := false, recover := false
           recovered := false, gdone := [], ddone := [], rsSent := [], landed := [], stat := stat, begun := now, ramp := now }

/-- Collective progress of a step that starts or restarts: gathers and the exchange go on (R285), an audit begins again. -/
def Coll.begin (c : Coll) : Coll :=
  { c with partials := [], sent := [], got := c.got.filter fun e => e.1 % 4 == 2, normOn := false, normAcc := none }

/-- REPLAY of the next step is applied (R131, R210, R235, R240, R245). -/
def State.applyReplay (s : State) : State :=
  let was := s.step.starting
  let owed := s.gatherOwed
  let n := s.nextStep
  let s := s.sampleUs 44 (s.sundial - s.step.bound)
  let s := (if was then s else s.sampleUs 42 (s.sundial - s.step.begun)).setStepNo n
  let s := (List.range 128).foldl (fun (t : State) i => t.setH .UPD_HP i (t.h .UPD_HPS i)) s.latchSieve
  let s := if s.step.folded.any fun x => decide (x.step + 2 ≤ n) then s.publishFactors else s
  let s := s.publishRoots
  let s := if was then { s with step := { s.step with voteFrom := n } } else s
  let gen := s.hf .STEP_CFG 0 2 1 = 1
  let stat := { s with step := { s.step with starting := was } }.statStep n gen
  let bad := s.badLists
  let s := { s with step := s.step.begin (s.hf .STEP_CFG 0 0 1) stat s.sundial, coll := s.coll.begin, rake := Rake.init }
  let s := (s.setHf .UPD_STAT 0 2 2 0).endQuiesce.replayAll true (Core.replay n)
  let s := { s with harvest := { s.harvest with draining := s.hrv == 2, inStep := 0 } }
  let s := bad.foldl (fun (t : State) gi => t.coreFault gi 3 0) s
  (s.addFinal (s.validLayers.filter fun i => !owed.contains i)).endOp 0xD030 St.OK

/-- RAMP_GROUP_RELEASE (R398): ramp group `g` is released `g` × 1.25 µs after REPLAY (312.5 ticks each). -/
def execRampGroupRelease (g : Nat) (s : State) : Out :=
  if g < 8 ∧ 625 * g ≤ 2 * (s.sundial - s.step.ramp) then
    let cis := s.clusters.units nClusters fun c => !c.released
    .next { s with clusters := s.clusters.mapAt (cis.filter fun ci => (ci % 128 + ci / 128) % 8 == g) fun c => { c with released := true } }
  else .next s

/-- LAUNCH_TIME (R316): the Sundial has reached SDL_LAUNCH.TIME with a REPLAY held: ARM clears, and the REPLAY may proceed. -/
def execLaunchTime (s : State) : Out :=
  if s.hf .SDL_LAUNCHHI 0 31 1 = 1 ∧ s.atAction 6 ∧ s.launchTime ≤ s.sundial then .next (s.setHf .SDL_LAUNCHHI 0 31 1 0) else .next s

/-- PHASE_SWITCH (R197): CLU_LSEL of every cluster, the phase-entry flag, and PHASE_EFF. -/
def execPhaseSwitch (s : State) : Out :=
  if s.atAction 5 then
    let gen := s.hf .STEP_CFG 0 1 1
    let sel := if gen = 1 then s.hf .STEP_CFG 0 5 2 else s.hf .STEP_CFG 0 3 2
    let s := { s with cores := s.cores.map fun c => { c with regs := sf c.regs .CORE_LSEL 0 0 2 sel } }
    let s := s.statPatch (gen = 1)
    let s := if s.hf .STEP_CFG 0 13 1 = 1 then s.addPatch (s.hf .STEP_CFG 0 7 6) [1] else s
    let s := { s with step := { s.step with prePatch := s.step.prePatch || s.hf .STEP_CFG 0 13 1 == 1 } }
    .next ((s.setHf .STEP_CFG 0 2 1 gen).afterAction 5)
  else .next s

/-- SIEVE_RESUME (R261): a write of SIV_STAT.RESUME leaves the halt and clears CONSEC. -/
def execSieveResume (s : State) : Out :=
  if s.hf .SIV_STAT 0 4 1 = 1 then .next ((s.setHf .SIV_STAT 0 4 1 0).setHf .SIV_STAT 0 8 8 0) else .next s

/-- WINDOW_CLEAR (R260): a write of SIV_STAT.WCLR empties the median window at the next boundary. -/
def execWindowClear (s : State) : Out := .next { s with sieve := { s.sieve with clear := true } }

end Sys2Proof.Machine
end

