-- ==== Sys2Proof/Machine/Fronts.lean ====
section
/-! DEFINITION. Weight fronts (R173-R178): launches, streams, markers, tiles and FILL_IN; and RAKE_SQ's delivery to its Rake node
(R252, R253). -/

namespace Sys2Proof.Machine

/-- A write of CLU_FRONTGO made at a tick: the request is sent while the controller's 64 places allow, else the write is held (R173). -/
def State.frontGoAt (s : State) (who : Agent) (ci k entry tick : Nat) : State :=
  if s.frontLoad k < 64 ∧ (s.frontHeld.all fun h => h.who != who) ∧ (s.cluster ci).quiet = false then s.frontSend ci k entry
  else { s with frontHeld := s.frontHeld ++ [⟨who, ci, k, entry, tick⟩] }

/-- A write of CLU_FRONTGO. -/
def State.frontGo (s : State) (who : Agent) (ci k entry : Nat) : State := s.frontGoAt who ci k entry s.sundial

/-- FRONT_LAUNCH_REQUEST (R173): the request at place `n` reaches its controller and is queued. -/
def execFrontLaunchRequest (n : Nat) (flits : List FlitErr) (s : State) : Out :=
  match s.takePacket n with
  | none => .next s
  | some (p, t) =>
    match p.body, p.src with
    | .frontReq k entry, .cluster ci =>
      let r := t.flits p flits
      if r.2 then .next r.1 else .next { r.1 with frontQ := r.1.frontQ ++ [(k, entry, ci)] }
    | _, _ => .next s

/-- Whether a front-table entry may be launched (R173). -/
def frontOk (e : Nat) : Bool :=
  bit e 85 && decide (bits e 0 48 % 32 = 0) && decide (1 ≤ bits e 48 8) && decide (bits e 48 8 ≤ 136)
    && decide (1 ≤ bits e 56 10) && decide (bits e 73 6 ≤ 39)

/-- The payloads of one tile: packets of at most 128 flits (R175). -/
def tilePackets (data : List Byte) : List (List Byte) :=
  if data.length ≤ 4096 then [data] else [data.take 4096, data.drop 4096]

/-- The packets of a stream: the marker, then the tiles in order (R174, R175). -/
def frontBodies (tile nc : Nat) (data : List Byte) : List Payload :=
  .frontMark tile nc ::
    ((List.range nc).map fun i =>
      (tilePackets ((data.drop (32 * tile * i)).take (32 * tile))).map fun d => Payload.frontTile tile nc d).flatten

/-- Controller `k` starts its oldest queued front (R173); `hbm` are errors its reading meets. -/
def State.startStream (s : State) (k : Nat) (hbm : List HbmErr) : State :=
  match s.frontQ.zipIdx.find? fun e => e.1.1 == k with
  | none => s
  | some ((_, entry, _), i) =>
    if 16 ≤ (s.streams.filter fun f => f.stack == k).length ∨ s.quietG.contains (.hbm k) then s
    else
      let s := { s with frontQ := s.frontQ.eraseIdx i }.frontRelease k
      let e := Sparse.get (fun _ => 0) s.frontTab (256 * k + entry)
      if frontOk e = false then s.notice (.hbm k) St.FRONT_BROKEN k 0
      else
        let tile := bits e 48 8
        let nc := bits e 56 10
        let head := coreOf (bits e 66 7 + 128 * bits e 73 6) (bits e 79 6)
        let d := s.readAt (bits e 0 48) (32 * tile * nc) hbm
        let bodies := frontBodies tile nc d.1
        let t := bodies.foldl (fun (t : State) b => t.inject (.hbm k) (.core head) .tc2q b) d.2
        { t with streams := t.streams ++ [⟨k, head, bodies.length⟩] }

/-- One packet of a controller's stream has reached its head core. -/
def State.streamed (s : State) (p : Packet) : State :=
  match p.src, p.dst with
  | .hbm k, .core gi =>
    match s.streams.findIdx? fun f => f.stack == k && f.head == gi with
    | none => s
    | some i =>
      match s.streams[i]? with
      | none => s
      | some f =>
        if f.left ≤ 1 then { s with streams := s.streams.eraseIdx i }
        else { s with streams := s.streams.set i { f with left := f.left - 1 } }
  | _, _ => s

/-- A front fault (R177). -/
def State.frontFault (s : State) (gi : Nat) : State :=
  (s.modCore gi fun c => { c with regs := sf c.regs .CORE_FRONT 0 21 1 1 }).notice (.cluster (coreCi gi)) St.FRONT_BROKEN (coreK gi) 0

/-- The sender test of R177: the first FRONT packet since REPLAY fixes the sender. -/
def State.frontSender (s : State) (gi : Nat) (src : Endpoint) : State × Bool :=
  let c := s.core gi
  match c.frontSrc with
  | none => (s.setCore gi { c with frontSrc := some src }, true)
  | some e => if e = src then (s, true) else (s.frontFault gi, false)

/-- The next core of the chain (R176). -/
def Core.nextInChain (c : Core) : Option Nat :=
  let r := rg c.regs .CORE_FRONT
  if bit r 19 then some (coreOf (bits r 0 7 + 128 * bits r 7 6) (bits r 13 6)) else none

/-- A FILL_IN at the head of the transfer engine takes the marker that is held (R176 steps 3 and 4, R75). -/
def State.takeMarker (s : State) (gi : Nat) : State :=
  let c := s.core gi
  match c.tqReady opFillIn, c.front with
  | some r, some (tile, left) =>
    if r.wait then s
    else
      let slot := c.fillSlotOf r.desc
      if c.passReads slot then s.slotHazard gi slot r.idx
      else
        let ptr := if dFslot r.desc = 2 then slot else c.slotPtr
        let c := { c.setPend slot true with slotPtr := ptr, front := none, take := some ⟨tile, left, 0⟩ }
        let t := s.setCore gi (c.setTq { r with wait := true, slot := slot, got := [] })
        let short := decide (32 * tile < fillSize (hget r.hs (dH r.desc 0)) (dFsfmt r.desc) (dFk r.desc))
        let t := if short then t.frontFault gi else t
        if left ≤ 1 then t
        else
          match c.nextInChain with
          | some g => t.offer gi (.core g) .tc2q (.frontMark tile (left - 1))
          | none => t.frontFault gi
  | _, _ => s

/-- FILL_IN (R176): with a marker held, the FILL_IN at the transfer head resolves its slot and starts its fill. -/
def execFillIn (gi : Nat) (s : State) : Out := .next (s.takeMarker gi)

/-- FRONT_MARKER (R176): the marker at place `n` reaches a core that has passed every earlier stream, and is taken by a waiting
FILL_IN or held. -/
def execFrontMarker (n : Nat) (flits : List FlitErr) (s : State) : Out :=
  match s.takePacket n with
  | none => .next s
  | some (p, t) =>
    match p.body, p.dst with
    | .frontMark tile left, .core gi =>
      if (s.core gi).front.isSome ∨ (s.core gi).take.isSome then .next s
      else
        let r := (t.streamed p).flits p flits
        if r.2 then .next r.1
        else
          let q := r.1.frontSender gi p.src
          if q.2 then .next ((q.1.modCore gi fun c => { c with front := some (tile, left) }).takeMarker gi) else .next q.1
    | _, _ => .next s

/-- The bytes of a core's own tile have all arrived: the slot is decoded into (R74, R176). A tile shorter than the fill's source was
discarded with its fault. -/
def State.fillTile (s : State) (gi : Nat) (r : Run) : State :=
  let d := r.desc
  let h := hget r.hs (dH d 0)
  let n := fillSize h (dFsfmt d) (dFk d)
  if r.got.length < n then s
  else
    let ix := r.indices r.iter
    let x := (s.cx gi r).readTables h (dFk d) ix
    let c := x.c.fillSlot false h (dFsfmt d) (dFk d) r.slot (r.got.take n) (x.lutOf h ix) (x.entOf h ix)
    x.faults.foldl (fun s k => s.coreFault gi k 0) (s.setCore gi c)

/-- Front data at a core (R176 step 5): the first 32·TILE bytes are its own, the rest go on to the next core. -/
def State.frontData (s : State) (gi left : Nat) (data : List Byte) : State :=
  let c := s.core gi
  match c.take with
  | none => s
  | some k =>
    let own := 32 * k.tile - k.seen
    let mine := data.take own
    let rest := data.drop own
    let seen := k.seen + data.length
    let s := s.setCore gi { c with take := if 32 * k.tile * k.left ≤ seen then none else some { k with seen := seen } }
    let s := match (s.core gi).tq with
      | r :: _ =>
        if dOp r.desc = opFillIn ∧ r.wait ∧ r.done = false ∧ mine.isEmpty = false then
          let r := { r with got := r.got ++ mine }
          let s := s.modCore gi fun c => c.setTq r
          if 32 * k.tile ≤ seen then s.fillTile gi r else s
        else s
      | [] => s
    if rest.isEmpty then s
    else
      match c.nextInChain with
      | some g => s.offer gi (.core g) .tc2q (.frontTile k.tile (left - 1) rest)
      | none => s

/-- FRONT_TILE (R175, R176): tile bytes at place `n` reach a core whose marker has been taken. -/
def execFrontTile (n : Nat) (flits : List FlitErr) (s : State) : Out :=
  match s.takePacket n with
  | none => .next s
  | some (p, t) =>
    match p.body, p.dst with
    | .frontTile _ left data, .core gi =>
      if (s.core gi).take.isNone then
        -- behind a held marker the stream waits; with none held its front was discarded
        if (s.core gi).front.isSome then .next s else .next ((t.streamed p).frontSender gi p.src).1
      else
        let r := (t.streamed p).flits p flits
        if r.2 then .next r.1
        else
          let q := r.1.frontSender gi p.src
          if q.2 then .next (q.1.frontData gi left (s.flipped p flits data)) else .next q.1
    | _, _ => .next s

/-- RAKE_SQ (R252, R253): one iteration's values are delivered to the cluster's Rake node; a frozen or invalid layer's are dropped. -/
def execRakeSq (gi : Nat) (ups : List Upset) (hbm : List HbmErr) (s : State) : Out :=
  match (s.core gi).tqReady opRakeSq with
  | none => .next s
  | some r =>
    let h := hget r.hs (dH r.desc 0)
    let ix := r.indices r.iter
    let n := dLen r.desc
    if hSpace h && !s.mayInject gi then .next s
    else
      let a := if hSpace h then r.localAt 0 else localBase gi + r.localAt 0
      let d := (s.strikes ups).readAt a n hbm
      let l := d.2.layer (dLayer r.desc)
      let ls := signed 8 (bits d.2.sieve.ls 0 8)
      let t := if lValid l && !lFrozen l then
          { d.2 with rake := (rakeElems h ix d.1).foldl (fun k x => k.add ls x) d.2.rake }
        else d.2
      .next (t.goOn gi r.advance)

end Sys2Proof.Machine
end

