-- ==== Sys2Proof/Machine/Sieve.lean ====
section
/-! DEFINITION. The end of a step's lists, the Rake's closing (R254, R343), the norm all-reduce (R255), the commit journal (R262), the
Sieve (R256-R261), and the end of a GENERATE step (R198). -/

namespace Sys2Proof.Machine

/-! ### Reports at the reduction of R254 -/

/-- A core's count over its three buckets. -/
def State.coreCount (s : State) (gi : Nat) : Nat := sumNat (Sparse.get (fun _ => []) s.rel.buckets gi)

/-- Retire a core at the next boundary, or, with no spare left in its cluster, say so once (R342, R346). -/
def State.retireCore (s : State) (gi : Nat) : State :=
  if s.rel.retire.contains gi then s
  else if (s.spareOf (coreCi gi)).isSome then { s with rel := { s.rel with retire := s.rel.retire ++ [gi] } }
  else if s.rel.exhausted.contains gi then s
  else { s with rel := { s.rel with exhausted := s.rel.exhausted ++ [gi] } }.event St.SPARE_EXHAUSTED 3 gi 0

/-- Charge corrected errors to a core; four in three buckets retire it (R342). -/
def State.chargeCore (s : State) (gi n : Nat) : State :=
  let b := Sparse.get (fun _ => []) s.rel.buckets gi
  let b' := match b with
    | [] => [n]
    | x :: r => (x + n) :: r
  let s := { s with rel := { s.rel with buckets := Sparse.set (fun _ => []) s.rel.buckets gi b' } }
  if 4 ≤ s.coreCount gi then s.retireCore gi else s

def Core.ce (c : Core) : Nat := rf c.regs .CORE_ECC 0 0 16

/-- ECC_REPORT (R87, R343): totals go to the Rain gauge; each cluster names up to eight cores with corrected errors, the rest are
unattributed; the counters read are cleared. (DEDUCED: log 38) -/
def State.closeReports (s : State) : State :=
  let cores := s.cores.units nCores fun c => decide (0 < c.ce)
  let named := cores.filter fun gi => decide ((cores.filter fun h => decide (h < gi) && coreCi h == coreCi gi).length < 8)
  let total := s.cores.sum nCores Core.ce
  let rest := total - sumNat (named.map fun gi => (s.core gi).ce)
  let s := named.foldl (fun (t : State) gi => t.chargeCore gi (t.core gi).ce) s
  let s := s.sampleN 37 (s.cores.sum nCores fun c => rf c.regs .CORE_HZCNT 0 0 16 + rf c.regs .CORE_HZCNT 0 16 16)
  let s := (s.sampleN 38 (s.cores.sum nCores fun c => rf c.regs .CORE_BKCNT 0 0 16)).sampleN 45 total
  let s := s.sampleN 46 (s.clusters.sum nClusters fun c => rf c.regs .CLU_ECC 0 0 16)
  let s := s.sampleN 47 (s.clusters.sum nClusters (fun c => rf c.regs .TRL_STAT 0 0 16) + s.hubFlitCe)
  let clearCore := fun (c : Core) => { c with regs := sf (sg (sg c.regs .CORE_HZCNT 0 0) .CORE_BKCNT 0 0) .CORE_ECC 0 0 16 0 }
  let clearClu := fun (c : Cluster) => { c with regs := sf (sf c.regs .CLU_ECC 0 0 16 0) .TRL_STAT 0 0 16 0 }
  { s with cores := s.cores.map clearCore, clusters := s.clusters.map clearClu, hubFlitCe := 0
           rel := { s.rel with unattributed := s.rel.unattributed + rest } }

/-- The OR of CORE_FPFLAGS over the active cores (R43). -/
def State.fpflags (s : State) : Nat :=
  (s.cores.units nCores fun c => rf c.regs .CORE_FPFLAGS 0 0 5 != 0).foldl (fun a gi => a ||| rf (s.core gi).regs .CORE_FPFLAGS 0 0 5) 0

/-! ### The journal (R262) -/

def State.jbase (s : State) : Nat := 4096 * s.hf .UPD_JBASE 0 0 27

/-- The hyperparameter sets that a trained ADAMW layer names (R247). -/
def State.adamwSets (s : State) : List Nat :=
  (List.range 16).filter fun k => s.layers.any fun e => lTrained e.2 && lRule e.2 == 3 && lHset e.2 == k

/-- The BC table: a pair for each set that a trained ADAMW layer names (R247). -/
def State.bcTable (s : State) : List (Nat × Nat) :=
  let t := s.h .UPD_TCNT + 1
  s.adamwSets.foldl (fun m k =>
    let m := Sparse.set (fun _ => 0) m (2 * k) (biasCorr (s.h .UPD_HP (8 * k + 1)) t)
    Sparse.set (fun _ => 0) m (2 * k + 1) (biasCorr (s.h .UPD_HP (8 * k + 2)) t)) []

/-- A step that commits nothing has a k and BC pairs in its journal (R262) that no rule gives: free values. (DESIGN CHOICE: log 31) -/
def State.openFactors (s : State) : State :=
  let bc := s.adamwSets.foldl (fun m k =>
    let m := Sparse.set (fun _ => 0) m (2 * k) (Config.fresh (s.fresh + 2 * k + 1) % 2 ^ 32)
    Sparse.set (fun _ => 0) m (2 * k + 1) (Config.fresh (s.fresh + 2 * k + 2) % 2 ^ 32)) []
  { s with fresh := s.fresh + 33, step := { s.step with k := Config.fresh s.fresh % 2 ^ 32 }, sieve := { s.sieve with bc := bc } }

/-- Write the journal of step `n`: every field but JVALID and JDONE, then JVALID. -/
def State.putJournal (s : State) (outcome : Nat) : State :=
  let a := s.jbase
  let bc := fun (i : Nat) => Sparse.get (fun _ => 0) s.sieve.bc i
  let s := s.wrS (a + 0x40) (toLe 1 outcome ++ toLe 1 (s.hf .SIV_LS 0 0 8) ++ toLe 1 (s.hf .SIV_STAT 0 8 8) ++ toLe 1 s.sieve.window.length
    ++ toLe 4 s.sieve.run ++ toLe 8 (s.h .UPD_TCNT) ++ toLe 4 s.step.k ++ toLe 4 (bc 0) ++ toLe 4 (bc 1))
  let s := s.wrS (a + 0x80) ((List.range 16).map fun i => toLe 4 (s.sieve.window.getD i 0)).flatten
  let s := s.wrS (a + 0x100) ((List.range 128).map fun i => toLe 4 (s.h .UPD_HP i)).flatten
  let s := s.wrS (a + 0x300) ((List.range 32).map fun i => toLe 4 (bc i)).flatten
  s.wrS a (toLe 8 s.stepNo)

/-- JDONE = n. -/
def State.putJdone (s : State) (n : Nat) : State := s.wrS (s.jbase + 0x20) (toLe 8 n)

/-! ### The end of the lists -/

/-- Every active core has completed its list for the step (R130). -/
def State.listsDone (s : State) : Bool := s.clusters.all nClusters fun c => rf c.regs .CLU_STAT 0 0 7 == 64

def State.generate (s : State) : Bool := s.hf .STEP_CFG 0 2 1 == 1

/-- Whether this module sweeps records of a layer: every one in FULL mode, its own in SHARDED. -/
def State.holds (s : State) (i : Nat) : Bool := !s.sharded || (s.runsOf i).any fun r => r.rank == s.rank

def State.dirReady (s : State) (i : Nat) : Bool := decide (lDncon (s.layer i) ≤ Sparse.get (fun _ => 0) s.step.ddone i)

/-- GRAD_INCOMPLETE and DIR_INCOMPLETE (R195, R250): the layer found short, with the status. -/
def State.shortLayer (s : State) : Option (Nat × Nat) :=
  match s.rsLayers.reverse.find? fun i => !s.gradReady i with
  | some i => some (St.GRAD_INCOMPLETE, i)
  | none =>
    (s.rsLayers.reverse.find? fun i => lDirected (s.layer i) && s.holds i && !s.dirReady i).map fun i => (St.DIR_INCOMPLETE, i)

/-- Hold the module with a status, as at a boundary: a job that was told to stop ends there. (DEDUCED: log 40) -/
def State.hold (s : State) (status arg : Nat) : State :=
  let s := { s with step := { s.step with held := status } }.event status 0 0 arg
  if s.step.stopping then s.endJob else s

/-- The end of a GENERATE step (R198): the Rake closes (R43, R254), its journal, and its boundary. -/
def State.endGenerate (s : State) : State :=
  let s := { s.setHf .RKE_FPFLAGS 0 0 5 s.fpflags with rake := Rake.init }
  let s := { s with step := { s.step with decided := true, commit := false, final := [], counted := 0, late := 3 } }.closeReports.openFactors
  ((s.putJournal 3).putJdone s.stepNo).beginBoundary

/-- What happens once every list is complete: a GENERATE step ends; a LEARN step with a count short is held (R195). -/
def State.settleLists (s : State) : State :=
  if s.step.phase == .running && s.listsDone && !s.step.faulted && s.step.held == 0 && !s.step.decided then
    if s.generate then s.endGenerate
    else
      match s.shortLayer with
      | some (st, i) => (s.setHf .STEP_STAT 0 3 1 1).hold st i
      | none => s
  else s

/-- LIST_COMPLETE (R130): the core becomes IDLE and reports to its cluster; the last one ends the step's lists. -/
def execListComplete (gi : Nat) (s : State) : Out :=
  let c := s.core gi
  if c.listDone then
    let s := s.setCore gi (c.setState 0)
    let n := rf (s.cluster (coreCi gi)).regs .CLU_STAT 0 0 7
    .next ((s.setCf (coreCi gi) .CLU_STAT 0 0 7 (min (n + 1) 64)).irq (coreCi gi)).settleLists
  else .next s

/-- RAKE_CLOSE (R254): the module's accumulator and flags are taken, the counters of R87 read and cleared, the nodes cleared. -/
def execRakeClose (s : State) : Out :=
  if s.step.phase == .running && s.listsDone && !s.generate && !s.step.faulted && s.step.held == 0 && !s.step.closed && !s.step.decided then
    let fl := s.fpflags
    let own : Norm := { sq := s.rake.acc, nf := s.rake.nf, abs := s.rake.abs, drop := s.rake.drop, sat := s.rake.sat, flags := fl, vmin := 0, vmax := 0 }
    let s := s.closeReports.setHf .RKE_FPFLAGS 0 0 5 fl
    .next { s with rake := Rake.init, step := { s.step with closed := true, own := own } }
  else .next s

/-- Whether this module's norm all-reduce can begin (R255, R206): the Rake closed, no exchange owed. -/
def State.normReady (s : State) : Bool :=
  s.step.phase == .running && s.step.closed && s.step.group.isNone && !s.step.faulted && s.step.held == 0 && s.step.exch.isNone
    && s.step.due.isNone && !s.coll.normOn

/-- The vote is latched and this module takes part in the norm all-reduce (R255, R233). -/
def State.normBegin (s : State) : State :=
  let s := s.takeVote
  let v := packVote (s.step.votes.getD [])
  let own := { s.step.own with vmin := v, vmax := v }
  let s := { s with step := { s.step with own := own }, coll := { s.coll with normOn := true } }
  s.normStep (smallStart (s.ring false) (s.ring true) s.myCol s.myRow own.toList)

/-! ### Replays -/

/-- Send REPLAY_REQ to every other member (R312). -/
def State.sendReplayReq (s : State) (cause : Nat) : State :=
  (List.range s.ranks).foldl (fun (t : State) r =>
    match t.memberAt t.mapBank r with
    | some (x, y) => if x = t.myX ∧ y = t.myY then t else t.sendTo x y t.jobTag 0 (.urg 1 [t.stepNo, t.replays, cause])
    | none => t) s

/-- The step is to be replayed (R268-R270): QUIESCE begins; the third fault holds the module. A NONFINITE replay, here or of another member, is
the step's only one (R258). (DEDUCED: log 32) -/
def State.replayDue (s : State) (cause : Nat) : State :=
  let s := if cause = 0 then { s with sieve := { s.sieve with nfDone := true } } else s
  let s := s.setHf .UPD_STAT 0 16 16 cause
  if 2 ≤ s.replays then s.hold St.STEP_REPLAY_EXHAUSTED cause
  else { s with step := { s.step with faulted := true } }.startQuiesce (s.stepNo % 2 ^ 32)

/-- This member decides a step replay. (DEDUCED: log 33) -/
def State.decideReplay (s : State) (cause : Nat) : State :=
  if s.step.phase == .running && !s.step.decided && !s.step.faulted && s.step.held == 0 then
    (if 2 ≤ s.replays then s else s.sendReplayReq cause).replayDue cause
  else s

/-! ### The Sieve -/

/-- The decision of the tests (R256): 0 ACCEPT, 2 NONFINITE, 3 CEIL, 4 SPIKE, and whether it commits. -/
def State.sieveTest (s : State) (g : Norm) : Nat × Bool :=
  let v := s.sieve
  if g.sat || decide (0 < g.nf) || decide (0 < g.abs) then (2, false)
  else if overSquare g.sq v.ceil then (3, bit v.cfg 0)
  else
    match median v.window with
    | some m => if overProduct g.sq v.spike m then (4, bit v.cfg 1) else (0, true)
    | none => (0, true)

/-- The smaller of two FP32 values. -/
def fMin (a b : Nat) : Nat := (fp32.maxMin false a b).1

/-- The clip target T (R258). -/
def State.clipTarget (s : State) (test : Nat) : Nat :=
  let v := s.sieve
  if test = 3 then fMin v.clipn v.ceil
  else if test = 4 then fMin v.clipn (fMul v.spike ((median v.window).getD 0))
  else v.clipn

/-- The clip factor c (R258). -/
def clipFactor (sq gn t : Nat) : Nat := if overSquare sq t then fDiv t gn else fOne

/-- Begin the boundary once nothing more is owed to the journal: every record's step word is written (R263). -/
def State.settleSweep (s : State) : State :=
  let owed := (s.shards.zipIdx.filter fun e => lTrained (s.layer e.1.2)).map (·.2)
  if s.step.commit && s.step.phase == .running && owed.all fun i => s.step.swept.contains i then
    (s.putJdone s.stepNo).beginBoundary
  else s

/-- A committing decision (R258-R260, R262): counts, window, loss scale, journal; the sweep is due. (DEDUCED: log 27) -/
def State.commitStep (s : State) (gn c out : Nat) : State :=
  let v := s.sieve
  let bc := s.bcTable
  let ls := signed 8 (bits v.ls 0 8)
  let k := stepFactor c ls
  let s := s.setH .UPD_TCNT 0 (min (s.h .UPD_TCNT + 1) (2 ^ 32 - 1))
  let grow := bits v.ls 24 7
  let auto := bit v.ls 31
  let up := decide (grow ≠ 0) && decide (grow ≤ v.run + 1) && decide auto
  let cur := signed 8 (s.hf .SIV_LS 0 0 8)
  let s := if up ∧ cur < signed 8 (bits v.ls 16 8) then s.setHf .SIV_LS 0 0 8 (unsigned 8 (cur + 1)) else s
  let window := (v.window ++ [gn]).drop (v.window.length + 1 - 16)
  let s := { s with sieve := { s.sieve with window := window, run := if up then 0 else v.run + 1, bc := bc } }
  let s := ((s.setHf .SIV_STAT 0 0 3 out).setHf .SIV_STAT 0 8 8 0).setHf .SIV_STAT 0 3 1 (b2n (window.length == 16))
  let s := s.setH .SIV_FACTOR 0 k
  let got := s.coll.got.filter fun e => e.1 % 4 != 2
  let s := { s with step := { s.step with decided := true, commit := true, late := out, k := k, final := [], counted := 0, auditIn := s.step.auditIn + 1 }, coll := { s.coll with got := got, gStep := s.stepNo, gReplays := s.replays, gLayers := s.recLayers } }
  -- an audit of a layer of which this module sweeps no record is abandoned as the sweep begins (R264)
  let s := match s.step.audit with
    | some i => if s.shards.any fun e => e.2 == i then s else { s with step := { s.step with audit := none }, coll := s.coll.auditClear }
    | none => s
  let s := if s.step.stat then { s.setStatK (s.step.statK + 1) with step := { (s.setStatK (s.step.statK + 1)).step with due := some s.stepNo } } else s
  (s.putJournal out).settleSweep

/-- A SKIP (R259, R261): nothing is swept, the statistic is discarded, CONSEC counts; the boundary begins. `code` goes to
SIV_STAT.OUTCOME, `nf` says the outcome was NONFINITE. (DEDUCED: log 28) (DEDUCED: log 29) -/
def State.skipWith (s : State) (code : Nat) (nf : Bool) : State :=
  let s := s.setHf .SIV_STAT 0 0 3 code
  let n := min (s.hf .SIV_STAT 0 8 8 + 1) 255
  let s := (s.setHf .SIV_STAT 0 8 8 n).sampleN 40 n
  let cur := signed 8 (s.hf .SIV_LS 0 0 8)
  let down := nf ∧ bit s.sieve.ls 31 ∧ signed 8 (bits s.sieve.ls 8 8) < cur
  let s := if down then s.setHf .SIV_LS 0 0 8 (unsigned 8 (cur - 1)) else s
  let s := { s with sieve := { s.sieve with run := if nf then 0 else s.sieve.run }, step := { s.step with decided := true, commit := false, late := 2, final := [], counted := 0 } }.openFactors
  let s := s.setH .SIV_FACTOR 0 s.step.k
  let s := if s.step.stat then s.setHf .STEP_STATSTS 0 3 1 1 else s
  let s := (s.putJournal 2).putJdone s.stepNo
  let s := if 0 < bits s.sieve.cfg 16 8 ∧ bits s.sieve.cfg 16 8 ≤ n then (s.setHf .SIV_STAT 0 4 1 1).event St.SIEVE_HALT 0 0 0 else s
  s.beginBoundary

/-- A skip the tests decide. (DEDUCED: log 30) -/
def State.skipStep (s : State) (out : Nat) : State := s.skipWith out (out == 2)

/-- Whether the step is to be decided now. -/
def State.mayDecide (s : State) : Bool := s.step.phase == .running && !s.step.decided && !s.step.faulted && s.step.held == 0

/-- The Sieve's decision on the group payload (R256-R261). -/
def State.sieveDecision (s : State) (g : Norm) : State :=
  let r := s.sieveTest g
  let gn := gradNorm g.sq
  if r.1 = 2 ∧ bit s.sieve.cfg 2 ∧ s.sieve.nfDone = false ∧ s.replays < 2 then
    s.decideReplay 0
  else
    let s := s.sampleN 61 (s.h .RKE_DROP)
    let s := (if r.1 = 2 then s else s.sample 39 gn 0 0).setH .SIV_NORM 0 gn
    let s := match median s.sieve.window with
      | some m => s.setH .SIV_MED 0 m
      | none => let d := s.draw 32; d.2.setH .SIV_MED 0 d.1
    if r.2 then
      let c := clipFactor g.sq gn (s.clipTarget r.1)
      s.commitStep gn c (if r.1 ≠ 0 ∨ c ≠ fOne then 1 else 0)
    else s.skipStep r.1

end Sys2Proof.Machine
end

