-- ==== Sys2Proof/Machine/Sweep.lean ====
section
/-! DEFINITION. The sweep (R263), the gather of swept masters (R281, R282), the recovery sweep (R266, R267), and the working-copy audit
(R264). -/

namespace Sys2Proof.Machine

/-! ### One record -/

/-- What a sweep takes from its decision: k, the hyperparameter words, and the BC table (R262). -/
structure Decision where
  step : Nat
  k : Nat
  hp : List Nat
  bc : List Nat
  deriving DecidableEq, Repr

/-- The decision in force. -/
def State.decision (s : State) : Decision :=
  ⟨s.stepNo, s.step.k, (List.range 128).map fun i => s.h .UPD_HP i, (List.range 32).map fun i => Sparse.get (fun _ => 0) s.sieve.bc i⟩

/-- The decision the journal holds. -/
def State.journalDecision (s : State) : Decision :=
  let a := s.jbase
  ⟨s.rdN a 8, s.rdN (a + 0x50) 4, s.floats (a + 0x100) 128, s.floats (a + 0x300) 32⟩

/-- The hyperparameters of a layer. -/
def Decision.hyper (d : Decision) (l : Nat) : Hyper := hyperOf ((d.hp.drop (8 * lHset l)).take 8)

/-- A record as a sweep reads it: where it lies, its layer entry, rows, first row, committed bank. -/
structure Rec where
  addr : Nat
  layer : Nat
  l : Nat
  rows : Nat
  row0 : Nat
  cur : Nat
  deriving DecidableEq, Repr

def State.record (s : State) (a i : Nat) : Rec := ⟨a, i, s.layer i, s.recRows a, s.recRow0 a, s.recCur a⟩

def Rec.elems (r : Rec) : Nat := r.rows * lNout r.l

/-- The address of array `k` of a bank. -/
def Rec.array (r : Rec) (k bank : Nat) : Nat := recArray r.addr (lRule r.l) r.rows (lNout r.l) k bank

/-- Where the record's gradient or direction lies. -/
def State.recSource (s : State) (r : Rec) : Nat :=
  (if lDirected r.l then s.recDdpa r.addr else lGbase r.l) + 4 * (r.row0 * lNout r.l)

/-- The scaled gradient, or the direction: k × G, k × D for KRON, D for ORTHM (R247, R249). -/
def Decision.scale (d : Decision) (l : Nat) (xs : List Nat) : List Nat := if lRule l = 7 then xs else xs.map (fMul d.k)

def floatsOf (bs : List Byte) : List Nat := (List.range (bs.length / 4)).map fun i => leNat ((bs.drop (4 * i)).take 4)

/-- New state arrays of a record. -/
def State.newState (s : State) (d : Decision) (r : Rec) (g : List Nat) : List Nat × List Nat :=
  let sz := stateSizes (lRule r.l) r.rows (lNout r.l)
  let s0 := s.floats (r.array 1 r.cur) sz.1
  let s1 := s.floats (r.array 2 r.cur) sz.2
  if lRule r.l = 5 then factState (d.hyper r.l) r.rows (lNout r.l) g s0 s1
  else
    let n := g.mapIdx fun i x => ruleState (lRule r.l) (d.hyper r.l) x (s0.getD i 0) (s1.getD i 0)
    ((n.map (·.1)).take sz.1, (n.map (·.2)).take sz.2)

/-- The new master, from the state that stands in the other bank. -/
def State.newMaster (s : State) (d : Decision) (r : Rec) (g : List Nat) : List Nat :=
  let rule := lRule r.l
  let h := d.hyper r.l
  let sz := stateSizes rule r.rows (lNout r.l)
  let b := 1 - r.cur
  let m := s.floats (r.array 1 r.cur) sz.1
  let m' := s.floats (r.array 1 b) sz.1
  let v' := s.floats (r.array 2 b) sz.2
  let bc1 := d.bc.getD (2 * lHset r.l) 0
  let bc2 := d.bc.getD (2 * lHset r.l + 1) 0
  let u := if rule = 5 then factU r.rows (lNout r.l) g m' v'
    else g.mapIdx fun i x => ruleU rule h bc1 bc2 x (m.getD i 0) (m'.getD i 0) (v'.getD i 0)
  (List.range r.elems).map fun i => h.final (s.rdN (r.array 0 r.cur + 4 * i) 4) (u.getD i 0)

/-- Step 3 of R263: the new state, then MSTEP. -/
def State.putState (s : State) (d : Decision) (r : Rec) (g : List Nat) : State :=
  let n := s.newState d r g
  let b := 1 - r.cur
  ((s.putFloats (r.array 1 b) n.1).putFloats (r.array 2 b) n.2).wrS (r.addr + 0x20) (toLe 8 d.step)

/-- Step 4: the new master, then WSTEP. -/
def State.putMaster (s : State) (d : Decision) (r : Rec) (g : List Nat) : State :=
  (s.putFloats (r.array 0 (1 - r.cur)) (s.newMaster d r g)).wrS (r.addr + 0x40) (toLe 8 d.step)

/-- Step 5: the step word and CUR in one 32-byte write. -/
def State.putStepWord (s : State) (d : Decision) (r : Rec) : State :=
  s.wrS r.addr (toLe 8 d.step ++ toLe 1 (1 - r.cur) ++ s.rd (r.addr + 9) 23)

/-- Steps 2 to 5 of R263. (DEDUCED: log 94) -/
def State.sweepRec (s : State) (d : Decision) (r : Rec) (e : List HbmErr) : State :=
  let x := s.readAt (s.recSource r) (4 * r.elems) e
  let g := d.scale r.l (floatsOf x.1)
  ((x.2.putState d r g).putMaster d r g).putStepWord d r

/-! ### SWEEP_RECORD (R263) -/

/-- Records of lower index on the same stack have been swept: each controller goes in shard-table order. -/
def State.stackTurn (s : State) (i : Nat) : Bool :=
  let k := s.stackOf (s.shard i).1
  (List.range i).all fun j =>
    let e := s.shard j
    s.stackOf e.1 != k || !lTrained (s.layer e.2) || s.step.swept.contains j

/-- An audit of a layer whose sweep begins is abandoned (R264). -/
def State.auditAbandon (s : State) (i : Nat) : State :=
  if s.step.audit = some i then
    { s with step := { s.step with audit := none }, coll := s.coll.auditClear }
  else s

/-- SWEEP_RECORD (R263): record `i` of the shard table is swept into its other bank and its step word written; `hbm` are errors its
reading meets. -/
def execSweepRecord (i : Nat) (hbm : List HbmErr) (s : State) : Out :=
  let sh := s.shard i
  let l := s.layer sh.2
  if s.step.phase == .running && s.step.decided && s.step.commit && !s.step.recover && s.step.held == 0 && decide (i < s.shardCount)
      && !s.step.swept.contains i && lTrained l && !s.step.sweepWait.contains i && (!lDirected l || s.dirReady sh.2) && s.stackTurn i then
    let s := (s.auditAbandon sh.2).sweepRec s.decision (s.record sh.1 sh.2) hbm
    .next { s with step := { s.step with swept := s.step.swept ++ [i], sweepWait := s.step.sweepWait ++ [i] } }.settleSweep
  else .next s

/-! ### GATHER (R282; FULL mode R274) -/

/-- The least shard that waits for its gather, when no record before it has still to be swept. -/
def State.gatherTurn (s : State) : Option Nat :=
  match s.step.sweepWait with
  | [] => none
  | x :: r =>
    let i := r.foldl min x
    let sweeping := s.step.phase == .running && s.step.decided && s.step.commit
    if sweeping && (List.range i).any (fun j => lTrained (s.layer (s.shard j).2) && !s.step.swept.contains j) then none else some i

/-- Re-derive a run of the working copy from its master (R281). -/
def State.rederive (s : State) (i off : Nat) (xs : List Nat) : State :=
  let l := s.layer i
  (s.putWeights l off ((narrowRows (lGfmtMx l) (lNout l) xs).map (widenElem (lGfmtMx l)))).padXpose l

/-- The committed master of a record. -/
def State.master (s : State) (r : Rec) : List Nat := s.floats (r.array 0 r.cur) r.elems

/-- LNK_CSTAT while a gather runs. -/
def State.gatherStat (s : State) (i : Nat) : State :=
  (s.setHf .LNK_CSTAT 0 12 12 i).setHf .LNK_CSTAT 0 25 1 (b2n (s.step.sweepWait != []))

/-- The next swept master is narrowed and all-gathered, this module's own copy passing through the same widening; in FULL mode the working
copy is re-derived here (R282). -/
def State.gatherTake (s : State) (k : Nat) : State :=
  let sh := s.shard k
  let r := s.record sh.1 sh.2
  let s := { s with step := { s.step with sweepWait := s.step.sweepWait.filter (· != k) } }.gatherStat sh.2
  if s.sharded then s.gatherRun sh.2 ⟨s.rank, r.row0, r.rows⟩ (s.master r)
  else s.rederive sh.2 (r.row0 * lNout r.l) (s.master r)

/-! ### Recovery (R265-R267) -/

/-- Treat one record by the table of R266; a state outside it is COMMIT_CORRUPT. -/
def State.recoverRec (s : State) (d : Decision) (i : Nat) : State :=
  let sh := s.shard i
  let r := s.record sh.1 sh.2
  let ss := s.recSstep sh.1
  let ms := s.recMstep sh.1
  let ws := s.recWstep sh.1
  let g := d.scale r.l (s.floats (s.recSource r) r.elems)
  let n := d.step
  if lTrained r.l = false ∨ ss = n then s
  else if n < ss ∨ (ms ≠ n ∧ ws = n) then (s.setHf .UPD_STAT 0 1 1 1).event St.COMMIT_CORRUPT 0 0 i
  else if ms = n ∧ ws = n then s.putStepWord d r
  else if ms = n then (s.putMaster d r g).putStepWord d r
  else s.sweepRec d r []

/-- The recovery sweep of every owned record; its working copies are re-derived through the gather path. -/
def State.recoverAll (s : State) : State :=
  let d := s.journalDecision
  let idx := List.range s.shardCount
  let s := idx.foldl (fun (t : State) i => t.recoverRec d i) s
  let own := idx.filter fun i => lTrained (s.layer (s.shard i).2)
  let s := { s with step := { s.step with sweepWait := own, swept := own } }
  (s.putJdone d.step).setHf .UPD_STAT 0 0 1 1

/-- An uncorrectable error whose re-read is correct. -/
def HbmErr.passing (e : HbmErr) : Bool := match e with | .uncorrectable _ _ false => true | _ => false

/-- RECOVERY_SWEEP (R266, R267): a fault after the decision makes the Shed complete the commit record by record from the journal; a rerun that
meets another raises HBM_DATA_LOSS (a persistent one raises it under R170). -/
def execRecoverySweep (hbm : List HbmErr) (s : State) : Out :=
  s.hbmRun hbm fun s =>
    if s.step.recover then
      let s := { s with step := { s.step with recover := false, recovered := true } }.recoverAll
      let s := if hbm.any HbmErr.passing then s.event St.HBM_DATA_LOSS 0 0 0 else s
      .next (if s.step.phase == .running && s.step.commit then s.beginBoundary else s)
    else .next s

/-! ### The working-copy audit (R264) -/

/-- BF16 codes of a layer's working copy. -/
def State.weights (s : State) (l off n : Nat) : List Nat := (List.range n).map fun k => s.rdN (lWbase l + 2 * (off + k)) 2

/-- CRC-64 over each 4 KiB of BF16 codes. -/
def chunkCrcs (codes : List Nat) : List Nat :=
  (List.range ((codes.length + 2047) / 2048)).map fun k => crc64 (((codes.drop (2048 * k)).take 2048).map (toLe 2)).flatten

/-- Compare a run's values with this module's working copy: the chunks that differ are to be repaired. -/
def State.auditRun (s : State) (i off n : Nat) (crcs : List Nat) : State :=
  let own := chunkCrcs (s.weights (s.layer i) off n)
  let bad := (List.range crcs.length).filter fun k => own.getD k 0 != crcs.getD k 0
  let s := { s with step := { s.step with repairs := s.step.repairs ++ bad.map fun k => (i, off + 2048 * k) } }.addGot i 3 n
  if s.collGot i 3 = lElems (s.layer i) then
    { s.auditAbandon i with step := { s.step with audit := none } }.setHf .UPD_AUDIT 0 16 12 (i + 1)
  else s

/-- The runs of a layer whose records this module owns, with their record addresses. -/
def State.ownedRuns (s : State) (i : Nat) : List (Nat × RowRun) :=
  ((s.runsOf i).filter fun r => r.rank == s.rank).filterMap fun r =>
    (s.shards.find? fun e => e.2 == i && s.recRow0 e.1 == r.row0).map fun e => (e.1, r)

/-- WORKING_COPY_AUDIT (R264): the audited layer's working copy is final; the owner of each run computes its values, sends them to every
member, and compares its own copy. -/
def execWorkingCopyAudit (hbm : List HbmErr) (s : State) : Out :=
  s.hbmRun hbm fun s =>
    match s.step.audit with
    | none => .next s
    | some i =>
      if s.step.final.contains i && s.step.phase == .running && Sparse.get (fun _ => 0) s.coll.sent (4 * i + 3) == 0 then
        let s := { s with coll := { s.coll with sent := Sparse.set (fun _ => 0) s.coll.sent (4 * i + 3) 1 } }
        let l := s.layer i
        .next ((s.ownedRuns i).foldl (fun (t : State) e =>
          let codes := (narrowRows (lGfmtMx l) (lNout l) (t.master (t.record e.1 i))).map (widenElem (lGfmtMx l))
          let off := e.2.row0 * lNout l
          let crcs := chunkCrcs codes
          let c := t.collMsg .crc i 0 e.2.rank 1 off (codes.length :: crcs) []
          (t.gatherSend c).auditRun i off codes.length crcs) s)
      else .next s

/-- A frame of an owner's values; none while the audit has not reached this module. (DEDUCED: log 48) -/
def State.crcFrame (s : State) (c : CollMsg) : Option State :=
  if s.step.audit = some c.layer then
    if s.step.final.contains c.layer then
      some ((s.gatherOn c).auditRun c.layer c.off (c.data.getD 0 0) (c.data.drop 1))
    else none
  else some (s.gatherOn c)

/-- AUDIT_REPAIR (R264): at action 1 the next failed chunk is re-derived: from this module's own master, or from the narrowed bytes the
owner sends (`codes`, with their scale bytes). -/
def execAuditRepair (codes : List (Nat × Nat)) (hbm : List HbmErr) (s : State) : Out :=
  s.hbmRun hbm fun s =>
    match s.atAction 1, s.step.repairs with
    | true, (i, off) :: rest =>
      let l := s.layer i
      let s := { s with step := { s.step with repairs := rest } }
      let own := s.shards.find? fun e =>
        e.2 == i && decide (s.recRow0 e.1 * lNout l ≤ off) && decide (off < (s.recRow0 e.1 + s.recRows e.1) * lNout l)
      let s := match own with
        | some e =>
          let r := s.record e.1 i
          let base := r.row0 * lNout l
          let all := (narrowRows (lGfmtMx l) (lNout l) (s.master r)).map (widenElem (lGfmtMx l))
          s.putWeights l off ((all.drop (off - base)).take 2048)
        | none => s.putWeights l off ((codes.take 2048).map (widenElem (lGfmtMx l)))
      let s := (s.satH .UPD_STAT 0 8 8 1).event St.AUDIT_REPAIRED 0 0 (i + 4096 * (off / 2048))
      .next (if rest.isEmpty then s.afterAction 1 else s)
    | _, _ => .next s

end Sys2Proof.Machine
end

