-- ==== Sys2Proof/Machine/Collectives.lean ====
section
/-! DEFINITION. The rows of the collectives (R279-R285), the completion notices (R194, R250), faults and step replay (R139, R170,
R267-R270, R312). -/

namespace Sys2Proof.Machine

/-! ### Frames -/

/-- A frame of the gradient all-gather of FULL mode (R279). -/
def State.gradGatherFrame (s : State) (c : CollMsg) : State :=
  ((s.putFloats (lGbase (s.layer c.layer) + 4 * c.off) c.data).addGot c.layer 1 c.data.length).gatherOn c

/-- Take a collective frame that is not stale; none while it must be held. -/
def State.takeColl (s : State) (c : CollMsg) : Option State :=
  match c.kind with
  | .reduce => s.rsFrame c
  | .gradGather => some (s.gradGatherFrame c)
  | .gather => some ((s.gatherOn c).gatherLand c.layer c.off (List.zip c.data (c.scales ++ List.replicate (c.data.length - c.scales.length) 0)))
  | .norm => s.normFrame c
  | .scan => s.scanFrame c
  | .tile => s.tileFrame c
  | .tileGather => s.tileGatherFrame c
  | .crc => s.crcFrame c
  | .move => some { s.wrS c.dpa (c.data.map (BitVec.ofNat 8)) with coll := { s.coll with perm := s.coll.perm.map fun p => { p with bytes := p.bytes + c.data.length } } }

/-- The kinds that a step replay restarts (R285). -/
def CollKind.ofStep : CollKind → Bool
  | .reduce => true
  | .gradGather => true
  | .norm => true
  | .gather => false
  | .scan => false
  | .tile => false
  | .tileGather => false
  | .move => false
  | .crc => false

/-- The step and replay count this module expects of a collective's frames; none when any is taken (R285). -/
def State.collStamp (s : State) (k : CollKind) : Option (Nat × Nat) :=
  match k with
  | .reduce => some (s.stepNo % 2 ^ 16, s.replays)
  | .gradGather => some (s.stepNo % 2 ^ 16, s.replays)
  | .norm => some (s.stepNo % 2 ^ 16, s.replays)
  | .gather => some (s.coll.gStep % 2 ^ 16, s.coll.gReplays)
  | .crc => some (s.stepNo % 2 ^ 16, s.replays)
  | .move => s.coll.perm.map fun p => (p.old.step % 2 ^ 16, p.old.replays)
  | _ =>
    match s.step.exch, s.step.due with
    | some x, _ => some (x.step % 2 ^ 16, x.replays)
    | none, some m => some (m % 2 ^ 16, s.coll.gReplays)
    | none, none => some (2 ^ 16, 0)

/-- The epoch a collective's frames carry: for a permutation's moves, the one it leaves. -/
def State.collEpoch (s : State) (k : CollKind) : Nat :=
  match k, s.coll.perm with
  | .move, some p => p.old.epoch
  | _, _ => s.epoch

def State.collFresh (s : State) (c : CollMsg) : Bool :=
  c.epoch == s.collEpoch c.kind && (c.kind != .move || s.coll.perm.isSome)
    && match s.collStamp c.kind with | some (n, r) => c.step == n && c.replays == r | none => true

/-- The new grid of a permutation's body (R336): none when its sizes or ranks are not legal. -/
def newGrid (body : List Byte) (old : Grid) : Option Grid :=
  let f := fun (i : Nat) => leNat ((body.drop i).take 1)
  let xl := f 0
  let yl := f 1
  let ms := (List.range (xl * yl)).map fun r => f (8 + r)
  if xl * yl = 0 ∨ 64 < xl * yl ∨ (ms.any fun m => !bit m 6) then none else some ⟨xl, yl, ms.map (· % 64), (old.epoch + 1) % 256, old.step, old.replays⟩

/-- Whether a collective frame's sender may send it (R310): a member; or, while a permutation is in progress, an old member that sends a
module named in the new map the moves and copies of it. -/
def State.collFrom (s : State) (f : Frame) (k : CollKind) : Bool :=
  (s.rankOf f.sx f.sy).isSome || match s.coll.perm with
    | some p => k == .move && p.old.map.contains (f.sx + 8 * f.sy) && ((newGrid p.body p.old).elim [] (·.map)).contains (s.myX + 8 * s.myY)
    | none => false

/-- A frame of the step in force that this module has yet to reach: of the gather or the exchange of the step it has not decided. Its step,
replay count and epoch do not differ from its own, and it is held like a frame whose local count is not complete (R280); any other frame
whose fields differ is discarded (R285). (DEDUCED: log 46) -/
def State.collAhead (s : State) (c : CollMsg) : Bool :=
  let own := s.step.phase == .running && !s.step.decided && c.epoch == s.epoch && c.step == s.stepNo % 2 ^ 16 && c.replays == s.replays
  match c.kind with
  | .gather => own
  | .scan => own && s.step.stat && s.step.exch.isNone && s.step.due.isNone
  | .tile => own && s.step.stat && s.step.exch.isNone && s.step.due.isNone
  | .tileGather => own && s.step.stat && s.step.exch.isNone && s.step.due.isNone
  | _ => false

/-- Take every held frame that can be taken, again while any can be. -/
def State.retryHeld : Nat → State → State
  | 0, s => s
  | n + 1, s =>
    match s.coll.held.find? fun c => s.collFresh c && (s.takeColl c).isSome with
    | none => s
    | some c =>
      let t := { s with coll := { s.coll with held := s.coll.held.erase c } }
      State.retryHeld n ((t.takeColl c).getD t)

/-- Let go of held frames that have become stale, and take those that can be taken. -/
def State.settleColl (s : State) : State :=
  let t := { s with coll := { s.coll with held := s.coll.held.filter fun c => s.collFresh c || s.collAhead c } }
  t.retryHeld t.coll.held.length

/-- PERMUTE_SPLIT (R291): after a COMMIT, a frame of the step in progress on another epoch reaches rank 0. -/
def State.splitCheck (s : State) (c : CollMsg) : State :=
  if c.epoch ≠ s.epoch ∧ s.coll.was.isSome ∧ s.coll.perm.isNone ∧ s.myRank = some 0 ∧ s.step.phase = .running ∧ c.step = s.stepNo % 2 ^ 16
      ∧ s.hf .LNK_CSTAT 0 27 1 = 0 then
    ((s.setHf .LNK_CSTAT 0 27 1 1).event St.PERMUTE_SPLIT 6 0 c.epoch).endOp 0xD043 St.PERMUTE_SPLIT
  else s

/-- A collective frame in the receive path (R280, R285): one that cannot be taken yet is held, a stale one is counted and discarded. -/
def State.collArrive (s : State) (c : CollMsg) : State :=
  if s.collFresh c then
    match s.takeColl c with
    | some t => t.settleColl
    | none => { s with coll := { s.coll with held := s.coll.held ++ [c] } }
  else if s.collAhead c then { s with coll := { s.coll with held := s.coll.held ++ [c] } }
  else (s.splitCheck c).satH .LNK_CSTALE 0 0 16 1


/-- COLL_FRAME (R285, R310): a collective frame arrives on port `p`; one delivered here from a member is checked and taken, any other is
counted as stale. -/
def execCollFrame (p lseq : Nat) (f : Frame) (hbm : List HbmErr) (s : State) : Out :=
  s.hbmRun hbm fun s =>
    match f.body with
    | .coll c =>
      if s.delivers f then
        .next (s.takeFrame p lseq false fun t => if t.collFrom f c.kind then t.collArrive c else t.satH .LNK_CSTALE 0 0 16 1)
      else .next s
    | _ => .next s

/-! ### Replay requests (R312) -/

/-- A request for this module's step and replay count. -/
def State.takeReq (s : State) (cause : Nat) : State :=
  if s.step.phase == .running && !s.step.decided && !s.step.faulted && s.step.held == 0 then s.replayDue cause else s

/-- Take the request that waited for the step and replay count now reached, and let older ones go. -/
def State.settleReq (s : State) : State :=
  let ahead := s.coll.reqs.filter fun e => decide (s.stepNo < e.1) || (e.1 == s.stepNo && decide (s.replays < e.2.1))
  let t := { s with coll := { s.coll with reqs := ahead } }
  match s.coll.reqs.find? fun e => e.1 == s.stepNo && e.2.1 == s.replays with
  | some e => t.takeReq e.2.2
  | none => t

/-! ### The other collectives, and the steps that open them: each lets held frames in -/

/-- NORM_ALLREDUCE (R255, R233): with the Rake closed and no exchange owed (R206), the vote is latched and this module takes part. -/
def execNormAllreduce (s : State) : Out := if s.normReady then .next s.normBegin.settleColl else .next s

/-- SIEVE_DECIDE (R256-R261): the step is decided once from the group payload. -/
def execSieveDecide (s : State) : Out :=
  match s.step.group with
  | none => .next s
  | some g => if s.mayDecide then .next (s.sieveDecision g).settleColl else .next s

/-- FACTOR_EXCHANGE (R206): the exchange of the committed statistics step begins. -/
def execFactorExchange (hbm : List HbmErr) (s : State) : Out :=
  s.hbmRun hbm fun s =>
    match s.step.due with
    | some m => if s.exchReady m then .next (s.exchBegin m).settleColl else .next s
    | none => .next s

/-- GATHER (R282; FULL mode R274): the gather of the next swept master. -/
def execGather (hbm : List HbmErr) (s : State) : Out :=
  s.hbmRun hbm fun s =>
    match s.gatherTurn with
    | none => .next s
    | some k => .next (s.gatherTake k).settleColl

/-- REPLAY (R131): the hub applies REPLAY of the next step, or holds the module when a named hyperparameter set is not valid. -/
def execReplay (s : State) : Out :=
  if s.mayReplay then
    match s.badHyper with
    | some k => .next ({ s with step := { s.step with held := St.HPARAM_INVALID } }.event St.HPARAM_INVALID 0 0 k)
    | none => .next s.applyReplay.settleReq.settleColl
  else .next s

/-! ### The reduce-scatter -/

/-- The layer whose reduce-scatter comes next (R280). -/
def State.rsNext (s : State) : Option Nat := s.rsLayers.find? fun i => !s.step.rsSent.contains i

/-- REDUCE_SCATTER_LAYER (R280): the next layer in descending order starts, its notices complete and the one before it sent. -/
def execReduceScatterLayer (hbm : List HbmErr) (s : State) : Out :=
  s.hbmRun hbm fun s =>
    match s.rsNext with
    | none => .next s
    | some i =>
      if s.step.phase == .running && !s.generate && !s.step.faulted && s.gradReady i && (before s.rsLayers i).all s.rsAllSent then
        let s := { s with step := { s.step with rsSent := s.step.rsSent ++ [i] } }
        let s := (s.setHf .LNK_CSTAT 0 0 12 i).setHf .LNK_CSTAT 0 24 1 1
        .next ((s.runsOf i).foldl (fun (t : State) r => (List.range 4).foldl (fun (t : State) q => t.rsStart i q r) t) s).settleColl
      else .next s

/-- A layer's reduce-scatter has landed on this module (R280). -/
def State.rsDone (s : State) (i : Nat) : Bool :=
  s.rsAllSent i && s.collGot i 0 == s.ownElems i && (s.sharded || s.collGot i 1 + s.ownElems i == lElems (s.layer i))

/-- The rest of GBASE is undefined after a reduce-scatter (R279). -/
def State.scrambleRest (s : State) (i : Nat) : State :=
  if s.sharded then
    ((s.runsOf i).filter fun r => r.rank != s.rank).foldl (fun (t : State) r =>
      t.scramble (lGbase (t.layer i) + 4 * (r.row0 * lNout (t.layer i))) (4 * (r.rows * lNout (t.layer i)))) s
  else s

/-- RS_LANDED (R280, R250): the next layer in order has landed; CSP_EVT29 counts, and CSP_EVT30 for a KRON or ORTHM layer. -/
def execRsLanded (s : State) : Out :=
  match s.rsLayers.find? fun i => !s.step.landed.contains i with
  | none => .next s
  | some i =>
    if s.step.phase == .running && !s.step.faulted && s.rsDone i then
      let s := ({ s with step := { s.step with landed := s.step.landed ++ [i] } }.scrambleRest i).allCsp 29 1
      let s := if lDirected (s.layer i) then s.allCsp 30 1 else s
      .next (if (s.rsLayers.all fun j => s.step.landed.contains j) then s.setHf .LNK_CSTAT 0 24 1 0 else s)
    else .next s

/-! ### Notices (R194, R250) -/

/-- The notice at place `n`: a write to a notice register, with the layer it names; none for the layer once a flit error has discarded it. -/
def State.takeNotice (s : State) (n : Nat) (r : Reg) (flits : List FlitErr) : Option (Option Nat × State) :=
  match s.takePacket n with
  | none => none
  | some (p, t) =>
    match p.body with
    | .mwr addr data =>
      if addr = 0x030000000000 + Reg.offset r 0 then
        let q := t.flits p flits
        let u := match p.src with | .core gi => q.1.served gi opStore | _ => q.1
        some (if q.2 then none else some (leNat ((s.flipped p flits data).take 4) % 4096), u)
      else none
    | _ => none

def countAt (m : List (Nat × Nat)) (i : Nat) : List (Nat × Nat) := Sparse.set (fun _ => 0) m i (Sparse.get (fun _ => 0) m i + 1)

/-- A gradient-completion notice of layer `i` (R194): one that does not count sets GDXS. -/
def State.gradNotice (s : State) (i : Nat) : State :=
  if s.step.phase == .running && !s.generate && lTrained (s.layer i) && !s.gradReady i then
    { s with step := { s.step with gdone := countAt s.step.gdone i } }.settleColl
  else s.setHf .STEP_STAT 0 0 1 1

/-- A direction notice of layer `i` (R250). -/
def State.dirNotice (s : State) (i : Nat) : State :=
  if s.step.phase == .running && !s.generate && lTrained (s.layer i) && lDirected (s.layer i) && !s.dirReady i then
    { s with step := { s.step with ddone := countAt s.step.ddone i } }
  else s

/-- GDONE_NOTICE (R194). -/
def execGdoneNotice (n : Nat) (flits : List FlitErr) (s : State) : Out :=
  match s.takeNotice n .STEP_GDONE flits with
  | none => .next s
  | some (none, t) => .next t
  | some (some i, t) => .next (t.gradNotice i)

/-- DDONE_NOTICE (R250). -/
def execDdoneNotice (n : Nat) (flits : List FlitErr) (s : State) : Out :=
  match s.takeNotice n .UPD_DDONE flits with
  | none => .next s
  | some (none, t) => .next t
  | some (some i, t) => .next (t.dirNotice i)

/-! ### Faults -/

/-! ### The end of a permutation that does not commit (R288, R291, R292) -/

/-- This module's coordinate, x + 8y. -/
def State.code (s : State) : Nat := s.myX + 8 * s.myY

/-- The grid in force. -/
def State.gridNow (s : State) : Grid :=
  let ms := (List.range s.ranks).map fun r =>
    match s.solo, s.memberAt s.mapBank r with
    | false, some (x, y) => x + 8 * y
    | _, _ => s.code
  ⟨s.xl, s.yl, ms, s.epoch, s.stepNo, s.replays⟩

/-- The record area of a new rank. -/
def bodyArea (body : List Byte) (r : Nat) : Nat := leNat ((body.drop (72 + 8 * r)).take 8) % 2 ^ 48

/-- Send a management message to every module of either map, but this one. -/
def State.mgmtAll (s : State) (p : Permute) (m : MgmtMsg) : State :=
  let codes := p.old.map ++ ((newGrid p.body p.old).elim [] (·.map))
  (codes.eraseDups.filter (· != s.code)).foldl (fun (t : State) c => t.sendTo (c % 8) (c / 8) t.jobTag 1 (.mgmt m)) s

/-- The permutation's entry in the Rain gauge (R292, R369). -/
def State.permLog (s : State) (p : Permute) (status : Nat) : State :=
  s.notable (toLe 1 5 ++ toLe 1 0 ++ toLe 2 status ++ toLe 1 p.old.epoch ++ toLe 1 ((p.old.epoch + 1) % 256) ++ toLe 2 0 ++ toLe 8 s.sundial
    ++ toLe 4 p.plan.length ++ toLe 4 0 ++ toLe 8 p.bytes ++ p.hash.take 28)

/-- The permutation is over on this module: action 3 is complete, and a job that was told to stop ends. -/
def State.permOver (s : State) (p : Permute) : State :=
  let s := { s with coll := { s.coll with perm := none, plan := p.plan } }.setHf .LNK_CSTAT 0 26 1 0
  match s.step.phase with
  | .boundary a => if s.step.stopping then s.endJob else if a ≤ 3 then s.afterAction 3 else s
  | _ => s

/-- End a permutation that has not reached COMMIT with a status: the coordinator tells every module; the old map stays in force. -/
def State.permEnd (s : State) (status : Nat) : State :=
  match s.coll.perm with
  | some p =>
    if 6 ≤ p.stage then s
    else if p.chief = s.code then
      let t := ((s.mgmtAll p (.ended status)).permLog p status).permOver p
      (if status = St.RESET_ABORTED then t else t.event status 6 0 0).endOp 0xD043 status
    else
      let s := if 3 ≤ p.stage then s.sendTo (p.chief % 8) (p.chief / 8) s.jobTag 1 (.mgmt (.ended status)) else s
      (s.permLog p status).permOver p
  | none => s

/-- A fault while the moves run ends the permutation (R291). -/
def State.permFault (s : State) : State :=
  match s.coll.perm with
  | some p => if 3 ≤ p.stage ∧ p.stage < 6 then s.permEnd St.PERMUTE_FAILED else s
  | none => s

/-- A fault that may not be replayed any more: after the decision it asks for the recovery sweep, once (R267). -/
def State.lateFault (s : State) : State :=
  let s := s.permFault
  if s.step.decided && s.step.commit && s.step.phase == .running then
    if s.step.recovered then s.event St.HBM_DATA_LOSS 0 0 0 else { s with step := { s.step with recover := true } }
  else s

/-- The event of a notice (R139, R149, R153, R170, R177, R339). -/
def State.noticeEvent (s : State) (src : Endpoint) (st detail extra : Nat) : State :=
  match src with
  | .cluster ci =>
    if (0x0108 ≤ st ∧ st ≤ 0x010B) ∨ st = St.CHANNEL_FAULT ∨ st = St.FRONT_BROKEN then
      s.event st 3 (coreOf ci (detail % 64)) (if st = St.DESC_FAULT then extra % 2 ^ 16 else 0)
    else s.event st 2 ci 0
  | .hbm k => s.event st 4 k (if st = St.HBM_UNCORRECTABLE then extra else 0)
  | _ => s.event st 0 0 0

/-- An uncorrectable local-memory error charges four to its core (R342). -/
def State.chargeUe (s : State) (src : Endpoint) (st detail : Nat) : State :=
  match src with
  | .cluster ci => if st = St.LMEM_UNCORRECTABLE then s.chargeCore (coreOf ci (detail % 64)) 4 else s
  | _ => s

/-- The oldest uncorrectable unit that stack `k` has sent a notice for, and the others (R170). -/
def State.ueOf (s : State) (k : Nat) : Option (Nat × Bool) × State :=
  match s.rel.ues.find? fun e => e.1 == k with
  | some (_, u, persist) => (some (u, persist), { s with rel := { s.rel with ues := s.rel.ues.erase (k, u, persist) } })
  | none => (none, s)

/-- A notice of an uncorrectable HBM unit (R170): the event, then HBM_DATA_LOSS if the re-read fails too, else a replay. -/
def State.hbmNotice (s : State) (k : Nat) : State :=
  let r := s.ueOf k
  match r.1 with
  | some (u, persist) =>
    let t := r.2.noticeEvent (.hbm k) St.HBM_UNCORRECTABLE 0 u
    if persist then (t.hbmLoss u).permFault else if t.step.decided then t.lateFault else t.decideReplay St.HBM_UNCORRECTABLE
  | none => r.2

/-- ERROR_NOTICE (R139, R154): the notice at place `n` reaches the hub: the event, and a step replay, a recovery sweep, or, for an HBM
unit whose re-read fails too, HBM_DATA_LOSS. -/
def execErrorNotice (n : Nat) (flits : List FlitErr) (s : State) : Out :=
  match s.takeUrgent n 9 flits with
  | none => .next s
  | some (_, none, t) => .next t
  | some (p, some a, t) =>
    let st := bits a 0 16
    let detail := bits a 16 16
    match p.src, decide (st = St.HBM_UNCORRECTABLE) with
    | .hbm k, true => .next (t.hbmNotice k)
    | _, _ =>
      let t := (t.noticeEvent p.src st detail (bits a 32 16)).chargeUe p.src st detail
      if t.step.decided then .next t.lateFault else .next (t.decideReplay st)

/-- REPLAY_REQ (R312): a request for this module's current step and replay count starts a step replay; one for the same pair again, or an
older one, is discarded; one that this module has yet to reach waits. -/
def execReplayReq (p lseq : Nat) (f : Frame) (s : State) : Out :=
  match f.body with
  | .urg 1 [n, count, cause] =>
    if s.delivers f then
      .next (s.takeFrame p lseq false fun t =>
        if (t.rankOf f.sx f.sy).isNone then t
        else if n = t.stepNo ∧ count = t.replays ∧ t.step.starting = false then t.takeReq cause
        else if t.step.job ∧ (n = t.stepNo + 1 ∨ (n = t.stepNo ∧ (t.replays < count ∨ t.step.starting))) then
          { t with coll := { t.coll with reqs := t.coll.reqs ++ [(n, count, cause)] } }
        else t)
    else .next s
  | _ => .next s

/-! ### Step replay (R132, R158, R269) -/

/-- Step replay on one core: the images return, and the list in use restarts. -/
def Core.stepReplay (c : Core) : Core :=
  let c := c.engineReset
  let cur := rf c.regs .CORE_LSEL 0 2 2
  let c : Core := { c with send := c.send.map fun x => { x with credit := x.imgCredit, seq := x.imgSeq }
                           recv := c.recv.map fun x => { x with next := x.imgNext, armed := x.imgArmed, held := [] } }
  c.startList (bit (rg c.regs .CORE_LIST cur) 15)

/-- Clear the hub's event counters of a cluster. -/
def Cluster.clearEvents (c : Cluster) : Cluster :=
  { c with regs := sg (sg (sg c.regs .CSP_EVT 29 0) .CSP_EVT 30 0) .CSP_EVT 31 0 }

/-- Steps 2 to 7 of R269. -/
def State.restart (s : State) : State :=
  let x := s.step
  let x := { x with faulted := false, closed := false, own := Norm.zero, group := none, gdone := [], ddone := [], rsSent := [], landed := [], held := 0, ramp := s.sundial, rerun := false }
  let s := { s with step := x, coll := s.coll.begin, rake := Rake.init, outbox := [] }.endQuiesce
  let s := s.replayAll false Core.stepReplay
  let s := { s with clusters := s.clusters.map Cluster.clearEvents }
  let n := finalPrefix s.validLayers s.step.final
  { s with step := { s.step with counted := n } }.allCsp 31 n

/-- STEP_REPLAY (R269): with the Trellis quiesced, the faulted step restarts from entry 0. -/
def execStepReplay (s : State) : Out :=
  if s.step.faulted && s.step.phase == .running && (match s.quiesce with | some q => q.done | none => false) then
    let t := s.restart.setHf .UPD_STAT 0 2 2 (if s.step.rerun then 0 else min (s.replays + 1) 3)
    .next (if s.step.rerun then { t with coll := { t.coll with reqs := [], held := t.coll.held.filter fun c => c.step != s.stepNo % 2 ^ 16 || !c.kind.ofStep } }
      else t.settleReq).settleColl
  else .next s

end Sys2Proof.Machine
end

