-- ==== Sys2Proof/Machine/Mailbox.lean ====
section
/-! DEFINITION. The mailbox (R329-R334, R340), the CXL-defined commands (R318), and the Ngumal commands that only report, quiesce, patch,
copy or send (R335, R337). -/

namespace Sys2Proof.Machine

/-! ### Opcodes (R335, R337) -/

/-- Whether a Ngumal opcode is allocated, and a body of `n` bytes has its length; none when not allocated. A SERVICE token may be absent
(R334). The v1 bodies are in the SP1 layouts, whose lengths the spec does not give. -/
def bodyOk (op n count : Nat) : Option Bool :=
  if op ∈ [0xD000, 0xD001, 0xD003, 0xD031, 0xD040, 0xD053, 0xD061, 0xD071, 0xD080, 0xD083] then some (n == 0)
  else if op ∈ [0xD012, 0xD032, 0xD090] then some (n == 1)
  else if op = 0xD013 then some (n == 4)
  else if op = 0xD010 then some (n == 5)
  else if op ∈ [0xD002, 0xD011] then some (n == 8)
  else if op ∈ [0xD022, 0xD024, 0xD070] then some (n == 12)
  else if op ∈ [0xD030, 0xD041, 0xD044, 0xD045, 0xD054] then some (n == 16)
  else if op ∈ [0xD021, 0xD023, 0xD025, 0xD060] then some (n == 20)
  else if op = 0xD052 then some (n == 24)
  else if op ∈ [0xD050, 0xD051] then some (n == 32)
  else if op = 0xD082 then some (n == 40)
  else if op = 0xD042 then some (n == 66)
  else if op = 0xD043 then some (n == 584)
  else if op = 0xD020 then some (n == 16 + 4 * count)
  else if op = 0xD046 then some (n == 3 || n == 143)
  else if op = 0xD062 then some (n == 0 || n == 220)
  else if op = 0xD081 then some (n == 1 || n == 221)
  else if 0xC000 ≤ op ∧ op ≤ 0xC005 then some true
  else none

/-- The CXL-defined commands (R318). -/
def cxlOps : List Nat := [0x0100, 0x0101, 0x0102, 0x0103, 0x0200, 0x0400, 0x0401]

/-- CXL return codes (PRESUMED: the CXL 3.1 values). -/
def retOk : Nat := 0
def retInvalid : Nat := 2
def retUnsupported : Nat := 3
def retBusy : Nat := 6
def retHandle : Nat := 0xE
def retLength : Nat := 0x16
def retLog : Nat := 0x17

/-- The boot ROM is in recovery: release has stopped at its third step (R410). -/
def State.recovering (s : State) : Bool := s.hf .SEC_STAT 0 10 1 == 1 && !s.rst.ready && s.hf .RST_STAT 0 2 4 == 3

/-- The mailbox accepts commands: Ngumal is ready, or recovery runs; its clock runs. -/
def State.mailboxUp (s : State) : Bool := (s.rst.ready || s.recovering) && !s.rst.refLost

/-! ### Running commands -/

/-- A little-endian field of a body. -/
def Cmd.field (c : Cmd) (off n : Nat) : Nat := leNat ((c.body.drop off).take n)

/-- The command at the head of the queue, when it has this opcode and may run. -/
def State.takeCmd (s : State) (op : Nat) : Option (Cmd × State) :=
  match s.mb.cmds with
  | c :: rest => if c.opcode = op ∧ s.mailboxUp then some (c, { s with mb := { s.mb with cmds := rest } }) else none
  | [] => none

/-- Answer a command in its slot. A status that has an event log is raised as an event too (R338, R339). -/
def State.reply (s : State) (c : Cmd) (status : Nat) (data : List Byte) : State := (s.event status 0 0 0).answer c.slot c.tag status data

/-- End a ticket with a status that is raised as an event too. -/
def State.failTicket (s : State) (n status : Nat) : State := (s.event status 0 0 0).endTicket n status

/-- Run an S command. -/
def State.short (s : State) (op : Nat) (go : Cmd → State → State) : Out :=
  match s.takeCmd op with
  | some (c, t) => .next (go c t)
  | none => .next s

/-- The resource a command needs (R332): 1 layer table, 2 factor table, 3 group, 4 Harvest, 5 Rain gauge, 6 firmware, 7 debug. -/
def resourceOf (op : Nat) : Nat :=
  if op ∈ [0xD022, 0xD023] then 1
  else if op ∈ [0xD024, 0xD025] then 2
  else if op ∈ [0xD040, 0xD042, 0xD043] then 3
  else if op ∈ [0xD050, 0xD051] then 4
  else if op ∈ [0xD060, 0xD061, 0xD062] then 5
  else if op ∈ [0xD070, 0xD071, 0xC005] then 6
  else if op ∈ [0xD080, 0xD081, 0xD082, 0xD083] then 7
  else 0

/-- A resource is held by an active ticket. -/
def State.resourceBusy (s : State) (op : Nat) : Bool :=
  resourceOf op != 0 && s.mb.tickets.any fun t => t.active && !t.done && resourceOf t.opcode == resourceOf op

def State.freeTicket (s : State) : Option Nat := (List.range 8).find? fun n => !(s.ticket n).active

/-- Take a ticket for a command, and answer IN_PROGRESS with its number (R331). -/
def State.openTicket (s : State) (n : Nat) (c : Cmd) : State :=
  let t := s.setTicket n ⟨true, false, c.tag, St.IN_PROGRESS, 0, c.opcode, c.body, false⟩
  let t := { t with mb := { t.mb with turn := match t.mb.turn with | some k => some k | none => some n } }
  t.reply c St.IN_PROGRESS (toLe 4 n)

/-- Run an L command: refused with a status in its slot, or under ticket `n`. (DEDUCED: log 52) -/
def State.long (s : State) (op : Nat) (refuse : Cmd → State → Option Nat) (go : Cmd → Nat → State → State) : Out :=
  match s.takeCmd op with
  | none => .next s
  | some (c, t) =>
    match refuse c t with
    | some st => .next (t.reply c st [])
    | none =>
      if t.resourceBusy op then .next (t.reply c St.RESOURCE_BUSY [])
      else
        match t.freeTicket with
        | none => .next (t.reply c St.TICKETS_EXHAUSTED [])
        | some n => .next (go c n (t.openTicket n c))

/-- End a ticket whose result is a completion record (R328). -/
def State.finish (s : State) (n : Nat) (c : Cmd) (cdpa status len : Nat) : State :=
  (s.completion cdpa status c.tag n len).endTicket n status

/-- Refuse with a status when a condition holds. -/
def refuseIf (b : Bool) (st : Nat) : Option Nat := if b then some st else none

/-! ### The doorbell (R329, R330) -/

/-- What a doorbell set with a Ngumal opcode returns. -/
def State.ngumalRet (s : State) (op : Nat) (payload : List Byte) : Nat :=
  let h := leNat (payload.take 8)
  match bodyOk op (payload.length - 8) (leNat ((payload.drop 9).take 1)) with
  | none => retUnsupported
  | some ok =>
    if payload.length < 8 ∨ 2 ^ 19 ≤ h ∨ ok = false then retInvalid
    else if (s.slot (bits h 16 3)).state = 1 ∨ 32 ≤ s.mb.cmds.length then retBusy
    else retOk

/-- MAILBOX_DOORBELL (R329, R330): the doorbell presents an opcode and its payload. An accepted Ngumal command makes its slot PENDING; in
recovery every Ngumal command but GET_INFO and FW_STAGE answers RECOVERY_WAIT (R410). -/
def execMailboxDoorbell (op : Nat) (payload : List Byte) (s : State) : Out :=
  if s.mailboxUp = false ∨ s.mb.cxl.isSome then .next s
  else if (0xC000 ≤ op ∧ op ≤ 0xC0FF) ∨ (0xD000 ≤ op ∧ op ≤ 0xD0FF) then
    let r := s.ngumalRet op payload
    let s := { s with mb := { s.mb with ret := r, out := [] } }
    if r = retOk then
      let h := leNat (payload.take 8)
      let c : Cmd := ⟨op, bits h 0 16, bits h 16 3, payload.drop 8⟩
      let s := s.setSlot c.slot ⟨1, c.tag, St.PENDING, [], false, s.sundial⟩
      if s.recovering ∧ op ≠ 0xD000 ∧ op ≠ 0xD070 then .next (s.reply c St.RECOVERY_WAIT [])
      else .next { s with mb := { s.mb with cmds := s.mb.cmds ++ [c] } }
    else .next s
  else if cxlOps.contains op then .next { s with mb := { s.mb with cxl := some (op, payload) } }
  else .next { s with mb := { s.mb with ret := retUnsupported, out := [] } }

/-- SLOT_ACK (R330): each bit of MBX_SACK returns a VALID slot to EMPTY. -/
def execSlotAck (mask : Nat) (s : State) : Out :=
  .next ((List.range 8).foldl (fun (t : State) k => if bit mask k ∧ (t.slot k).state = 2 then t.setSlot k Slot.init else t) s)

/-- TICKET_ACK (R331): each bit of MBX_TKTACK frees a DONE ticket. -/
def execTicketAck (mask : Nat) (s : State) : Out :=
  .next ((List.range 8).foldl (fun (t : State) n => if bit mask n ∧ (t.ticket n).active ∧ (t.ticket n).done then t.setTicket n Ticket.init else t) s)

/-! ### CXL-defined commands (R318, R339, R340) -/

/-- Run the CXL-defined command in progress: its return code and output, and vector 0 (R340). -/
def State.cxlRun (s : State) (op : Nat) (go : List Byte → State → Nat × List Byte × State) : Out :=
  match s.mb.cxl with
  | some (o, input) =>
    if o = op then
      let r := go input s
      .next ({ r.2.2 with mb := { r.2.2.mb with cxl := none, ret := r.1, out := r.2.1 } }.raiseMsix 0)
    else .next s
  | none => .next s

/-- The records of a log, oldest first. -/
def State.logOf (s : State) (l : Nat) : List Event := s.logs.filter fun e => e.log == l

/-- A Common Event Record (R339; its layout PRESUMED from CXL 3.1). A record's handle is its place in its log, from 1. (PRESUMED: log 51) -/
def Event.bytes (e : Event) (handle : Nat) : List Byte :=
  toLe 16 Config.eventUuid ++ toLe 1 128 ++ toLe 3 e.log ++ toLe 2 handle ++ toLe 2 0 ++ toLe 8 e.tick ++ toLe 16 0
    ++ (toLe 2 e.status ++ toLe 1 e.kind ++ toLe 4 e.idx ++ toLe 8 e.step ++ toLe 8 e.tick ++ toLe 8 e.arg ++ toLe 49 0)

/-- GET_EVENT_RECORDS: up to 63 records of a log fill the payload. -/
def execGetEventRecords (s : State) : Out :=
  s.cxlRun 0x0100 fun input s =>
    let l := leNat input
    if input.length ≠ 1 then (retLength, [], s)
    else if 4 ≤ l then (retInvalid, [], s)
    else
      let es := s.logOf l
      let lost := Sparse.get (fun _ => Lost.mk 0 0 0) s.logLost l
      let out := es.take 63
      (retOk, toLe 1 (b2n (lost.n != 0) + 2 * b2n (decide (63 < es.length))) ++ toLe 1 0 ++ toLe 2 (min lost.n 0xFFFF) ++ toLe 8 lost.first
        ++ toLe 8 lost.last ++ toLe 2 out.length ++ toLe 10 0 ++ (out.mapIdx fun i e => e.bytes (i + 1)).flatten, s)

/-- Remove the oldest `n` records of a log. -/
def dropLog (l : Nat) : Nat → List Event → List Event
  | 0, es => es
  | _, [] => []
  | n + 1, e :: es => if e.log = l then dropLog l n es else e :: dropLog l (n + 1) es

/-- CLEAR_EVENT_RECORDS: all of a log with its overflow, or its oldest records by their handles in order. -/
def execClearEventRecords (s : State) : Out :=
  s.cxlRun 0x0101 fun input s =>
    let l := leNat (input.take 1)
    let n := leNat ((input.drop 2).take 1)
    let hs := (List.range n).map fun i => leNat ((input.drop (6 + 2 * i)).take 2)
    if input.length < 6 ∨ input.length ≠ 6 + 2 * n then (retLength, [], s)
    else if 4 ≤ l then (retInvalid, [], s)
    else if leNat ((input.drop 1).take 1) % 2 = 1 then
      (retOk, [], { s with logs := s.logs.filter fun e => e.log != l, logLost := Sparse.drop s.logLost l })
    else if hs ≠ (List.range n).map (· + 1) ∨ (s.logOf l).length < n then (retHandle, [], s)
    else (retOk, [], { s with logs := dropLog l n s.logs })

/-- GET_EVENT_INTERRUPT_POLICY: per log, mode in [3:0] and vector in [7:4]. -/
def execGetEventInterruptPolicy (s : State) : Out :=
  s.cxlRun 0x0102 fun input s =>
    if input.length ≠ 0 then (retLength, [], s)
    else (retOk, (s.policy.map fun v => toLe 1 (if v = 0 then 0 else 1 + 16 * v)).flatten, s)

/-- The vector a policy byte names: none, 3 or 4 (R340). (PRESUMED: log 14) -/
def policyOf (b : Nat) : Option Nat :=
  if b % 16 = 0 then some 0 else if b % 16 = 1 ∧ (b / 16 = 3 ∨ b / 16 = 4) then some (b / 16) else none

/-- SET_EVENT_INTERRUPT_POLICY (R340): each log goes to vector 3, to vector 4 or to none. -/
def execSetEventInterruptPolicy (s : State) : Out :=
  s.cxlRun 0x0103 fun input s =>
    let ps := input.map fun b => policyOf b.toNat
    if input.length ≠ 4 then (retLength, [], s)
    else if ps.any fun p => p.isNone then (retInvalid, [], s)
    else (retOk, [], { s with policy := ps.map fun p => p.getD 0 })

/-- GET_FW_INFO: one slot, active. -/
def execGetFwInfo (s : State) : Out :=
  s.cxlRun 0x0200 fun input s =>
    if input.length ≠ 0 then (retLength, [], s)
    else (retOk, toLe 1 1 ++ toLe 1 1 ++ toLe 14 0 ++ toLe 16 (Config.fwText s.sec.boot.version) ++ toLe 48 0, s)

/-- Every opcode the command effects log lists. -/
def celOps : List Nat := cxlOps ++ (List.range 6).map (0xC000 + ·) ++ (List.range 0x91).filterMap fun i =>
  (bodyOk (0xD000 + i) 0 0).map fun _ => 0xD000 + i

/-- The command effects log: opcode and effects. -/
def celBytes : List Byte := (celOps.map fun o => toLe 2 o ++ toLe 2 (Config.celEffects o)).flatten

/-- The UUID of the command effects log, 0da9c0b5-bf41-4b78-8f79-96b1623b3f17 (PRESUMED: CXL). -/
def celUuid : List Byte := toBe 16 0x0da9c0b5bf414b788f7996b1623b3f17

/-- GET_SUPPORTED_LOGS: the command effects log alone. -/
def execGetSupportedLogs (s : State) : Out :=
  s.cxlRun 0x0400 fun input s =>
    if input.length ≠ 0 then (retLength, [], s)
    else (retOk, toLe 2 1 ++ toLe 6 0 ++ celUuid ++ toLe 4 celBytes.length, s)

/-- GET_LOG: bytes of the command effects log. -/
def execGetLog (s : State) : Out :=
  s.cxlRun 0x0401 fun input s =>
    let off := leNat ((input.drop 16).take 4)
    let n := leNat ((input.drop 20).take 4)
    if input.length ≠ 24 then (retLength, [], s)
    else if input.take 16 ≠ celUuid then (retLog, [], s)
    else if celBytes.length < off + n then (retInvalid, [], s)
    else (retOk, (celBytes.drop off).take n, s)

/-! ### Reports -/

/-- GET_INFO's payload (R335); in recovery the firmware version is 0 (R410). -/
def State.infoBytes (s : State) : List Byte :=
  toLe 8 s.serial ++ toLe 2 Config.stepping ++ toLe 4 (if s.recovering then 0 else s.sec.boot.version) ++ toLe 2 Config.ngumalVersions
    ++ toLe 1 s.lcs ++ toLe 16 Config.eventUuid

/-- GET_INFO. -/
def execGetInfo (s : State) : Out := s.short 0xD000 fun c s => s.reply c St.OK s.infoBytes

/-- The status of the hold in force, OK for none. -/
def State.holdStatus (s : State) : Nat :=
  if s.step.held ≠ 0 then s.step.held else if s.hf .SIV_STAT 0 4 1 = 1 then St.SIEVE_HALT else St.OK

/-- GET_STATUS. -/
def execGetStatus (s : State) : Out :=
  s.short 0xD001 fun c s => s.reply c St.OK (toLe 1 (s.hf .PWR_STATE 0 0 3) ++ toLe 1 (b2n s.step.job) ++ toLe 1 (s.hf .STEP_CFG 0 2 1)
    ++ toLe 8 s.stepNo ++ toLe 2 s.holdStatus)

/-- The value of sensor `i` (R401): the cap and the throttle levels from their registers, every other reading open. -/
def State.sensorVal (s : State) (i : Nat) : Nat :=
  if i = 47 then fp32Of (s.hf .PWR_CAP 0 0 14) 0
  else if 48 ≤ i ∧ i ≤ 55 then fp32Of (s.hf .PWR_THR (i - 48) 8 4) 0
  else (Config.sensor s.fresh i).toNat

/-- The readings a mask selects, in mask order. -/
def State.sensorBytes (s : State) (mask : Nat) : List Byte := (((List.range 56).filter (bit mask)).map fun i => toLe 4 (s.sensorVal i)).flatten

/-- Readings have been taken: later ones differ. -/
def State.sensed (s : State) : State := { s with fresh := s.fresh + 1 }

/-- GET_TELEMETRY (R401). -/
def execGetTelemetry (s : State) : Out :=
  s.short 0xD002 fun c s =>
    let m := c.field 0 8
    if 2 ^ 56 ≤ m then s.reply c St.INVALID_PAYLOAD [] else s.sensed.reply c St.OK (s.sensorBytes m)

/-- FPFLAG_REDUCE (R43, R335): the flag reduction alone, refused while a job runs. -/
def execFpflagReduce (s : State) : Out :=
  s.short 0xD003 fun c s =>
    if s.step.job then s.reply c St.BUSY_JOB []
    else
      let fl := s.fpflags
      (s.setHf .RKE_FPFLAGS 0 0 5 fl).reply c St.OK (toLe 1 fl)

/-- V1_IDENTIFY (R337): as GET_INFO. -/
def execV1Identify (s : State) : Out := s.short 0xC000 fun c s => s.reply c St.OK s.infoBytes

/-- V1_HEALTH (R337): every sensor. -/
def execV1Health (s : State) : Out := s.short 0xC001 fun c s => s.sensed.reply c St.OK (s.sensorBytes (2 ^ 56 - 1))

/-- V1_GET_LOG (R337, R374): the Rain gauge summary. -/
def execV1GetLog (s : State) : Out := s.short 0xC004 fun c s => s.reply c St.OK s.gauge.summary

/-! ### The power cap -/

/-- SET_POWER_CAP's effect (R335, R400). -/
def State.setCap (s : State) (c : Cmd) : State :=
  let w := c.field 0 4
  if w < 1200 ∨ 13500 < w then s.reply c St.INVALID_PAYLOAD [] else (s.rwpHf .PWR_CAP 0 0 14 w).reply c St.OK []

/-- SET_POWER_CAP. -/
def execSetPowerCap (s : State) : Out := s.short 0xD013 fun c s => s.setCap c

/-- V1_SET_PCAP (R337): as SET_POWER_CAP; the cap is read from the first four bytes of the SP1 body (PRESUMED). -/
def execV1SetPcap (s : State) : Out := s.short 0xC003 fun c s => s.setCap c

/-! ### Quiesce, patches, copies, v1 messages -/

/-- QUIESCE (R335): its ticket ends when the hub has QUIESCED or has timed out. -/
def execQuiesce (s : State) : Out := s.long 0xD011 (fun _ _ => none) fun c _ s => s.startQuiesce (c.field 0 8)

/-- The patch a BROADCAST_PATCH body describes, none when it is not one (R135, R335). -/
def patchOf (c : Cmd) : Option Patch :=
  let first := c.field 0 1
  let n := c.field 1 1
  let x0 := c.field 4 1
  let y0 := c.field 5 1
  let x1 := c.field 6 1
  let y1 := c.field 7 1
  let vals := (List.range n).map fun i => c.field (16 + 4 * i) 4
  if n = 0 ∨ 16 < n ∨ 64 < first + n then none
  else if c.field 2 1 = 0 then some ⟨none, first, vals⟩
  else if c.field 2 1 = 1 ∧ x0 ≤ x1 ∧ x1 < 128 ∧ y0 ≤ y1 ∧ y1 < 40 then some ⟨some (x0, y0, x1, y1, c.field 8 8), first, vals⟩
  else none

/-- BROADCAST_PATCH (R135): accepted in order. -/
def execBroadcastPatch (s : State) : Out :=
  s.short 0xD020 fun c s =>
    match patchOf c with
    | some p => { s with step := { s.step with patches := s.step.patches ++ [p] } }.reply c St.OK []
    | none => s.reply c St.INVALID_PAYLOAD []

/-- COPY_SRAM (R335): each manifest entry copies HBM bytes to SRAM; the record counts the bytes written. -/
def execCopySram (hbm : List HbmErr) (s : State) : Out :=
  s.hbmRun hbm fun s =>
    s.long 0xD021 (fun _ _ => none) fun c n s =>
      let m := c.field 0 8
      let r := (List.range (c.field 8 4)).foldl (fun (a : State × Nat) i =>
        let e := a.1.rdN (m + 24 * i) 24
        let len := bits e 128 32
        (a.1.wrS (bits e 64 64) (a.1.rd (bits e 0 64) len), a.2 + len)) (s, 0)
      r.1.finish n c (c.field 12 8) St.OK r.2

/-- V1_SEND (R302): a V1MSG of 1-4,096 bytes leaves on a v1 port. -/
def execV1Send (hbm : List HbmErr) (s : State) : Out :=
  s.hbmRun hbm fun s =>
    s.long 0xD045 (fun c s =>
        let p := c.field 0 1
        let len := c.field 4 4
        refuseIf (decide (4 ≤ p) || !(s.port p).v1 || (s.pstate p != 2 && s.pstate p != 4) || len == 0 || decide (4096 < len)) St.INVALID_PAYLOAD)
      fun c n s =>
        let f : Frame := ⟨s.myX, s.myY, s.myX, s.myY, s.jobTag, 1, .v1msg (s.rd (c.field 8 8) (c.field 4 4))⟩
        (s.transmit (c.field 0 1) f).endTicket n St.OK

/-- Whether a ticket's operation can no longer be aborted (R333). -/
def State.unabortable (s : State) (t : Ticket) : Bool :=
  t.opcode == 0xD071 || t.opcode == 0xD051 || (t.opcode == 0xD043 && match s.coll.perm with | some p => decide (6 ≤ p.stage) | none => false)

/-- TICKET_ABORT (R333): the ticket ends at its next slice boundary. -/
def execTicketAbort (s : State) : Out :=
  s.short 0xD090 fun c s =>
    let n := c.field 0 1
    let t := s.ticket n
    if 8 ≤ n ∨ t.active = false ∨ t.done then s.reply c St.TICKET_UNKNOWN []
    else if s.unabortable t then s.reply c St.RESOURCE_BUSY []
    else (s.setTicket n { t with abort := true }).reply c St.OK []

end Sys2Proof.Machine
end

