-- ==== Sys2Proof/Machine/Tables.lean ====
section
/-! DEFINITION. Loading and reading the layer table and the factor table (R190, R199-R201, R238, R244, R276, R335). -/

namespace Sys2Proof.Machine

/-- The bits of a layer-table entry that have a field; the rest are reserved and hold zero. -/
def layerBits : Nat :=
  (2 ^ 186 - 1) + (2 ^ 26 - 1) * 2 ^ 192 + (2 ^ 53 - 1) * 2 ^ 256 + (2 ^ 33 - 1) * 2 ^ 320 + 7 * 2 ^ 384

/-- Entries over a table. -/
def overlay (m es : List (Nat × Nat)) : List (Nat × Nat) := es.foldl (fun m e => Sparse.set (fun _ => 0) m e.1 e.2) m

/-- A value written to an entry: a reserved RULE leaves the field as it is (R12). (DEDUCED: log 41) -/
def keepRule (old new : Nat) : Nat := if 7 < lRule new then putBits new 320 4 (lRule old) else new

/-- The entries a write names, from memory: index and value. -/
def State.newLayers (s : State) (c : Cmd) : List (Nat × Nat) :=
  let now := overlay s.layers s.layersNext
  (List.range (c.field 2 2)).map fun i =>
    (c.field 0 2 + i, keepRule (Sparse.get (fun _ => 0) now (c.field 0 2 + i)) (s.rdN (c.field 4 8 + 64 * i) 64 &&& layerBits))

/-- An entry refused for its content (R199, R201, R244). -/
def layerBad (l : Nat) : Bool :=
  (lValid l && lNcon l == 0) || (lPriv l && lNmul l == 0) || decide (8 < lSub l) || (lDirected l && lDncon l == 0)
    || (lRule l == 6 && !lPriv l)

/-- The FIDX values of the privileged layers of a table. -/
def privIndices (m : List (Nat × Nat)) : List Nat := (m.filter fun e => lValid e.2 && lPriv e.2).map fun e => lFidx e.2

/-- A value appears twice. -/
def hasTwice : List Nat → Bool
  | [] => false
  | x :: r => r.contains x || hasTwice r

/-- A change of WBASE, XBASE or XPOSE (R190). -/
def xposeChange (old new : Nat) : Bool := bits old 0 96 != bits new 0 96 || lXpose old != lXpose new

/-- Why a layer-table write is refused. -/
def State.layerRefusal (s : State) (c : Cmd) : Option Nat :=
  let es := s.newLayers c
  if 4096 < c.field 0 2 + c.field 2 2 ∨ (es.any fun e => layerBad e.2)
      ∨ hasTwice (privIndices (overlay (overlay s.layers s.layersNext) es)) then some St.INVALID_PAYLOAD
  else if s.step.job ∧ (es.any fun e => xposeChange (s.layer e.1) e.2) then some St.BUSY_JOB
  else none

/-- LAYER_WRITE (R199): every entry is checked before any is written. During a job the entries wait for the next boundary. (DEDUCED: log 42) -/
def execLayerWrite (hbm : List HbmErr) (s : State) : Out :=
  s.hbmRun hbm fun s =>
    s.long 0xD022 (fun c s => s.layerRefusal c) fun c n s =>
      let es := s.newLayers c
      (if s.step.job then { s with layersNext := s.layersNext.filter (fun e : Nat × Nat => es.all fun x => x.1 != e.1) ++ es }
        else { s with layers := overlay s.layers es }).endTicket n St.OK

/-- A read of table entries to memory with its completion record. -/
def State.tableRead (s : State) (c : Cmd) (n : Nat) (entry : Nat → Nat) : State :=
  let k := c.field 2 2
  (s.wrS (c.field 4 8) ((List.range k).map fun i => toLe 64 (entry (c.field 0 2 + i))).flatten).finish n c (c.field 12 8) St.OK (64 * k)

/-- LAYER_READ. -/
def execLayerRead (s : State) : Out :=
  s.long 0xD023 (fun c _ => refuseIf (decide (4096 < c.field 0 2 + c.field 2 2)) St.INVALID_PAYLOAD) fun c n s => s.tableRead c n s.layer

/-- FACTOR_WRITE (R201, R238): an entry's buffers are set, its fold is empty, and both sides publish buffer 0; the other fields stay.
(DEDUCED: log 43) -/
def execFactorWrite (hbm : List HbmErr) (s : State) : Out :=
  s.hbmRun hbm fun s =>
    s.long 0xD024 (fun c s =>
        if 1024 < c.field 0 2 + c.field 2 2 then some St.INVALID_PAYLOAD else refuseIf s.step.job St.BUSY_JOB)
      fun c n s =>
        ((List.range (c.field 2 2)).foldl (fun (t : State) i =>
          let v := t.rdN (c.field 4 8 + 64 * i) 64
          let f := t.factor (c.field 0 2 + i)
          let f := putBits (putBits (putBits f 0 192 (bits v 0 192)) 192 64 pverEmpty) 256 96 (bits v 256 96)
          t.setFactor (c.field 0 2 + i) (putBits f 352 16 0)) s).endTicket n St.OK

/-- FACTOR_READ. -/
def execFactorRead (s : State) : Out :=
  s.long 0xD025 (fun c _ => refuseIf (decide (1024 < c.field 0 2 + c.field 2 2)) St.INVALID_PAYLOAD) fun c n s => s.tableRead c n s.factor

end Sys2Proof.Machine
end

