-- ==== Sys2Proof/Machine/Job.lean ====
section
/-! DEFINITION. Starting, stopping and resuming a job (R241, R275, R316, R335), and DISCOVER (R303). -/

namespace Sys2Proof.Machine

/-- The staged firmware copy is gone (R408). -/
def State.unstage (s : State) : State := { s with sec := { s.sec with staged := none } }

/-- The shard table is built, and the job's first step is at its boundary (R275). The count k starts at zero, but for a job on a record
area that HARVEST_RESTORE has just filled. (DEDUCED: log 59) -/
def State.jobStart (s : State) (area launch : Nat) : State :=
  let k := if s.step.restored = some area then s.step.statK else 0
  -- the gathers of a restore may still be landing (R361)
  let c := if s.step.restored = some area then { Coll.init with got := s.coll.got, gStep := s.coll.gStep, gLayers := s.coll.gLayers } else Coll.init
  let s := { s with coll := { c with plan := s.coll.plan } }.buildShards area
  let s := s.setStatK k
  let s := { s with step := { s.step.ended with job := true, starting := true, area := area, launch := launch, statK := k, solo := s.solo, sweepWait := [] } }
  let s := if launch = 0 then s
    else (s.setH .SDL_LAUNCHLO 0 (launch % 2 ^ 32)).setH .SDL_LAUNCHHI 0 (launch / 2 ^ 32 % 2 ^ 31 + 2 ^ 31)
  s.unstage.openBoundary

/-- JOB_START (R335): the ticket ends when REPLAY of the first step has been applied. A group has no valid coordinates while discovery runs (R308). -/
def execJobStart (hbm : List HbmErr) (s : State) : Out :=
  s.hbmRun hbm fun s =>
    s.long 0xD030 (fun _ s =>
        if s.step.job then some St.BUSY_JOB else refuseIf ((decide (1 < s.ranks) && s.hf .LNK_COORD 0 13 1 == 0) || (s.links.running && !s.solo)) St.DISCOVERY_FAILED)
      fun c _ s => s.jobStart (c.field 0 8 % 2 ^ 48) (c.field 8 8)

/-- JOB_STOP (R335): OK at the next step boundary, which may be the one the job is at or is held at; with no job there is nothing to wait for. -/
def execJobStop (s : State) : Out :=
  s.long 0xD031 (fun _ _ => none) fun _ n s =>
    if s.step.job = false then s.endTicket n St.OK
    else if (s.step.phase == .running && s.step.held == 0) || s.coll.perm.isSome then { s with step := { s.step with stopping := true } }
    else s.endJob

/-- The JOB_RESUME at the head of the queue, when it asks for action `k`; an action that does not exist counts as action 0. -/
def State.takeResume (s : State) (k : Nat) : Option (Nat × Cmd × State) :=
  match s.takeCmd 0xD032 with
  | some (c, t) =>
    let a := c.field 0 1
    if a = k ∨ (k = 0 ∧ 2 < a) then some (a, c, t) else none
  | none => none

/-- A hold is in force: the module's own, or the Sieve's, which only SIV_STAT.RESUME leaves (R17, R261, R335). -/
def State.held (s : State) : Bool := s.step.job && (s.step.held != 0 || s.hf .SIV_STAT 0 4 1 == 1)

/-- Leave the module's own hold at a boundary: the next REPLAY may be applied. -/
def State.unhold (s : State) : State := { s with step := { s.step with held := 0 } }

/-- The held step has not been decided. -/
def State.heldInStep (s : State) : Bool := s.step.phase == .running && s.step.held != 0 && !s.step.decided

/-- REPLAY_STEP (R335): a step held before its decision reruns from entry 0, its replay count restarted; at a boundary the hold is left.
(DEDUCED: log 58) -/
def execReplayStep (s : State) : Out :=
  match s.takeResume 0 with
  | none => .next s
  | some (a, c, s) =>
    if s.held = false ∨ a ≠ 0 then .next (s.reply c St.INVALID_PAYLOAD [])
    else if s.heldInStep then
      let s := { s with step := { s.step with held := 0, faulted := true, rerun := true } }.setHf .UPD_STAT 0 2 2 0
      .next ((s.startQuiesce (s.stepNo % 2 ^ 32)).reply c St.OK [])
    else .next (s.unhold.reply c St.OK [])

/-- SKIP_STEP (R335, R259): a step held before its decision is decided as a Sieve skip, whose SIV_STAT.OUTCOME the spec does not give; a
GENERATE step ends. At a boundary the step has been decided, and the hold is left. -/
def execSkipStep (s : State) : Out :=
  match s.takeResume 1 with
  | none => .next s
  | some (_, c, s) =>
    if s.held = false then .next (s.reply c St.INVALID_PAYLOAD [])
    else if s.heldInStep then
      let s := { s with step := { s.step with held := 0, faulted := false } }.endQuiesce
      if s.generate then .next (s.endGenerate.reply c St.OK [])
      else
        let d := s.draw 3
        .next ((d.2.skipWith d.1 false).reply c St.OK [])
    else .next (s.unhold.reply c St.OK [])

/-- JOB_RESUME_STOP (R335): the job ends. -/
def execJobResumeStop (s : State) : Out :=
  match s.takeResume 2 with
  | none => .next s
  | some (_, c, s) =>
    if s.held = false then .next (s.reply c St.INVALID_PAYLOAD []) else .next (s.unhold.endJob.reply c St.OK [])

/-- Discovery begins (R303, R305). -/
def State.startDiscovery (s : State) : State :=
  ({ s with links := { s.links with running := true, rootTick := s.sundial, excluded := none, electing := false, parent := none, depth := 0xFFFF } }.setHf .LNK_COORD 0 13 1 0).updateRoot

/-- DISCOVER (R303): refused while a job runs; the ticket ends with discovery. -/
def execDiscover (s : State) : Out :=
  s.long 0xD040 (fun _ s => refuseIf s.step.job St.BUSY_JOB) fun _ _ s => s.startDiscovery

/-- An entry of the discovery table as numbers. -/
def DiscEntry.nums (e : DiscEntry) : List Nat := [e.serial, e.x, e.y, leNat e.attest, (e.links.map fun p => 2 ^ p).foldl (· + ·) 0]

/-- DISCOVERY_READ (R335); the layout of the table in memory is open. -/
def execDiscoveryRead (s : State) : Out :=
  s.long 0xD041 (fun _ _ => none) fun c n s =>
    let bs := Config.tableBytes 0 (s.links.table.map DiscEntry.nums).flatten
    (s.wrS (c.field 0 8) bs).finish n c (c.field 8 8) St.OK bs.length

end Sys2Proof.Machine
end

