-- ==== Sys2Proof/Machine/Permute.lean ====
section
/-! DEFINITION. The logical grid and SHARD_PERMUTE (R272, R287-R292, R335, R336). -/

namespace Sys2Proof.Machine

/-! ### The grid -/

/-- Write a member map into a bank of LNK_MMAP. -/
def State.putMap (s : State) (bank : Nat) (map : List Nat) : State :=
  (List.range 64).foldl (fun (t : State) r =>
    let v := if r < map.length then map.getD r 0 % 64 + 64 else 0
    t.rwpHf .LNK_MMAP r (16 * bank) 7 v) s

/-- Write LNK_GRID. -/
def State.putGrid (s : State) (xl yl bank epoch : Nat) : State := s.rwpHf .LNK_GRID 0 0 23 (xl + 2 ^ 7 * yl + 2 ^ 14 * bank + 2 ^ 15 * epoch)

/-- SET_GRID (R272, R335): the grid and the map in force, while no job runs. -/
def execSetGrid (s : State) : Out :=
  s.short 0xD042 fun c s =>
    if s.step.job then s.reply c St.BUSY_JOB []
    else if s.resourceBusy 0xD042 then s.reply c St.RESOURCE_BUSY []
    else
      let xl := c.field 0 1
      let yl := c.field 1 1
      let codes := (List.range (xl * yl)).map fun r => c.field (2 + r) 1
      if xl * yl = 0 ∨ 64 < xl * yl ∨ (codes.any fun m => !bit m 6) ∨ hasTwice (codes.map (· % 64)) then s.reply c St.INVALID_PAYLOAD []
      else ((s.putMap s.mapBank (codes.map (· % 64))).putGrid xl yl s.mapBank s.epoch).reply c St.OK []

/-! ### Plans (R288) -/

/-- A run of rows that goes from an old run at one module to a new run at another, or stays. -/
structure Piece where
  layer : Nat
  src : Nat
  dst : Nat
  old : RowRun
  new : RowRun
  lo : Nat
  n : Nat
  deriving DecidableEq, Repr

/-- The overlaps of new runs with old ones, in row order. -/
def overlaps (i : Nat) (olds news : List RowRun) (src : RowRun → Nat) (dst : RowRun → Nat) : List Piece :=
  (news.map fun b => olds.filterMap fun a =>
    let lo := max a.row0 b.row0
    let hi := min (a.row0 + a.rows) (b.row0 + b.rows)
    if lo < hi then some ⟨i, src a, dst b, a, b, lo, hi - lo⟩ else none).flatten

def Grid.ranks (g : Grid) : Nat := g.xl * g.yl
def Grid.at (g : Grid) (r : Nat) : Nat := g.map.getD r 0

/-- The pieces of one layer. In FULL mode every old member has every record, and a joining module's come from the member of lowest old
rank. -/
def layerPieces (sharded : Bool) (old new : Grid) (i nin : Nat) (own : Option Nat) : List Piece :=
  let olds := rowRuns own nin old.ranks
  let news := rowRuns own nin new.ranks
  if sharded then overlaps i olds news (fun a => old.at a.rank) (fun b => new.at b.rank)
  else (new.map.map fun c => overlaps i olds news (fun _ => if old.map.contains c then c else old.at 0) (fun _ => c)).flatten

/-- Every piece of the trained layers, in ascending layer-table order. -/
def State.pieces (s : State) (old new : Grid) : List Piece :=
  ((ownerMap s.layers).map fun o => layerPieces s.sharded old new o.1 (lNin (s.layer o.1)) o.2).flatten

/-- The moves of a list of pieces: one for each maximal range whose owners differ. -/
def movesOf (ps : List Piece) : List Move :=
  (ps.filter fun p => p.src != p.dst).foldl (fun (ms : List Move) p =>
    match ms.getLast? with
    | some m =>
      if m.layer = p.layer ∧ m.old = p.src ∧ m.new = p.dst ∧ m.row0 + m.rows = p.lo then ms.dropLast ++ [{ m with rows := m.rows + p.n }]
      else ms ++ [⟨p.layer, p.lo, p.n, p.src, p.dst⟩]
    | none => [⟨p.layer, p.lo, p.n, p.src, p.dst⟩]) []

def Move.nums (m : Move) : List Nat := [m.layer, m.row0, m.rows, m.old, m.new]

/-- A plan's bytes, whose layout is open, and their SHA-512. (DESIGN CHOICE: log 50) -/
def planBytes (ms : List Move) : List Byte := Config.tableBytes 1 (ms.map Move.nums).flatten

/-! ### Moves and copies (R288, R289) -/

/-- Where records lie on the module of a new rank: DPA, layer, run. -/
def State.newRecords (s : State) (p : Permute) (new : Grid) (code : Nat) : List (Nat × Nat × RowRun) :=
  match new.map.findIdx? (· == code) with
  | some r => layRecords s.layers (bodyArea p.body r) (heldRuns s.layers (ownerMap s.layers) s.sharded new.ranks r)
  | none => []

/-- The bytes of array `k` that a piece takes: offset within the old array, within the new one, and length. A state array with one
element a row, or a column, goes by rows, or whole. -/
def Piece.span (p : Piece) (l k : Nat) : Nat × Nat × Nat :=
  let width := fun (rows : Nat) => if k = 0 then rows * lNout l else if k = 1 then (stateSizes (lRule l) rows (lNout l)).1 else (stateSizes (lRule l) rows (lNout l)).2
  if lRule l = 5 ∧ k = 2 then (0, 0, 4 * lNout l)
  else
    let w := width 1
    (4 * w * (p.lo - p.old.row0), 4 * w * (p.lo - p.new.row0), 4 * w * p.n)

/-- The writes a piece makes, from the old record at `a` to the new one at `b`: header, then the committed bank of each array. -/
def State.pieceWrites (s : State) (p : Piece) (a b : Nat) : List (Nat × List Byte) :=
  let l := s.layer p.layer
  let rule := lRule l
  let hd := s.rd a 4096
  let hd' := hd.take 8 ++ [0] ++ (hd.drop 9).take 0x5B ++ toLe 4 p.new.rows ++ toLe 4 p.new.row0 ++ hd.drop 0x6C
  (b, hd') :: (List.range 3).map fun k =>
    let x := p.span l k
    (recArray b rule p.new.rows (lNout l) k 0 + x.2.1, s.rd (recArray a rule p.old.rows (lNout l) k (s.recCur a) + x.1) x.2.2)

/-- The old record of a piece, when this module holds it; one that has taken the new map already has them in the shard table it left (R291). -/
def State.oldRecord (s : State) (pm : Permute) (p : Piece) : Option Nat :=
  let table := if s.coll.was = some pm.old then s.coll.wasShards else s.shards
  (table.find? fun e => e.2 == p.layer && s.recRow0 e.1 == p.old.row0).map (·.1)

/-- The new record of a piece on a module. -/
def State.newRecord (s : State) (pm : Permute) (new : Grid) (p : Piece) : Option Nat :=
  ((s.newRecords pm new p.dst).find? fun e => e.2.1 == p.layer && e.2.2.row0 == p.new.row0).map (·.1)

/-- Send bytes of a permutation to a module, to be written at `dpa` (R283). -/
def State.sendMove (s : State) (pm : Permute) (code dpa : Nat) (bs : List Byte) : State :=
  let c := s.collMsg .move 0 0 0 1 0 (bs.map (·.toNat)) []
  s.sendTo (code % 8) (code / 8) s.jobTag 2 (.coll { c with step := pm.old.step % 2 ^ 16, replays := pm.old.replays, epoch := pm.old.epoch, dpa := dpa })

/-- Make this module's part of a piece: write it here, or send it. -/
def State.makePiece (s : State) (pm : Permute) (new : Grid) (p : Piece) : State :=
  match s.oldRecord pm p, s.newRecord pm new p with
  | some a, some b =>
    (s.pieceWrites p a b).foldl (fun (t : State) w => if p.dst = t.code then t.wrS w.1 w.2 else t.sendMove pm p.dst w.1 w.2) s
  | _, _ => s

/-- What the members hold alike in memory: address and length (R289). -/
def State.sharedRegions (s : State) : List (Nat × Nat) :=
  let ls := (s.layers.filter fun e => lValid e.2).map (·.2)
  let work := (ls.map fun l => [(lWbase l, 2 * (lNin l * lNout l))]
    ++ (if lXpose l then [(lXbase l, 4096 * ((lNin l + 15) / 16 * ((lNout l + 127) / 128)))] else [])).flatten
  let facs := ((ls.filter lPriv).map fun l => ([0, 1].map fun side =>
    let ds := blockDims (sideDim l side)
    [(fFac (s.factor (lFidx l)) side, 2 * facSize ds), (fRoot (s.factor (lFidx l)) side, 2 * rootSize ds)]).flatten).flatten
  work ++ facs ++ [(s.jbase, 4096)]

/-- The regions' 4 KiB units. -/
def unitsOf (rs : List (Nat × Nat)) : List (Nat × Nat) :=
  (rs.map fun r => (List.range ((r.2 + 4095) / 4096)).map fun k => (r.1 + 4096 * k, min 4096 (r.2 - 4096 * k))).flatten

/-- The old members that share a copy to a joining module: those its links reach, else the old member of lowest new rank. -/
def State.copiers (s : State) (old new : Grid) (code : Nat) : List Nat :=
  let near := match s.discAt (code % 8) (code / 8) with
    | some e => e.links.map fun p => let c := stepCoord s.sizeX s.sizeY p (e.x, e.y)
                                     c.1 + 8 * c.2
    | none => []
  match (near.filter fun c => old.map.contains c).eraseDups with
  | [] => ((new.map ++ old.map).filter fun c => old.map.contains c).take 1
  | l => l

/-- A committed statistics step whose exchange has not begun: what a permutation at its boundary discards (R290). -/
def State.statOwed (s : State) : Bool := s.step.stat && s.step.commit && s.step.due.isSome

/-- The scalars the members hold alike (R289): step, TCNT, whether the step committed, k, the Sieve, the hyperparameter tables, the published
factor buffer with a fold that awaits publication, the layers of the step's gather, and the read-only factor-table fields. -/
def State.sharedVals (s : State) : List Nat :=
  let v := s.sieve
  let fold := (s.step.folded.map fun x => x.step :: (x.scans.map (·.fidx)).eraseDups).getD []
  [s.stepNo, s.h .UPD_TCNT, b2n s.step.commit, s.step.statK, s.h .SIV_LS, s.h .SIV_STAT, v.run, v.window.length]
    ++ (List.range 16).map (fun i => v.window.getD i 0) ++ (List.range 128).map (fun i => s.h .UPD_HP i)
    ++ (List.range 128).map (fun i => s.h .UPD_HPS i)
    ++ [s.h .STEP_STATSTS, b2n s.statOwed, fold.length] ++ fold ++ [s.coll.gLayers.length] ++ s.coll.gLayers
    ++ (s.factors.map fun e => [e.1, fPver e.2, bits e.2 352 96]).flatten

/-- Take the factor-table fields of a copy. -/
def State.takeFactors : List Nat → State → State
  | i :: pv :: rest :: more, s =>
    State.takeFactors more (s.setFactor i (putBits (putBits (s.factor i) 192 64 pv) 352 96 rest))
  | _, s => s

/-- A joining module takes the scalars: it stands at the members' boundary. -/
def State.takeShared (s : State) (v : List Nat) : State :=
  let x := fun (i : Nat) => v.getD i 0
  let s := ((s.setStepNo (x 0)).setH .UPD_TCNT 0 (x 1)).setStatK (x 3)
  let s := (s.setH .SIV_LS 0 (x 4)).setH .SIV_STAT 0 (x 5)
  let s := { s with sieve := { s.sieve with run := x 6, window := (List.range (x 7)).map fun i => x (8 + i) } }
  let s := (List.range 128).foldl (fun (t : State) i => (t.setH .UPD_HP i (x (24 + i))).setH .UPD_HPS i (x (152 + i))) s
  let s := s.setH .STEP_STATSTS 0 (x 280)
  let fold := (v.drop 283).take (x 282)
  let folded : Option Exchange := fold.head?.map fun n => ⟨n, 0, 0, (fold.drop 1).map fun i => ⟨i, 0, 0, [], false⟩, none, [], [], [], none⟩
  let k := 283 + x 282
  let s := { s with
    step := { StepState.init with
      job := true, phase := .boundary 3, commit := x 2 == 1, decided := true, statK := x 3, bound := s.sundial, statCfg := s.h .STEP_STATCFG
      stat := x 281 == 1, due := if x 281 = 1 then some (x 0) else none, folded := folded, voteFrom := x 0 + 1 }
    coll := { s.coll with gLayers := (v.drop (k + 1)).take (x k) } }
  State.takeFactors (v.drop (k + 1 + x k)) s

/-- This module's part of the copies to a joining module. -/
def State.makeCopies (s : State) (pm : Permute) (old new : Grid) (code : Nat) : State :=
  let cs := s.copiers old new code
  match cs.findIdx? (· == s.code) with
  | none => s
  | some k =>
    let mine := (unitsOf s.sharedRegions).zipIdx.filter fun e => e.2 % cs.length == k
    let s := mine.foldl (fun (t : State) e => t.sendMove pm code e.1.1 (t.rd e.1.1 e.1.2)) s
    if k = 0 then s.sendTo (code % 8) (code / 8) s.jobTag 1 (.mgmt (.shared s.sharedVals)) else s

def sumSnd (l : List (Nat × Nat)) : Nat := l.foldl (fun a e => a + e.2) 0

/-- The bytes bound for this module. -/
def State.boundBytes (s : State) (old new : Grid) : Nat :=
  let ps := (s.pieces old new).filter fun p => p.dst == s.code && p.src != s.code
  let one := fun (p : Piece) => let l := s.layer p.layer
                                4096 + ((p.span l 0).2.2 + (p.span l 1).2.2 + (p.span l 2).2.2)
  (ps.map one).foldl (· + ·) 0 + (if old.map.contains s.code then 0 else sumSnd s.sharedRegions)

/-- The module stands on the new map already: its moves count as landed (R291). -/
def State.onNew (s : State) (new : Grid) : Bool := s.epoch == new.epoch && s.gridNow.map == new.map && s.xl == new.xl

/-! ### The command (R287) -/

/-- SHA-512 of the layer table, of the factor table without its read-only fields, and of the active hyperparameter table. -/
def State.tableHashes (s : State) : List Byte :=
  sha512 ((List.range 4096).map fun i => toLe 64 (s.layer i)).flatten
    ++ sha512 ((List.range 1024).map fun i => toLe 64 (bits (s.factor i) 0 192 + bits (s.factor i) 256 96 * 2 ^ 256)).flatten
    ++ sha512 ((List.range 128).map fun i => toLe 4 (s.h .UPD_HP i)).flatten

/-- Why the coordinator refuses a permutation. `ms` are the modules that answer it. -/
def State.permRefusal (s : State) (body : List Byte) (ms : List Peer) : Option Nat :=
  let old := s.gridNow
  let find := fun (c : Nat) => ms.find? fun m => m.code == c
  if s.step.job = false ∨ s.myRank ≠ some 0 then some St.PERMUTE_ILLEGAL
  else if s.coll.perm.isSome then some St.BUSY_JOB
  else if s.hrv = 1 ∨ s.hrv = 2 ∨ s.hrv = 3 then some St.RESOURCE_BUSY
  else
    match newGrid body old with
    | none => some St.PERMUTE_ILLEGAL
    | some new =>
      let joins := new.map.filter fun c => !old.map.contains c
      if hasTwice new.map ∨ (new.map.any fun c => (s.discAt (c % 8) (c / 8)).isNone) then some St.PERMUTE_ILLEGAL
      else if joins.any fun c => match find c with | some m => m.tag != s.jobTag | none => true then some St.PERMUTE_ILLEGAL
      else if joins.any fun c => match find c with | some m => m.tables != s.tableHashes | none => true then some St.PERMUTE_MISMATCH
      else if s.sharded ∧ ((s.pieces old new).any fun p => p.src != s.code && (find p.src).isNone) then some St.SHARD_LOST
      else none

/-- SHARD_PERMUTE (R287): the coordinator accepts a permutation for the next boundary. A re-issue after a split starts from the grid the first one left (R291).
(DEDUCED: log 49) -/
def execShardPermute (peers : List Peer) (s : State) : Out :=
  s.long 0xD043 (fun c s => s.permRefusal c.body peers) fun c _ s =>
    let now := s.gridNow
    let old := match s.coll.was with
      | some g => if newGrid c.body g = some { now with step := g.step, replays := g.replays } then g else now
      | none => now
    { s with coll := { s.coll with perm := some ⟨c.body, old, s.code, 1, [], [], [], [], 0, false⟩ } }.setHf .LNK_CSTAT 0 26 1 1

/-! ### Action 3 (R288) -/

/-- Whether this module may run the permutation's action: at action 3, or outside the job. -/
def State.permTurn (s : State) : Bool := s.atAction 3 || !s.step.job

/-- Record a plan's hash at the coordinator; a difference ends the permutation, and the last to agree lets the moves run. -/
def State.planVote (s : State) (code : Nat) (h : List Byte) : State :=
  match s.coll.perm with
  | some p =>
    let hs := p.hashes ++ [(code, h)]
    let all := (p.old.map ++ ((newGrid p.body p.old).elim [] (·.map))).eraseDups
    let s := { s with coll := { s.coll with perm := some { p with hashes := hs } } }
    if p.stage = 2 ∧ (hs.any fun e => e.2 != p.hash) then s.permEnd St.PLAN_MISMATCH
    else if p.stage = 2 ∧ (all.all fun c => hs.any fun e => e.1 == c) then
      { s.mgmtAll p .agree with coll := { s.coll with perm := some { p with hashes := hs, stage := 3 } } }
    else s
  | none => s

/-- SHARD_PERMUTE_RUN (R288, R289): the coordinator distributes the command; a module computes its plan and sends its hash; once plans
agree it makes its moves and its part of the copies. -/
def execShardPermuteRun (hbm : List HbmErr) (s : State) : Out :=
  s.hbmRun hbm fun s =>
    match s.coll.perm with
    | none => .next s
    | some p =>
      match s.permTurn, newGrid p.body p.old with
      | true, some new =>
        if p.stage = 1 then
          let s := if p.chief = s.code then s.mgmtAll p (.permute p.body p.old) else s
          let plan := movesOf (s.pieces p.old new)
          let h := sha512 (planBytes plan)
          let s := { s with coll := { s.coll with perm := some { p with plan := plan, hash := h, stage := 2 } } }
          .next (if p.chief = s.code then s.planVote s.code h else s.sendTo (p.chief % 8) (p.chief / 8) s.jobTag 1 (.mgmt (.planHash h)))
        else if p.stage = 3 then
          let s := { s with coll := { s.coll with perm := some { p with stage := 4 } } }
          let mine := (s.pieces p.old new).filter fun x => x.src == s.code && !(s.onNew new && x.dst == s.code)
          let s := mine.foldl (fun (t : State) x => t.makePiece p new x) s
          let joins := new.map.filter fun c => !p.old.map.contains c
          .next (joins.foldl (fun (t : State) c => t.makeCopies p p.old new c) s)
        else .next s
      | _, _ => .next s

/-- PERMUTE_ACK (R288 step 5): every byte bound for this module has landed, and it tells the coordinator. -/
def execPermuteAck (s : State) : Out :=
  match s.coll.perm with
  | none => .next s
  | some p =>
    match newGrid p.body p.old with
    | some new =>
      let joins := new.map.contains s.code && !p.old.map.contains s.code
      if p.stage = 4 ∧ (s.onNew new ∨ (s.boundBytes p.old new ≤ p.bytes ∧ (joins = false ∨ p.shared))) then
        let s := { s with coll := { s.coll with perm := some { p with stage := 5, acks := if p.chief = s.code then p.acks ++ [s.code] else p.acks } } }
        .next (if p.chief = s.code then s else s.sendTo (p.chief % 8) (p.chief / 8) s.jobTag 1 (.mgmt .ack))
      else .next s
    | none => .next s

/-- A management message of a permutation reaches the Shed (R288). -/
def State.mgmtArrive (s : State) (from_ : Nat) (m : MgmtMsg) : State :=
  match m, s.coll.perm with
  | .permute body old, none =>
    { s with coll := { s.coll with perm := some ⟨body, old, from_, 1, [], [], [], [], 0, false⟩ } }.setHf .LNK_CSTAT 0 26 1 1
  | .planHash h, some p => if p.chief = s.code then s.planVote from_ h else s
  | .agree, some p => if from_ = p.chief ∧ p.stage = 2 then { s with coll := { s.coll with perm := some { p with stage := 3 } } } else s
  | .shared v, some p =>
    if p.shared ∨ p.old.map.contains s.code then s
    else let t := s.takeShared v
         { t with coll := { t.coll with perm := some { p with shared := true } } }
  | .ack, some p => if p.chief = s.code then { s with coll := { s.coll with perm := some { p with acks := p.acks ++ [from_] } } } else s
  | .commit, some p => if from_ = p.chief then { s with coll := { s.coll with perm := some { p with stage := 6 } } } else s
  | .ended st, some p => if p.chief = s.code ∨ from_ = p.chief then s.permEnd st else s
  | _, _ => s

/-! ### COMMIT (R288 step 6, R290, R292) -/

/-- Write the new shard table, the inactive bank of the map and LNK_GRID. -/
def State.takeGrid (s : State) (p : Permute) (new : Grid) : State :=
  let s := { s with coll := { s.coll with wasShards := s.shards } }.putShards (s.newRecords p new s.code)
  let b := 1 - s.mapBank
  (s.putMap b new.map).putGrid new.xl new.yl b new.epoch

/-- The step's statistic is discarded: k goes back, and with OPV the cores are told again (R204, R290). -/
def State.dropStat (s : State) : State :=
  let s := { (s.setStatK (s.step.statK - 1)).setHf .STEP_STATSTS 0 3 1 1 with step := { (s.setStatK (s.step.statK - 1)).step with due := none } }
  if bit s.step.statCfg 29 then s.addPatch (bits s.step.statCfg 23 6) [s.step.statK % 256] else s

/-- What a permutation discards and restarts (R289, R290): the step's statistic; VOTE jobs after the boundary; and the gather of the step that has
committed, which runs under the new map. -/
def State.permEffects (s : State) (replays : Nat) : State :=
  let s := if s.statOwed then s.dropStat else s
  let s := s.endVotes
  let own := (List.range s.shardCount).filter fun i => lTrained (s.layer (s.shard i).2)
  if s.step.commit then
    { s with step := { s.step with sweepWait := own, swept := own }, coll := { s.coll with got := s.coll.got.filter fun e => e.1 % 4 != 2, gStep := s.stepNo, gReplays := replays } }
  else { s with step := { s.step with sweepWait := [] } }

/-- COMMIT on this module. -/
def State.permCommit (s : State) (p : Permute) (new : Grid) : State :=
  let s := if s.onNew new then s else (s.takeGrid p new).permEffects p.old.replays
  let s := { (s.permLog p St.OK).permOver p with coll := { ((s.permLog p St.OK).permOver p).coll with was := some p.old, owners := ownerMap s.layers, extra := [] } }
  if new.map.contains s.code then s else s.endJob

/-- PERMUTE_COMMIT (R288): the coordinator has every acknowledgement and broadcasts COMMIT, or this module has seen it: the new shard
table, map and epoch are written. -/
def execPermuteCommit (s : State) : Out :=
  match s.coll.perm with
  | none => .next s
  | some p =>
    match newGrid p.body p.old with
    | none => .next s
    | some new =>
      let all := (p.old.map ++ new.map).eraseDups
      if p.stage = 6 then .next (s.permCommit p new).settleColl
      else if p.chief = s.code ∧ p.stage = 5 ∧ (all.all fun c => p.acks.contains c) then
        .next (((s.mgmtAll p .commit).permCommit { p with stage := 6 } new).endOp 0xD043 St.OK).settleColl
      else .next s

/-- PLAN_READ (R292): the last permutation's plan, whose layout is open. -/
def execPlanRead (s : State) : Out :=
  s.long 0xD044 (fun _ _ => none) fun c n s =>
    let bs := planBytes s.coll.plan
    (s.wrS (c.field 0 8) bs).finish n c (c.field 8 8) St.OK bs.length

end Sys2Proof.Machine
end

