-- ==== Sys2Proof/Machine/Spares.lean ====
section
/-! DEFINITION. Spare cores (R345, R346), ageing and the margin re-plan (R347-R349), and the self-tests (R350-R352, R363). -/

namespace Sys2Proof.Machine

/-! ### The core swap (R345) -/

/-- The registers R345 copies. -/
def swapRegs : List Reg :=
  [Reg.CORE_LIST, Reg.CORE_LSEL, Reg.CORE_CMP, Reg.CORE_TOK, Reg.CORE_PRM, Reg.CORE_PRMS, Reg.CORE_CFG, Reg.CORE_FPCTL]
    ++ [Reg.CORE_SCTX, Reg.CORE_RCTX, Reg.CORE_FRONT]

/-- The core's state in a spare: what R345 lists is copied, other registers are the spare's own, and the vector registers and accumulators
hold what the spare's held (`f`, open). -/
def Core.intoSpare (c : Core) (f : Nat → Nat) : Core :=
  let regs := swapRegs.foldl (fun g r => (List.range r.info.count).foldl (fun g i => sg g r i (rg c.regs r i)) g) (initRegs .core)
  let v := (List.range 32).foldl (fun m i => Sparse.set (fun _ => 0) m i (f i % 2 ^ 512)) []
  let acc := (List.range 128).foldl (fun m i => Sparse.set (fun _ => 0) m i (f (32 + i) % 2 ^ 64)) []
  { Core.init with
    regs := regs, v := v, acc := acc, handles := c.handles, slots := c.slots, slotPtr := c.slotPtr, send := c.send, recv := c.recv
    front := c.front, take := c.take, frontSrc := c.frontSrc }

/-- The spare that serves core `k` of a cluster, by its spare map. -/
def servedBy (m k : Nat) : Option Nat := (List.range 4).find? fun j => bit m (8 * j + 6) && bits m (8 * j) 6 == k

/-- The spare map once core `k` has moved to spare `j`: a spare that served it before is dead. -/
def spareTaken (m k j : Nat) : Nat :=
  let m := match servedBy m k with
    | some i => putBits m (8 * i + 6) 2 2
    | none => m
  putBits m (8 * j) 8 (k + 64)

/-- Swap core `gi` into spare `j` of its cluster (R345 steps 1-3). Whether the copy met an uncorrectable word is told first. (DEDUCED: log 65) -/
def State.swapInto (s : State) (gi j : Nat) : Bool × State :=
  let a := localBase gi
  let bad := (s.flawsIn a 0x4000 ++ (s.core gi).slotFlaws).any fun e => match e.2 with
    | some (.double _) => true
    | _ => false
  let n := s.fresh
  let s := s.modCore gi fun c => c.intoSpare fun i => Config.fresh (n + i)
  let s := { s with fresh := n + 160, flaws := healed s.flaws a 0x4000 }
  let ci := coreCi gi
  let s := s.rwpC ci .CLU_SPMAP (spareTaken (rg (s.cluster ci).regs .CLU_SPMAP) (coreK gi) j)
  let s := { s with rel := { s.rel with buckets := Sparse.drop s.rel.buckets gi, retire := s.rel.retire.filter (· != gi) } }
  (bad, s.event St.CORE_RETIRED 3 gi j)

/-- Swap a retired core if its cluster has a spare and no job's region holds it; an uncorrectable word holds the module at the boundary. -/
def State.swapCore (s : State) (gi : Nat) : State :=
  match s.spareOf (coreCi gi) with
  | none => s
  | some j =>
    let r := s.swapInto gi j
    if r.1 then
      let t := r.2.event St.LMEM_UNCORRECTABLE 3 gi j
      { t with step := { t.step with held := St.LMEM_UNCORRECTABLE } }
    else r.2

/-! ### The margin re-plan (R348, R349) -/

/-- The logical core that physical core `p` of a cluster serves, none for a retired core or an unused spare. -/
def logicalOf (m p : Nat) : Option Nat :=
  if p < 64 then (if (servedBy m p).isSome then none else some p)
  else if p < 68 ∧ bit m (8 * (p - 64) + 6) then some (bits m (8 * (p - 64)) 6)
  else none

/-- A spare that is neither in use nor dead. -/
def isFree (m p : Nat) : Bool := decide (64 ≤ p) && decide (p < 68) && !bit m (8 * (p - 64) + 6) && !bit m (8 * (p - 64) + 7)

def State.spmap (s : State) (ci : Nat) : Nat := rg (s.cluster ci).regs .CLU_SPMAP

/-- The active and spare cores of a die below the target of 4/64 cc at a setting. -/
def State.shortCores (s : State) (m : Margin) (die div vstep : Nat) : List (Nat × Nat) :=
  ((m.reads.filter fun r => r.die == die && r.div == div && r.vstep == vstep).map fun r =>
    (r.low.filter fun e : Nat × Nat × Int => decide (e.2.2 < 4) && decide (e.1 < nClusters) && dieOf e.1 == die
      && ((logicalOf (s.spmap e.1) e.2.1).isSome || isFree (s.spmap e.1) e.2.1)).map fun e => (e.1, e.2.1)).flatten

/-- How the voltage steps of a re-plan end. -/
inductive StepsEnd where
  | met | short | capped
  deriving DecidableEq, Repr

/-- Raise the rail in steps until the target is met, 12 steps are reached, or the cap prevents the next one. -/
def State.raise (s : State) (m : Margin) (die div : Nat) : Nat → Nat → Nat × StepsEnd
  | 0, v => (v, .short)
  | f + 1, v =>
    if (s.shortCores m die div v).isEmpty then (v, .met)
    else if 12 ≤ v then (v, .short)
    else if m.capped.contains (die, div, v + 1) then (v, .capped)
    else s.raise m die div f (v + 1)

/-- Mark a spare dead. -/
def State.killSpare (s : State) (ci j : Nat) : State := s.rwpC ci .CLU_SPMAP (putBits (s.spmap ci) (8 * j + 7) 1 1)

/-- Whether every cluster has enough free spares for its short cores; a short spare is none. -/
def State.sparesFor (s : State) (short : List (Nat × Nat)) : Bool :=
  short.all fun e =>
    let mine := (short.filter fun x : Nat × Nat => x.1 == e.1).map (·.2)
    let free := (List.range 4).filter fun j => isFree (s.spmap e.1) (64 + j) && !mine.contains (64 + j)
    decide ((mine.filter fun p => (logicalOf (s.spmap e.1) p).isSome).length ≤ free.length)

/-- Retire a core that a re-plan or a test finds bad: a spare that serves nothing is dead at once. -/
def State.retirePhys (s : State) (e : Nat × Nat) : State :=
  match logicalOf (s.spmap e.1) e.2 with
  | some k => s.retireCore (coreOf e.1 k)
  | none => if isFree (s.spmap e.1) e.2 then s.killSpare e.1 (e.2 - 64) else s

/-- Write a die's plan. -/
def State.setPlan (s : State) (die vstep div exh : Nat) : State :=
  let old := s.h .PWR_MPLAN die
  s.rwpH .PWR_MPLAN die (putBits (putBits (putBits old 0 4 vstep) 4 1 div) 5 1 exh)

/-- One pass of replan(die) from its first line; `again` is what follows a change to ÷5. -/
def State.planPass (s : State) (m : Margin) (die : Nat) (again : State → State) : State :=
  let div := s.hf .PWR_MPLAN die 4 1
  let r := s.raise m die div 13 (s.hf .PWR_MPLAN die 0 4)
  let s := s.setPlan die r.1 div (s.hf .PWR_MPLAN die 5 1)
  let s := if r.2 = .capped then { s with pwr := { s.pwr with blocked := s.pwr.blocked + 1 } } else s
  let short := s.shortCores m die div r.1
  if r.2 = .met then s
  else if r.2 = .short ∧ s.sparesFor short then short.foldl State.retirePhys s
  else if div = 0 then again s
  else (s.setPlan die r.1 div 1).event St.MARGIN_EXHAUSTED 1 die 0

/-- A re-plan that changed the plan counts in GEN, which saturates. -/
def State.planGen (s : State) (die old : Nat) : State :=
  if s.hf .PWR_MPLAN die 0 6 = old then s
  else s.rwpHf .PWR_MPLAN die 8 8 (min (s.hf .PWR_MPLAN die 8 8 + 1) 0xFF)

/-- The die goes to ÷5 with no raise, and is re-planned at ÷5. -/
def State.slowDie (s : State) (m : Margin) (die : Nat) : State :=
  (s.setPlan die 0 1 (s.hf .PWR_MPLAN die 5 1)).planPass m die id

/-- replan(die): a change of divider decided while a job runs waits for action 2 of a boundary. -/
def State.replanDie (s : State) (m : Margin) (die : Nat) : State :=
  if s.rel.divider.contains die then s
  else
    let old := s.hf .PWR_MPLAN die 0 6
    (s.planPass m die fun s =>
      if s.step.job then { s with rel := { s.rel with divider := s.rel.divider ++ [die] } } else s.slowDie m die).planGen die old

def State.replan (s : State) (m : Margin) : State := (List.range 8).foldl (fun (t : State) d => t.replanDie m d) s

/-- DIVIDER_CHANGE (R349): every die whose change waits goes to ÷5 and is re-planned. -/
def State.divide (s : State) (m : Margin) : State :=
  let ds := s.rel.divider
  ds.foldl (fun (t : State) d =>
    let old := t.hf .PWR_MPLAN d 0 6
    (t.slowDie m d).planGen d old) { s with rel := { s.rel with divider := [] } }

/-- SPARE_CORE_SWAP (R345, R349): action 2 of a boundary: every retired core whose cluster has a spare and whose region is idle is swapped,
then waiting divider changes are made. `ups` strike before the copies read. -/
def execSpareCoreSwap (ups : List Upset) (m : Margin) (s : State) : Out :=
  if s.atAction 2 then .next (((s.swaps.foldl State.swapCore (s.strikes ups)).divide m).afterAction 2) else .next s

/-- MARGIN_REPLAN (R348): its ticket ends with MARGIN_EXHAUSTED when a die is exhausted by it. (DEDUCED: log 66) -/
def execMarginReplan (m : Margin) (s : State) : Out :=
  s.long 0xD053 (fun _ _ => none) fun _ n s =>
    let old := (List.range 8).map fun d => s.hf .PWR_MPLAN d 5 1
    let t := s.replan m
    let exh := (List.range 8).any fun d => decide (old.getD d 0 < t.hf .PWR_MPLAN d 5 1)
    t.endTicket n (if exh then St.MARGIN_EXHAUSTED else St.OK)

/-- MARGIN_REPLAN_DAILY (R348): 24 h after the last one. -/
def execMarginReplanDaily (m : Margin) (s : State) : Out :=
  if s.rel.replanDue ≤ s.sundial then
    .next ({ s with rel := { s.rel with replanDue := s.rel.replanDue + dayTicks } }.replan m)
  else .next s

/-- MONITOR_READING (R347): the hourly slack of each die, FP32 in 1/64 cc, reaches its channel of the Rain gauge. -/
def execMonitorReading (slack : List Nat) (s : State) : Out :=
  if s.rel.monitorDue ≤ s.sundial then
    let s := { s with rel := { s.rel with monitorDue := s.rel.monitorDue + 900000000000 } }
    .next ((List.range 8).foldl (fun (t : State) d => t.sample (53 + d) (slack.getD d 0) 1 d) s)
  else .next s

/-- ECC_BUCKET_ROLL (R344): every core's buckets roll over after 86,400 s, three kept; cores still over the threshold are retired. -/
def execEccBucketRoll (s : State) : Out :=
  if s.rel.bucketDue ≤ s.sundial then
    let b := (s.rel.buckets.map fun e => (e.1, (0 :: e.2).take 3)).filter fun e => decide (sumNat e.2 ≠ 0)
    let s := { s with rel := { s.rel with buckets := b, bucketDue := s.rel.bucketDue + dayTicks } }
    .next (b.foldl (fun (t : State) e => if 4 ≤ t.coreCount e.1 then t.retireCore e.1 else t) s)
  else .next s

/-! ### Self-tests (R351, R352) -/

/-- Whether a selection of tests covers a unit. -/
def covers (set : Nat) : TestUnit → Bool
  | .core _ _ => bit set 0 || bit set 1
  | .store _ => bit set 1
  | .router _ => bit set 2
  | .bridge _ => bit set 2
  | .stack _ => bit set 3
  | .port _ => bit set 4

/-- The source of a BIST_FAIL: kind and index. -/
def TestUnit.source : TestUnit → Nat × Nat
  | .core ci _ => (2, ci)
  | .store ci => (2, ci)
  | .router ci => (2, ci)
  | .bridge ci => (2, ci)
  | .stack k => (4, k)
  | .port p => (5, p)

def State.bistFail (s : State) (u : TestUnit) : State := s.event St.BIST_FAIL u.source.1 u.source.2 0

/-- What a failing unit does in a test with no job: a core is retired, an unused spare dead. -/
def State.testFail (s : State) (u : TestUnit) : State :=
  match u with
  | .core ci p => (s.retirePhys (ci, p)).bistFail u
  | _ => s.bistFail u

/-- The save area of a SELFTEST: 192 MiB of HBM, left with contents the spec does not give. -/
def State.saved (s : State) (save : Nat) : State := s.forget fun a => decide (save ≤ a) && decide (a < save + 192 * 2 ^ 20)

/-- Dorhel loopback takes every port that is up down. -/
def State.portsDown (s : State) : State :=
  (List.range 4).foldl (fun (t : State) p =>
    if t.pstate p = 2 ∨ t.pstate p = 4 then (t.setPort p { Port.init with spareOk := (t.port p).spareOk }).setPstate p 0 else t) s

/-- SELFTEST with no job: every selected test at once; `fails` are the units that fail. -/
def State.testAll (s : State) (set : Nat) (fails : List TestUnit) : State :=
  let s := if bit set 3 then s.forgetHbm else s
  let s := if bit set 4 then s.portsDown else s
  (fails.filter (covers set)).foldl State.testFail s

/-- SELFTEST (R351): at once with no job; with one, a rolling BIST of bits 0-2 at its boundaries. (DEDUCED: log 67) -/
def execSelftest (fails : List TestUnit) (s : State) : Out :=
  s.long 0xD052 (fun c s =>
      let set := c.field 0 1
      let save := c.field 8 8
      if 32 ≤ set ∨ 2 ≤ c.field 1 1 ∨ save % 4096 ≠ 0 then some St.INVALID_PAYLOAD
      else if s.step.job ∧ (c.field 1 1 = 0 ∨ 8 ≤ set) then some St.BUSY_JOB
      else refuseIf s.rel.bist.isSome St.RESOURCE_BUSY)
    fun c n s =>
      let set := c.field 0 1
      let save := c.field 8 8
      let cdpa := c.field 16 8
      if s.step.job then { s with rel := { s.rel with bist := some ⟨n, 0, [], 0, set, save, cdpa, false⟩ } }
      else
        let t := if set % 4 = 0 then s else s.saved save
        let t := t.testAll set fails
        t.finish n c cdpa (if fails.any (covers set) then St.BIST_FAIL else St.OK) 0

/-- A rolling BIST meets a failing unit: a core moves to a free spare, an unused spare is dead, and anything else raises BIST_FAIL. Whether it
did is told first. -/
def State.bistUnit (s : State) (u : TestUnit) : Bool × State :=
  match u with
  | .core ci p =>
    match logicalOf (s.spmap ci) p with
    | none => (false, if isFree (s.spmap ci) p then s.killSpare ci (p - 64) else s)
    | some k => if (s.spareOf ci).isSome then (false, s.swapCore (coreOf ci k)) else (true, s.bistFail u)
  | _ => (true, s.bistFail u)

/-- The cluster of a unit. -/
def TestUnit.cluster : TestUnit → Nat
  | .core ci _ => ci
  | .store ci => ci
  | .router ci => ci
  | .bridge ci => ci
  | .stack _ => nClusters
  | .port _ => nClusters

/-- ROLLING_BIST_SLICE (R352): action 4 of a boundary. Slice j tests the clusters with ci mod 64 = j, and as many deferred ones as fit
(`extra`); a cluster whose region's slot holds a job is deferred. The ticket ends when every cluster has been tested. -/
def execRollingBistSlice (extra : Nat) (fails : List TestUnit) (s : State) : Out :=
  match s.rel.bist with
  | none => .next s
  | some b =>
    if s.atAction 4 then
      let mine := if b.slice < 64 then (List.range 80).map fun i => b.slice + 64 * i else []
      let busy := mine.filter fun ci => s.regionBusy ci
      let late := (b.deferred.filter fun ci => !s.regionBusy ci).take extra
      let now := (mine.filter fun ci => !busy.contains ci) ++ late
      let found := fails.filter fun u => covers b.set u && now.contains u.cluster
      let r := found.foldl (fun (a : Bool × State) u => let x := a.2.bistUnit u; (a.1 || x.1, x.2)) (b.failed, s.saved b.save)
      let t := r.2
      let b' : Bist := { b with slice := b.slice + 1, deferred := b.deferred.filter (fun ci => !late.contains ci) ++ busy, failed := r.1, tested := b.tested + now.length }
      let t := if nClusters ≤ b'.tested then
          let k := t.ticket b.ticket
          ({ t with rel := { t.rel with bist := none } }.completion b.cdpa (if r.1 then St.BIST_FAIL else St.OK) k.tag b.ticket 0).endTicket b.ticket
            (if r.1 then St.BIST_FAIL else St.OK)
        else { t with rel := { t.rel with bist := some b' } }
      .next (t.afterAction 4)
    else .next s

/-! ### The spare report (R363) -/

/-- The 20,596 bytes of SPARE_READ. -/
def State.spareBytes (s : State) : List Byte :=
  ((List.range nClusters).map fun ci => toLe 4 (s.spmap ci)).flatten ++ ((List.range 8).map fun d => toLe 4 (s.h .PWR_MPLAN d)).flatten
    ++ ((List.range 4).map fun p => toLe 4 (s.h .LNK_LANEMAP p)).flatten
    ++ ((List.range 16).map fun k => toLe 4 (Sparse.get (fun _ => 0) s.rel.repairs k)).flatten ++ toLe 4 s.rel.retire.length

/-- SPARE_READ. -/
def execSpareRead (s : State) : Out :=
  s.long 0xD054 (fun _ _ => none) fun c n s => (s.wrS (c.field 0 8) s.spareBytes).finish n c (c.field 8 8) St.OK 20596

end Sys2Proof.Machine
end

