-- ==== Sys2Proof/Machine/Harvest.lean ====
section
/-! DEFINITION. Harvest snapshots (R353-R360), their restore (R361), and the management frames that reach the Shed (R288, R361). -/

namespace Sys2Proof.Machine

/-! ### The items of a snapshot (R353, R356, R359) -/

/-- The state after the toggles that REPLAY of step `n` applies (R210, R235). -/
def State.toggled (s : State) (n : Nat) : State :=
  (if s.step.folded.any fun x => decide (x.step + 2 ≤ n) then s.publishFactors else s).publishRoots

/-- A shard record: its header and bank CUR. -/
def State.recItem (s : State) (sh : Nat × Nat) : HItem :=
  let r := s.record sh.1 sh.2
  let sz := stateSizes (lRule r.l) r.rows (lNout r.l)
  let ps := [(sh.1, 4096), (r.array 0 r.cur, 4 * r.elems), (r.array 1 r.cur, 4 * sz.1), (r.array 2 r.cur, 4 * sz.2)]
  { kind := 0, side := 0, blk := 0, idx := sh.2, rows := r.row0 + 2 ^ 32 * r.rows, off := 0, src := sh.1, len := sumSnd ps
    pieces := ps.filter fun p => decide (0 < p.2), vers := toLe 24 0 }

/-- PVER, RVER, LSTALE and RSTALE of a factor-table entry, in 24 bytes. -/
def versBytes (f : Nat) : List Byte := toLe 8 (fPver f) ++ toLe 8 (fRver f) ++ toLe 1 (fStale f 0) ++ toLe 1 (fStale f 1) ++ toLe 6 0

/-- The runs of a root block (kind 2) or factor block (kind 1) in buffer `buf`. -/
def State.blockRuns (s : State) (kind fidx side blk l buf : Nat) : List (Nat × Nat) :=
  let n := (blockDims (sideDim l side)).getD blk 0
  if kind = 1 then
    let a := s.facBlock fidx side buf blk l
    [(a.1, matBytes n), (a.2, expBytes n)]
  else [(s.rootAddr fidx side buf blk l, 64 + matBytes n + expBytes n)]

/-- One block, from its published buffer. -/
def State.blockItem (s : State) (kind fidx side blk l : Nat) : HItem :=
  let buf := if kind = 1 then s.pubBuf else fPub (s.factor fidx) side blk
  let ps := s.blockRuns kind fidx side blk l buf
  { kind := kind, side := side, blk := blk, idx := fidx, rows := 0, off := 0, src := (ps.map (·.1)).getD 0 0, len := sumSnd ps
    pieces := ps, vers := versBytes (s.factor fidx) }

/-- Every block of every factor, in factor-table order, L before Rt: factor, side, block, the layer's entry, and whether this module is its
owner. -/
def State.allBlocks (s : State) : List (Nat × Nat × Nat × Nat × Bool) :=
  ((List.range 1024).map fun i =>
    match s.privLayer i with
    | none => []
    | some (li, l) =>
      let mine := !s.sharded || s.wholeOwner li == some s.rank
      ([0, 1].map fun side => (List.range (blockDims (sideDim l side)).length).map fun b => (i, side, b, l, mine)).flatten).flatten

/-- The items in drain order: records, roots, factors. -/
def State.snapItems (s : State) : List HItem :=
  let bs := s.allBlocks.filter fun e => e.2.2.2.2
  s.shards.map s.recItem ++ bs.map (fun e => s.blockItem 2 e.1 e.2.1 e.2.2.1 e.2.2.2.1) ++ bs.map (fun e => s.blockItem 1 e.1 e.2.1 e.2.2.1 e.2.2.2.1)

/-- Give each item its place after the manifest. -/
def placeItems (items : List HItem) : List HItem × Nat :=
  items.foldl (fun (a : List HItem × Nat) i => (a.1 ++ [{ i with off := a.2 }], a.2 + i.len)) ([], pad4k (4096 + 128 * items.length))

/-- SHA-512 of the layer, factor and hyperparameter tables, as REPLAY of the next step finds them (R353). -/
def State.snapHashes (s : State) : List Byte :=
  s.tableHashes.take 128 ++ sha512 ((List.range 128).map fun i => toLe 4 (s.h .UPD_HPS i)).flatten

/-- XL, YL, RANK, EPOCH and MODE. -/
def State.gridBytes (s : State) : List Byte := toLe 1 s.xl ++ toLe 1 s.yl ++ toLe 1 s.rank ++ toLe 1 s.epoch ++ toLe 1 (b2n s.sharded)

/-- The manifest header of a snapshot of step `n`, with MVALID 0. (DEDUCED: log 70) -/
def State.snapHeader (s : State) (n count : Nat) : List Byte :=
  toLe 32 0 ++ toLe 8 s.serial ++ toLe 8 n ++ toLe 8 (s.h .UPD_TCNT) ++ toLe 8 s.step.statK ++ toLe 8 s.sundial ++ s.gridBytes ++ toLe 3 0
    ++ toLe 4 count ++ toLe 44 0 ++ s.snapHashes ++ toLe 192 0 ++ s.rd s.jbase 0x300 ++ toLe 2816 0

/-- A manifest entry with the hash of its data. -/
def HItem.entry (i : HItem) (hash : List Byte) : List Byte :=
  toLe 1 i.kind ++ toLe 1 i.side ++ toLe 1 i.blk ++ toLe 1 0 ++ toLe 2 i.idx ++ toLe 2 0 ++ toLe 8 i.rows ++ toLe 8 i.off ++ toLe 8 i.len
    ++ toLe 8 i.src ++ i.vers ++ hash

/-! ### Arming and opening (R354, R355) -/

def Harvest.field (h : Harvest) (off n : Nat) : Nat := leNat ((h.body.drop off).take n)
def Harvest.base (h : Harvest) : Nat := h.field 16 8

/-- What a body of R354 is refused for: a destination that does not exist, or a BASE that is not 4 KiB aligned. -/
def hvBodyBad (c : Cmd) : Bool := decide (1 < c.field 0 1) || c.field 16 8 % 4096 != 0

/-- HARVEST_START (R354): the snapshot is armed. -/
def execHarvestStart (s : State) : Out :=
  s.long 0xD050 (fun c s =>
      let t := c.field 8 8
      if hvBodyBad c ∨ (t ≠ 0 ∧ t < s.stepNo) then some St.INVALID_PAYLOAD
      else refuseIf (s.coll.perm.isSome || s.hrv != 0) St.RESOURCE_BUSY)
    fun c n s =>
      let h := { Harvest.init with ticket := n, body := c.body, target := c.field 8 8, hostMem := s.harvest.hostMem, arrived := s.harvest.arrived }
      ({ s with harvest := h }.setHf .HRV_STAT 0 0 3 1).setHf .HRV_STAT 0 3 7 0

/-- Open the snapshot of step `n`: the items and the scalars are captured, or the room is too small. -/
def State.openSnap (s : State) (n : Nat) : State :=
  let t := s.toggled (n + 1)
  let p := placeItems t.snapItems
  if s.harvest.field 24 8 < p.2 then s.abandon St.HARVEST_OVERRUN
  else
    let hd := t.snapHeader n p.1.length
    let h := { s.harvest with step := n, openTick := s.sundial, header := hd, items := p.1, entries := [], total := (p.1.map (·.len)).foldl (· + ·) 0, draining := !s.step.job }
    { s with harvest := h }.setHf .HRV_STAT 0 0 3 2

/-- SNAPSHOT_OPEN (R355): at the beginning of an eligible boundary, or at once with no job. -/
def execSnapshotOpen (s : State) : Out :=
  if s.hrv = 1 ∧ s.step.job = false then .next (s.openSnap ((s.stepNo + 2 ^ 64 - 1) % 2 ^ 64))
  else if s.snapshotDue then .next (s.openSnap s.stepNo)
  else .next s

/-! ### Draining (R356-R359) -/

/-- The buddy's coordinate. -/
def Harvest.buddy (h : Harvest) : Nat × Nat := (h.field 1 1 % 8, h.field 1 1 / 8 % 8)

/-- A Harvest frame to the buddy. -/
def State.hvFrame (s : State) (off : Nat) (bs : List Byte) : Frame :=
  ⟨s.myX, s.myY, s.harvest.buddy.1, s.harvest.buddy.2, s.jobTag, 2, .harvest off bs⟩

/-- Whether the destination can be reached: the host always, the buddy while a route is left. -/
def State.hvReach (s : State) : Bool :=
  s.harvest.field 0 1 == 0 || match s.routeAt s.myX s.myY (s.hvFrame 0 []) with | some (some _) => true | _ => false

/-- Write bytes of the snapshot at an offset from BASE. -/
def State.hvPut (s : State) (off : Nat) (bs : List Byte) : State :=
  let a := s.harvest.base + off
  if s.harvest.field 0 1 = 0 then { s with harvest := { s.harvest with hostMem := msets s.harvest.hostMem a bs } } else s.route (s.hvFrame a bs)

/-- What the drain reads: staged copies in place of units that have been written since. -/
def State.hvRead (s : State) (a n : Nat) (e : List HbmErr) : List Byte × State :=
  let r := s.readAt a n e
  let place := fun (i : Nat) => (s.harvest.staged.find? fun u => u.1 == (a + i) / 4096).map fun u => u.2 + (a + i) % 4096
  (r.1.mapIdx fun i b => match place i with | some x => mget s.mem x | none => b, r.2)

/-- Bytes that may still drain in this step: HRV_CFG.BUDGET, which no step limits with no job or with 0. -/
def State.hvBudget (s : State) : Option Nat :=
  let b := s.hf .HRV_CFG 0 0 8
  if b = 0 ∨ s.step.job = false then none else some (b * 2 ^ 26 - s.harvest.inStep)

/-- The next item is done: its entry is complete; after the last, the manifest comes next. -/
def State.hvItemDone (s : State) (i : HItem) (rest : List HItem) (part : List Byte) : State :=
  let h := { s.harvest with items := rest, part := [], entries := s.harvest.entries ++ [i.entry (sha512 part)] }
  let s := { s with harvest := h }
  if rest.isEmpty then s.setHf .HRV_STAT 0 0 3 3 else s

/-- Drain up to `n` bytes of the first run of the first item. -/
def State.hvDrain (s : State) (i : HItem) (rest : List HItem) (n : Nat) (e : List HbmErr) : State :=
  match i.pieces with
  | [] => s.hvItemDone i rest s.harvest.part
  | (a, len) :: more =>
    let m := min (min n len) (s.hvBudget.getD len)
    let s := if s.harvest.drained = 0 then s.hvPut 0 s.harvest.header else s
    let r := s.hvRead a m e
    let part := s.harvest.part ++ r.1
    let s := r.2.hvPut (i.off + s.harvest.part.length) r.1
    let left := if m < len then (a + m, len - m) :: more else more
    let i := { i with pieces := left }
    let done := s.harvest.drained + m
    let s := { s with harvest := { s.harvest with items := i :: rest, part := part, drained := done, inStep := s.harvest.inStep + m } }
    let s := s.setHf .HRV_STAT 0 3 7 (100 * done / max s.harvest.total 1)
    if left.isEmpty then s.hvItemDone i rest part else s

/-- The manifest lands, MVALID last, and HARVEST_START completes. -/
def State.hvFinish (s : State) : State :=
  let s := if s.harvest.drained = 0 then s.hvPut 0 s.harvest.header else s
  let s := s.hvPut 4096 s.harvest.entries.flatten
  let s := s.hvPut 0 (toLe 8 s.harvest.step)
  let n := s.harvest.ticket
  let s := s.sample 43 (fp32Ratio (s.sundial - s.harvest.openTick) 250000) 0 0
  let s := { s with harvest := { Harvest.init with hostMem := s.harvest.hostMem, arrived := s.harvest.arrived } }
  (((s.setHf .HRV_STAT 0 0 3 0).setHf .HRV_STAT 0 3 7 100).setHf .HRV_STAT 0 16 16 0).endTicket n St.OK

/-- HARVEST_DRAIN (R356): up to `n` bytes of the next item leave, within the step's budget, or the manifest does. `refused` says that the
buddy refused the data. -/
def execHarvestDrain (n : Nat) (hbm : List HbmErr) (refused : Bool) (s : State) : Out :=
  if (s.hrv = 2 ∨ s.hrv = 3) ∧ s.harvest.draining then
    if s.hvReach = false ∨ (refused ∧ s.harvest.field 0 1 = 1) then .next (s.abandon St.LINK_UNREACHABLE)
    else
      match s.harvest.items with
      | [] => .next s.hvFinish
      | i :: rest => if s.hvBudget = some 0 ∨ n = 0 then .next s else .next (s.hvDrain i rest n hbm)
  else .next s

/-- HARVEST_DATA_RECEIVE (R358): Harvest data reaches a buddy, which takes it from the module HRV_CFG names, within its reserve area. -/
def execHarvestDataReceive (p lseq : Nat) (f : Frame) (s : State) : Out :=
  match f.body with
  | .harvest off data =>
    if s.delivers f then
      .next (s.takeFrame p lseq false fun s =>
        let ok := s.hf .HRV_CFG 0 14 1 == 1 && s.hf .HRV_CFG 0 8 3 == f.sx && s.hf .HRV_CFG 0 11 3 == f.sy
          && decide (off + data.length ≤ 2 ^ (s.hf .HRV_RSV 0 27 5 + 26))
        if ok then s.wrS (4096 * s.hf .HRV_RSV 0 0 27 + off) data else s.setHf .HRV_STAT 0 11 1 1)
    else .next s
  | _ => .next s

/-! ### Restore (R361) -/

/-- A manifest entry of a snapshot's bytes. -/
def imageEntry (img : List Byte) (k : Nat) : List Byte := (img.drop (4096 + 128 * k)).take 128
def nat (bs : List Byte) (off n : Nat) : Nat := leNat ((bs.drop off).take n)
def imageCount (img : List Byte) : Nat := nat img 0x50 4
def imageEntries (img : List Byte) : List (List Byte) := (List.range (imageCount img)).map (imageEntry img)
def entryData (img en : List Byte) : List Byte := (img.drop (nat en 0x10 8)).take (nat en 0x18 8)

/-- Whether a snapshot fits this module (R361 step 1). -/
def State.imageFits (s : State) (img : List Byte) (area : Nat) : Bool :=
  let recs := (imageEntries img).filter fun en => nat en 0 1 == 0
  let plan := s.planRecords area
  nat img 0 8 != 0 && (img.drop 0x48).take 3 == s.gridBytes.take 3 && nat img 0x4C 1 == b2n s.sharded
    && (img.drop 0x80).take 192 == s.snapHashes
    && recs.map (fun en => (nat en 4 2, nat en 8 4, nat en 0xC 4)) == plan.map (fun e => (e.2.1, e.2.2.row0, e.2.2.rows))

/-- Write a restored record: bank 0, CUR 0, its step words as captured. -/
def State.putRecord (s : State) (a layer rows : Nat) (data : List Byte) : State :=
  let l := s.layer layer
  let sz := stateSizes (lRule l) rows (lNout l)
  let m := 4 * rows * lNout l
  let at_ := fun (k : Nat) => recArray a (lRule l) rows (lNout l) k 0
  let s := s.wrS a (data.take 8 ++ [0] ++ (data.take 4096).drop 9)
  let s := s.wrS (at_ 0) ((data.drop 4096).take m)
  let s := s.wrS (at_ 1) ((data.drop (4096 + m)).take (4 * sz.1))
  s.wrS (at_ 2) ((data.drop (4096 + m + 4 * sz.1)).take (4 * sz.2))

/-- Write a restored block: buffer 0, its published bit cleared, versions and ages as captured. -/
def State.putBlock (s : State) (b : HBlock) : State :=
  match s.privLayer b.fidx with
  | none => s
  | some (_, l) =>
    let runs := s.blockRuns b.kind b.fidx b.side b.blk l 0
    let s := (runs.foldl (fun (a : State × List Byte) r => (a.1.wrS r.1 (a.2.take r.2), a.2.drop r.2)) (s, b.data)).1
    let f := putBits (putBits (s.factor b.fidx) 192 64 (nat b.vers 0 8)) 384 64 (nat b.vers 8 8)
    let f := putBits (putBits f 368 8 (nat b.vers 16 1)) 376 8 (nat b.vers 17 1)
    if b.kind = 1 then (s.setFactor b.fidx f).setHf .STEP_STATSTS 0 4 1 0
    else s.setFactor b.fidx (putBits f (352 + 8 * b.side + b.blk) 1 0)

/-- The block of a manifest entry. -/
def entryBlock (img en : List Byte) : HBlock := ⟨nat en 0 1, nat en 4 2, nat en 1 1, nat en 2 1, (en.drop 0x28).take 24, entryData img en⟩

/-- Send a message to every other member on the COLL channel. -/
def State.toMembers (s : State) (m : MgmtMsg) : State :=
  (List.range s.ranks).foldl (fun (t : State) r =>
    match t.memberAt t.mapBank r with
    | some (x, y) => if x = t.myX ∧ y = t.myY then t else t.sendTo x y t.jobTag 2 (.mgmt m)
    | none => t) s

/-- Write one entry; in SHARDED mode a block goes to every member too. -/
def State.putEntry (s : State) (plan : List (Nat × Nat × RowRun)) (img : List Byte) (k : Nat) (en : List Byte) : State :=
  if nat en 0 1 = 0 then
    match plan[k]? with
    | some e => s.putRecord e.1 e.2.1 e.2.2.rows (entryData img en)
    | none => s
  else
    let b := entryBlock img en
    let s := s.putBlock b
    if s.sharded then s.toMembers (.block b) else s

/-- Whether an entry's data has its hash. -/
def entryOk (img en : List Byte) : Bool := (en.drop 0x40).take 64 == sha512 (entryData img en)

/-- The scalars of the journal: UPD_TCNT, LS, CONSEC, run count and median window (R265). -/
def State.takeJournal (s : State) (j : List Byte) : State :=
  let s := ((s.setH .UPD_TCNT 0 (nat j 0x48 4)).setHf .SIV_LS 0 0 8 (nat j 0x41 1)).setHf .SIV_STAT 0 8 8 (nat j 0x42 1)
  let s := s.setHf .SIV_STAT 0 3 1 (b2n (nat j 0x43 1 == 16))
  { s with sieve := { s.sieve with run := nat j 0x44 4, window := (List.range (nat j 0x43 1)).map fun i => nat j (0x80 + 4 * i) 4, ls := s.h .SIV_LS } }

/-- Re-derive every working copy through the gather path. (DEDUCED: log 71) -/
def State.regather (s : State) : State :=
  s.shards.foldl (fun (t : State) sh =>
    let r := t.record sh.1 sh.2
    if t.sharded then t.gatherRun sh.2 ⟨t.rank, r.row0, r.rows⟩ (t.master r) else t.rederive sh.2 (r.row0 * lNout r.l) (t.master r)) s

/-- Every block is in place: journal, scalars and working copies, and the restore completes. -/
def State.restoreDone (s : State) : State :=
  let hd := s.harvest.header
  let n := nat hd 0x28 8
  let j := (hd.drop 0x200).take 0x300
  let ticket := s.harvest.ticket
  let area := s.harvest.field 8 8 % 2 ^ 48
  let s := s.wrS s.jbase (toLe 8 n ++ (j.drop 8).take 24 ++ toLe 8 n ++ j.drop 0x28)
  let s := (s.takeJournal j).setStepNo ((n + 1) % 2 ^ 64)
  let s := s.setStatK (nat hd 0x38 8)
  let s := { s with
    step := { s.step with restored := some area, folded := none, adopted := [], sweepWait := [] }
    coll := { s.coll with gStep := n, gReplays := 0, gLayers := s.recLayers } }.regather
  let s := { s with harvest := { Harvest.init with hostMem := s.harvest.hostMem } }
  ((s.setHf .HRV_STAT 0 0 3 0).setHf .HRV_STAT 0 3 7 100).endTicket ticket St.OK

/-- Take what has arrived of the blocks a restore waits for, and complete it once none is owed. -/
def State.settleRestore (s : State) : State :=
  if s.hrv = 4 then
    let id := fun (b : HBlock) => (b.kind, b.fidx, b.side, b.blk)
    let got := s.harvest.arrived.filter fun b => s.harvest.owed.contains (id b)
    let s := got.foldl (fun (t : State) b => t.putBlock b) s
    let owed := s.harvest.owed.filter fun o => !(got.map id).contains o
    let s := { s with harvest := { s.harvest with owed := owed, arrived := [] } }
    if owed.isEmpty then s.restoreDone else s
  else s

/-- Every byte a restore may write, undefined after a hash mismatch. -/
def State.forgetTargets (s : State) (plan : List (Nat × Nat × RowRun)) : State :=
  let recs := plan.map fun e => (e.1, recSize (lRule (s.layer e.2.1)) e.2.2.rows (lNout (s.layer e.2.1)))
  let blocks := (s.allBlocks.map fun e => s.blockRuns 1 e.1 e.2.1 e.2.2.1 e.2.2.2.1 0 ++ s.blockRuns 2 e.1 e.2.1 e.2.2.1 e.2.2.2.1 0).flatten
  s.forget fun a => (recs ++ blocks).any fun r : Nat × Nat => decide (r.1 ≤ a) && decide (a < r.1 + r.2)

/-- Steps 2 and 3 of a restore: entries in order until one's hash differs. -/
def State.restoreEntries (s : State) (plan : List (Nat × Nat × RowRun)) (img : List Byte) (n : Nat) : State :=
  let ens := imageEntries img
  if ens.all (entryOk img) then
    let s := (ens.mapIdx fun k en => (k, en)).foldl (fun (t : State) e => t.putEntry plan img e.1 e.2) s
    let owed := if s.sharded then
        ((s.allBlocks.filter fun e => !e.2.2.2.2).map fun e => [(2, e.1, e.2.1, e.2.2.1), (1, e.1, e.2.1, e.2.2.1)]).flatten
      else []
    ({ s with harvest := { s.harvest with owed := owed } }).settleRestore
  else
    let s := { s.forgetTargets plan with harvest := { Harvest.init with hostMem := s.harvest.hostMem } }
    (s.setHf .HRV_STAT 0 0 3 0).failTicket n St.CHECKPOINT_INVALID

/-- HARVEST_RESTORE (R361): `img` is what the host or the buddy holds from BASE. -/
def execHarvestRestore (img : List Byte) (s : State) : Out :=
  s.long 0xD051 (fun c s =>
      if hvBodyBad c then some St.INVALID_PAYLOAD
      else if s.step.job then some St.BUSY_JOB
      else refuseIf (s.hrv != 0) St.RESOURCE_BUSY)
    fun c n s =>
      let area := c.field 8 8 % 2 ^ 48
      if s.imageFits (img.take (c.field 24 8)) area then
        let plan := s.planRecords area
        let h := { Harvest.init with ticket := n, body := c.body, header := img.take 4096, hostMem := s.harvest.hostMem, arrived := s.harvest.arrived }
        let s := { s with harvest := h, coll := { Coll.init with plan := s.coll.plan } }.buildShards area
        (s.setHf .HRV_STAT 0 0 3 4).restoreEntries plan (img.take (c.field 24 8)) n
      else s.failTicket n St.CHECKPOINT_INVALID

/-! ### Management frames -/

/-- MGMT_FRAME (R288, R310): a management frame is delivered to the Shed: a permutation's message, or a restored block of another member. -/
def execMgmtFrame (p lseq : Nat) (f : Frame) (s : State) : Out :=
  match f.body with
  | .mgmt m =>
    if s.delivers f then
      .next (s.takeFrame p lseq false fun t =>
        match m with
        | .block b => { t with harvest := { t.harvest with arrived := t.harvest.arrived ++ [b] } }.settleRestore
        | m => t.mgmtArrive (f.sx + 8 * f.sy) m)
    else .next s
  | _ => .next s

end Sys2Proof.Machine
end

