-- ==== Sys2Proof/Machine/Reset.lean ====
section
/-! DEFINITION. Reset (R375-R388): the sampler, what each reach clears, the release order with boot (R407), and the sources. -/

namespace Sys2Proof.Machine

/-! ### What a reach clears (R375) -/

/-- Memory and flaws at the addresses a test names read zero with correct ECC. -/
def State.zeroMem (s : State) (p : Nat → Bool) : State :=
  { s with mem := s.mem.filter (fun e : Nat × Byte => !p e.1), flaws := s.flaws.filter (fun e : Nat × Option Flaw => !p (8 * e.1)) }

/-- The latches of R441 for the pairs named: 0 UPD_STEP, 1 SDL_CNT, 2 RGA_SEQ, 3 RGA_FLOOR, 4 RST_GRTICK, 5 + k GRF_SDL of Grafter k. -/
def keepLatches (pairs : List Nat) (l : List (Nat × Nat)) : List (Nat × Nat) := l.filter fun e => pairs.contains (e.1 % 16)

/-- A cluster after its reset: the spare map is persistent. -/
def Cluster.cleared (quiet : Bool) (c : Cluster) : Cluster :=
  { Cluster.init with regs := sg [] .CLU_SPMAP 0 (rg c.regs .CLU_SPMAP), quiet := quiet, quiesced := quiet }

/-- The same for a reset of CLUSTER reach, which keeps the CSP's GRF_SUBLO latch (R215). -/
def Cluster.clearedAlone (quiet : Bool) (c : Cluster) : Cluster := { c.cleared quiet with grfLo := c.grfLo }

/-- Whether a DPA is a byte of a cluster's store, or of the local memory of one of its cores. -/
def ofCluster (ci a : Nat) : Bool :=
  match placeOf a with
  | .store c _ => c == ci
  | .localMem gi _ => coreCi gi == ci
  | _ => false

/-- Tickets of operations in `ops` end with RESET_ABORTED (R333). -/
def State.abortOps (s : State) (ops : List Nat) : State :=
  (List.range 8).foldl (fun (t : State) n =>
    if ops.contains (t.ticket n).opcode ∧ (t.ticket n).active ∧ (t.ticket n).done = false then t.failTicket n St.RESET_ABORTED else t) s

/-- The operations that use the blocks of a narrow reset, and of FABRIC reach. -/
def narrowOps : List Nat := [0xD011, 0xD012, 0xD052]
def fabricOps : List Nat := [0xD011, 0xD012, 0xD030, 0xD031, 0xD050, 0xD051, 0xD052]

/-- Clear one core. -/
def State.clearCore (s : State) (gi : Nat) : State :=
  (s.setCore gi Core.init).zeroMem fun a => match placeOf a with | .localMem g _ => g == gi | _ => false

/-- Clear the clusters a test names, with their cores. -/
def State.clearClusters (s : State) (p : Nat → Bool) (f : Bool → Cluster → Cluster) : State :=
  let q := s.quiesce.isSome
  { s with cores := s.cores.mapIf nCores (fun gi => p (coreCi gi)) (fun _ => Core.init)
           clusters := s.clusters.mapIf nClusters p (f q) }.zeroMem
    fun a => match placeOf a with | .store c _ => p c | .localMem gi _ => p (coreCi gi) | _ => false

/-- Whether the compute dies are powered off (R391): NAP, DARK or OFF. -/
def State.diesOff (s : State) : Bool := decide (2 ≤ s.hf .PWR_STATE 0 0 3)

/-- A rolling BIST is over. -/
def State.noBist (s : State) : State := { s with rel := { s.rel with bist := none } }

/-- Clear the targets of CORE, CLUSTER or DIE reach; targets that are powered off are not affected (R395). -/
def State.clearNarrow (s : State) (dies clusters cores : List Nat) (cut : List Endpoint) : State :=
  if s.diesOff then s
  else
    let s := cores.foldl State.clearCore s.permFault
    let s := if clusters.isEmpty then s else s.clearClusters (fun ci => clusters.contains ci) Cluster.clearedAlone
    let s := if dies.isEmpty then s else s.clearClusters (fun ci => dies.contains (dieOf ci)) Cluster.cleared
    let s := dies.foldl (fun (t : State) k => t.setGrafter k Grafter.init) s
    let lost := fun (p : Packet) => match p.src with
      | .core gi => cores.contains gi || clusters.contains (coreCi gi) || dies.contains (dieOf (coreCi gi))
      | _ => false
    let s := { s with outbox := s.outbox.filter fun p => !lost p }
    let gone := dies.map (5 + ·)
    let s := { s with host := { s.host with latch := keepLatches ((List.range 16).filter fun p => !gone.contains p) s.host.latch } }
    -- a reset that clears CD0_SRAM loses the staged image (R408)
    let s := if dies.contains 0 then { s with sec := { s.sec with staged := none } } else s
    let s := { s with rst := { s.rst with hung := s.rst.hung ++ cut } }
    let s := if cut.isEmpty then s else s.setHf .RST_STAT 0 0 1 1
    (s.abortOps narrowOps).noBist

/-- The job as a reset of FABRIC reach leaves it: before its step's REPLAY, held with RESET_ABORTED; no step is undone that a record
does not undo. -/
def StepState.reset (x : StepState) : StepState :=
  if x.job then { StepState.init with job := true, starting := true, area := x.area, held := St.RESET_ABORTED, statK := x.statK }
  else { StepState.init with statK := x.statK, restored := x.restored }

/-- The Sundial is about to restart from zero: what the Shed times by it keeps the time that is left (R344, R348, R383). -/
def State.rebase (s : State) : State :=
  let now := s.sundial
  let r := s.rel
  let rows := r.rows.map fun e => (e.1, (e.2.filter fun t => decide (now < t.due)).map fun t => { t with due := t.due - now })
  { s with rel := { r with rows := rows.filter fun e => !e.2.isEmpty, ues := []
                           bucketDue := r.bucketDue - now, replanDue := r.replanDue - now, monitorDue := r.monitorDue - now }
           rst := { s.rst with kick := s.rst.kick - now } }

/-- What FABRIC reach and wider clear: compute dies, Trellis, Grafters, HBM controllers, and the Sundial. -/
def State.clearFabric (s : State) : State :=
  let s := { s with mem := s.mem.filter (fun e : Nat × Byte => decide (e.1 < 0x008000000000)), flaws := [] }
  let s := { s with cores := ⟨Core.init, []⟩, clusters := s.clusters.map (Cluster.cleared false), outbox := [], net := [], frontTab := [], frontQ := [] }
  let s := { s with streams := [], frontHeld := [], quietG := [], quiescedG := [], quiesce := none, barrier := none, rake := Rake.init }
  let s := s.rebase
  let s := { s with grafters := List.replicate 8 Grafter.init, sieve := Sieve.init, hubFlitCe := 0, sundial := 0, step := s.step.reset }
  let s := { s with coll := { Coll.init with owners := s.coll.owners, plan := s.coll.plan, was := s.coll.was, wasShards := s.coll.wasShards } }
  let s := { s with links := { s.links with rootTick := 0, stampTick := 0, respTick := 0, lastSlew := 0, slew := 0, t1 := 0 } }
  let s := { s with rel := { s.rel with bist := none }, host := { s.host with reads := [], latch := keepLatches [2, 3, 4] s.host.latch } }
  let s := { s with pwr := { s.pwr with queue := [], ticket := 8, wave := 20, waking := [], throttleDue := 250000 } }
  let s := { s with fac := { s.fac with armed := s.fac.armed.map fun _ => 0, coolTick := s.fac.coolTick.map fun _ => 0 } }
  { s with rst := { s.rst with compute := false, hung := [] }, sec := { s.sec with nonce := s.sec.nonce.map (fun n => (n.1, 0)), staged := none } }

/-- FABRIC reach: what the Shed keeps is written back where the registers it holds were cleared: the shard table's place and its length. A
permutation whose moves have not begun ends with its ticket's RESET_ABORTED, one whose moves run with PERMUTE_FAILED (R291, R333). -/
def State.clearReach3 (s : State) : State :=
  let base := s.h .UPD_STBASE
  let cnt := s.h .UPD_STCNT
  let moving := match s.coll.perm with | some p => decide (3 ≤ p.stage) | none => false
  let s := (s.permEnd (if moving then St.PERMUTE_FAILED else St.RESET_ABORTED)).abandon St.RESET_ABORTED
  let s := (s.abortOps fabricOps).clearFabric
  let s := { s with hub := resetRegs .hub 3 s.hub, harvest := { Harvest.init with hostMem := s.harvest.hostMem } }
  let s := (s.setH .UPD_STBASE 0 base).setH .UPD_STCNT 0 cnt
  (((s.setStatK s.step.statK).setHf .PWR_STATE 0 3 3 0).setHf .PWR_STATE 0 6 2 0)

/-- The Rain gauge after a reset: the open window and a sheet that waited are lost; the ring and the clear log are kept, and the next window
says that it began at a release (R371). -/
def State.gaugeReset (s : State) (reach : Nat) : State :=
  let g := { s.gauge with writing := none, queued := none }
  { s with gauge := { g with win := Window.new 0 s.stepNo true reach s.binSettings, seq := g.scanSeq, floor := g.scanFloor, due := 900000000000 } }.setHf
    .RGA_STAT 0 5 3 reach

/-- Counts and decisions after a reset: windows restart; retirements, repairs and what is known of spares stay (R344). -/
def Rel.reset (r : Rel) : Rel :=
  { Rel.init with retire := r.retire, exhausted := r.exhausted, dead := r.dead, repairs := r.repairs, fixed := r.fixed, noSpare := r.noSpare }

/-- WARM (4) and POR (5): every domain but H_AON, and with POR that too. HBM contents are lost. -/
def State.clearWide (s : State) (reach : Nat) : State :=
  let taint := s.hf .SEC_STAT 0 2 1
  let recov := s.hf .SEC_STAT 0 10 1
  let eoff := s.hf .FAC_STAT 0 8 1
  let s := s.clearFabric.forgetHbm
  let s := { s with hub := resetRegs .hub reach s.hub, mbx := initRegs .mailbox, step := StepState.init, layers := [], layersNext := [], factors := [] }
  let s := { s with coll := Coll.init, links := { Links.init with running := false }, harvest := { Harvest.init with hostMem := s.harvest.hostMem } }
  let s := { s with rel := s.rel.reset, mb := Mailbox.init, host := { HostSide.init with latch := keepLatches (if reach = 5 then [] else [4]) s.host.latch }, logs := [], logLost := [], policy := [3, 3, 4, 4] }
  let s := { s with sec := { Security.init with fuse := s.sec.fuse, skey := s.sec.skey, svn := s.sec.svn, flash := s.sec.flash, boot := s.sec.boot } }
  let s := { s with rst := { s.rst with ready := false, grant := none, kick := 0 } }
  let s := (s.setHf .SEC_STAT 0 10 1 recov).gaugeReset (reach - 3)
  if reach = 5 then
    let s := { s with rst := { s.rst with cold := [], refLost := false }, fac := { Facility.init with coolTick := s.fac.coolTick } }
    { s with pwr := { Power.init with commits := s.pwr.commits, wear := s.pwr.wear, coolForce := s.pwr.coolForce, trips := s.pwr.trips } }.setHf .FAC_STAT 0 8 1 eoff
  else ((s.setHf .SEC_STAT 0 2 1 taint).setHf .PWR_STATE 0 3 3 0).setHf .PWR_STATE 0 6 2 0

/-! ### The sampler (R378-R381) -/

/-- An accepted request (R380, R381): the latch widens, targets below FABRIC join, and a release in progress restarts from its first step.
`cut` names the endpoints that the reset cuts off in the middle of a packet (R386). -/
def State.request (s : State) (src reach : Nat) (dies clusters cores : List Nat) (cut : List Endpoint) : State :=
  if s.rst.refLost then s
  else
    let old := s.rst.reach
    let again := s.rst.releasing
    let s := if again then (s.satH .RST_STAT 0 16 16 1).setHf .RST_STAT 0 2 4 0 else s
    let new := max reach (old.getD 0)
    let accepted := if s.rst.accepted.contains src then s.rst.accepted else s.rst.accepted ++ [src]
    let x := { s.rst with reach := some new, accepted := accepted, releasing := false }
    let x := if reach < 3 then { x with dies := (x.dies ++ dies).eraseDups, clusters := (x.clusters ++ clusters).eraseDups, cores := (x.cores ++ cores).eraseDups } else x
    let s := { s with rst := x }
    if 3 ≤ new then
      if again ∨ old.isNone ∨ old.getD 0 < new then (if new = 3 then s.clearReach3 else s.clearWide new) else s
    else if again then s.clearNarrow x.dies x.clusters x.cores cut
    else s.clearNarrow dies clusters cores cut

/-- A source is held asserted, or has deasserted. -/
def State.hold_ (s : State) (src : Nat) : State :=
  { s with rst := { s.rst with asserted := if s.rst.asserted.contains src then s.rst.asserted else s.rst.asserted ++ [src] } }
def State.drop_ (s : State) (src : Nat) : State := { s with rst := { s.rst with asserted := s.rst.asserted.filter (· != src) } }

/-- The targets of a reach code and its index: dies, clusters, cores. -/
def targets (reach idx : Nat) : List Nat × List Nat × List Nat :=
  match reach with
  | 0 => ([], [], [idx])
  | 1 => ([], [idx], [])
  | 2 => ([idx], [], [])
  | _ => ([], [], [])

/-- Whether a reach code and index name something. -/
def targetOk (reach idx : Nat) : Bool :=
  match reach with
  | 0 => decide (idx < nCores)
  | 1 => decide (idx < nClusters)
  | 2 => decide (idx < 8)
  | 3 => true
  | 4 => true
  | _ => false

/-! ### Commands that ask for a reset -/

/-- The module holds at a step boundary. -/
def State.holding (s : State) : Bool :=
  s.step.phase != .running && (s.step.held != 0 || s.hf .SIV_STAT 0 4 1 == 1 || s.hf .PWR_STATE 0 0 3 == 1)

/-- RESET's effect (R335, R377): OK is answered before the request asserts; below FABRIC a running job refuses it, unless the module holds at a
step boundary. -/
def State.grantReset (s : State) (c : Cmd) (reach idx : Nat) : State :=
  if targetOk reach idx = false then s.reply c St.INVALID_PAYLOAD []
  else if reach ≤ 2 ∧ s.step.job ∧ s.holding = false then s.reply c St.BUSY_JOB []
  else { s.reply c St.OK [] with rst := { (s.reply c St.OK []).rst with grant := some (reach, idx) } }

/-- RESET (R377). -/
def execReset (s : State) : Out := s.short 0xD010 fun c s => s.grantReset c (c.field 0 1) (c.field 1 4)

/-- V1_RESET (R337): RESET with reach WARM. -/
def execV1Reset (s : State) : Out := s.short 0xC002 fun c s => s.grantReset c 4 0

/-- RESET_REQUEST (R380): the request of an answered RESET asserts, as source 3, and is accepted. -/
def execResetRequest (cut : List Endpoint) (s : State) : Out :=
  match s.rst.grant with
  | none => .next s
  | some (reach, idx) =>
    let t := targets reach idx
    .next ({ s with rst := { s.rst with grant := none } }.request 3 reach t.1 t.2.1 t.2.2 cut)

/-- GROUP_RESET (R382, R416): a signed RESET frame goes to the module the discovery table has at a coordinate. -/
def execGroupReset (s : State) : Out :=
  s.short 0xD046 fun c s =>
    let reach := c.field 2 1
    let tok := c.body.drop 3
    if tok.isEmpty then s.reply c St.ROLE_DENIED []
    else if reach ≠ 3 ∧ reach ≠ 4 then s.reply c St.INVALID_PAYLOAD []
    else
      match s.discAt (c.field 0 1) (c.field 1 1) with
      | none => s.reply c St.INVALID_PAYLOAD []
      | some e =>
        let payload := toLe 8 e.serial ++ toLe 1 reach ++ toLe 7 0 ++ tok.take 8 ++ (tok.drop 8).take 132
        (s.sendTo e.x e.y e.tag 0 (.reset payload)).reply c St.OK []

/-- Whether a RESET frame's payload is accepted (R382). -/
def State.resetOk (s : State) (p : List Byte) : Bool :=
  let tick := leNat ((p.drop 16).take 8)
  let reach := leNat ((p.drop 8).take 1)
  decide (p.length = 156) && leNat (p.take 8) == s.serial && (reach == 3 || reach == 4)
    && decide (s.h .RST_GRTICKLO + 2 ^ 32 * s.h .RST_GRTICKHI < tick)
    && decide (tick ≤ s.sundial + 250000000) && decide (s.sundial ≤ tick + 250000000)
    && p521Verify s.gkey (p.drop 24) (sha512 (p.take 24))

/-- RESET_FRAME (R382): accepted as source 4 with its tick written, or discarded with TOKEN_INVALID. -/
def execResetFrame (p lseq : Nat) (f : Frame) (s : State) : Out :=
  match f.body with
  | .reset m =>
    if s.delivers f then
      .next (s.takeFrame p lseq false fun s =>
        if s.resetOk m then
          let tick := leNat ((m.drop 16).take 8)
          let s := (s.setH .RST_GRTICKLO 0 (tick % 2 ^ 32)).setH .RST_GRTICKHI 0 (tick / 2 ^ 32)
          s.request 4 (leNat ((m.drop 8).take 1)) [] [] [] []
        else s.event St.TOKEN_INVALID 0 0 0)
    else .next s
  | _ => .next s

/-- FUNCTION_LEVEL_RESET (R376): source 2, FABRIC. -/
def execFunctionLevelReset (s : State) : Out := .next (s.request 2 3 [] [] [] [])

/-- CXL_PERST (R378): a filtered assertion (WARM) or deassertion of CXL_PERST_N. -/
def execCxlPerst (on : Bool) (s : State) : Out :=
  if s.rst.refLost then .next s
  else if on then .next ((s.hold_ 1).request 1 4 [] [] [] [])
  else .next (s.drop_ 1)

/-- DBG_SRST (R417): accepted as source 8 with WARM at INVASIVE; otherwise sampled and never latched. -/
def execDbgSrst (on : Bool) (s : State) : Out :=
  if s.rst.refLost then .next s
  else if on then
    if s.hf .DBG_STAT 0 0 2 = 2 then .next ((s.hold_ 8).request 8 4 [] [] [] []) else .next s
  else .next (s.drop_ 8)

/-- WATCHDOG_KICK (R383): a write of RST_WDOG.KICK restarts the count. -/
def execWatchdogKick (s : State) : Out := .next { s with rst := { s.rst with kick := s.sundial } }

/-- WATCHDOG_TIMEOUT (R383): TIMEOUT ms without a kick while Ngumal is ready asserts source 5. -/
def execWatchdogTimeout (s : State) : Out :=
  if s.rst.ready ∧ s.rst.kick + 250000 * s.hf .RST_WDOG 0 0 16 ≤ s.sundial then .next (s.request 5 4 [] [] [] []) else .next s

/-- THERMAL_TRIP (R439): a junction reads `t` m°C; at 110 °C source 6 asserts. -/
def execThermalTrip (t : Nat) (s : State) : Out := if 110000 ≤ t then .next (s.request 6 4 [] [] [] []) else .next s

/-! ### Supply and reference -/

/-- Set a persistent register by its key. -/
def State.setKey (s : State) (key v : Nat) : State :=
  if key < 0x1000000 then
    match regAt .hub key with
    | some (r, i) => s.setH r i v
    | none => s
  else
    let ci := (key - 0x1000000) / 0x20000
    match regAt .cluster ((key - 0x1000000) % 0x20000) with
    | some (r, i) => s.modCluster ci fun c => { c with regs := sg c.regs r i v }
    | none => s

/-- Power is lost: each register whose commit is in progress holds its old value or its new one (R14). (DEDUCED: log 77) -/
def State.loseCommits (s : State) : State :=
  let t := s.pwr.commits.foldl (fun (t : State) e =>
    let d := t.draw 1
    if d.1 = 0 then d.2.setKey e.1 e.2 else d.2) s
  { t with pwr := { t.pwr with commits := [] } }

/-- One more committed write of a register. -/
def State.wearUp (s : State) (key : Nat) : State :=
  { s with pwr := { s.pwr with wear := Sparse.set (fun _ => 0) s.pwr.wear key (s.wearOf key + 1) } }

/-- SUPPLY_TRIP (R435): the cause is recorded in PWR_RAILEV, and the power-on source asserts POR until POWER_ON: every domain is off. -/
def execSupplyTrip (cause : Nat) (s : State) : Out :=
  let s := s.loseCommits
  let key := hubKey .PWR_RAILEV 0
  let v := cause % 8 + 8
  let s := if s.frozen key ∨ s.h .PWR_RAILEV = v then s else (s.setH .PWR_RAILEV 0 v).wearUp key
  let s := { s with pwr := { s.pwr with trips := s.pwr.trips + 1 }, rst := { s.rst with refLost := false } }
  .next ((s.hold_ 0).request 0 5 [] [] [] [])

/-- POWER_ON (R376): the supervisor releases the power-on source, whose POR is then the only thing left to release. -/
def execPowerOn (s : State) : Out :=
  if s.rst.asserted.contains 0 then .next (s.drop_ 0)
  else .next ({ s.loseCommits with rst := { s.loseCommits.rst with refLost := false } }.request 0 5 [] [] [] [])

/-- REFCLK_LOSS (R379): no edge for 1 µs: every divided clock stops, and FAC_STAT.REFLOSS asserts FAC_ALERT. (DEDUCED: log 76) -/
def execRefclkLoss (s : State) : Out :=
  if s.rst.refLost ∨ s.rst.asserted.contains 0 then .next s
  else .next (({ s with rst := { s.rst with refLost := true } }.setHf .FAC_STAT 0 1 1 1).setHf .CLK_STAT 0 0 1 0)

/-- REFCLK_RETURN (R379): the PLL relocks, source 9 asserts WARM, and sources held asserted meanwhile are seen. -/
def execRefclkReturn (s : State) : Out :=
  if s.rst.refLost then
    let s := ({ s with rst := { s.rst with refLost := false } }.setHf .RST_STAT 0 1 1 1).setHf .CLK_STAT 0 0 1 1
    .next (s.rst.asserted.foldl (fun (t : State) src => t.request src (if src = 0 then 5 else 4) [] [] [] []) (s.request 9 4 [] [] [] []))
  else .next s

/-! ### Boot (R406, R407) -/

/-- Why an image is not good (R406): its signature, length or hash, or its version; none for a good one. -/
def State.imageBad (s : State) (b : List Byte) : Option Nat :=
  let len := leNat ((b.drop 4).take 4)
  let img := b.take len
  let body := img.drop 4096
  let svn := leNat ((b.drop 8).take 1)
  if leNat (b.take 4) ≠ 0x53573146 ∨ len < 4096 ∨ b.length < len ∨ 2 ^ 28 < len then some St.SIGNATURE_INVALID
  else if p521Verify (toLe 132 Config.fwKey) ((b.drop 0x50).take 132) (sha512 (b.take 0x50)) = false ∨ sha512 body ≠ (b.drop 0x10).take 64 then
    some St.SIGNATURE_INVALID
  else if svn < s.sec.svn ∨ 64 < svn then some St.ROLLBACK_REFUSED
  else none

/-- Whether what the flash holds is good. The image the module was made with is good as long as its version is not too low. -/
def State.flashGood (s : State) (f : Flash) : Bool :=
  match f with
  | .factory => decide (s.sec.svn ≤ f.svn)
  | .erased => false
  | .image b => (s.imageBad b).isNone

/-- Step 3 of R384: the boot ROM starts Ngumal, which brings the fused count up to the image's, or enters recovery. -/
def State.boot (s : State) : State :=
  if s.flashGood s.sec.flash then
    let s := { s with sec := { s.sec with boot := s.sec.flash, svn := max s.sec.svn s.sec.flash.svn } }
    let s := ({ s with rst := { s.rst with ready := true, kick := s.sundial } }).setHf .SEC_STAT 0 10 1 0
    if s.hf .PWR_RAILEV 0 3 1 = 1 then (s.event St.RAIL_FAULT 0 0 (s.hf .PWR_RAILEV 0 0 3)).rwpHf .PWR_RAILEV 0 3 1 0 else s
  else s.setHf .SEC_STAT 0 10 1 1

/-! ### Release (R384, R385) -/

/-- Release is complete: RST_CAUSE, the latch, and the statuses of the sources. -/
def State.released (s : State) : State :=
  let x := s.rst
  let mask := (x.accepted.map fun n => 2 ^ n).foldl (· + ·) 0
  let src := (x.accepted.head?).getD 0
  let s := s.setH .RST_CAUSE 0 (src + 2 ^ 4 * x.reach.getD 0 + 2 ^ 7 * b2n (decide (1 < x.accepted.length)) + 2 ^ 8 * mask)
  let s := { s with rst := { x with reach := none, dies := [], clusters := [], cores := [], accepted := [], releasing := false } }.setHf .RST_STAT 0 2 4 0
  [(5, St.WATCHDOG_RESET), (6, St.THERMAL_TRIP), (7, St.FAC_EMERGENCY), (9, St.REFCLK_LOSS)].foldl
    (fun (t : State) e => if x.accepted.contains e.1 then t.event e.2 0 0 0 else t) s

/-- TRL_AMAP.EFF is taken from MODE (R166), and the dividers from the plans. Kept HBM contents are reinterpreted under a mode that has changed:
no address keeps its bytes. (DEDUCED: log 11) -/
def State.phyUp (s : State) : State :=
  let s := if s.hf .TRL_AMAP 0 1 1 = s.hf .TRL_AMAP 0 0 1 then s else s.forgetHbm
  let s := s.setHf .TRL_AMAP 0 1 1 (s.hf .TRL_AMAP 0 0 1)
  let div := ((List.range 8).map fun d => s.hf .PWR_MPLAN d 4 1 * 2 ^ d).foldl (· + ·) 0
  s.setH .CLK_STAT 0 (0x3FFFFF + 2 ^ 22 * div)

/-- Compute ready: RUN. -/
def State.computeUp (s : State) : State :=
  { s with rst := { s.rst with compute := true }, host := { s.host with unavail := false } }.setHf .PWR_STATE 0 0 3 0

/-- Wake waves begin on the dies named. -/
def State.wake (s : State) (dies : List Nat) : State := { s with pwr := { s.pwr with wave := 0, waking := dies } }

/-- R265: what the journal holds is restored, and a decision that did not complete is completed. -/
def State.recoverStep (s : State) : State :=
  let j := s.rd s.jbase 0x300
  let n := nat j 0 8
  let s := (s.takeJournal j).setStepNo ((n + 1) % 2 ^ 64)
  let s := { s with coll := { s.coll with gStep := n, gReplays := 0, gLayers := s.recLayers } }
  if n = nat j 0x20 8 then s else s.recoverAll

/-- The end of a FABRIC release: R265, and a job that was running holds before its step. (DEDUCED: log 73) -/
def State.fabricUp (s : State) : State :=
  let s := s.recoverStep.computeUp
  let s := if s.step.job then s.openBoundary else s
  s.startDiscovery.released

/-- RESET_RELEASE (R384, R385): once every source has deasserted, the next step of release runs: the eight steps of WARM and POR (from step 2 for
WARM), or the narrower reaches' own. A release after a thermal trip passes step 5 only when every junction reads 95 °C at most (`cool`); recovery
stops at step 3; dies wake in waves before the last step. By the end of step 2 the host link has trained to the highest
of the modes its partner supports, `width` lanes wide (R318, R319), and in step 4 the Dorhel ports train with the peers that `offers` says they have. (DEDUCED: log 74) -/
def execResetRelease (cool : Bool) (width : Nat) (modes : List Nat) (offers : List (Option Bool)) (s : State) : Out :=
  match s.rst.reach with
  | none => .next s
  | some r =>
    if s.rst.asserted ≠ [] ∨ s.rst.refLost then .next s
    else if r ≤ 1 ∨ (r = 2 ∧ s.diesOff) then .next s.released
    else if r ≤ 3 then
      if s.rst.releasing = false then
        let s := (if r = 3 then s.phyUp else s).wake (if r = 3 then List.range 8 else s.rst.dies)
        .next { s with rst := { s.rst with releasing := true } }
      else if s.pwr.wave < 20 then .next s
      else if r = 3 then .next s.fabricUp
      else .next s.released
    else
      let go := fun (t : State) (k : Nat) => ({ t with rst := { t.rst with releasing := true } }.setHf .RST_STAT 0 2 4 k)
      if s.rst.releasing = false then
        -- step 1 is POR's alone
        if r = 5 then .next (go s 1) else .next (go { s with sec := { s.sec with sessions := [] } } 2)
      else
        match s.hf .RST_STAT 0 2 4 with
        | 1 => .next (go s 2)
        | 2 => .next (go { s with host := { s.host with mode := modes.foldl min 5, width := width } } 3).boot
        | 3 => if s.rst.ready = false then .next s else .next ((go s 4).trainPorts offers).startDiscovery
        | 4 => if s.rst.accepted.contains 6 ∧ cool = false then .next s else .next (go s.phyUp 5)
        | 5 => .next (go s 6)
        | 6 => .next ((go s 7).wake (List.range 8))
        | _ => if s.pwr.wave < 20 then .next s else .next s.computeUp.released

end Sys2Proof.Machine
end

