-- ==== Sys2Proof/Machine/Power.lean ====
section
/-! DEFINITION. Power states (R391-R397), throttling (R399, R400), and the commit of a persistent register (R14, R402). -/

namespace Sys2Proof.Machine

/-! ### What a state loses (R391, R395) -/

/-- The running job ends without commit (R392, R430). -/
def State.dropJob (s : State) : State :=
  if s.step.job then
    let s := { s.permEnd St.PERMUTE_FAILED with step := { StepState.init with statK := s.step.statK } }
    ((s.endOp 0xD031 St.OK).endOp 0xD030 St.ABORTED).endQuiesce
  else s

/-- NAP: the dies' logic is off; local memories and cluster stores keep their contents. -/
def State.enterNap (s : State) : State :=
  let s := { s with cores := ⟨Core.init, []⟩, clusters := s.clusters.map (Cluster.cleared false), grafters := List.replicate 8 Grafter.init }
  let s := { s with host := { s.host with latch := keepLatches [0, 1, 2, 3, 4] s.host.latch } }
  { s with outbox := [], net := [], frontQ := [], streams := [], frontHeld := [], quietG := [], quiescedG := [], quiesce := none, barrier := none }

/-- DARK: dies, HBM and H_FABRIC are off. -/
def State.enterDark (s : State) : State :=
  let pwr := s.pwr
  let s : State := { (s.dropJob.abandon St.ABORTED).clearFabric.forgetHbm with pwr := pwr }
  let s : State := { s with hub := resetRegs .hub 3 s.hub, harvest := { Harvest.init with hostMem := s.harvest.hostMem } }
  if s.hf .DBG_STAT 0 0 2 = 0 then s else s.setHf .DBG_STAT 0 2 1 1

/-- OFF: every domain but H_AON is off (R391); a debug session has ended. -/
def State.enterOff (s : State) : State := (s.clearWide 4).setH .PWR_STATE 0 4

/-! ### Transitions (R393, R394) -/

def State.powerState (s : State) : Nat := s.hf .PWR_STATE 0 0 3

/-- Begin a transition: a HOLD with a job waits for a boundary, NAP and DARK begin with QUIESCE, and a way back from them with its wake waves. -/
def State.powerBegin (s : State) (target ticket : Nat) : State :=
  let s := { s with pwr := { s.pwr with ticket := ticket } }.setHf .PWR_STATE 0 3 3 target
  if target = 1 ∧ s.step.job then s.setHf .PWR_STATE 0 7 1 1
  else
    let s := if 2 ≤ target ∧ s.powerState < 2 ∧ s.quiesce.isNone then s.startQuiesce 0 else s
    let s := if target ≤ 1 ∧ 2 ≤ s.powerState then (if s.powerState = 3 then s.phyUp else s).wake (List.range 8) else s
    s.setHf .PWR_STATE 0 6 1 1

/-- The transitions that wait, in order: one whose target the module is in ends at once. (DEDUCED: log 78) -/
def State.powerGo : List (Nat × Nat) → State → State
  | [], s => { s with pwr := { s.pwr with queue := [], ticket := 8 } }
  | (t, n) :: rest, s =>
    if t = s.powerState then State.powerGo rest (s.endTicket n St.OK)
    else { s with pwr := { s.pwr with queue := rest } }.powerBegin t n

/-- A transition is in progress, or a HOLD waits for its boundary. -/
def State.inTransition (s : State) : Bool := s.hf .PWR_STATE 0 6 2 != 0

/-- Ask for a transition: it begins, or waits for the one in progress. -/
def State.powerAsk (s : State) (target ticket : Nat) : State :=
  if s.inTransition then { s with pwr := { s.pwr with queue := s.pwr.queue ++ [(target, ticket)] } } else State.powerGo [(target, ticket)] s

/-- SET_POWER_STATE (R393). -/
def execSetPowerState (s : State) : Out :=
  s.long 0xD012 (fun c s =>
      if 3 < c.field 0 1 then some St.INVALID_PAYLOAD else refuseIf (s.step.job && decide (2 ≤ c.field 0 1)) St.BUSY_JOB)
    fun c n s => s.powerAsk (c.field 0 1) n

/-- The target is reached: the ticket ends, and the next transition begins. -/
def State.powerDone (s : State) (target : Nat) : State :=
  let n := s.pwr.ticket
  let s := (s.setHf .PWR_STATE 0 0 3 target).setHf .PWR_STATE 0 3 5 0
  let s := if target ≤ 1 then { s with rst := { s.rst with compute := true }, host := { s.host with unavail := false } } else s
  let s := if target = 0 then s.setHf .DBG_STAT 0 2 1 0 else s
  let s := if n < 8 then s.endTicket n St.OK else s
  State.powerGo s.pwr.queue s

/-- POWER_TRANSITION_COMPLETE (R394): a HOLD during a job is reached once the boundary stands before action 6; any other transition when its
work is done, a wake when its waves have passed. -/
def execPowerTransitionComplete (s : State) : Out :=
  let t := s.hf .PWR_STATE 0 3 3
  if s.hf .PWR_STATE 0 7 1 = 1 then
    if s.step.job = false ∨ s.atAction 6 then .next (s.powerDone 1) else .next s
  else if s.hf .PWR_STATE 0 6 1 = 1 then
    if t ≤ 1 ∧ 2 ≤ s.powerState ∧ s.pwr.wave < 20 then .next s
    else
      let s := if t = 2 ∧ s.powerState < 2 then s.enterNap else if t = 3 then s.enterDark else s
      .next (s.powerDone t)
  else .next s

/-- Enter DARK from any state, before anything that waits; the job ends. -/
def State.goDark (s : State) : State :=
  if 3 ≤ s.powerState then s
  else
    let s := s.dropJob
    let s := if s.hf .PWR_STATE 0 7 1 = 1 then (s.setHf .PWR_STATE 0 7 1 0).setHf .PWR_STATE 0 3 3 0 else s
    if s.hf .PWR_STATE 0 6 1 = 1 then { s with pwr := { s.pwr with queue := (3, 8) :: s.pwr.queue } } else s.powerBegin 3 8

/-- PCIE_POWER_STATE (R392): D3hot takes the module to DARK from any state, D0 leaves it there, D3cold takes it to OFF. -/
def execPciePowerState (d : Nat) (s : State) : Out :=
  if d = 0 then .next { s with host := { s.host with dstate := if s.host.dstate = 3 then 0 else s.host.dstate } }
  else if d = 3 then
    if s.host.dstate = 0 then .next ({ s with host := { s.host with dstate := 3 } }.goDark) else .next s
  else if d = 4 then
    if s.host.dstate = 4 then .next s else .next { s.dropJob.enterOff with host := { s.dropJob.enterOff.host with dstate := 4 } }
  else .next s

/-- WAKE_WAVE (R397): one wave switches a die-local cluster row of every waking die. -/
def execWakeWave (s : State) : Out :=
  if s.pwr.wave < 20 then
    let n := s.pwr.wave + 1
    .next { s with pwr := { s.pwr with wave := n, waking := if n = 20 then [] else s.pwr.waking } }
  else .next s

/-! ### Throttling (R399) -/

/-- A level after an update. -/
def levelNext (level : Nat) (up down : Bool) : Nat := if up then min (level + 1) 15 else if down then level - 1 else level

/-- L in force: the larger of the two levels, or 15 while the coolant fault lasts (R430). -/
def State.levelEff (s : State) (d : Nat) : State :=
  s.setHf .PWR_THR d 8 4 (if s.pwr.coolForce then 15 else max (s.hf .PWR_THR d 0 4) (s.hf .PWR_THR d 4 4))

/-- One die's levels: `p` the module's input power in mW, `t` its highest junction reading in m°C. -/
def State.throttleDie (s : State) (p : Nat) (d t : Nat) : State :=
  let cap := s.hf .PWR_CAP 0 0 14
  let c := s.hf .PWR_THR d 0 4
  let h := s.hf .PWR_THR d 4 4
  let c' := levelNext c (decide (1000 * cap < p)) (decide (100 * p < 97000 * cap))
  let h' := levelNext h (decide (95000 ≤ t)) (decide (t ≤ 92000))
  let s := ((s.setHf .PWR_THR d 0 4 c').setHf .PWR_THR d 4 4 h').levelEff d
  let s := if c = 0 ∧ 0 < c' then s.event St.POWER_CAPPED 1 d 0 else s
  if h = 0 ∧ 0 < h' then s.event St.THERMAL_THROTTLE 1 d 0 else s

/-- THROTTLE_UPDATE (R399): every 1 ms, from the input power averaged over it (mW) and each die's highest junction reading (m°C). (DEDUCED: log 79) -/
def execThrottleUpdate (power : Nat) (temps : List Nat) (s : State) : Out :=
  if s.pwr.throttleDue ≤ s.sundial ∧ s.rst.ready then
    let s := { s with pwr := { s.pwr with throttleDue := s.sundial + 250000 } }
    .next ((List.range 8).foldl (fun (t : State) d => t.throttleDie power d (temps.getD d 0)) s)
  else .next s

/-! ### Commits (R14, R402) -/

/-- RWP_COMMIT (R14, R402): the oldest commit in progress completes and counts; the 1,000,000th freezes the register and raises RWP_WORN. -/
def execRwpCommit (s : State) : Out :=
  match s.pwr.commits with
  | [] => .next s
  | (key, _) :: rest =>
    let s := { s with pwr := { s.pwr with commits := rest } }.wearUp key
    if s.wearOf key = 1000000 then .next (s.event St.RWP_WORN 0 0 key) else .next s

end Sys2Proof.Machine
end

