-- ==== Sys2Proof/Machine/Secure.lean ====
section
/-! DEFINITION. Security and debug sessions (R403-R419, R424): firmware, lifecycle, SERVICE tokens, SPDM and the TAP. -/

namespace Sys2Proof.Machine

/-- Run an S command whose resource may be held (R332), when its body satisfies `p`. -/
def State.guarded (s : State) (op : Nat) (p : Cmd → Bool) (go : Cmd → State → State) : Out :=
  match s.takeCmd op with
  | some (c, t) => if p c then (if t.resourceBusy op then .next (t.reply c St.RESOURCE_BUSY []) else .next (go c t)) else .next s
  | none => .next s

/-! ### Sessions and tokens (R413-R419) -/

/-- DBG_STAT.LEVEL: 0 NONE, 1 NONINVASIVE, 2 INVASIVE. -/
def State.level (s : State) : Nat := s.hf .DBG_STAT 0 0 2

/-- The session ends, and every debug-halted core resumes (R418). -/
def State.endSession (s : State) : State := { s with cores := s.cores.map Core.debugResume }.setHf .DBG_STAT 0 0 4 0

/-- Nonces expire 60 s after issue: 15,000,000,000 ticks. (DEDUCED: log 82) -/
def nonceTicks : Nat := 15000000000

/-- A fresh nonce replaces any earlier one (R414). -/
def State.newNonce (s : State) : List Byte × State :=
  let d := s.draw 128
  let n := toLe 16 d.1
  (n, { d.2 with sec := { d.2.sec with nonce := some (n, s.sundial) } }.setHf .DBG_STAT 0 4 1 1)

/-- The nonce is gone. -/
def State.dropNonce (s : State) : State := { s with sec := { s.sec with nonce := none } }.setHf .DBG_STAT 0 4 1 0

/-- SHA-512 of the module's identity public key, x then y (R413). -/
def State.identity (_ : State) : List Byte := sha512 (toLe 66 (Config.idKey 0) ++ toLe 66 (Config.idKey 1))

/-- Why a token is refused (R415), none for a good one. -/
def State.tokenBad (s : State) (kind : Nat) (tok : List Byte) : Option Nat :=
  if leNat (tok.take 2) ≠ kind ∨ leNat ((tok.drop 2).take 6) ≠ 0 then some St.INVALID_PAYLOAD
  else
    match s.sec.nonce with
    | none => some St.NONCE_STALE
    | some (n, t) =>
      if n ≠ (tok.drop 72).take 16 ∨ t + nonceTicks ≤ s.sundial then some St.NONCE_STALE
      else if (tok.drop 8).take 64 ≠ s.identity ∨ p521Verify s.sec.skey ((tok.drop 88).take 132) (sha512 (tok.take 88)) = false then
        some St.TOKEN_INVALID
      else none

/-- A verification (R415): its outcome, and the nonce consumed. (DEDUCED: log 83) -/
def State.verify (s : State) (kind : Nat) (tok : List Byte) : Option Nat × State := (s.tokenBad kind tok, s.dropNonce)

/-- A session opens, or is raised, at a level (R418, R419); one opened in DARK is suspended (R424). -/
def State.openSession (s : State) (level path : Nat) : State :=
  let path := if s.level = 0 then path else s.hf .DBG_STAT 0 3 1
  let s := s.setHf .DBG_STAT 0 0 4 (level + (if s.powerState = 3 then 4 else 0) + 8 * path)
  if level = 2 then (s.setHf .SEC_STAT 0 2 1 1).event St.DEBUG_ENTERED 0 0 0 else s

/-- DEBUG_UNLOCK at level 1 or 2 from a path (0 mailbox, 1 JTAG): its status, and what it leaves. -/
def State.unlock (s : State) (path level : Nat) (tok : List Byte) : Nat × State :=
  if tok.isEmpty then (St.ROLE_DENIED, s)
  else if level ≠ 1 ∧ level ≠ 2 then (St.INVALID_PAYLOAD, s)
  else if s.level ≠ 0 ∧ !(s.level == 1 && level == 2 && s.hf .DBG_STAT 0 2 1 == 0) then (St.DEBUG_DENIED, s)
  else if s.lcs = 1 then
    match s.verify level tok with
    | (some st, t) => (st, t)
    | (none, t) => (St.OK, t.openSession level path)
  else (St.OK, s.openSession level path)

/-- DEBUG_CHALLENGE (R414). -/
def execDebugChallenge (s : State) : Out :=
  s.guarded 0xD080 (fun _ => true) fun c s => s.newNonce.2.reply c St.OK s.newNonce.1

/-- DEBUG_UNLOCK at a level that opens or raises a session (R418), or that does not exist. -/
def execDebugUnlock (s : State) : Out :=
  s.guarded 0xD081 (fun c => decide (c.field 0 1 < 3) || decide (5 < c.field 0 1)) fun c s =>
    let r := s.unlock 0 (c.field 0 1) (c.body.drop 1)
    r.2.reply c r.1 []

/-- DEBUG_END (R418). -/
def execDebugEnd (s : State) : Out := s.guarded 0xD083 (fun _ => true) fun c s => s.endSession.reply c St.OK []

/-- NONCE_EXPIRE (R414). -/
def execNonceExpire (s : State) : Out :=
  match s.sec.nonce with
  | some (_, t) => if t + nonceTicks ≤ s.sundial then .next s.dropNonce else .next s
  | none => .next s

/-! ### Lifecycle (R411, R412) -/

/-- A lifecycle level of DEBUG_UNLOCK: from a listed state with its token verified, the transition takes effect and ends any session. -/
def State.lifecycle (s : State) (c : Cmd) (from_ : List Nat) (go : State → State) : State :=
  let tok := c.body.drop 1
  if tok.isEmpty then s.reply c St.ROLE_DENIED []
  else if from_.contains s.lcs = false then s.reply c St.LIFECYCLE_DENIED []
  else
    match s.verify (c.field 0 1) tok with
    | (some st, t) => t.reply c st []
    | (none, t) => go (t.endSession.reply c St.OK [])

/-- TO_DEBUG_UNLOCKED (R411): level 3. -/
def execToDebugUnlocked (s : State) : Out :=
  s.guarded 0xD081 (fun c => c.field 0 1 == 3) fun c s => s.lifecycle c [1] fun t => t.rwpHf .SEC_LCDBG 0 0 1 1

/-- TO_SECURED (R411): level 4. -/
def execToSecured (s : State) : Out :=
  s.guarded 0xD081 (fun c => c.field 0 1 == 4) fun c s => s.lifecycle c [2] fun t => t.rwpHf .SEC_LCDBG 0 0 1 0

/-- Every persistent register goes to its first-power-on value. -/
def State.forgetRwp (s : State) : State :=
  let s := Reg.all.foldl (fun (t : State) r =>
    if r.info.home = .hub ∧ r.hasRwp then (List.range r.info.count).foldl (fun (t : State) i => t.rwpH r i (rg initHub r i)) t else t) s
  (List.range nClusters).foldl (fun (t : State) ci => t.rwpC ci .CLU_SPMAP 0) s

/-- What entering RETURNED does (R412): SEC_GKEY, the Cold frame and RST_BKP are zeroed, every persistent register returns to its
first-power-on value, and a WARM reset is requested as source 3. -/
def State.toReturned (s : State) : State :=
  let s := { s with sec := { s.sec with fuse := 3 }, rst := { s.rst with cold := [] } }.forgetRwp
  let s := (List.range 16).foldl (fun (t : State) i => t.setH .RST_BKP i 0) s
  { s with rst := { s.rst with grant := some (4, 0) } }

/-- TO_RETURNED (R412): level 5. -/
def execToReturned (s : State) : Out :=
  s.guarded 0xD081 (fun c => c.field 0 1 == 5) fun c s => s.lifecycle c [1, 2] State.toReturned

/-- The staged SERVICE key. -/
def State.stagedKey (s : State) : List Byte := wordsBytes ((List.range 33).map fun i => s.h .SEC_SKEY i)

/-- A write of SEC_PROV.GO (R411): the staged key and SECURED are fused together. Outside BLANK, or with no key staged, LIFECYCLE_DENIED is raised;
while a job runs nothing happens. -/
def State.provision (s : State) : State :=
  if s.lcs ≠ 0 ∨ leNat s.stagedKey = 0 then s.event St.LIFECYCLE_DENIED 0 0 0
  else if s.step.job then s
  else { s with sec := { s.sec with fuse := 1, skey := s.stagedKey } }.endSession

/-- PROVISION (R411). -/
def execProvision (s : State) : Out := .next s.provision

/-! ### Firmware (R406-R410) -/

/-- The copy of an image in the cluster stores of die C0; where its bytes lie there is not in the spec. -/
def State.copyToC0 (s : State) : State :=
  s.forget fun a => match placeOf a with | .store ci _ => dieOf ci == 0 | _ => false

/-- Stage an image (R408): what it held, and why it is not good. -/
def State.stageImage (s : State) (src len : Nat) : Option Nat × State :=
  let img := s.rd src len
  let t := s.copyToC0
  match s.imageBad img with
  | some st => (some st, { t with sec := { t.sec with staged := none } })
  | none => (none, { t with sec := { t.sec with staged := some (img.take (leNat ((img.drop 4).take 4))) } })

/-- FW_STAGE (R408). -/
def execFwStage (hbm : List HbmErr) (s : State) : Out :=
  s.hbmRun hbm fun s =>
    if s.recovering then .next s
    else
      s.long 0xD070 (fun c s => if 2 ^ 28 < c.field 8 4 then some St.INVALID_PAYLOAD else refuseIf s.step.job St.BUSY_JOB) fun c n s =>
        match s.stageImage (c.field 0 8) (c.field 8 4) with
        | (some st, t) => t.failTicket n st
        | (none, t) => t.endTicket n St.OK

/-- RECOVERY_FW_STAGE (R410): the boot ROM programs the image `img` that it reads from host memory, its header only when the whole is good; then a WARM
reset is requested as source 3. -/
def execRecoveryFwStage (img : List Byte) (s : State) : Out :=
  if s.recovering = false then .next s
  else
    s.long 0xD070 (fun c _ => refuseIf (decide (2 ^ 28 < c.field 8 4)) St.INVALID_PAYLOAD) fun c n s =>
      let b := img.take (c.field 8 4)
      let t := { s with sec := { s.sec with flash := .erased } }
      match s.imageBad b with
      | some st => t.failTicket n st
      | none =>
        let t := { t with sec := { t.sec with flash := .image (b.take (leNat ((b.drop 4).take 4))) }, rst := { t.rst with grant := some (4, 0) } }
        t.endTicket n St.OK

/-- The staged copy is written to flash, its header last (R409); the copy is held no longer (R408). (DEDUCED: log 84) -/
def State.commitImage (s : State) (img : List Byte) : State := { s with sec := { s.sec with flash := .image img } }.unstage

/-- FW_COMMIT (R409). -/
def execFwCommit (s : State) : Out :=
  s.long 0xD071 (fun _ s => refuseIf s.sec.staged.isNone St.INVALID_PAYLOAD) fun _ n s =>
    match s.sec.staged with
    | some img => (s.commitImage img).endTicket n St.OK
    | none => s.endTicket n St.INVALID_PAYLOAD

/-- V1_FW_UPDATE (R337): FW_STAGE then FW_COMMIT, answered in its slot. (PRESUMED: log 57) -/
def execV1FwUpdate (hbm : List HbmErr) (s : State) : Out :=
  s.hbmRun hbm fun s =>
    s.guarded 0xC005 (fun _ => true) fun c s =>
      if 2 ^ 28 < c.field 8 4 ∨ c.body.length < 12 then s.reply c St.INVALID_PAYLOAD []
      else if s.step.job then s.reply c St.BUSY_JOB []
      else
        match s.stageImage (c.field 0 8) (c.field 8 4) with
        | (some st, t) => t.reply c st []
        | (none, t) =>
          match t.sec.staged with
          | some img => (t.commitImage img).reply c St.OK []
          | none => t.reply c St.SIGNATURE_INVALID []

/-! ### SPDM (R404, R405)

The codes of requests, responses and errors, and the algorithm bits, are SPDM 1.3's (PRESUMED). -/

def spdmInvalid : SpdmRsp := .error 0x01
def spdmUnexpected : SpdmRsp := .error 0x04
def spdmUnspecified : SpdmRsp := .error 0x05
def spdmDecrypt : SpdmRsp := .error 0x06
def spdmLimit : SpdmRsp := .error 0x0A

/-- Serve one request: the answer, and what it leaves. (PRESUMED: log 85) -/
def State.spdm (s : State) (go : State → SpdmRsp × State) : Out :=
  if s.mailboxUp then
    let r := go s
    .next { r.2 with sec := { r.2.sec with spdm := r.1 } }
  else .next s

/-- Where the negotiation stands. -/
def State.negotiate (s : State) (n : Nat) : State := { s with sec := { s.sec with negotiated := n } }

/-- The identity key's signature of what a request and its response say; the transcript's exact bytes are SPDM's. -/
def State.signed (s : State) (bs : List Byte) : List Byte × State :=
  (bs ++ toLe 132 (Config.idSign (beNat (sha512 bs)) s.fresh), { s with fresh := s.fresh + 1 })

/-- The certificate chain (R403). -/
def certBytes : List Byte := toLe Config.certLen Config.certChain

/-- GET_VERSION: SPDM 1.3; the negotiation starts again. -/
def execGetVersion (s : State) : Out := s.spdm fun s => (.ok 0x04 (toLe 1 1 ++ toLe 2 0x1300), s.negotiate 1)

/-- GET_CAPABILITIES: certificates, challenge, measurements with signature, sessions. -/
def execGetCapabilities (s : State) : Out :=
  s.spdm fun s => if s.sec.negotiated = 0 then (spdmUnexpected, s) else (.ok 0x61 (toLe 4 Config.spdmCaps), s.negotiate 2)

/-- NEGOTIATE_ALGORITHMS: of what the requester offers, only ECDSA P-521 (bit 8), SHA-512 (bit 2), ECDHE P-521 (bit 5) and AES-256-GCM (bit 1). -/
def execNegotiateAlgorithms (asym hash dhe aead : Nat) (s : State) : Out :=
  s.spdm fun s =>
    if s.sec.negotiated < 2 then (spdmUnexpected, s)
    else if !bit asym 8 || !bit hash 2 then (spdmInvalid, s)
    else (.ok 0x63 (toLe 4 (2 ^ 8) ++ toLe 4 (2 ^ 2) ++ toLe 2 (dhe &&& 2 ^ 5) ++ toLe 2 (aead &&& 2 ^ 1)), s.negotiate 3)

/-- GET_DIGESTS: slot 0's. -/
def execGetDigests (s : State) : Out :=
  s.spdm fun s => if s.sec.negotiated < 3 then (spdmUnexpected, s) else (.ok 0x01 (toLe 1 1 ++ sha512 certBytes), s)

/-- GET_CERTIFICATE: a part of slot 0's chain, and how much remains. -/
def execGetCertificate (slot off len : Nat) (s : State) : Out :=
  s.spdm fun s =>
    if s.sec.negotiated < 3 then (spdmUnexpected, s)
    else if slot ≠ 0 ∨ certBytes.length < off then (spdmInvalid, s)
    else
      let part := (certBytes.drop off).take len
      (.ok 0x02 (toLe 2 part.length ++ toLe 2 (certBytes.length - off - part.length) ++ part), s)

/-- CHALLENGE: the chain's digest and a fresh nonce, signed with the requester's nonce. -/
def execChallenge (slot : Nat) (nonce : List Byte) (s : State) : Out :=
  s.spdm fun s =>
    if s.sec.negotiated < 3 then (spdmUnexpected, s)
    else if s.lcs = 3 then (spdmUnspecified, s)
    else if slot ≠ 0 then (spdmInvalid, s)
    else
      let d := s.draw 256
      let r := d.2.signed (nonce ++ sha512 certBytes ++ toLe 32 d.1)
      (.ok 0x03 (r.1.drop nonce.length), r.2)

/-- A measurement block in DMTF form (R405). -/
def State.blockBytes (s : State) (i : Nat) : List Byte :=
  toLe 1 i ++ toLe 1 1 ++ toLe 2 67 ++ toLe 1 (Config.blockType i) ++ toLe 2 64 ++ s.measurement i

/-- GET_MEASUREMENTS (R405): index 0 the number of blocks, 1-5 one block, 255 all; with a signature when asked. -/
def execGetMeasurements (index : Nat) (sign : Bool) (nonce : List Byte) (s : State) : Out :=
  s.spdm fun s =>
    if s.sec.negotiated < 3 then (spdmUnexpected, s)
    else if sign && s.lcs == 3 then (spdmUnspecified, s)
    else if 5 < index ∧ index ≠ 255 then (spdmInvalid, s)
    else
      let is := if index = 0 then [] else if index = 255 then [1, 2, 3, 4, 5] else [index]
      let data := toLe 1 (if index = 0 then 5 else is.length) ++ (is.map s.blockBytes).flatten
      if sign then
        let d := s.draw 256
        let r := d.2.signed (nonce ++ data ++ toLe 32 d.1)
        (.ok 0x60 (r.1.drop nonce.length), r.2)
      else (.ok 0x60 data, s)

/-- A session identifier that no session has. -/
def State.newId (s : State) (x : Nat) : Nat := if s.sec.sessions.any fun e => e.id == x then (x + 1) % 2 ^ 16 else x

/-- KEY_EXCHANGE: a session, one of two at most, begins; it is established by FINISH. -/
def execKeyExchange (slot : Nat) (key : List Byte) (s : State) : Out :=
  s.spdm fun s =>
    if s.sec.negotiated < 3 then (spdmUnexpected, s)
    else if s.lcs = 3 then (spdmUnspecified, s)
    else if slot ≠ 0 then (spdmInvalid, s)
    else if 2 ≤ s.sec.sessions.length then (spdmLimit, s)
    else
      let i := s.draw 16
      let k := i.2.draw 1056
      let id := s.newId i.1
      let r := k.2.signed (key ++ toLe 2 id ++ toLe 132 k.1)
      (.ok 0x64 (r.1.drop key.length), { r.2 with sec := { r.2.sec with sessions := r.2.sec.sessions ++ [⟨id, false, 0⟩] } })

/-- The session with an identifier. -/
def State.sessionOf (s : State) (id : Nat) : Option Session := s.sec.sessions.find? fun e => e.id == id

/-- Replace a session, or remove it. -/
def State.setSession (s : State) (id : Nat) (x : Option Session) : State :=
  let l := match x with
    | some y => s.sec.sessions.map fun e => if e.id = id then y else e
    | none => s.sec.sessions.filter fun e => e.id != id
  { s with sec := { s.sec with sessions := l } }

/-- FINISH: the session is established when the requester's verify data checks (`ok`), and is over when it does not. -/
def execFinish (id : Nat) (ok : Bool) (s : State) : Out :=
  s.spdm fun s =>
    match s.sessionOf id with
    | none => (spdmUnexpected, s)
    | some e =>
      if e.established then (spdmUnexpected, s)
      else if ok then (.ok 0x65 [], s.setSession id (some { e with established := true }))
      else (spdmDecrypt, s.setSession id none)

/-- A request inside an established session. -/
def State.inSession (s : State) (id : Nat) (go : Session → State → SpdmRsp × State) : Out :=
  s.spdm fun s =>
    match s.sessionOf id with
    | none => (spdmUnexpected, s)
    | some e => if e.established then go e s else (spdmUnexpected, s)

/-- HEARTBEAT. -/
def execHeartbeat (id : Nat) (s : State) : Out := s.inSession id fun _ s => (.ok 0x68 [], s)

/-- KEY_UPDATE: 1 and 2 update keys, 3 verifies the new key. -/
def execKeyUpdate (id op : Nat) (s : State) : Out :=
  s.inSession id fun e s =>
    if op = 1 ∨ op = 2 then (.ok 0x69 [], s.setSession id (some { e with keys := e.keys + 1 }))
    else if op = 3 then (.ok 0x69 [], s)
    else (spdmInvalid, s)

/-- END_SESSION. -/
def execEndSession (id : Nat) (s : State) : Out := s.inSession id fun _ s => (.ok 0x6C [], s.setSession id none)

/-! ### The TAP (R417, R418) -/

/-- What the TAP shifts out. -/
def State.tdo (s : State) (bs : List Byte) : State := { s with sec := { s.sec with tap := bs } }

/-- The pins are no longer driven by EXTEST. -/
def State.tapIdle (s : State) : State := { s with sec := { s.sec with extest := false } }

/-- TAP_CHALLENGE (R418). -/
def execTapChallenge (s : State) : Out := if s.mailboxUp then .next (s.newNonce.2.tapIdle.tdo s.newNonce.1) else .next s

/-- TAP_UNLOCK (R418): the status is shifted out, and a refusal raises its event. -/
def execTapUnlock (level : Nat) (token : List Byte) (s : State) : Out :=
  if s.mailboxUp then
    let r := s.unlock 1 level token
    .next ((r.2.event r.1 0 0 0).tapIdle.tdo (toLe 2 r.1))
  else .next s

/-- TAP_END (R418): the session ends, whichever path opened it. -/
def execTapEnd (s : State) : Out := .next (s.endSession.tapIdle.tdo [])

/-- IDCODE: always available. -/
def execIdcode (s : State) : Out := .next (s.tapIdle.tdo (toLe 4 Config.idcode.toNat))

/-- BYPASS: always available; what is shifted in comes out one bit later, the first bit a 0. -/
def execBypass (tdi : List Byte) (s : State) : Out := .next (s.tapIdle.tdo (toLe tdi.length (2 * leNat tdi)))

/-- SAMPLE_PRELOAD: offered at NONINVASIVE and above; the pins are captured and the cells preloaded. -/
def execSamplePreload (pins preload : List Byte) (s : State) : Out :=
  if 1 ≤ s.level then .next { (s.tapIdle.tdo pins) with sec := { (s.tapIdle.tdo pins).sec with cells := preload } } else .next s

/-- EXTEST: offered at INVASIVE; the pins are captured and driven from the cells, which take what is shifted in. (DEDUCED: log 86) -/
def execExtest (pins next_ : List Byte) (s : State) : Out :=
  if s.level = 2 then .next { (s.tdo pins) with sec := { (s.tdo pins).sec with cells := next_, extest := true } } else .next s

end Sys2Proof.Machine
end

