-- ==== Sys2Proof/Machine/Recorder.lean ====
section
/-! DEFINITION. The commands of the Rain gauge (R364, R368-R373). -/

namespace Sys2Proof.Machine

/-- The source a channel's sample names (R366, R339): kind and index. -/
def chanSource (ch : Nat) : Nat × Nat :=
  if ch < 8 then (1, ch) else if 9 ≤ ch ∧ ch ≤ 16 then (1, ch - 9) else if 17 ≤ ch ∧ ch ≤ 32 then (4, ch - 17)
  else if 33 ≤ ch ∧ ch ≤ 36 then (5, ch - 33) else (0, 0)

/-- Channels whose samples come from sensors and counters outside the other commands. -/
def chanTimed (ch : Nat) : Bool := decide (ch ≤ 36) || (decide (48 ≤ ch) && decide (ch ≤ 50))

/-- RGA_SAMPLE (R364-R366): a timed sample, as FP32. (DEDUCED: log 72) -/
def execRgaSample (ch x : Nat) (s : State) : Out :=
  if chanTimed ch ∧ s.rst.ready then .next (s.sample ch x (chanSource ch).1 (chanSource ch).2) else .next s

/-- WINDOW_CLOSE (R368): the hourly schedule, when RGA_CFG.HOURLY is 1. -/
def execWindowClose (s : State) : Out :=
  if s.rst.ready ∧ s.hf .RGA_CFG 0 0 1 = 1 ∧ s.gauge.due ≤ s.sundial then
    let t := s.closeWindow 0
    .next { t with gauge := { t.gauge with due := s.gauge.due + 900000000000 } }
  else .next s

/-- SHEET_WRITE (R370): the sheet being written is complete, the one that waits begins, and the endpoint's copy of the summary is refreshed (R428). -/
def execSheetWrite (s : State) : Out :=
  if s.rst.ready ∧ s.gauge.writing.isSome then
    let g := s.gauge.finishWrite
    .next { s with gauge := g, fac := { s.fac with summary := g.summary } }
  else .next s

/-- Page `p` of the clear log: 128 records, zeros where none has been written. -/
def Gauge.clearPage (g : Gauge) (p : Nat) : List Byte :=
  let bs := ((g.clearLog.drop (128 * p)).take 128).flatten
  bs ++ List.replicate (8192 - bs.length) 0#8

/-- RGA_READ (R372). -/
def execRgaRead (s : State) : Out :=
  s.long 0xD060 (fun c _ =>
      let first := c.field 0 2
      let n := c.field 2 2
      let page := decide (0x8000 ≤ first) && decide (first < 0x8008)
      refuseIf (n == 0 || decide (8192 < n) || (if page then n != 1 else decide (8191 < first))) St.INVALID_PAYLOAD)
    fun c n s =>
      let first := c.field 0 2
      let k := c.field 2 2
      let data := if 0x8000 ≤ first then s.gauge.clearPage (first - 0x8000)
        else ((List.range k).map fun i => s.gauge.readSlot (first + i)).flatten
      (s.wrS (c.field 4 8) data).finish n c (c.field 12 8) St.OK (8192 * k)

/-- RGA_FLUSH (R372). -/
def execRgaFlush (s : State) : Out := s.guarded 0xD061 (fun _ => true) fun c s => (s.closeWindow 1).reply c St.OK []

/-- The first 60 bytes of a clear record (R373). -/
def State.clearRecord (s : State) (token : List Byte) : List Byte :=
  toLe 1 6 ++ toLe 1 0 ++ toLe 2 s.gauge.clearLog.length ++ toLe 8 s.gauge.seq ++ toLe 8 s.sundial ++ toLe 8 s.stepNo
    ++ (sha512 token).take 32

/-- The clear (R373): record, floor, a new window, RGA_CLEARED, and the copy among the notable records. -/
def State.clearGauge (s : State) (token : List Byte) : State :=
  let r := s.clearRecord token
  let g := s.gauge
  let g := { g with clearLog := g.clearLog ++ [Sys2Proof.Machine.record r], floor := g.seq, win := Window.new s.sundial s.stepNo false 0 s.binSettings }
  ({ s with gauge := g }.event St.RGA_CLEARED 0 0 0).notable r

/-- RGA_CLEAR (R373, R411, R415). -/
def execRgaClear (s : State) : Out :=
  s.guarded 0xD062 (fun _ => true) fun c s =>
    if c.body.isEmpty then s.reply c St.ROLE_DENIED []
    else if s.lcs ≠ 1 then s.reply c St.LIFECYCLE_DENIED []
    else
      match s.verify 6 c.body with
      | (some st, t) => t.reply c st []
      | (none, t) =>
        if 1024 ≤ t.gauge.clearLog.length then t.reply c St.RESOURCE_BUSY [] else (t.clearGauge c.body).reply c St.OK []

end Sys2Proof.Machine
end

