-- ==== Sys2Proof/Machine/Facility.lean ====
section
/-! DEFINITION. The facility side (R425-R431): the crossing messages, the discrete inputs, and the emergency reset. -/

namespace Sys2Proof.Machine

/-- The endpoint answers while the 48 V input is present (R425). -/
def State.facUp (s : State) : Bool := !s.rst.asserted.contains 0

/-- FAC_ALERT is asserted while FAC_STAT bit 1, 2, 4 or 5 is set (R428). -/
def State.alerting (s : State) : Bool := s.facUp && (s.hf .FAC_STAT 0 1 2 != 0 || s.hf .FAC_STAT 0 4 2 != 0)

/-- What the endpoint answers; none where it does not acknowledge. -/
def State.answerFac (s : State) (r : Option (List Byte)) : State := { s with fac := { s.fac with reply := r } }

/-- A message reaches the endpoint; without 48 V it does not acknowledge its address. -/
def State.message (s : State) (go : State → State) : Out := if s.facUp then .next (go s) else .next (s.answerFac none)

/-- Not acknowledged at its data byte, with CML set (R427). -/
def State.cml (s : State) : State := (s.setHf .FAC_STAT 0 3 1 1).answerFac none

/-- Read a word coded in LINEAR11 from sensor `i` (R401); `on` says whether its domain is powered. (DESIGN CHOICE: log 80) -/
def State.readSensor (s : State) (i : Nat) (on : Bool) : State :=
  if on then s.sensed.answerFac (some (toLe 2 (Config.linear11 (Config.sensor s.fresh i)))) else s.answerFac (some (toLe 2 0))

/-- Every domain but H_AON is off (R391). -/
def State.off (s : State) : Bool := s.powerState == 4

/-- CLEAR_FAULTS (R427, R428): the latched bits are cleared; a condition still present sets its bit again. -/
def execClearFaults (pec : Bool) (s : State) : Out :=
  s.message fun s =>
    if pec = false then s.cml
    else
      let v := 2 * b2n s.rst.refLost + 4 * b2n s.pwr.coolForce + 16 * s.hf .FAC_STAT 0 8 1
      (s.setHf .FAC_STAT 0 1 5 (v / 2)).answerFac (some [])

/-- CAPABILITY. -/
def execCapability (s : State) : Out := s.message fun s => s.answerFac (some [0xB0])

/-- Any die's level field at bit `lo` of PWR_THR is above 0. -/
def State.anyLevel (s : State) (lo : Nat) : Bool := (List.range 8).any fun d => s.hf .PWR_THR d lo 4 != 0

/-- STATUS_WORD's bits (R428); `uv`: the input is below 40 V. -/
def State.statusWord (s : State) (uv : Bool) : Nat :=
  2 * s.hf .FAC_STAT 0 3 1 + 4 * b2n (s.anyLevel 4) + 8 * b2n uv + 64 * b2n (s.off || s.hf .FAC_STAT 0 8 1 == 1) + 2048 * b2n (!s.rst.compute)
    + 4096 * b2n (s.hf .FAC_STAT 0 1 2 != 0 || s.hf .FAC_STAT 0 4 1 == 1) + 16384 * b2n (s.anyLevel 0)

/-- STATUS_WORD. -/
def execStatusWord (uv : Bool) (s : State) : Out := s.message fun s => s.answerFac (some (toLe 2 (s.statusWord uv)))

/-- READ_VIN: measured by the endpoint itself. -/
def execReadVin (s : State) : Out := s.message fun s => s.readSensor 25 true

/-- READ_IIN. -/
def execReadIin (s : State) : Out := s.message fun s => s.readSensor 26 true

/-- READ_PIN. -/
def execReadPin (s : State) : Out := s.message fun s => s.readSensor 27 true

/-- READ_TEMPERATURE_1: coolant inlet. -/
def execReadTemperature1 (s : State) : Out := s.message fun s => s.readSensor 28 (!s.off)

/-- READ_TEMPERATURE_2: the highest junction temperature, sensor 56 of the model. -/
def execReadTemperature2 (s : State) : Out := s.message fun s => s.readSensor 56 (!s.off)

/-- READ_TEMPERATURE_3: coolant outlet. -/
def execReadTemperature3 (s : State) : Out := s.message fun s => s.readSensor 29 (!s.off)

/-- MFR_SERIAL. -/
def execMfrSerial (s : State) : Out := s.message fun s => s.answerFac (some (toLe 8 s.serial))

/-- MFR_COOLANT_FLOW. -/
def execMfrCoolantFlow (s : State) : Out := s.message fun s => s.readSensor 30 (!s.off)

/-- MFR_POWER_CAP (R428): a read, or a write that goes straight into PWR_CAP, held through a clock loss. -/
def execMfrPowerCap (w : Option Nat) (pec : Bool) (s : State) : Out :=
  s.message fun s =>
    match w with
    | none => s.answerFac (some (toLe 2 (s.hf .PWR_CAP 0 0 14)))
    | some w =>
      if pec = false ∨ w < 1200 ∨ 13500 < w then s.cml
      else if s.rst.refLost then { s with fac := { s.fac with held := some w, reply := some [] } }
      else ({ s with fac := { s.fac with held := none } }.rwpHf .PWR_CAP 0 0 14 w).answerFac (some [])

/-- FAC_CAP_HELD_APPLY (R428): a cap held through a clock loss is written once the clock is back. -/
def execFacCapHeldApply (s : State) : Out :=
  match s.fac.held with
  | some w => if s.rst.refLost then .next s else .next ({ s with fac := { s.fac with held := none } }.rwpHf .PWR_CAP 0 0 14 w)
  | none => .next s

/-- MFR_POWER_STATE. -/
def execMfrPowerState (s : State) : Out := s.message fun s => s.answerFac (some (toLe 1 s.powerState))

/-- MFR_IDENTIFY: a read, or a write of 0 or 1. (DEDUCED: log 81) -/
def execMfrIdentify (v : Option Nat) (s : State) : Out :=
  s.message fun s =>
    match v with
    | none => s.answerFac (some (toLe 1 (b2n s.fac.identify)))
    | some v => if 1 < v then s.cml else { s with fac := { s.fac with identify := v == 1, reply := some [] } }

/-! ### The emergency reset (R431) -/

/-- Disarm. -/
def State.disarm (s : State) : State := { s with fac := { s.fac with armed := none } }.setHf .FAC_STAT 0 6 1 0

/-- Ticks of 100 ms. -/
def armTicks : Nat := 25000000

/-- MFR_EMERG_ARM. -/
def execMfrEmergArm (v : Nat) (pec : Bool) (s : State) : Out :=
  s.message fun s =>
    if pec = false then s.cml
    else if v = 0xA5 then ({ s with fac := { s.fac with armed := some s.sundial } }.setHf .FAC_STAT 0 6 1 1).answerFac (some [])
    else s.disarm.cml

/-- The emergency reset is armed. -/
def State.isArmed (s : State) : Bool :=
  match s.fac.armed with
  | some t => decide (s.sundial < t + armTicks)
  | none => false

/-- MFR_EMERG_RESET: source 7, WARM; a fire during a reference-clock loss is lost. -/
def execMfrEmergReset (v : Nat) (pec : Bool) (s : State) : Out :=
  s.message fun s =>
    if pec = false then s.cml
    else if v = 0x5A ∧ s.isArmed then
      let t := s.disarm.answerFac (some [])
      if s.rst.refLost then t else (t.setHf .FAC_STAT 0 4 1 1).request 7 4 [] [] [] []
    else s.disarm.cml

/-- EMERG_ARM_EXPIRE. -/
def execEmergArmExpire (s : State) : Out :=
  match s.fac.armed with
  | some t => if t + armTicks ≤ s.sundial then .next s.disarm else .next s
  | none => .next s

/-- MFR_RGA_SUMMARY: the endpoint's own copy. -/
def execMfrRgaSummary (s : State) : Out := s.message fun s => s.answerFac (some s.fac.summary)

/-- ALERT_RESPONSE: the endpoint's address, while FAC_ALERT is asserted. -/
def execAlertResponse (s : State) : Out :=
  if s.alerting then .next (s.answerFac (some (toLe 1 (0x40 + s.hf .FAC_STAT 0 9 3)))) else .next (s.answerFac none)

/-- The command codes of R427, and those whose writes require PEC. -/
def pmbusCodes : List Nat := [0x03, 0x19, 0x79, 0x88, 0x89, 0x97, 0x8D, 0x8E, 0x8F, 0x9E, 0xD0, 0xD1, 0xD2, 0xD3, 0xD4, 0xD5, 0xD6]
def pmbusPec : List Nat := [0x03, 0xD1, 0xD4, 0xD5]

/-- PMBUS_UNSUPPORTED_CODE (R427): any other code, or a write that requires PEC and has none that is right. -/
def execPmbusUnsupportedCode (code : Nat) (badPec : Bool) (s : State) : Out :=
  s.message fun s => if !pmbusCodes.contains code || (badPec && pmbusPec.contains code) then s.cml else s

/-! ### Discrete inputs (R426, R429, R430) -/

/-- FAC_EMERG_OFF_ASSERT (R429): everything but H_AON is off, and source 7 is held asserted with WARM reach. -/
def execFacEmergOffAssert (s : State) : Out :=
  if s.facUp ∧ s.hf .FAC_STAT 0 8 1 = 0 then
    .next (((s.enterOff.setHf .FAC_STAT 0 8 1 1).setHf .FAC_STAT 0 4 1 1).hold_ 7 |>.request 7 4 [] [] [] [])
  else .next s

/-- FAC_EMERG_OFF_DEASSERT (R429): source 7 deasserts; WARM release follows. -/
def execFacEmergOffDeassert (s : State) : Out :=
  if s.hf .FAC_STAT 0 8 1 = 1 then .next ((s.setHf .FAC_STAT 0 8 1 0).drop_ 7) else .next s

/-- Every die's level in force follows. -/
def State.levelsEff (s : State) : State := (List.range 8).foldl (fun (t : State) d => t.levelEff d) s

/-- COOLANT_FAULT (R430): FAC_COOLANT_OK deasserts. -/
def execCoolantFault (s : State) : Out :=
  if s.facUp ∧ s.hf .FAC_STAT 0 7 1 = 1 then
    let s := { s with pwr := { s.pwr with coolForce := true }, fac := { s.fac with coolTick := some s.sundial } }.levelsEff
    .next (((s.setHf .FAC_STAT 0 7 1 0).setHf .FAC_STAT 0 2 1 1).event St.COOLANT_FAULT 0 0 0)
  else .next s

/-- COOLANT_GRACE_EXPIRE (R430): CGRACE seconds after the fault, with the input still deasserted: DARK when COOLACT is 1. -/
def execCoolantGraceExpire (s : State) : Out :=
  match s.fac.coolTick with
  | some t =>
    if t + 250000000 * s.hf .FAC_CFG 0 0 8 ≤ s.sundial then
      let s := { s with fac := { s.fac with coolTick := none } }
      if s.hf .FAC_CFG 0 8 1 = 1 then .next s.goDark else .next s
    else .next s
  | none => .next s

/-- COOLANT_RESTORED (R430): the input reasserts, and the forced level is removed. -/
def execCoolantRestored (s : State) : Out :=
  if s.facUp ∧ s.hf .FAC_STAT 0 7 1 = 0 then
    .next ({ s with pwr := { s.pwr with coolForce := false }, fac := { s.fac with coolTick := none } }.levelsEff.setHf .FAC_STAT 0 7 1 1)
  else .next s

end Sys2Proof.Machine
end

