-- ==== Sys2Proof/Machine/Regio.lean ====
section
/-! DEFINITION. Registers as agents see and write them (R11-R14, R138, R320-R324, R441, R442): where an address leads, what a read returns and does,
and what a write does. -/

namespace Sys2Proof.Machine

/-! ### Where an address leads -/

/-- BAR2 offset `x` with the pages in force (R321, R323). -/
def State.resolve (s : State) (x : Nat) : RegPlace :=
  let kp := rf s.mbx .MBX_KPAGE 0 0 5
  let cp := rf s.mbx .MBX_CPAGE 0 0 5
  if x < 0xF000 then .hub x
  else if 0x10000 ≤ x ∧ x < 0x20000 then .front (x - 0x10000)
  else if 0x20000 ≤ x ∧ x < 0x28000 then .grafter ((x - 0x20000) / 0x1000) (x % 0x1000)
  else if 0x1000000 ≤ x ∧ x < 0x3000000 then
    if kp ≤ 19 then .cluster (256 * kp + (x - 0x1000000) / 0x20000) (x % 0x20000) else .unmapped
  else if 0x8000000 ≤ x ∧ x < 0x10000000 then
    if cp ≤ 9 then .core (32768 * cp + (x - 0x8000000) / 0x1000) (x % 0x1000) else .unmapped
  else .unmapped

/-- A CSP address that names a register (R138). -/
def cspPlace (ci a : Nat) : RegPlace :=
  if 0x30000000 ≤ a ∧ a < 0x30400000 ∧ 0x4000 ≤ a % 0x10000 ∧ a % 0x10000 < 0x5000 then .core (coreOf ci ((a - 0x30000000) / 0x10000)) (a % 0x1000)
  else if 0x40000000 ≤ a ∧ a < 0x40001000 then .cluster ci (a - 0x40000000)
  else if 0x50000000 ≤ a ∧ a < 0x50001000 then .grafter (dieOf ci) (a - 0x50000000)
  else .unmapped

/-- Whether a place holds a register or CSP memory (R138, R322); BAR0 and the Grafter window read zero elsewhere. -/
def RegPlace.mapped : RegPlace → Bool
  | .hub off => (regAt .hub off).isSome
  | .front _ => true
  | .grafter k _ => decide (k < 8)
  | .cluster ci off => decide (ci < nClusters) && (decide (0x8000 ≤ off) || (regAt .cluster off).isSome)
  | .core gi off => decide (gi < nCores) && (decide (off < 0x800) || (regAt .core off).isSome)
  | .bar0 _ => true
  | .unmapped => false

/-- CSP memory is memory, not registers (R442). -/
def RegPlace.isMem : RegPlace → Bool
  | .cluster _ off => decide (0x8000 ≤ off)
  | _ => false

/-- The block lies in a powered-off domain (R324, R391): dies from NAP down, H_FABRIC and the HBM controllers in DARK and OFF. -/
def State.dark (s : State) (p : RegPlace) : Bool :=
  match p with
  | .hub off => decide (3 ≤ s.powerState) && (match regAt .hub off with | some (r, _) => decide (r.info.reach ≤ 3) | none => false)
  | .front _ => decide (3 ≤ s.powerState)
  | .grafter _ _ => s.diesOff
  | .cluster _ _ => s.diesOff
  | .core _ _ => s.diesOff
  | _ => false

/-! ### Reads -/

/-- An agent's number among the latches of R441. -/
def agentNo : Agent → Nat
  | .host => 0
  | .shed => 1
  | .csp ci => 2 + ci

/-- Read a half of a latching pair of value `v` (R441): LO fills the agent's latch, HI returns it. -/
def State.readPair (s : State) (who : Agent) (pair v : Nat) (hi : Bool) : Nat × State :=
  let k := 16 * agentNo who + pair
  if hi then (Sparse.get (fun _ => 0) s.host.latch k, s)
  else (v % 2 ^ 32, { s with host := { s.host with latch := Sparse.set (fun _ => 0) s.host.latch k (v / 2 ^ 32 % 2 ^ 32) } })

/-- Bit `b` of a word follows a condition. -/
def flagAt (v b : Nat) (x : Bool) : Nat := putBits v b 1 (b2n x)

/-- What a hub register returns, its latching pairs and the Cold frame apart: fields that follow other state. -/
def State.viewHub (s : State) (r : Reg) (i : Nat) : Nat :=
  let v := readView r (s.h r i)
  match r with
  | .STEP_STAT => flagAt v 2 (s.hf .STEP_CFG 0 1 1 != s.hf .STEP_CFG 0 2 1)
  | .LNK_GRID => flagAt (putBits v 23 6 s.rank) 29 s.myRank.isSome
  | .RGA_STAT =>
    flagAt (flagAt (putBits (putBits v 2 3 s.gauge.win.notable.length) 8 11 s.gauge.clearLog.length) 0 s.gauge.writing.isSome) 1 s.gauge.queued.isSome
  | .CLK_STAT => putBits v 22 8 (((List.range 8).map fun d => s.hf .PWR_MPLAN d 4 1 * 2 ^ d).foldl (· + ·) 0)
  | .PWR_WEAR =>
    match s.pwr.wsel with
    | some k => min (s.wearOf k) 1000000 + 2 ^ 20 * b2n (s.frozen k) + 2 ^ 21
    | none => 0
  | .SEC_STAT => putBits (putBits v 0 2 s.lcs) 3 7 s.sec.svn
  | .SEC_SKEY => if s.lcs = 0 then v else leNat ((s.sec.skey.drop (4 * i)).take 4)
  | .FAC_STAT => flagAt v 0 s.alerting
  | _ => v

/-- The Cold frame index advances, wrapping (R388). -/
def State.coldNext (s : State) : State := s.setHf .RST_CFIDX 0 0 8 ((s.hf .RST_CFIDX 0 0 8 + 1) % 256)

/-- The word at RST_CFIDX, and the access's effect. -/
def State.coldRead (s : State) : Nat × State := (Sparse.get (fun _ => 0) s.rst.cold (s.hf .RST_CFIDX 0 0 8), s.coldNext)
def State.coldWrite (s : State) (v : Nat) : State :=
  { s with rst := { s.rst with cold := Sparse.set (fun _ => 0) s.rst.cold (s.hf .RST_CFIDX 0 0 8) (v % 2 ^ 32) } }.coldNext

/-- Read a hub register, with its side effects. -/
def State.readHub (s : State) (who : Agent) (r : Reg) (i : Nat) : Nat × State :=
  match r with
  | .UPD_STEPLO => s.readPair who 0 s.stepNo false
  | .UPD_STEPHI => s.readPair who 0 s.stepNo true
  | .SDL_CNTLO => s.readPair who 1 s.sundial false
  | .SDL_CNTHI => s.readPair who 1 s.sundial true
  | .RGA_SEQLO => s.readPair who 2 s.gauge.seq false
  | .RGA_SEQHI => s.readPair who 2 s.gauge.seq true
  | .RGA_FLOORLO => s.readPair who 3 s.gauge.floor false
  | .RGA_FLOORHI => s.readPair who 3 s.gauge.floor true
  | .RST_GRTICKLO => s.readPair who 4 (s.h .RST_GRTICKLO + 2 ^ 32 * s.h .RST_GRTICKHI) false
  | .RST_GRTICKHI => s.readPair who 4 (s.h .RST_GRTICKLO + 2 ^ 32 * s.h .RST_GRTICKHI) true
  | .RST_CFDATA => s.coldRead
  | r => (s.viewHub r i, if r.hasRc then s.setH r i (readClear r (s.h r i)) else s)

/-- GRF_SLOT (R213): the job a slot holds. -/
def slotView (j : Option GJob) : Nat :=
  match j with
  | some j => j.phase % 8 + 2 ^ 3 * (j.iter % 64) + 2 ^ 9 * gType j.desc + 2 ^ 13 * (j.rank % 4) + 2 ^ 15 * b2n j.cold + 2 ^ 16 * bits j.desc 416 16
  | none => 0x6000

/-- Grafter `k`'s Sundial copy. -/
def State.grfClock (s : State) (k : Nat) : Nat := unsigned 64 ((s.sundial : Int) + (s.grafter k).skew)

/-- Read Grafter `k`'s window. -/
def State.readGrafter (s : State) (who : Agent) (k off : Nat) : Nat × State :=
  let g := s.grafter k
  match regAt .grafter off with
  | none => (0, s)
  | some (r, i) =>
    match r with
    | .GRF_QSTAT => (g.queue.length, s)
    | .GRF_SLOT => (slotView (g.slots.getD i none), s)
    | .GRF_RGN => (flagAt (rg g.regs .GRF_RGN i) 22 (bit (g.rgn.getD i 0) 21), s)
    | .GRF_SDLLO => s.readPair who (5 + k) (s.grfClock k) false
    | .GRF_SDLHI => s.readPair who (5 + k) (s.grfClock k) true
    | r => (readView r (rg g.regs r i), if r.hasRc then s.setGrafter k { g with regs := sg g.regs r i (readClear r (rg g.regs r i)) } else s)

/-- The key of a byte of CSP memory at a cluster-slot offset: instructions from 0, data from 0x1_0000. -/
def cspKey (off : Nat) : Nat := if off < 0x10000 then off - 0x8000 else off

/-- Bytes of CSP memory. -/
def Cluster.cspRead (c : Cluster) (key n : Nat) : Nat := leNat ((List.range n).map fun j => Sparse.get (fun _ => (0 : Byte)) c.csp (key + j))
def Cluster.cspWrite (c : Cluster) (key : Nat) (bs : List Byte) : Cluster := { c with csp := Sparse.setRun (fun _ => (0 : Byte)) c.csp key bs }

/-- Read a cluster's block. -/
def State.readCluster (s : State) (ci off : Nat) : Nat × State :=
  let c := s.cluster ci
  if 0x8000 ≤ off then (c.cspRead (cspKey (off / 4 * 4)) 4, s)
  else
    match regAt .cluster off with
    | none => (0, s)
    | some (r, i) =>
      (readView r (rg c.regs r i), if r.hasRc then s.setCluster ci { c with regs := sg c.regs r i (readClear r (rg c.regs r i)) } else s)

/-- A response slot's header (R330), and the REPEAT mark its first whole view leaves. -/
def State.readShdr (s : State) (i : Nat) : Nat × State :=
  let k := i / 2
  let x := s.slot k
  if i % 2 = 0 then (if x.state = 0 then 0 else x.tag % 2 ^ 16 + 2 ^ 16 * (x.status % 2 ^ 16), s)
  else if x.state = 2 then (x.data.length % 2 ^ 13 + 2 ^ 29 * b2n x.again + 2 ^ 31, s.setSlot k { x with again := true })
  else (0, s)

/-- A ticket's word (R331). -/
def State.readTkt (s : State) (i : Nat) : Nat :=
  let t := s.ticket (i / 2)
  if t.active = false then 0
  else if i % 2 = 0 then t.tag % 2 ^ 16 + 2 ^ 16 * (t.status % 2 ^ 16)
  else t.progress % 256 + 2 ^ 8 * (t.opcode % 2 ^ 16) + 2 ^ 30 + 2 ^ 31 * b2n t.done

/-- Read BAR0 (R320): the CXL register blocks, whose layout the spec leaves to CXL, the MBX_ registers, the mailbox payload, and the payload of a
VALID slot. (DESIGN CHOICE: log 100) -/
def State.readBar0 (s : State) (off : Nat) : Nat × State :=
  if 0x8000 ≤ off then
    let x := s.slot ((off - 0x8000) / 0x1000)
    (if x.state = 2 ∧ off < 0x10000 then leNat ((x.data.drop (off % 0x1000 / 4 * 4)).take 4) else 0, s)
  else if 0x1000 ≤ off ∧ off < 0x3000 then (Config.cxlReg (off / 4 * 4) % 2 ^ 32, s)
  else if 0x4000 ≤ off then (if off < 0x6000 then leNat ((s.mb.out.drop (off % 0x2000 / 4 * 4)).take 4) else 0, s)
  else
    match regAt .mailbox off with
    | some (.MBX_SHDR, i) => s.readShdr i
    | some (.MBX_TKT, i) => (s.readTkt i, s)
    | some (r, i) => (readView r (rg s.mbx r i), s)
    | none => (0, s)

/-- A word of the front tables (R173, R321). -/
def State.readFront (s : State) (off : Nat) : Nat := bits (Sparse.get (fun _ => 0) s.frontTab (off / 16)) (8 * (off % 16 / 4 * 4)) 32

/-- Read a place. -/
def State.readPlace (s : State) (who : Agent) (p : RegPlace) : Nat × State :=
  match p with
  | .hub off =>
    match regAt .hub off with
    | some (r, i) => s.readHub who r i
    | none => (0, s)
  | .front off => (s.readFront off, s)
  | .grafter k off => s.readGrafter who k off
  | .cluster ci off => s.readCluster ci off
  | .core gi off => s.readCoreReg gi off
  | .bar0 off => s.readBar0 off
  | .unmapped => (0, s)

/-! ### Writes -/

/-- A negative FP32 value or a NaN. -/
def badThreshold (x : Nat) : Bool := decide (2 ^ 31 < x) || (decide (0x7F800000 < x) && decide (x < 2 ^ 31))

/-- The reserved encodings of hub registers (R12). (DEDUCED: log 62) -/
def hubReserved (r : Reg) : List (Nat × Nat × (Nat → Bool)) :=
  match r with
  | .STEP_BLK => [(0, 11, fun x => decide (1024 < x))]
  | .TRL_QCFG => [(0, 16, fun x => x == 0)]
  | .TRL_SCRUB => [(0, 8, fun x => x == 0)]
  | .LNK_TRANSIT => [(0, 6, fun x => decide (50 < x))]
  | .PWR_MPLAN => [(0, 4, fun x => decide (12 < x))]
  | .PWR_CAP => [(0, 14, fun x => decide (x < 1200) || decide (13500 < x))]
  | .RST_WDOG => [(0, 16, fun x => x == 0)]
  | .DBG_TRSEL => [(0, 13, fun x => decide (5119 < x))]
  | .FAC_CFG => [(0, 8, fun x => x == 0)]
  | .SIV_CEIL => [(0, 32, badThreshold)]
  | .SIV_CLIPN => [(0, 32, badThreshold)]
  | .SIV_SPIKE => [(0, 32, badThreshold)]
  | _ => []

/-- Registers that only change while no job runs (R240, R274, R308, R310, R347, R411). -/
def jobLocked : List Reg :=
  [.UPD_STEPLO, .UPD_STEPHI, .UPD_TCNT, .UPD_JBASE, .UPD_STBASE, .UPD_STCNT, .UPD_MODE, .LNK_COORD, .LNK_JOBTAG, .PWR_MPLAN, .SEC_GKEY]

/-- A write is refused: while a job runs, while a snapshot is armed or open, outside BLANK, or always. -/
def State.locked (s : State) (r : Reg) : Bool :=
  (s.step.job && jobLocked.contains r)
    || ((r == .HRV_STAGE || r == .HRV_RSV) && decide (1 ≤ s.hrv) && decide (s.hrv ≤ 3))
    || (r == .SEC_SKEY && s.lcs != 0) || r == .SEC_LCDBG

/-- A grid that LNK_GRID may hold. -/
def gridOk (v : Nat) : Bool := decide (1 ≤ bits v 0 7 * bits v 7 7) && decide (bits v 0 7 * bits v 7 7 ≤ 64)

/-- The key of the RWP register at a BAR2 offset, with the pages in force (R323). -/
def State.wearKey (s : State) (x : Nat) : Option Nat :=
  match s.resolve x with
  | .hub off =>
    match regAt .hub off with
    | some (r, i) => if r.hasRwp then some (hubKey r i) else none
    | none => none
  | .cluster ci off =>
    match regAt .cluster off with
    | some (r, _) => if r.hasRwp ∧ off < 0x8000 then some (cluKey ci r 0) else none
    | none => none
  | _ => none

/-- Write a hub register whole. -/
def State.writeHub (s : State) (r : Reg) (i v : Nat) : State :=
  let old := s.h r i
  let v := keepReserved old v (hubReserved r)
  if s.locked r then s
  else
    match r with
    | .STEP_GDONE => s.gradNotice (v % 4096)
    | .UPD_DDONE => s.dirNotice (v % 4096)
    | .SIV_STAT =>
      let s := if bit v 5 then { s with sieve := { s.sieve with clear := true } } else s
      if bit v 6 ∧ s.hf .SIV_STAT 0 4 1 = 1 then (s.setHf .SIV_STAT 0 4 1 0).setHf .SIV_STAT 0 8 8 0 else s
    | .RST_WDOG =>
      let s := s.setHf .RST_WDOG 0 0 16 (v % 2 ^ 16)
      if bit v 16 then { s with rst := { s.rst with kick := s.sundial } } else s
    | .SEC_PROV => if bit v 0 then s.provision else s
    | .RST_CFDATA => s.coldWrite v
    | .PWR_RAILEV => s.rwpHf .PWR_RAILEV 0 3 1 (b2n (bit v 3))
    | .LNK_GRID => if gridOk v then s.rwpH r i v else s
    | .PWR_WSEL => { s.setH r i (writeMerge r old v) with pwr := { s.pwr with wsel := s.wearKey (v % 2 ^ 28) } }
    | r => if r.hasRwp then s.rwpH r i v else s.setH r i (writeMerge r old v)

/-- Write Grafter `k`'s window. -/
def State.writeGrafter (s : State) (who : Agent) (k off v : Nat) : State :=
  match regAt .grafter off with
  | some (.GRF_SUBLO, _) => s.subLo who k v
  | some (.GRF_SUBHI, _) => s.submit who k v
  | some (.GRF_ABORT, _) => s.grfAbort k v
  | some (.GRF_RGN, i) =>
    let g := s.grafter k
    let new := writeMerge .GRF_RGN (rg g.regs .GRF_RGN i) v
    if rgnLegal new (g.otherRgns i) then s.setGrafter k { g with regs := sg g.regs .GRF_RGN i new } else s
  | _ => s

/-- The DPA of an offset in a cluster's slot, as the host reaches it. -/
def cluDpa (ci off : Nat) : Nat := 0x030001000000 + 0x20000 * (ci % 256) + off

/-- The bytes of a word that the enables name. -/
def enabled (be v : Nat) (old : List Byte) : List Byte := old.mapIdx fun j b => if bit be j then BitVec.ofNat 8 (v / 256 ^ j) else b

/-- Write a cluster's block. A write to CSP memory while the CSP runs is refused (R324); a region cluster's CSP does not write CLU_LSEL (R213). -/
def State.writeCluster (s : State) (who : Agent) (ci off v be : Nat) : State :=
  let c := s.cluster ci
  if 0x8000 ≤ off then
    if rf c.regs .CSP_CTL 0 0 1 = 1 then s.rwErr (cluDpa ci off) 2 true
    else
      let k := cspKey (off / 4 * 4)
      s.setCluster ci (c.cspWrite k (enabled be v (toLe 4 (c.cspRead k 4))))
  else
    match regAt .cluster off with
    | none => s
    | some (.CLU_LSEL, _) =>
      if who = .csp ci ∧ s.inRegion ci then s
      else (coresOf ci).foldl (fun s gi => s.modCore gi fun c => { c with regs := sf c.regs .CORE_LSEL 0 0 2 (v % 4) }) s
    | some (.CLU_FRONTGO, _) => s.frontGo who ci (bits v 8 4) (bits v 0 8)
    | some (.CLU_SPMAP, _) => s.rwpC ci .CLU_SPMAP v
    | some (r, i) => s.setCluster ci { c with regs := sg c.regs r i (writeMerge r (rg c.regs r i) v) }

/-- Write a core's slot; a region's core windows take no write of their CSP (R213). -/
def State.writeCore (s : State) (who : Agent) (gi off v : Nat) : State :=
  if who = .csp (coreCi gi) ∧ s.inRegion (coreCi gi) then s else s.writeCoreReg gi off v

/-- Write BAR0. -/
def State.writeBar0 (s : State) (off v : Nat) : State :=
  match regAt .mailbox off with
  | some (.MBX_SACK, _) =>
    (List.range 8).foldl (fun (t : State) k => if bit v k ∧ (t.slot k).state = 2 then t.setSlot k Slot.init else t) s
  | some (.MBX_TKTACK, _) =>
    (List.range 8).foldl (fun (t : State) n => if bit v n ∧ (t.ticket n).active ∧ (t.ticket n).done then t.setTicket n Ticket.init else t) s
  | some (r, i) => { s with mbx := sg s.mbx r i (writeMerge r (rg s.mbx r i) v) }
  | none => s

/-- Write a word of the front tables: its reserved bits read zero. -/
def State.writeFront (s : State) (off v : Nat) : State :=
  let e := Sparse.get (fun _ => 0) s.frontTab (off / 16)
  { s with frontTab := Sparse.set (fun _ => 0) s.frontTab (off / 16) (putBits e (8 * (off % 16 / 4 * 4)) 32 v % 2 ^ 86) }

/-- Write a place: registers whole, CSP memory by byte enables. -/
def State.writePlace (s : State) (who : Agent) (p : RegPlace) (v be : Nat) : State :=
  if p.isMem = false ∧ be ≠ 15 then s
  else
    match p with
    | .hub off =>
      match regAt .hub off with
      | some (r, i) => s.writeHub r i v
      | none => s
    | .front off => s.writeFront off v
    | .grafter k off => s.writeGrafter who k off v
    | .cluster ci off => s.writeCluster who ci off v be
    | .core gi off => s.writeCore who gi off v
    | .bar0 off => s.writeBar0 off v
    | .unmapped => s

end Sys2Proof.Machine
end

