-- ==== Sys2Proof/Machine/RegAccess.lean ====
section
/-! DEFINITION. The commands that access registers (R11, R138, R324, R386, R388, R441, R442) and the register packets of R151, with a CSP's
loads and stores. -/

namespace Sys2Proof.Machine

/-- The DPA of BAR2 offset 0 (R321). -/
def regBase : Nat := 0x030000000000

/-- The host link is up: WARM and POR take it down until Ngumal is ready or recovery runs (R384, R410), and a link of fewer than four lanes
stays down (R318). -/
def State.linkReady (s : State) : Bool :=
  !s.rst.refLost && s.powerState != 4 && !s.rst.asserted.contains 0 && s.host.dstate == 0
    && (match s.rst.reach with | some r => decide (r < 4) || s.rst.ready || s.recovering | none => true) && decide (4 ≤ s.host.width)

/-- A CSP runs (R137, R145). -/
def State.cspUp (s : State) (ci : Nat) : Bool :=
  decide (ci < nClusters) && rf (s.cluster ci).regs .CSP_CTL 0 0 1 == 1 && !s.diesOff && !s.inReset (.cluster ci)

/-- The agent of an access, and whether it can be made now. (DEDUCED: log 9) -/
def RegAddr.who (a : RegAddr) : Agent :=
  match a with
  | .csp ci _ => .csp ci
  | .shed _ => .shed
  | _ => .host

/-- A writer other than the host is stalled by a write of its own that waits: a launch (R173) or a submission (R215). -/
def State.stalls (s : State) (who : Agent) : Bool :=
  (s.frontHeld.any fun h => h.who == who) || s.grafters.any fun g => g.stalled.any fun j => j.who == who

/-- An agent can make an access. -/
def State.agentUp (s : State) (who : Agent) : Bool :=
  match who with
  | .csp ci => s.cspUp ci && !s.stalls who
  | .shed => s.rst.ready && !s.rst.refLost && !s.stalls who
  | .host => s.linkReady

def State.canAccess (s : State) (a : RegAddr) : Bool := s.agentUp a.who

/-- The host's accesses wait: a launch of its own is held in the hub's register-write path (R173). -/
def State.hostHeld (s : State) : Bool := s.frontHeld.any fun h => h.who == .host

/-- The bytes of a value that an access asks for; the others read zero (R442). -/
def lanes (be v : Nat) : Nat := leNat ((List.range 8).map fun i => if bit be i then BitVec.ofNat 8 (v / 256 ^ i) else 0#8)

/-- Where an access leads; registers are whole words (R442). -/
def State.placeFor (s : State) (a : RegAddr) : RegPlace :=
  match a with
  | .bar0 off => .bar0 (off % 2 ^ 16 / 4 * 4)
  | .bar2 x => s.resolve (x % 2 ^ 28 / 4 * 4)
  | .csp ci x => cspPlace ci (x / 4 * 4)
  | .shed p => p

/-- The address a refused host access is logged under: DPA of BAR2 offset, or the offset in BAR0. -/
def RegAddr.logged (a : RegAddr) : Nat :=
  match a with
  | .bar2 x => regBase + x % 2 ^ 28 / 4 * 4
  | .bar0 off => off % 2 ^ 16 / 4 * 4
  | _ => 0

/-- The endpoint behind the Trellis that a host access of a place goes to, and the offset in its window (R145, R151). -/
def RegPlace.remote (p : RegPlace) : Option (Endpoint × Nat) :=
  match p with
  | .core gi off => some (.core gi, off)
  | .cluster ci off => some (.cluster ci, off)
  | .grafter k off => some (.grafter k, off)
  | _ => none

/-- What an access returned is kept for its agent. -/
def State.gave (s : State) (who : Agent) (v : Nat) : State :=
  match who with
  | .csp ci => s.modCluster ci fun c => { c with loaded := v }
  | _ => { s with host := { s.host with readData := v } }

/-- A read of some bytes, made where the register is. -/
def State.readNow (s : State) (who : Agent) (p : RegPlace) (be : Nat) : State :=
  let r := s.readPlace who p
  r.2.gave who (lanes (be % 16) r.1)

/-- A host read of BAR2: refused (R324), served by the hub, or sent to its endpoint. -/
def State.hostRead (s : State) (a : RegAddr) (p : RegPlace) (be : Nat) : State :=
  if p.mapped = false then (s.rwErr a.logged 0 false).gave .host 0
  else if s.dark p then (s.rwErr a.logged 1 false).gave .host 0
  else
    match p.remote with
    | none => s.readNow .host p be
    | some (e, off) =>
      let t := s.inject .hub e .tc1 (.regRd off)
      { t with host := { t.host with reads := t.host.reads ++ [(e, a.logged, be % 16, s.sundial)] } }

/-- A read of BAR0; bytes above the fourth of an aligned eight are the next register's, read with it (R320). -/
def State.bar0Read (s : State) (off be : Nat) : State :=
  let lo := off % 2 ^ 16 / 4 * 4
  let r := s.readBar0 lo
  if 16 ≤ be % 256 ∧ off % 8 < 4 then
    let r' := r.2.readBar0 (lo + 4)
    r'.2.gave .host (lanes be (r.1 + 2 ^ 32 * r'.1))
  else r.2.gave .host (lanes (be % 16) r.1)

/-- Read some bytes through an address: the whole register is read, and the bytes requested are returned (R442). -/
def State.regRead (s : State) (a : RegAddr) (be : Nat) : State :=
  let p := s.placeFor a
  match a with
  | .bar2 _ => s.hostRead a p be
  | .bar0 off => s.bar0Read off be
  | _ => s.readNow a.who p be

/-- A host write of BAR0 or BAR2 with byte enables: refused (R324, R442), applied by the hub, or sent to its endpoint. (DEDUCED: log 61) -/
def State.hostWrite (s : State) (a : RegAddr) (p : RegPlace) (v be : Nat) : State :=
  if p.mapped = false then s.rwErr a.logged 0 true
  else if s.dark p then s.rwErr a.logged 1 true
  else if p.isMem = false ∧ be ≠ 15 then s.rwErr a.logged 3 true
  else
    match p.remote with
    | none => s.writePlace .host p v be
    | some (e, off) => s.inject .hub e .tc1 (.regWr off v be)

/-- Write through an address. -/
def State.regWrite (s : State) (a : RegAddr) (v be : Nat) : State :=
  let p := s.placeFor a
  match a with
  | .bar0 _ => s.hostWrite a p v be
  | .bar2 _ => s.hostWrite a p v be
  | _ => s.writePlace a.who p v be

/-- The host accesses that waited behind a launch are made in order, until another launch is held (R173). -/
def State.drainHost (s : State) : Nat → State
  | 0 => s
  | n + 1 =>
    if s.hostHeld then s
    else
      match s.host.behind with
      | [] => s
      | x :: rest =>
        let t := { s with host := { s.host with behind := rest } }
        State.drainHost (match x with
          | .go ci k e tick => t.frontGoAt .host ci k e tick
          | .write a v be => t.regWrite a v be
          | .read a be => t.regRead a be) n

/-- The waiting host accesses, when nothing holds them any more. -/
def State.hostDrained (s : State) : State := s.drainHost s.host.behind.length

/-- Make an access, or have a host's wait behind those that wait (R173). (DEDUCED: log 60) -/
def State.access (s : State) (who : Agent) (x : HostAcc) (go : State → State) : State :=
  if who = .host then
    let t := s.hostDrained
    if t.hostHeld then { t with host := { t.host with behind := t.host.behind ++ [x] } } else go t
  else go s

/-- REGISTER_WRITE (R11, R442): an agent writes a word with byte enables. -/
def execRegisterWrite (a : RegAddr) (v be : Nat) (s : State) : Out :=
  if s.canAccess a then
    .next (s.access a.who (.write a (v % 2 ^ 32) (be % 16)) fun t => t.regWrite a (v % 2 ^ 32) (be % 16))
  else .next s

/-- REGISTER_READ (R11, R442): an agent reads the bytes `be` of a word, or of two words of BAR0. -/
def execRegisterRead (a : RegAddr) (be : Nat) (s : State) : Out :=
  if s.canAccess a then .next (s.access a.who (.read a be) fun t => t.regRead a be) else .next s

/-- The cluster whose CLU_FRONTGO an agent reaches: a CSP's is its own. -/
def goReach (who : Agent) (ci : Nat) : Bool := decide (ci < nClusters) && match who with | .csp c => c == ci | _ => true

/-- FRONTGO (R173): a write of CLU_FRONTGO of cluster `ci`; a CSP's reaches its own cluster. (DEDUCED: log 60) -/
def execFrontgo (who : Agent) (ci v : Nat) (s : State) : Out :=
  if goReach who ci && s.agentUp who then
    .next (s.access who (.go ci (bits v 8 4) (bits v 0 8) s.sundial) fun t => t.frontGo who ci (bits v 8 4) (bits v 0 8))
  else .next s

/-- FRONTGO_HOLD_TIMEOUT (R173): the oldest held host write has waited 1 ms (250,000 ticks) and is discarded; the accesses behind it proceed. -/
def execFrontgoHoldTimeout (s : State) : Out :=
  match s.frontHeld.zipIdx.find? fun e => e.1.who == .host with
  | none => .next s
  | some (h, i) =>
    if h.tick + 250000 ≤ s.sundial then
      .next ({ s with frontHeld := s.frontHeld.eraseIdx i }.rwErr
        (0x030001000000 + 0x20000 * (h.ci % 256) + Reg.offset .CLU_FRONTGO 0) 0 true).hostDrained
    else .next s

/-- FRONT_STREAM_START (R173): controller `k` starts its oldest queued front, and what waited for the place proceeds. -/
def execFrontStreamStart (k : Nat) (hbm : List HbmErr) (s : State) : Out := .next (s.startStream k hbm).hostDrained

/-- The LO halves of the latching pairs (R441). -/
def RegPlace.isLo (p : RegPlace) : Bool :=
  match p with
  | .hub off =>
    match regAt .hub off with
    | some (r, _) => [Reg.UPD_STEPLO, .SDL_CNTLO, .RGA_SEQLO, .RGA_FLOORLO, .RST_GRTICKLO].contains r
    | none => false
  | .grafter _ off =>
    match regAt .grafter off with
    | some (r, _) => r == .GRF_SDLLO
    | none => false
  | _ => false

/-- LO_READ_LATCH (R441): a read of the LO half of a pair. -/
def execLoReadLatch (a : RegAddr) (s : State) : Out :=
  if s.canAccess a && (s.placeFor a).isLo then .next (s.access a.who (.read a 15) fun t => t.regRead a 15) else .next s

/-- A place is RST_CFDATA. -/
def RegPlace.isCold (p : RegPlace) : Bool := p == .hub (Reg.offset .RST_CFDATA 0)

/-- COLD_FRAME_ACCESS (R388): a read of RST_CFDATA, or a write. -/
def execColdFrameAccess (a : RegAddr) (w : Option Nat) (s : State) : Out :=
  if s.canAccess a && (s.placeFor a).isCold then
    match w with
    | none => .next (s.access a.who (.read a 15) fun t => t.regRead a 15)
    | some v => .next (s.access a.who (.write a (v % 2 ^ 32) 15) fun t => t.regWrite a (v % 2 ^ 32) 15)
  else .next s

/-! ### Register packets (R151) -/

/-- The place a register packet names at its endpoint. -/
def windowOf (e : Endpoint) (off : Nat) : RegPlace :=
  match e with
  | .cluster ci => .cluster ci (off / 4 * 4)
  | .grafter k => .grafter k (off / 4 * 4)
  | .core gi => .core gi (off / 4 * 4)
  | _ => .unmapped

/-- REGRD: the read at place `n` is served by its endpoint and answered with REGRSP. -/
def execRegrd (n : Nat) (flits : List FlitErr) (s : State) : Out :=
  match s.takePacket n with
  | none => .next s
  | some (p, t) =>
    match p.body with
    | .regRd off =>
      if s.dark (windowOf p.dst off) then .next s
      else
        let r := t.flits p flits
        if r.2 then .next r.1
        else
          match p.dst with
          | .core gi => .next ((r.1.arrive1 gi p).drainEject gi 64)
          | e =>
            let d := r.1.readPlace .host (windowOf e off)
            .next (d.2.inject e p.src .tc1 (.regRsp d.1))
    | _ => .next s

/-- A word as flit errors leave it. -/
def State.flippedWord (s : State) (p : Packet) (fs : List FlitErr) (v : Nat) : Nat := leNat (s.flipped p fs (toLe 4 v))

/-- REGWR: the write at place `n` is applied by its endpoint. -/
def execRegwr (n : Nat) (flits : List FlitErr) (s : State) : Out :=
  match s.takePacket n with
  | none => .next s
  | some (p, t) =>
    match p.body with
    | .regWr off v be =>
      if s.dark (windowOf p.dst off) then .next s
      else
        let r := t.flits p flits
        if r.2 then .next r.1
        else
          match p.dst with
          | .core gi => .next ((r.1.arrive1 gi { p with body := .regWr off (s.flippedWord p flits v) be }).drainEject gi 64)
          | e => .next (r.1.writePlace .host (windowOf e off) (s.flippedWord p flits v) be)
    | _ => .next s

/-- REGRSP: the response at place `n` completes the oldest host read of its endpoint; one that no read awaits is discarded (R386). -/
def execRegrsp (n : Nat) (flits : List FlitErr) (s : State) : Out :=
  match s.takePacket n with
  | none => .next s
  | some (p, t) =>
    match p.body, p.dst with
    | .regRsp v, .hub =>
      let r := t.flits p flits
      if r.2 then .next r.1
      else
        match r.1.host.reads.findIdx? fun x => x.1 == p.src with
        | some i =>
          let u := { r.1 with host := { r.1.host with reads := r.1.host.reads.eraseIdx i } }
          let be := match r.1.host.reads[i]? with | some x => x.2.2.1 | none => 15
          .next (u.gave .host (lanes be (s.flippedWord p flits v)))
        | none => .next r.1
    | .regRsp _, _ => .next t
    | _, _ => .next s

/-- REG_RESPONSE_TIMEOUT (R386): the oldest host read has waited 1 ms: completed with zeros and logged as unmapped. -/
def execRegResponseTimeout (s : State) : Out :=
  match s.host.reads with
  | (_, a, _, tick) :: rest =>
    if tick + 250000 ≤ s.sundial then
      let t := { s with host := { s.host with reads := rest } }
      .next ((t.rwErr a 0 false).gave .host 0)
    else .next s
  | [] => .next s

/-! ### A CSP's memory -/

/-- What a CSP address leads to besides registers (R138): its own memories at their keys, or shared memory at its DPA. -/
inductive CspMem where
  | own (key : Nat)
  | store (a : Nat)
  | core (gi a : Nat)
  | nothing
  deriving DecidableEq, Repr

def cspMem (ci a : Nat) : CspMem :=
  if a < 0x8000 then .own a
  else if 0x10000000 ≤ a ∧ a < 0x10010000 then .own (0x10000 + (a - 0x10000000))
  else if 0x20000000 ≤ a ∧ a < 0x20080000 then .store (storeBase ci + (a - 0x20000000))
  else if 0x30000000 ≤ a ∧ a < 0x30400000 ∧ a % 0x10000 < 0x4000 then
    let gi := coreOf ci ((a - 0x30000000) / 0x10000)
    .core gi (localBase gi + a % 0x10000)
  else .nothing

/-- CSP_MEMORY_ACCESS (R77-R79, R138, R168, R213): a load, or a store, of 1, 2 or 4 aligned bytes. `ups` strike first. Register windows have
rows of their own. (DESIGN CHOICE: log 92) -/
def execCspMemoryAccess (ci a len : Nat) (w : Option Nat) (ups : List Upset) (s : State) : Out :=
  if s.agentUp (.csp ci) && (len == 1 || len == 2 || len == 4) && a % len == 0 && !(cspPlace ci (a / 4 * 4)).mapped then
    let s := s.strikes ups
    match cspMem ci a, w with
    | .own k, none => .next (s.gave (.csp ci) ((s.cluster ci).cspRead k len))
    | .own k, some v => .next (s.modCluster ci fun c => c.cspWrite k (toLe len v))
    | .store x, none =>
      let r := s.storeRead ci x len
      .next (r.2.gave (.csp ci) (leNat r.1))
    | .store x, some v => .next (s.wrS x (toLe len v))
    | .core gi x, none =>
      let r := s.extRead gi x len
      .next (r.2.gave (.csp ci) (leNat r.1))
    | .core _ x, some v => if s.inRegion ci then .next s else .next (s.wrS x (toLe len v))
    | .nothing, none => .next (s.gave (.csp ci) 0)
    | .nothing, some _ => .next s
  else .next s

end Sys2Proof.Machine
end

