-- ==== Sys2Proof/Machine/Debug.lean ====
section
/-! DEFINITION. DEBUG_OP (R420-R424): the trace ring, halts, memory and private state, and resets. -/

namespace Sys2Proof.Machine

/-- The fields of a DEBUG_OP body: SPACE, scope or reach, index, ADDR, BUF, LEN, CDPA. -/
def Cmd.dbgSpace (c : Cmd) : Nat := c.field 1 1
def Cmd.dbgScope (c : Cmd) : Nat := c.field 2 1
def Cmd.dbgIdx (c : Cmd) : Nat := c.field 4 4
def Cmd.dbgAddr (c : Cmd) : Nat := c.field 8 8
def Cmd.dbgBuf (c : Cmd) : Nat := c.field 16 8
def Cmd.dbgLen (c : Cmd) : Nat := c.field 24 4
def Cmd.dbgCdpa (c : Cmd) : Nat := c.field 32 8

/-- An op the session does not allow (R420): above its level, suspended, or on a domain that is off or in retention. -/
def State.dbgDenied (s : State) (need : Nat) (dies : Bool) : Bool :=
  decide (s.level < need) || s.hf .DBG_STAT 0 2 1 == 1 || (dies && s.diesOff)

/-- Run the DEBUG_OP at the head of the queue when its OP satisfies `p`. -/
def State.debugOp (s : State) (p : Nat → Bool) (refuse : Cmd → State → Option Nat) (go : Cmd → Nat → State → State) : Out :=
  match s.mb.cmds with
  | c :: _ => if p (c.field 0 1) then s.long 0xD082 refuse go else .next s
  | [] => .next s

/-- The ops of R420. -/
def dbgOps : List Nat := [0x01, 0x10, 0x11, 0x12, 0x13, 0x14]

/-- TRACE_READ (R423): the ring is copied to BUF, oldest entry first. An OP that R420 does not list is answered here. -/
def execTraceRead (s : State) : Out :=
  s.debugOp (fun op => op == 0x01 || !dbgOps.contains op)
    (fun c s => if dbgOps.contains (c.field 0 1) = false then some St.INVALID_PAYLOAD else refuseIf (s.dbgDenied 1 true) St.DEBUG_DENIED)
    fun c n s =>
      let bs := s.sec.trace.flatten
      (s.wrS c.dbgBuf bs).finish n c c.dbgCdpa St.OK bs.length

/-! ### Halts (R421) -/

/-- A scope and index name something. -/
def scopeOk (scope idx : Nat) : Bool :=
  match scope with
  | 0 => decide (idx < nCores)
  | 1 => decide (idx < nClusters)
  | 2 => decide (idx < 8)
  | 3 => true
  | _ => false

/-- Whether a core is in a scope. -/
def inScope (scope idx gi : Nat) : Bool :=
  match scope with
  | 0 => gi == idx
  | 1 => coreCi gi == idx
  | 2 => dieOf (coreCi gi) == idx
  | _ => true

/-- The clusters of a die. -/
def clustersOf (k : Nat) : List Nat := (List.range nClusters).filter fun ci => dieOf ci == k

/-- Apply `f` to every core in a scope. -/
def State.scoped (s : State) (scope idx : Nat) (f : Core → Core) : State :=
  match scope with
  | 0 => s.modCore idx f
  | 1 => { s with cores := s.cores.mapAt (coresOf idx) f }
  | 2 => { s with cores := s.cores.mapAt ((clustersOf idx).flatMap coresOf) f }
  | _ => { s with cores := s.cores.map f }

/-- CORE_STAT.CAUSE is DEBUG. -/
def Core.debugHalted (c : Core) : Bool := c.halted && rf c.regs .CORE_STAT 0 1 3 == 4

/-- Some core in a scope is halted for another cause. -/
def State.otherHalt (s : State) (scope idx : Nat) : Bool :=
  let bad := fun (c : Core) => c.halted && !c.debugHalted
  bad s.cores.dflt || s.cores.exc.any fun e => decide (e.1 < nCores) && inScope scope idx e.1 && bad e.2

/-- DEBUG_HALT: targeted cores halt with CAUSE DEBUG at their next descriptor boundary. -/
def execDebugHalt (s : State) : Out :=
  s.debugOp (· == 0x10)
    (fun c s => if s.dbgDenied 2 true then some St.DEBUG_DENIED else refuseIf (!scopeOk c.dbgScope c.dbgIdx) St.INVALID_PAYLOAD)
    fun c n s => (s.scoped c.dbgScope c.dbgIdx Core.debugHalt).finish n c c.dbgCdpa St.OK 0

/-- DEBUG_RESUME: DEBUG halts clear; a target halted for another cause answers INVALID_PAYLOAD. (DEDUCED: log 87) -/
def execDebugResume (s : State) : Out :=
  s.debugOp (· == 0x11)
    (fun c s => if s.dbgDenied 2 true then some St.DEBUG_DENIED
      else refuseIf (!scopeOk c.dbgScope c.dbgIdx || s.otherHalt c.dbgScope c.dbgIdx) St.INVALID_PAYLOAD)
    fun c n s => (s.scoped c.dbgScope c.dbgIdx Core.debugResume).finish n c c.dbgCdpa St.OK 0

/-! ### Private state (R422) -/

/-- Whether a range lies in one stretch of SPACE 1. -/
def privOk (a n : Nat) : Bool :=
  decide (a + n ≤ 0xC08) || (decide (0x1000 ≤ a) && decide (a + n ≤ 0x2100)) || (decide (0x2200 ≤ a) && decide (a + n ≤ 0x3300))

/-- The pending bits of the sentinel registers. -/
def Core.pendingMask (c : Core) : Nat := (List.range 40).foldl (fun v r => v + 2 ^ r * b2n (c.pending r)) 0

/-- One byte of a slot's layout: data lane by lane, then scales. -/
def Core.slotByte (c : Core) (k o : Nat) : Nat :=
  if o < 0x1000 then bits (c.lane k (o / 256)) (8 * (o % 256)) 8 else bits (c.laneScale k ((o - 0x1000) / 16)) (8 * (o % 16)) 8

def Core.setSlotByte (c : Core) (k o b : Nat) : Core :=
  let f := 544 * k + (if o < 0x1000 then 34 * (o / 256) + o % 256 / 8 else 34 * ((o - 0x1000) / 16) + 32 + o % 16 / 8)
  let c := { c with slotFlaws := Sparse.set (fun _ => none) c.slotFlaws f none }
  if o < 0x1000 then c.setLane k (o / 256) (putBits (c.lane k (o / 256)) (8 * (o % 256)) 8 b)
  else c.setLaneScale k ((o - 0x1000) / 16) (putBits (c.laneScale k ((o - 0x1000) / 16)) (8 * (o % 16)) 8 b)

/-- One byte of a core's private state. -/
def Core.privByte (c : Core) (a : Nat) : Byte :=
  BitVec.ofNat 8 (
    if a < 0x800 then bits (c.getR (a / 64)) (8 * (a % 64)) 8
    else if a < 0xC00 then
      let o := a - 0x800
      bits (c.getR (32 + o % 64 / 8)) (64 * (o / 64) + 8 * (o % 8)) 8
    else if a < 0xC08 then bits c.pendingMask (8 * (a - 0xC00)) 8
    else if a < 0x2100 then c.slotByte 0 (a - 0x1000)
    else c.slotByte 1 (a - 0x2200))

def Core.setPrivByte (c : Core) (a : Nat) (b : Byte) : Core :=
  let v := b.toNat
  if a < 0x800 then c.setR (a / 64) (putBits (c.getR (a / 64)) (8 * (a % 64)) 8 v)
  else if a < 0xC00 then
    let o := a - 0x800
    let r := 32 + o % 64 / 8
    c.setR r (putBits (c.getR r) (64 * (o / 64) + 8 * (o % 8)) 8 v)
  else if a < 0xC08 then c
  else if a < 0x2100 then c.setSlotByte 0 (a - 0x1000) v
  else c.setSlotByte 1 (a - 0x2200) v

/-! ### Memory operations (R323, R420, R422) -/

/-- Whether `[a, a + n)` lies in register space. -/
def inRegs (a n : Nat) : Bool := decide (regBase ≤ a) && decide (a + n ≤ regBase + 2 ^ 28)

/-- Read `n` words of register space from word `w` on, as the Shed; the pages are those in force. -/
def State.regWords (s : State) (w : Nat) : Nat → List Byte × State
  | 0 => ([], s)
  | n + 1 =>
    let p := s.resolve (4 * w)
    let r := if s.dark p then (0, s) else s.readPlace .shed p
    let t := State.regWords r.2 (w + 1) n
    (toLe 4 r.1 ++ t.1, t.2)

/-- The place each word of a write leads to, resolved before any is written. -/
def State.putWords (s : State) (a : Nat) (bs : List Byte) (ps : List (Nat × RegPlace)) : State :=
  ps.foldl (fun (s : State) e =>
    let at_ := fun (j : Nat) => decide (a ≤ 4 * e.1 + j) && decide (4 * e.1 + j < a + bs.length)
    let v := ((List.range 4).map fun j => if at_ j then (bs.getD (4 * e.1 + j - a) 0#8).toNat * 256 ^ j else 0).foldl (· + ·) 0
    let be := ((List.range 4).map fun j => b2n (at_ j) * 2 ^ j).foldl (· + ·) 0
    if s.dark e.2 then s else s.writePlace .shed e.2 v be) s

/-- The Shed's SRAM is 4 MiB (R20). -/
def shedSize : Nat := 0x400000

/-- Bytes of the Shed's SRAM: what DEBUG_OP has written, and the firmware's own otherwise; beyond it nothing is mapped (R163). (DEDUCED: log 87) -/
def State.shedRead (s : State) (a n : Nat) : List Byte × State :=
  ((List.range n).map fun i => if a + i < shedSize then Sparse.get (fun k => BitVec.ofNat 8 (Config.shedByte k)) s.sec.shed (a + i) else 0#8, s)

/-- Read a SPACE. `e` is what a read of HBM meets. -/
def State.memRead (s : State) (c : Cmd) (e : List HbmErr) : List Byte × State :=
  let a := c.dbgAddr
  let n := c.dbgLen
  match c.dbgSpace with
  | 0 =>
    if n = 0 then ([], s)
    else if inRegs a n then
      let o := a - regBase
      let r := s.regWords (o / 4) ((o + n - 1) / 4 - o / 4 + 1)
      ((r.1.drop (o % 4)).take n, r.2)
    else s.readAt a n e
  | 1 => ((List.range n).map fun i => (s.core c.dbgIdx).privByte (a + i), s)
  | _ => s.shedRead a n

/-- Write a SPACE. -/
def State.memWrite (s : State) (c : Cmd) (bs : List Byte) : State :=
  let a := c.dbgAddr
  let n := bs.length
  match c.dbgSpace with
  | 0 =>
    if n = 0 then s
    else if inRegs a n then
      let o := a - regBase
      let ws := (List.range ((o + n - 1) / 4 - o / 4 + 1)).map fun k => (o / 4 + k, s.resolve (4 * (o / 4 + k)))
      s.putWords o bs ws
    else s.wrS a bs
  | 1 => s.modCore c.dbgIdx fun k => (List.range n).foldl (fun k i => k.setPrivByte (a + i) (bs.getD i 0)) k
  | _ => { s with sec := { s.sec with shed := (List.range n).foldl (fun m i => if a + i < shedSize then Sparse.put m (a + i) (bs.getD i 0) else m) s.sec.shed } }

/-- Why a memory operation is refused. -/
def State.memRefuse (c : Cmd) (s : State) : Option Nat :=
  if s.dbgDenied 2 true then some St.DEBUG_DENIED
  else if 2 < c.dbgSpace ∨ 2 ^ 24 < c.dbgLen then some St.INVALID_PAYLOAD
  else if c.dbgSpace = 1 then
    if nCores ≤ c.dbgIdx ∨ privOk c.dbgAddr c.dbgLen = false then some St.INVALID_PAYLOAD
    else refuseIf (!(s.core c.dbgIdx).debugHalted) St.DEBUG_DENIED
  else none

/-- MEM_READ: `hbm` is what the read meets in HBM. -/
def execMemRead (hbm : List HbmErr) (s : State) : Out :=
  s.debugOp (· == 0x12) (fun c s => s.memRefuse c) fun c n s =>
    let r := s.memRead c hbm
    (r.2.wrS c.dbgBuf r.1).finish n c c.dbgCdpa St.OK c.dbgLen

/-- MEM_WRITE: `hbm` is what the read of BUF meets in HBM. -/
def execMemWrite (hbm : List HbmErr) (s : State) : Out :=
  s.debugOp (· == 0x13) (fun c s => s.memRefuse c) fun c n s =>
    let r := if c.dbgLen = 0 then ([], s) else s.readAt c.dbgBuf c.dbgLen hbm
    (r.2.memWrite c r.1).finish n c c.dbgCdpa St.OK c.dbgLen

/-- DEBUG_RESET (R376): source 8 at a reach code of R375, after its completion record. `cut`: endpoints whose packets it cuts (R386). -/
def execDebugReset (cut : List Endpoint) (s : State) : Out :=
  s.debugOp (· == 0x14)
    (fun c s => if s.dbgDenied 2 false then some St.DEBUG_DENIED else refuseIf (!targetOk c.dbgScope c.dbgIdx) St.INVALID_PAYLOAD)
    fun c n s =>
      let t := targets c.dbgScope c.dbgIdx
      (s.finish n c c.dbgCdpa St.OK 0).request 8 c.dbgScope t.1 t.2.1 t.2.2 cut

end Sys2Proof.Machine
end

