-- ==== Sys2Proof/Machine/HostMem.lean ====
section
/-! DEFINITION. Host access to HBM (R171, R325-R327): the HDM decoder, and reads and writes through HDM or BAR4. -/

namespace Sys2Proof.Machine

/-- The link runs a CXL mode, with HDM, or a PCIe-only one, with BAR4 (R319). -/
def State.cxlMode (s : State) : Bool := decide (s.host.mode < 3)

/-- HDM_COMMIT (R326): the decoder commits 512 GiB, 1 way, DPA base 0; anything else does not take and reports Error Not Committed.
(DEDUCED: log 64) -/
def execHdmCommit (size ways dpa : Nat) (s : State) : Out :=
  if s.linkReady && s.cxlMode then
    if size = 2 ^ 39 ∧ ways = 1 ∧ dpa = 0 then .next { s with host := { s.host with hdm := true, hdmErr := false } }
    else .next { s with host := { s.host with hdmErr := true } }
  else .next s

/-- The HBM address of `n` bytes at offset `x` of HDM or of BAR4, none when they do not exist in this mode (R325, R326). -/
def State.hostAddr (s : State) (bar4 : Bool) (x n : Nat) : Option Nat :=
  if bar4 then if s.cxlMode = false ∧ x + n ≤ 2 ^ 36 then some (2 ^ 36 * rf s.mbx .MBX_HWIN 0 0 3 + x) else none
  else if s.cxlMode ∧ s.host.hdm ∧ x + n ≤ 2 ^ 39 then some x else none

/-- HBM is in self-refresh or off (R327): NAP, DARK, OFF, and a reset of FABRIC reach or wider. -/
def State.hbmAway (s : State) : Bool :=
  decide (2 ≤ s.powerState) || (match s.rst.reach with | some r => decide (3 ≤ r) | none => false)

/-- HDM_UNAVAILABLE, once for each period. -/
def State.unavailable (s : State) : State :=
  if s.host.unavail then s else { s with host := { s.host with unavail := true } }.event St.HDM_UNAVAILABLE 0 0 0

/-- An error met by a host read (R169, R171): an uncorrectable one is logged and raised, and discards no step. -/
def State.hostMeets (s : State) (e : HbmErr) : State :=
  match e with
  | .corrected u => s.hbmCe u
  | .uncorrectable u mask _ =>
    let t := (s.hbmUe u).event St.HBM_UNCORRECTABLE 4 (s.stackOf (32 * u)) u
    { t with mem := strikeUnit t.mem u mask }

/-- The bytes a host read of `[a, a + n)` returns (R169, R171), read by whole units. -/
def State.hostBytes (s : State) (a n : Nat) (es : List HbmErr) : List Byte × State :=
  let lo := a / 32 * 32
  let es := es.filter (HbmErr.inside lo (32 * ((a + n - 1) / 32 + 1 - a / 32)))
  let t := es.foldl State.hostMeets s
  (t.rd a n, { t with mem := healUnits es t.mem t.mem })

/-- HDM_READ (R327): the host reads `n` bytes. -/
def execHdmRead (bar4 : Bool) (x n : Nat) (hbm : List HbmErr) (s : State) : Out :=
  match s.hostAddr bar4 x n with
  | none => .next s
  | some a =>
    if s.linkReady = false ∨ n = 0 then .next s
    else if s.hbmAway then .next { s.unavailable with host := { s.unavailable.host with data := List.replicate n 0#8 } }
    else
      let r := s.hostBytes a n hbm
      .next { r.2 with host := { r.2.host with data := r.1 } }

/-- HDM_WRITE (R327): the host writes bytes. -/
def execHdmWrite (bar4 : Bool) (x : Nat) (data : List Byte) (s : State) : Out :=
  match s.hostAddr bar4 x data.length with
  | none => .next s
  | some a =>
    if s.linkReady = false ∨ data.length = 0 then .next s
    else if s.hbmAway then .next s.unavailable
    else .next (s.wrS a data)

end Sys2Proof.Machine
end

