-- ==== Sys2Proof/Machine/Slice.lean ====
section
/-! DEFINITION. The slices of L commands and the end of an aborted ticket (R332, R333). -/

namespace Sys2Proof.Machine

/-- A ticket whose operation still runs. -/
def State.slicing (s : State) (n : Nat) : Bool := (s.ticket n).active && !(s.ticket n).done

/-- The next active ticket after `n` in ascending order, wrapping. -/
def State.nextTurn (s : State) (n : Nat) : Option Nat := ((List.range 8).map fun k => (n + 1 + k) % 8).find? fun k => s.slicing k

/-- A transition that ticket `n` asked for and that has not begun is not made: one that waits in the queue, or a HOLD that waits for its boundary. -/
def State.dropTransition (s : State) (n : Nat) : State :=
  let s := { s with pwr := { s.pwr with queue := s.pwr.queue.filter fun e => e.2 != n } }
  if s.pwr.ticket ≠ n then s
  else if s.hf .PWR_STATE 0 7 1 = 1 then State.powerGo s.pwr.queue (s.setHf .PWR_STATE 0 3 5 0)
  else { s with pwr := { s.pwr with ticket := 8 } }

/-- End ticket `n` with ABORTED: what has not been done is not done, and effects already made stay made. (DEDUCED: log 55) -/
def State.abortTicket (s : State) (n : Nat) : State :=
  let s := match (s.ticket n).opcode with
    | 0xD012 => s.dropTransition n
    | 0xD030 => if s.step.starting then s.endJob else s
    | 0xD031 => { s with step := { s.step with stopping := false } }
    | 0xD043 => s.permEnd St.ABORTED
    | 0xD050 => s.abandon St.ABORTED
    | 0xD052 => s.noBist
    | _ => s
  s.endTicket n St.ABORTED

/-- SLICE_END: the slice of the ticket whose turn it is ends; an abort asked for takes effect; the next ticket's slice begins. -/
def execSliceEnd (s : State) : Out :=
  match s.mb.turn with
  | none => .next s
  | some n =>
    let t := if s.slicing n && (s.ticket n).abort then s.abortTicket n else s
    .next { t with mb := { t.mb with turn := t.nextTurn n } }

end Sys2Proof.Machine
end

