-- ==== Sys2Proof/Machine/Vector.lean ====
section
/-! DEFINITION. The vector instructions (R89-R108), one meaning each: the word `w`, with the row's opcode in its OP field, issues on
core `gi`'s vector engine. Operand selection, legality, flags, timing and masks are `CX.vIssue`'s, shared with chains. -/

namespace Sys2Proof.Machine

/-- Issue one vector word of opcode `op` on core `gi` (R90-R92). -/
def State.vword (s : State) (gi op w : Nat) : State := s.unvctx ((s.vctx gi).vIssue (putBits w 0 8 op))

/-- VNOP (R93): occupies no pipe and extends the issue gap. -/
def execVnop (gi w : Nat) (s : State) : Out := .next (s.vword gi 0x00 w)

/-- VADD (R93): VA + VB, correctly rounded. -/
def execVadd (gi w : Nat) (s : State) : Out := .next (s.vword gi 0x01 w)

/-- VSUB (R93): VA - VB, correctly rounded. -/
def execVsub (gi w : Nat) (s : State) : Out := .next (s.vword gi 0x02 w)

/-- VMUL (R93): VA × VB, correctly rounded. -/
def execVmul (gi w : Nat) (s : State) : Out := .next (s.vword gi 0x03 w)

/-- VFMA (R93): VA × VB + VC with one rounding. -/
def execVfma (gi w : Nat) (s : State) : Out := .next (s.vword gi 0x04 w)

/-- VFNMA (R93): the negated product form with one rounding. -/
def execVfnma (gi w : Nat) (s : State) : Out := .next (s.vword gi 0x05 w)

/-- VMAX (R93): maximumNumber. -/
def execVmax (gi w : Nat) (s : State) : Out := .next (s.vword gi 0x06 w)

/-- VMIN (R93): minimumNumber. -/
def execVmin (gi w : Nat) (s : State) : Out := .next (s.vword gi 0x07 w)

/-- VABS (R93): the sign bit cleared. -/
def execVabs (gi w : Nat) (s : State) : Out := .next (s.vword gi 0x08 w)

/-- VNEG (R93): the sign bit inverted. -/
def execVneg (gi w : Nat) (s : State) : Out := .next (s.vword gi 0x09 w)

/-- VCEQ (R93): quiet equality masks. -/
def execVceq (gi w : Nat) (s : State) : Out := .next (s.vword gi 0x0A w)

/-- VCLT (R93): signalling less-than masks. -/
def execVclt (gi w : Nat) (s : State) : Out := .next (s.vword gi 0x0B w)

/-- VCLE (R93): signalling less-or-equal masks. -/
def execVcle (gi w : Nat) (s : State) : Out := .next (s.vword gi 0x0C w)

/-- VCLASS (R93): ten-bit class masks. -/
def execVclass (gi w : Nat) (s : State) : Out := .next (s.vword gi 0x0D w)

/-- VSEL (R93): VA or VB by the mask in VC. -/
def execVsel (gi w : Nat) (s : State) : Out := .next (s.vword gi 0x0E w)

/-- VMOV (R93): a copy of VA. -/
def execVmov (gi w : Nat) (s : State) : Out := .next (s.vword gi 0x0F w)

/-- VAND (R93): bitwise AND. -/
def execVand (gi w : Nat) (s : State) : Out := .next (s.vword gi 0x10 w)

/-- VOR (R93): bitwise OR. -/
def execVor (gi w : Nat) (s : State) : Out := .next (s.vword gi 0x11 w)

/-- VXOR (R93): bitwise XOR. -/
def execVxor (gi w : Nat) (s : State) : Out := .next (s.vword gi 0x12 w)

/-- VSHL (R93): shift left by VB modulo the width. -/
def execVshl (gi w : Nat) (s : State) : Out := .next (s.vword gi 0x13 w)

/-- VSRA (R93): arithmetic shift right. -/
def execVsra (gi w : Nat) (s : State) : Out := .next (s.vword gi 0x14 w)

/-- VSRL (R93): logical shift right. -/
def execVsrl (gi w : Nat) (s : State) : Out := .next (s.vword gi 0x15 w)

/-- VIADD (R93): integer add. -/
def execViadd (gi w : Nat) (s : State) : Out := .next (s.vword gi 0x16 w)

/-- VISUB (R93): integer subtract. -/
def execVisub (gi w : Nat) (s : State) : Out := .next (s.vword gi 0x17 w)

/-- VDIV (R93): division on the VTU. -/
def execVdiv (gi w : Nat) (s : State) : Out := .next (s.vword gi 0x18 w)

/-- VSQRT (R93): square root on the VTU. -/
def execVsqrt (gi w : Nat) (s : State) : Out := .next (s.vword gi 0x19 w)

/-- VCVT (R96): conversion by ET and TF. -/
def execVcvt (gi w : Nat) (s : State) : Out := .next (s.vword gi 0x20 w)

/-- VCVT_MX (R97): FP32 to an MX block. -/
def execVcvtMx (gi w : Nat) (s : State) : Out := .next (s.vword gi 0x21 w)

/-- VCVTW_MX (R97): an MX block widened. -/
def execVcvtwMx (gi w : Nat) (s : State) : Out := .next (s.vword gi 0x22 w)

/-- VLSPLIT (R105): WQ48 containers to limb bytes. -/
def execVlsplit (gi w : Nat) (s : State) : Out := .next (s.vword gi 0x23 w)

/-- VLJOIN (R105): limb class sums to WQ48. -/
def execVljoin (gi w : Nat) (s : State) : Out := .next (s.vword gi 0x24 w)

/-- VLD (R98): 64 bytes through a handle, inactive elements zero. -/
def execVld (gi w : Nat) (ups : List Upset) (s : State) : Out := .next ((s.strikes ups).vword gi 0x30 w)

/-- VST (R98): a store through a handle, inactive elements unchanged. -/
def execVst (gi w : Nat) (ups : List Upset) (s : State) : Out := .next ((s.strikes ups).vword gi 0x31 w)

/-- VLDS (R98): a load from a handle's scale array. -/
def execVlds (gi w : Nat) (ups : List Upset) (s : State) : Out := .next ((s.strikes ups).vword gi 0x32 w)

/-- VSTS (R98): a store to a handle's scale array. -/
def execVsts (gi w : Nat) (ups : List Upset) (s : State) : Out := .next ((s.strikes ups).vword gi 0x33 w)

/-- ACCRD (R93): accumulator Aj of all lanes into vector registers. -/
def execAccrd (gi w : Nat) (s : State) : Out := .next (s.vword gi 0x40 w)

/-- VRED_SUM (R100): the tree sum. -/
def execVredSum (gi w : Nat) (s : State) : Out := .next (s.vword gi 0x50 w)

/-- VRED_MAX (R100): the tree maximum. -/
def execVredMax (gi w : Nat) (s : State) : Out := .next (s.vword gi 0x51 w)

/-- VRED_MIN (R100): the tree minimum. -/
def execVredMin (gi w : Nat) (s : State) : Out := .next (s.vword gi 0x52 w)

/-- VRED2_NORM (R101): the normalisation backward. -/
def execVred2Norm (gi w : Nat) (s : State) : Out := .next (s.vword gi 0x58 w)

/-- VRED2_SMAX (R102): the soft-maximum backward. -/
def execVred2Smax (gi w : Nat) (s : State) : Out := .next (s.vword gi 0x59 w)

/-- VEXP2 (R103): 2^x. -/
def execVexp2 (gi w : Nat) (s : State) : Out := .next (s.vword gi 0x60 w)

/-- VEXP (R103): e^x. -/
def execVexp (gi w : Nat) (s : State) : Out := .next (s.vword gi 0x61 w)

/-- VLOG2 (R103): log2 x. -/
def execVlog2 (gi w : Nat) (s : State) : Out := .next (s.vword gi 0x62 w)

/-- VRCP (R103): 1/x. -/
def execVrcp (gi w : Nat) (s : State) : Out := .next (s.vword gi 0x63 w)

/-- VRSQ (R103): 1/sqrt x. -/
def execVrsq (gi w : Nat) (s : State) : Out := .next (s.vword gi 0x64 w)

/-- VSINPI (R103): sin(pi x). -/
def execVsinpi (gi w : Nat) (s : State) : Out := .next (s.vword gi 0x65 w)

/-- VCOSPI (R103): cos(pi x). -/
def execVcospi (gi w : Nat) (s : State) : Out := .next (s.vword gi 0x66 w)

/-- VTANH (R103): tanh x. -/
def execVtanh (gi w : Nat) (s : State) : Out := .next (s.vword gi 0x67 w)

/-- VERF (R103): erf x. -/
def execVerf (gi w : Nat) (s : State) : Out := .next (s.vword gi 0x68 w)

/-- VLEAF (R106): an accepted SP1 leaf program. -/
def execVleaf (gi w : Nat) (s : State) : Out := .next (s.vword gi 0x70 w)

end Sys2Proof.Machine
end

