-- ==== Sys2Proof/Machine/Dispatch.lean ====
section
/-! DEFINITION. Which meaning each command has. -/

namespace Sys2Proof.Machine

open Sys2Proof

def exec (i : Instr) (s : State) : Host.Outcome State Fault Refusal :=
  match i with
  | .registerWrite a v be => Sys2Proof.Machine.execRegisterWrite a v be s
  | .rwpCommit => Sys2Proof.Machine.execRwpCommit s
  | .loReadLatch a => Sys2Proof.Machine.execLoReadLatch a s
  | .coldFrameAccess a w => Sys2Proof.Machine.execColdFrameAccess a w s
  | .listEntryFetch gi ups => Sys2Proof.Machine.execListEntryFetch gi ups s
  | .descIssue gi => Sys2Proof.Machine.execDescIssue gi s
  | .chainBodyLoad gi ups => Sys2Proof.Machine.execChainBodyLoad gi ups s
  | .descComplete gi => Sys2Proof.Machine.execDescComplete gi s
  | .descEngineStop gi => Sys2Proof.Machine.execDescEngineStop gi s
  | .nop gi => Sys2Proof.Machine.execNop gi s
  | .pass gi ups => Sys2Proof.Machine.execPass gi ups s
  | .emul gi => Sys2Proof.Machine.execEmul gi s
  | .eadd gi => Sys2Proof.Machine.execEadd gi s
  | .efma gi => Sys2Proof.Machine.execEfma gi s
  | .chain gi ups => Sys2Proof.Machine.execChain gi ups s
  | .fill gi ups => Sys2Proof.Machine.execFill gi ups s
  | .fillT gi ups => Sys2Proof.Machine.execFillT gi ups s
  | .fillIn gi => Sys2Proof.Machine.execFillIn gi s
  | .fillComplete gi => Sys2Proof.Machine.execFillComplete gi s
  | .load gi => Sys2Proof.Machine.execLoad gi s
  | .store gi => Sys2Proof.Machine.execStore gi s
  | .send gi => Sys2Proof.Machine.execSend gi s
  | .sendInject gi => Sys2Proof.Machine.execSendInject gi s
  | .post gi => Sys2Proof.Machine.execPost gi s
  | .postArm gi => Sys2Proof.Machine.execPostArm gi s
  | .rakeSq gi ups hbm => Sys2Proof.Machine.execRakeSq gi ups hbm s
  | .repeatEntry gi => Sys2Proof.Machine.execRepeatEntry gi s
  | .resultLand gi => Sys2Proof.Machine.execResultLand gi s
  | .lmemEccWriteback gi => Sys2Proof.Machine.execLmemEccWriteback gi s
  | .vnop gi w => Sys2Proof.Machine.execVnop gi w s
  | .vadd gi w => Sys2Proof.Machine.execVadd gi w s
  | .vsub gi w => Sys2Proof.Machine.execVsub gi w s
  | .vmul gi w => Sys2Proof.Machine.execVmul gi w s
  | .vfma gi w => Sys2Proof.Machine.execVfma gi w s
  | .vfnma gi w => Sys2Proof.Machine.execVfnma gi w s
  | .vmax gi w => Sys2Proof.Machine.execVmax gi w s
  | .vmin gi w => Sys2Proof.Machine.execVmin gi w s
  | .vabs gi w => Sys2Proof.Machine.execVabs gi w s
  | .vneg gi w => Sys2Proof.Machine.execVneg gi w s
  | .vceq gi w => Sys2Proof.Machine.execVceq gi w s
  | .vclt gi w => Sys2Proof.Machine.execVclt gi w s
  | .vcle gi w => Sys2Proof.Machine.execVcle gi w s
  | .vclass gi w => Sys2Proof.Machine.execVclass gi w s
  | .vsel gi w => Sys2Proof.Machine.execVsel gi w s
  | .vmov gi w => Sys2Proof.Machine.execVmov gi w s
  | .vand gi w => Sys2Proof.Machine.execVand gi w s
  | .vor gi w => Sys2Proof.Machine.execVor gi w s
  | .vxor gi w => Sys2Proof.Machine.execVxor gi w s
  | .vshl gi w => Sys2Proof.Machine.execVshl gi w s
  | .vsra gi w => Sys2Proof.Machine.execVsra gi w s
  | .vsrl gi w => Sys2Proof.Machine.execVsrl gi w s
  | .viadd gi w => Sys2Proof.Machine.execViadd gi w s
  | .visub gi w => Sys2Proof.Machine.execVisub gi w s
  | .vdiv gi w => Sys2Proof.Machine.execVdiv gi w s
  | .vsqrt gi w => Sys2Proof.Machine.execVsqrt gi w s
  | .vcvt gi w => Sys2Proof.Machine.execVcvt gi w s
  | .vcvtMx gi w => Sys2Proof.Machine.execVcvtMx gi w s
  | .vcvtwMx gi w => Sys2Proof.Machine.execVcvtwMx gi w s
  | .vlsplit gi w => Sys2Proof.Machine.execVlsplit gi w s
  | .vljoin gi w => Sys2Proof.Machine.execVljoin gi w s
  | .vld gi w ups => Sys2Proof.Machine.execVld gi w ups s
  | .vst gi w ups => Sys2Proof.Machine.execVst gi w ups s
  | .vlds gi w ups => Sys2Proof.Machine.execVlds gi w ups s
  | .vsts gi w ups => Sys2Proof.Machine.execVsts gi w ups s
  | .accrd gi w => Sys2Proof.Machine.execAccrd gi w s
  | .vredSum gi w => Sys2Proof.Machine.execVredSum gi w s
  | .vredMax gi w => Sys2Proof.Machine.execVredMax gi w s
  | .vredMin gi w => Sys2Proof.Machine.execVredMin gi w s
  | .vred2Norm gi w => Sys2Proof.Machine.execVred2Norm gi w s
  | .vred2Smax gi w => Sys2Proof.Machine.execVred2Smax gi w s
  | .vexp2 gi w => Sys2Proof.Machine.execVexp2 gi w s
  | .vexp gi w => Sys2Proof.Machine.execVexp gi w s
  | .vlog2 gi w => Sys2Proof.Machine.execVlog2 gi w s
  | .vrcp gi w => Sys2Proof.Machine.execVrcp gi w s
  | .vrsq gi w => Sys2Proof.Machine.execVrsq gi w s
  | .vsinpi gi w => Sys2Proof.Machine.execVsinpi gi w s
  | .vcospi gi w => Sys2Proof.Machine.execVcospi gi w s
  | .vtanh gi w => Sys2Proof.Machine.execVtanh gi w s
  | .verf gi w => Sys2Proof.Machine.execVerf gi w s
  | .vleaf gi w => Sys2Proof.Machine.execVleaf gi w s
  | .tokincWrite gi tok inc => Sys2Proof.Machine.execTokincWrite gi tok inc s
  | .cluLselWrite ci sel => Sys2Proof.Machine.execCluLselWrite ci sel s
  | .patch gi first vals => Sys2Proof.Machine.execPatch gi first vals s
  | .broadcastPatchLand => Sys2Proof.Machine.execBroadcastPatchLand s
  | .listComplete gi => Sys2Proof.Machine.execListComplete gi s
  | .replay => Sys2Proof.Machine.execReplay s
  | .rampGroupRelease g => Sys2Proof.Machine.execRampGroupRelease g s
  | .auditRepair codes hbm => Sys2Proof.Machine.execAuditRepair codes hbm s
  | .spareCoreSwap ups m => Sys2Proof.Machine.execSpareCoreSwap ups m s
  | .shardPermuteRun hbm => Sys2Proof.Machine.execShardPermuteRun hbm s
  | .rollingBistSlice extra fails => Sys2Proof.Machine.execRollingBistSlice extra fails s
  | .phaseSwitch => Sys2Proof.Machine.execPhaseSwitch s
  | .msg n flits => Sys2Proof.Machine.execMsg n flits s
  | .token n flits => Sys2Proof.Machine.execToken n flits s
  | .credit n flits => Sys2Proof.Machine.execCredit n flits s
  | .mrd n ups hbm flits => Sys2Proof.Machine.execMrd n ups hbm flits s
  | .mwr n flits => Sys2Proof.Machine.execMwr n flits s
  | .mrsp n flits => Sys2Proof.Machine.execMrsp n flits s
  | .regrd n flits => Sys2Proof.Machine.execRegrd n flits s
  | .regwr n flits => Sys2Proof.Machine.execRegwr n flits s
  | .regrsp n flits => Sys2Proof.Machine.execRegrsp n flits s
  | .tc0PoliceAdmit n ci cycles => Sys2Proof.Machine.execTc0PoliceAdmit n ci cycles s
  | .halt to_ reason flits => Sys2Proof.Machine.execHalt to_ reason flits s
  | .resume to_ flits => Sys2Proof.Machine.execResume to_ flits s
  | .quiesceUrgent e flits => Sys2Proof.Machine.execQuiesceUrgent e flits s
  | .quiesced => Sys2Proof.Machine.execQuiesced s
  | .quiesceTimeout => Sys2Proof.Machine.execQuiesceTimeout s
  | .barrierArrive ci id flits => Sys2Proof.Machine.execBarrierArrive ci id flits s
  | .barrierRelease => Sys2Proof.Machine.execBarrierRelease s
  | .sdlSync n flits => Sys2Proof.Machine.execSdlSync n flits s
  | .sdlSyncSend => Sys2Proof.Machine.execSdlSyncSend s
  | .errorNotice n flits => Sys2Proof.Machine.execErrorNotice n flits s
  | .frontgo who ci v => Sys2Proof.Machine.execFrontgo who ci v s
  | .frontgoHoldTimeout => Sys2Proof.Machine.execFrontgoHoldTimeout s
  | .frontLaunchRequest n flits => Sys2Proof.Machine.execFrontLaunchRequest n flits s
  | .frontStreamStart k hbm => Sys2Proof.Machine.execFrontStreamStart k hbm s
  | .frontMarker n flits => Sys2Proof.Machine.execFrontMarker n flits s
  | .frontTile n flits => Sys2Proof.Machine.execFrontTile n flits s
  | .cstoreEccWriteback ci => Sys2Proof.Machine.execCstoreEccWriteback ci s
  | .rowRepair spare => Sys2Proof.Machine.execRowRepair spare s
  | .hbmPatrolScrub unit e last => Sys2Proof.Machine.execHbmPatrolScrub unit e last s
  | .mramPatrolScrub slot rec bad => Sys2Proof.Machine.execMramPatrolScrub slot rec bad s
  | .gdoneNotice n flits => Sys2Proof.Machine.execGdoneNotice n flits s
  | .ddoneNotice n flits => Sys2Proof.Machine.execDdoneNotice n flits s
  | .factorExchange hbm => Sys2Proof.Machine.execFactorExchange hbm s
  | .factorFoldTile fidx side blk t hbm => Sys2Proof.Machine.execFactorFoldTile fidx side blk t hbm s
  | .grfSubloWrite who k v => Sys2Proof.Machine.execGrfSubloWrite who k v s
  | .grfSubmit who k v => Sys2Proof.Machine.execGrfSubmit who k v s
  | .grafterJobStart k hbm => Sys2Proof.Machine.execGrafterJobStart k hbm s
  | .root k idx => Sys2Proof.Machine.execRoot k idx s
  | .orth k idx => Sys2Proof.Machine.execOrth k idx s
  | .chol k idx => Sys2Proof.Machine.execChol k idx s
  | .trsv k idx => Sys2Proof.Machine.execTrsv k idx s
  | .cg k idx => Sys2Proof.Machine.execCg k idx s
  | .grafterIterationComplete k idx => Sys2Proof.Machine.execGrafterIterationComplete k idx s
  | .jobDeadline k idx => Sys2Proof.Machine.execJobDeadline k idx s
  | .grfAbort k v => Sys2Proof.Machine.execGrfAbort k v s
  | .rakeClose => Sys2Proof.Machine.execRakeClose s
  | .normAllreduce => Sys2Proof.Machine.execNormAllreduce s
  | .sieveDecide => Sys2Proof.Machine.execSieveDecide s
  | .sweepRecord idx hbm => Sys2Proof.Machine.execSweepRecord idx hbm s
  | .workingCopyAudit hbm => Sys2Proof.Machine.execWorkingCopyAudit hbm s
  | .recoverySweep hbm => Sys2Proof.Machine.execRecoverySweep hbm s
  | .stepReplay => Sys2Proof.Machine.execStepReplay s
  | .sieveResume => Sys2Proof.Machine.execSieveResume s
  | .windowClear => Sys2Proof.Machine.execWindowClear s
  | .reduceScatterLayer hbm => Sys2Proof.Machine.execReduceScatterLayer hbm s
  | .collFrame p lseq f hbm => Sys2Proof.Machine.execCollFrame p lseq f hbm s
  | .rsLanded => Sys2Proof.Machine.execRsLanded s
  | .gather hbm => Sys2Proof.Machine.execGather hbm s
  | .permuteAck => Sys2Proof.Machine.execPermuteAck s
  | .permuteCommit => Sys2Proof.Machine.execPermuteCommit s
  | .mgmtFrame p lseq f => Sys2Proof.Machine.execMgmtFrame p lseq f s
  | .frameForward p lseq f => Sys2Proof.Machine.execFrameForward p lseq f s
  | .ack p lseq => Sys2Proof.Machine.execAck p lseq s
  | .nak p lseq => Sys2Proof.Machine.execNak p lseq s
  | .portRetrain p ok => Sys2Proof.Machine.execPortRetrain p ok s
  | .laneSpare p lane => Sys2Proof.Machine.execLaneSpare p lane s
  | .laneLoss p lane => Sys2Proof.Machine.execLaneLoss p lane s
  | .v1msg p peer data => Sys2Proof.Machine.execV1msg p peer data s
  | .helloSend => Sys2Proof.Machine.execHelloSend s
  | .hello p lseq h => Sys2Proof.Machine.execHello p lseq h s
  | .discoveryRootAssign ns => Sys2Proof.Machine.execDiscoveryRootAssign ns s
  | .disc p lseq d => Sys2Proof.Machine.execDisc p lseq d s
  | .portRejoin p h => Sys2Proof.Machine.execPortRejoin p h s
  | .replayReq p lseq f => Sys2Proof.Machine.execReplayReq p lseq f s
  | .sundialSyncTimer ph => Sys2Proof.Machine.execSundialSyncTimer ph s
  | .syncReq p lseq t2 ph => Sys2Proof.Machine.execSyncReq p lseq t2 ph s
  | .syncResp p lseq t2 t3 t4 stamp => Sys2Proof.Machine.execSyncResp p lseq t2 t3 t4 stamp s
  | .parentLost => Sys2Proof.Machine.execParentLost s
  | .rootLost => Sys2Proof.Machine.execRootLost s
  | .launchTime => Sys2Proof.Machine.execLaunchTime s
  | .resetFrame p lseq f => Sys2Proof.Machine.execResetFrame p lseq f s
  | .mailboxDoorbell op payload => Sys2Proof.Machine.execMailboxDoorbell op payload s
  | .slotAck mask => Sys2Proof.Machine.execSlotAck mask s
  | .ticketAck mask => Sys2Proof.Machine.execTicketAck mask s
  | .sliceEnd => Sys2Proof.Machine.execSliceEnd s
  | .getEventRecords => Sys2Proof.Machine.execGetEventRecords s
  | .clearEventRecords => Sys2Proof.Machine.execClearEventRecords s
  | .getEventInterruptPolicy => Sys2Proof.Machine.execGetEventInterruptPolicy s
  | .setEventInterruptPolicy => Sys2Proof.Machine.execSetEventInterruptPolicy s
  | .getFwInfo => Sys2Proof.Machine.execGetFwInfo s
  | .getSupportedLogs => Sys2Proof.Machine.execGetSupportedLogs s
  | .getLog => Sys2Proof.Machine.execGetLog s
  | .getInfo => Sys2Proof.Machine.execGetInfo s
  | .getStatus => Sys2Proof.Machine.execGetStatus s
  | .getTelemetry => Sys2Proof.Machine.execGetTelemetry s
  | .fpflagReduce => Sys2Proof.Machine.execFpflagReduce s
  | .reset => Sys2Proof.Machine.execReset s
  | .quiesce => Sys2Proof.Machine.execQuiesce s
  | .setPowerState => Sys2Proof.Machine.execSetPowerState s
  | .setPowerCap => Sys2Proof.Machine.execSetPowerCap s
  | .broadcastPatch => Sys2Proof.Machine.execBroadcastPatch s
  | .copySram hbm => Sys2Proof.Machine.execCopySram hbm s
  | .layerWrite hbm => Sys2Proof.Machine.execLayerWrite hbm s
  | .layerRead => Sys2Proof.Machine.execLayerRead s
  | .factorWrite hbm => Sys2Proof.Machine.execFactorWrite hbm s
  | .factorRead => Sys2Proof.Machine.execFactorRead s
  | .jobStart hbm => Sys2Proof.Machine.execJobStart hbm s
  | .jobStop => Sys2Proof.Machine.execJobStop s
  | .replayStep => Sys2Proof.Machine.execReplayStep s
  | .skipStep => Sys2Proof.Machine.execSkipStep s
  | .jobResumeStop => Sys2Proof.Machine.execJobResumeStop s
  | .discover => Sys2Proof.Machine.execDiscover s
  | .discoveryRead => Sys2Proof.Machine.execDiscoveryRead s
  | .setGrid => Sys2Proof.Machine.execSetGrid s
  | .shardPermute peers => Sys2Proof.Machine.execShardPermute peers s
  | .planRead => Sys2Proof.Machine.execPlanRead s
  | .v1Send hbm => Sys2Proof.Machine.execV1Send hbm s
  | .groupReset => Sys2Proof.Machine.execGroupReset s
  | .harvestStart => Sys2Proof.Machine.execHarvestStart s
  | .snapshotOpen => Sys2Proof.Machine.execSnapshotOpen s
  | .harvestDrain n hbm refused => Sys2Proof.Machine.execHarvestDrain n hbm refused s
  | .harvestDataReceive p lseq f => Sys2Proof.Machine.execHarvestDataReceive p lseq f s
  | .harvestRestore img => Sys2Proof.Machine.execHarvestRestore img s
  | .selftest fails => Sys2Proof.Machine.execSelftest fails s
  | .marginReplan m => Sys2Proof.Machine.execMarginReplan m s
  | .marginReplanDaily m => Sys2Proof.Machine.execMarginReplanDaily m s
  | .spareRead => Sys2Proof.Machine.execSpareRead s
  | .rgaRead => Sys2Proof.Machine.execRgaRead s
  | .rgaFlush => Sys2Proof.Machine.execRgaFlush s
  | .rgaClear => Sys2Proof.Machine.execRgaClear s
  | .fwStage hbm => Sys2Proof.Machine.execFwStage hbm s
  | .recoveryFwStage img => Sys2Proof.Machine.execRecoveryFwStage img s
  | .fwCommit => Sys2Proof.Machine.execFwCommit s
  | .debugChallenge => Sys2Proof.Machine.execDebugChallenge s
  | .debugUnlock => Sys2Proof.Machine.execDebugUnlock s
  | .toDebugUnlocked => Sys2Proof.Machine.execToDebugUnlocked s
  | .toSecured => Sys2Proof.Machine.execToSecured s
  | .toReturned => Sys2Proof.Machine.execToReturned s
  | .traceRead => Sys2Proof.Machine.execTraceRead s
  | .debugHalt => Sys2Proof.Machine.execDebugHalt s
  | .debugResume => Sys2Proof.Machine.execDebugResume s
  | .memRead hbm => Sys2Proof.Machine.execMemRead hbm s
  | .memWrite hbm => Sys2Proof.Machine.execMemWrite hbm s
  | .debugReset cut => Sys2Proof.Machine.execDebugReset cut s
  | .debugEnd => Sys2Proof.Machine.execDebugEnd s
  | .ticketAbort => Sys2Proof.Machine.execTicketAbort s
  | .v1Identify => Sys2Proof.Machine.execV1Identify s
  | .v1Health => Sys2Proof.Machine.execV1Health s
  | .v1Reset => Sys2Proof.Machine.execV1Reset s
  | .v1SetPcap => Sys2Proof.Machine.execV1SetPcap s
  | .v1GetLog => Sys2Proof.Machine.execV1GetLog s
  | .v1FwUpdate hbm => Sys2Proof.Machine.execV1FwUpdate hbm s
  | .getVersion => Sys2Proof.Machine.execGetVersion s
  | .getCapabilities => Sys2Proof.Machine.execGetCapabilities s
  | .negotiateAlgorithms asym hash dhe aead => Sys2Proof.Machine.execNegotiateAlgorithms asym hash dhe aead s
  | .getDigests => Sys2Proof.Machine.execGetDigests s
  | .getCertificate slot off len => Sys2Proof.Machine.execGetCertificate slot off len s
  | .challenge slot nonce => Sys2Proof.Machine.execChallenge slot nonce s
  | .getMeasurements index sign nonce => Sys2Proof.Machine.execGetMeasurements index sign nonce s
  | .keyExchange slot key => Sys2Proof.Machine.execKeyExchange slot key s
  | .finish id ok => Sys2Proof.Machine.execFinish id ok s
  | .heartbeat id => Sys2Proof.Machine.execHeartbeat id s
  | .keyUpdate id op => Sys2Proof.Machine.execKeyUpdate id op s
  | .endSession id => Sys2Proof.Machine.execEndSession id s
  | .tapChallenge => Sys2Proof.Machine.execTapChallenge s
  | .tapUnlock level token => Sys2Proof.Machine.execTapUnlock level token s
  | .tapEnd => Sys2Proof.Machine.execTapEnd s
  | .idcode => Sys2Proof.Machine.execIdcode s
  | .bypass tdi => Sys2Proof.Machine.execBypass tdi s
  | .samplePreload pins preload => Sys2Proof.Machine.execSamplePreload pins preload s
  | .extest pins next_ => Sys2Proof.Machine.execExtest pins next_ s
  | .nonceExpire => Sys2Proof.Machine.execNonceExpire s
  | .provision => Sys2Proof.Machine.execProvision s
  | .hdmCommit size ways dpa => Sys2Proof.Machine.execHdmCommit size ways dpa s
  | .hdmRead bar4 x n hbm => Sys2Proof.Machine.execHdmRead bar4 x n hbm s
  | .hdmWrite bar4 x data => Sys2Proof.Machine.execHdmWrite bar4 x data s
  | .regResponseTimeout => Sys2Proof.Machine.execRegResponseTimeout s
  | .pciePowerState d => Sys2Proof.Machine.execPciePowerState d s
  | .powerTransitionComplete => Sys2Proof.Machine.execPowerTransitionComplete s
  | .wakeWave => Sys2Proof.Machine.execWakeWave s
  | .throttleUpdate power temps => Sys2Proof.Machine.execThrottleUpdate power temps s
  | .eccBucketRoll => Sys2Proof.Machine.execEccBucketRoll s
  | .laneWindow p lane symbols received => Sys2Proof.Machine.execLaneWindow p lane symbols received s
  | .monitorReading slack => Sys2Proof.Machine.execMonitorReading slack s
  | .spareEyeCheck p ok => Sys2Proof.Machine.execSpareEyeCheck p ok s
  | .rgaSample ch x => Sys2Proof.Machine.execRgaSample ch x s
  | .windowClose => Sys2Proof.Machine.execWindowClose s
  | .sheetWrite => Sys2Proof.Machine.execSheetWrite s
  | .powerOn => Sys2Proof.Machine.execPowerOn s
  | .supplyTrip cause => Sys2Proof.Machine.execSupplyTrip cause s
  | .cxlPerst on => Sys2Proof.Machine.execCxlPerst on s
  | .functionLevelReset => Sys2Proof.Machine.execFunctionLevelReset s
  | .dbgSrst on => Sys2Proof.Machine.execDbgSrst on s
  | .resetRequest cut => Sys2Proof.Machine.execResetRequest cut s
  | .resetRelease cool width modes offers => Sys2Proof.Machine.execResetRelease cool width modes offers s
  | .watchdogKick => Sys2Proof.Machine.execWatchdogKick s
  | .watchdogTimeout => Sys2Proof.Machine.execWatchdogTimeout s
  | .thermalTrip t => Sys2Proof.Machine.execThermalTrip t s
  | .refclkLoss => Sys2Proof.Machine.execRefclkLoss s
  | .refclkReturn => Sys2Proof.Machine.execRefclkReturn s
  | .facCapHeldApply => Sys2Proof.Machine.execFacCapHeldApply s
  | .clearFaults pec => Sys2Proof.Machine.execClearFaults pec s
  | .capability => Sys2Proof.Machine.execCapability s
  | .statusWord uv => Sys2Proof.Machine.execStatusWord uv s
  | .readVin => Sys2Proof.Machine.execReadVin s
  | .readIin => Sys2Proof.Machine.execReadIin s
  | .readPin => Sys2Proof.Machine.execReadPin s
  | .readTemperature1 => Sys2Proof.Machine.execReadTemperature1 s
  | .readTemperature2 => Sys2Proof.Machine.execReadTemperature2 s
  | .readTemperature3 => Sys2Proof.Machine.execReadTemperature3 s
  | .mfrSerial => Sys2Proof.Machine.execMfrSerial s
  | .mfrCoolantFlow => Sys2Proof.Machine.execMfrCoolantFlow s
  | .mfrPowerCap w pec => Sys2Proof.Machine.execMfrPowerCap w pec s
  | .mfrPowerState => Sys2Proof.Machine.execMfrPowerState s
  | .mfrIdentify v => Sys2Proof.Machine.execMfrIdentify v s
  | .mfrEmergArm v pec => Sys2Proof.Machine.execMfrEmergArm v pec s
  | .mfrEmergReset v pec => Sys2Proof.Machine.execMfrEmergReset v pec s
  | .emergArmExpire => Sys2Proof.Machine.execEmergArmExpire s
  | .mfrRgaSummary => Sys2Proof.Machine.execMfrRgaSummary s
  | .alertResponse => Sys2Proof.Machine.execAlertResponse s
  | .facEmergOffAssert => Sys2Proof.Machine.execFacEmergOffAssert s
  | .facEmergOffDeassert => Sys2Proof.Machine.execFacEmergOffDeassert s
  | .coolantFault => Sys2Proof.Machine.execCoolantFault s
  | .coolantGraceExpire => Sys2Proof.Machine.execCoolantGraceExpire s
  | .coolantRestored => Sys2Proof.Machine.execCoolantRestored s
  | .registerRead a be => Sys2Proof.Machine.execRegisterRead a be s
  | .cspMemoryAccess ci a len w ups => Sys2Proof.Machine.execCspMemoryAccess ci a len w ups s
  | .badCrcFrame p crc => Sys2Proof.Machine.execBadCrcFrame p crc s
  | .rowErrorWindowExpire k row => Sys2Proof.Machine.execRowErrorWindowExpire k row s
  | .pmbusUnsupportedCode code badPec => Sys2Proof.Machine.execPmbusUnsupportedCode code badPec s

end Sys2Proof.Machine
end

