-- ==== Sys2Proof/Machine/Step.lean ====
section
/-! DEFINITION. One step of the block: the command at the front of the queue, or one Sundial tick. -/

namespace Sys2Proof.Machine

/-- One step (DESIGN CHOICE on an empty queue: one tick of the Sundial, R313). (DESIGN CHOICE: log 8) -/
def step (s : State) : Host.Outcome State Fault Refusal :=
  match s.pending with
  | [] => .next s.idleTick
  | i :: rest => exec i { s with pending := rest }

/-- `s` with the command a word spells at the front of its queue; no word spells one. -/
def State.withFetchWord (s : State) (nbits w : Nat) : State :=
  match decodeTableWord nbits w with
  | some i => { s with pending := i :: s.pending }
  | none => s

end Sys2Proof.Machine
end

