-- ==== Sys2Proof/Safety.lean ====
section
/-! DEFINITION. What counts as a safe run, and the terms the statements use: a command that runs, the parts of the state a command may
change, and the invariant every step keeps. -/

namespace Sys2Proof.Machine

/-- Command `i` answers a next state, and `P` holds of it. -/
def Runs (i : Instr) (s : State) (P : State → Prop) : Prop := ∃ t, exec i s = .next t ∧ P t

/-- A safe step: the machine goes on. -/
def SafeStep (s : State) : Prop := ∃ t, step s = .next t

/-- The fields of the state. -/
inductive Part where
  | mem
  | flaws
  | hub
  | mbx
  | cores
  | clusters
  | net
  | outbox
  | frontTab
  | frontQ
  | streams
  | frontHeld
  | quietG
  | quiescedG
  | quiesce
  | barrier
  | rake
  | step
  | sieve
  | layers
  | layersNext
  | factors
  | grafters
  | coll
  | links
  | harvest
  | rel
  | gauge
  | mb
  | host
  | sec
  | rst
  | pwr
  | fac
  | hubFlitCe
  | sundial
  | logs
  | logLost
  | policy
  | msix
  | fresh
  | pending
  deriving DecidableEq, Repr

/-- Two states agree on a field. -/
def Part.same (p : Part) (s t : State) : Prop :=
  match p with
  | .mem => t.mem = s.mem
  | .flaws => t.flaws = s.flaws
  | .hub => t.hub = s.hub
  | .mbx => t.mbx = s.mbx
  | .cores => t.cores = s.cores
  | .clusters => t.clusters = s.clusters
  | .net => t.net = s.net
  | .outbox => t.outbox = s.outbox
  | .frontTab => t.frontTab = s.frontTab
  | .frontQ => t.frontQ = s.frontQ
  | .streams => t.streams = s.streams
  | .frontHeld => t.frontHeld = s.frontHeld
  | .quietG => t.quietG = s.quietG
  | .quiescedG => t.quiescedG = s.quiescedG
  | .quiesce => t.quiesce = s.quiesce
  | .barrier => t.barrier = s.barrier
  | .rake => t.rake = s.rake
  | .step => t.step = s.step
  | .sieve => t.sieve = s.sieve
  | .layers => t.layers = s.layers
  | .layersNext => t.layersNext = s.layersNext
  | .factors => t.factors = s.factors
  | .grafters => t.grafters = s.grafters
  | .coll => t.coll = s.coll
  | .links => t.links = s.links
  | .harvest => t.harvest = s.harvest
  | .rel => t.rel = s.rel
  | .gauge => t.gauge = s.gauge
  | .mb => t.mb = s.mb
  | .host => t.host = s.host
  | .sec => t.sec = s.sec
  | .rst => t.rst = s.rst
  | .pwr => t.pwr = s.pwr
  | .fac => t.fac = s.fac
  | .hubFlitCe => t.hubFlitCe = s.hubFlitCe
  | .sundial => t.sundial = s.sundial
  | .logs => t.logs = s.logs
  | .logLost => t.logLost = s.logLost
  | .policy => t.policy = s.policy
  | .msix => t.msix = s.msix
  | .fresh => t.fresh = s.fresh
  | .pending => t.pending = s.pending

/-- `t` differs from `s` in the fields listed at most. -/
def OnlyIn (ps : List Part) (s t : State) : Prop := ∀ p : Part, p ∉ ps → p.same s t

/-- Memory is in its canonical form: addresses strictly rising, no byte equal to what an unlisted address reads as. -/
def Memory.wf (m : Mem) : Bool := Sparse.wf (fun _ => (0 : Byte)) m

/-- The units the module has: 8 slots, 8 tickets, 8 Grafters of 4 slots, 4 ports (R213, R293, R330, R331). -/
def State.shaped (s : State) : Bool :=
  s.mb.slots.length == 8 && s.mb.tickets.length == 8 && s.grafters.length == 8 && (s.grafters.all fun g => g.slots.length == 4)
    && s.links.ports.length == 4

/-- No event log holds more than its 256 records (R339), and the mailbox no more than 32 commands (R329). -/
def State.bounded (s : State) : Bool :=
  ((List.range 4).all fun l => decide ((s.logs.filter fun e => e.log == l).length ≤ 256)) && decide (s.mb.cmds.length ≤ 32)

/-- The invariant every step keeps. -/
def State.Inv (s : State) : Prop := Memory.wf s.mem = true ∧ s.shaped = true ∧ s.bounded = true

end Sys2Proof.Machine
end

