-- ==== Sys2Proof/WellFormed.lean ====
section
/-! DEFINITION. Which commands can be: every operand is one that the spec's coordinates, widths and lengths admit. -/

namespace Sys2Proof.Machine

/-- An endpoint the module has (R19, R150, R165). -/
def Endpoint.wf (e : Endpoint) : Bool :=
  match e with
  | .core gi => decide (gi < nCores)
  | .cluster ci => decide (ci < nClusters)
  | .hub => true
  | .grafter k => decide (k < 8)
  | .hbm k => decide (k < 16)

/-- An agent the module has. -/
def Agent.wf (a : Agent) : Bool :=
  match a with
  | .csp ci => decide (ci < nClusters)
  | _ => true

/-- An offset inside its window (R321). -/
def RegPlace.wf (p : RegPlace) : Bool :=
  match p with
  | .hub off => decide (off < 0x10000)
  | .front off => decide (off < 0x10000)
  | .grafter k off => decide (k < 8) && decide (off < 0x1000)
  | .cluster ci off => decide (ci < nClusters) && decide (off < 0x20000)
  | .core gi off => decide (gi < nCores) && decide (off < 0x1000)
  | .bar0 off => decide (off < 0x10000)
  | .unmapped => true

/-- An address its agent can present (R138, R320, R321). -/
def RegAddr.wf (a : RegAddr) : Bool :=
  match a with
  | .bar0 off => decide (off < 2 ^ 16)
  | .bar2 off => decide (off < 2 ^ 28)
  | .csp ci addr => decide (ci < nClusters) && decide (addr < 2 ^ 32)
  | .shed p => p.wf

/-- An upset strikes bits of one stored 64-bit word of memory or of a weight slot (R79, R168). -/
def Upset.wf (u : Upset) : Bool := decide (u.word < 0x200000000000 + 1088 * nCores) && decide (u.mask < 2 ^ 64)

/-- Where a flit error was detected (R149). -/
def flitAtWf (a : Option Nat) : Bool :=
  match a with
  | some ci => decide (ci < nClusters)
  | none => true

def FlitErr.wf (f : FlitErr) : Bool :=
  match f with
  | .corrected a => flitAtWf a
  | .payload a flit mask => flitAtWf a && decide (flit < 128) && decide (mask < 2 ^ 256)
  | .header a => flitAtWf a

/-- A target on the module (R146). -/
def UrgTarget.wf (u : UrgTarget) : Bool :=
  match u with
  | .core gi => decide (gi < nCores)
  | .cluster ci => decide (ci < nClusters)
  | .rect x0 y0 x1 y1 mask => decide (x0 ≤ x1) && decide (x1 < 128) && decide (y0 ≤ y1) && decide (y1 < 40) && decide (mask < 2 ^ 64)

/-- An error lies in one 32-byte unit of HBM (R169). -/
def HbmErr.wf (e : HbmErr) : Bool :=
  match e with
  | .corrected unit => decide (unit < 2 ^ 34)
  | .uncorrectable unit mask _ => decide (unit < 2 ^ 34) && decide (mask < 2 ^ 256)

/-- Coordinates, tag and virtual channel fit the frame header (R297). -/
def Frame.wf (f : Frame) : Bool :=
  decide (f.sx < 8) && decide (f.sy < 8) && decide (f.dx < 8) && decide (f.dy < 8) && decide (f.tag < 2 ^ 16) && decide (f.vc < 4)

def HelloMsg.wf (h : HelloMsg) : Bool := decide (h.serial < 2 ^ 64) && decide (h.port < 4) && decide (h.lcs < 4) && decide (h.jobTag < 2 ^ 16)

def DiscMsg.wf (d : DiscMsg) : Bool :=
  match d with
  | .table entries xs ys => decide (entries.length ≤ xs * ys) && decide (xs ≤ 8) && decide (ys ≤ 8)
  | .fail => true

def Node.wf (n : Node) : Bool := decide (n.serial < 2 ^ 64) && n.peers.length == 4 && n.skip.all fun p => decide (p < 4)

def Peer.wf (p : Peer) : Bool := decide (p.code < 64) && decide (p.tag < 2 ^ 16)

/-- A unit the self-tests name (R351, R352). -/
def TestUnit.wf (u : TestUnit) : Bool :=
  match u with
  | .core ci p => decide (ci < nClusters) && decide (p < 68)
  | .store ci => decide (ci < nClusters)
  | .router ci => decide (ci < nClusters)
  | .bridge ci => decide (ci < nClusters)
  | .stack k => decide (k < 16)
  | .port p => decide (p < 4)

/-- Readings name dies, settings and cores the module has (R347, R348). -/
def Margin.wf (m : Margin) : Bool :=
  (m.reads.all fun r => decide (r.die < 8) && decide (r.div < 2) && r.low.all fun e => decide (e.1 < nClusters) && decide (e.2.1 < 68))
    && m.capped.all fun e => decide (e.1 < 8) && decide (e.2.1 < 2)

end Sys2Proof.Machine

namespace Sys2Proof

open Sys2Proof.Machine

/-- A well-formed command. (DEDUCED: log 4) -/
def Instr.wf (i : Instr) : Bool :=
  match i with
  | .registerWrite a v be => a.wf && decide (v < 2 ^ 32) && decide (be < 16)
  | .rwpCommit => true
  | .loReadLatch a => a.wf
  | .coldFrameAccess a w => a.wf && (match w with | some v => decide (v < 2 ^ 32) | none => true)
  | .listEntryFetch gi ups => decide (gi < nCores) && ups.all Upset.wf
  | .descIssue gi => decide (gi < nCores)
  | .chainBodyLoad gi ups => decide (gi < nCores) && ups.all Upset.wf
  | .descComplete gi => decide (gi < nCores)
  | .descEngineStop gi => decide (gi < nCores)
  | .nop gi => decide (gi < nCores)
  | .pass gi ups => decide (gi < nCores) && ups.all Upset.wf
  | .emul gi => decide (gi < nCores)
  | .eadd gi => decide (gi < nCores)
  | .efma gi => decide (gi < nCores)
  | .chain gi ups => decide (gi < nCores) && ups.all Upset.wf
  | .fill gi ups => decide (gi < nCores) && ups.all Upset.wf
  | .fillT gi ups => decide (gi < nCores) && ups.all Upset.wf
  | .fillIn gi => decide (gi < nCores)
  | .fillComplete gi => decide (gi < nCores)
  | .load gi => decide (gi < nCores)
  | .store gi => decide (gi < nCores)
  | .send gi => decide (gi < nCores)
  | .sendInject gi => decide (gi < nCores)
  | .post gi => decide (gi < nCores)
  | .postArm gi => decide (gi < nCores)
  | .rakeSq gi ups hbm => decide (gi < nCores) && ups.all Upset.wf && hbm.all HbmErr.wf
  | .repeatEntry gi => decide (gi < nCores)
  | .resultLand gi => decide (gi < nCores)
  | .lmemEccWriteback gi => decide (gi < nCores)
  | .vnop gi w => decide (gi < nCores) && decide (w < 2 ^ 64)
  | .vadd gi w => decide (gi < nCores) && decide (w < 2 ^ 64)
  | .vsub gi w => decide (gi < nCores) && decide (w < 2 ^ 64)
  | .vmul gi w => decide (gi < nCores) && decide (w < 2 ^ 64)
  | .vfma gi w => decide (gi < nCores) && decide (w < 2 ^ 64)
  | .vfnma gi w => decide (gi < nCores) && decide (w < 2 ^ 64)
  | .vmax gi w => decide (gi < nCores) && decide (w < 2 ^ 64)
  | .vmin gi w => decide (gi < nCores) && decide (w < 2 ^ 64)
  | .vabs gi w => decide (gi < nCores) && decide (w < 2 ^ 64)
  | .vneg gi w => decide (gi < nCores) && decide (w < 2 ^ 64)
  | .vceq gi w => decide (gi < nCores) && decide (w < 2 ^ 64)
  | .vclt gi w => decide (gi < nCores) && decide (w < 2 ^ 64)
  | .vcle gi w => decide (gi < nCores) && decide (w < 2 ^ 64)
  | .vclass gi w => decide (gi < nCores) && decide (w < 2 ^ 64)
  | .vsel gi w => decide (gi < nCores) && decide (w < 2 ^ 64)
  | .vmov gi w => decide (gi < nCores) && decide (w < 2 ^ 64)
  | .vand gi w => decide (gi < nCores) && decide (w < 2 ^ 64)
  | .vor gi w => decide (gi < nCores) && decide (w < 2 ^ 64)
  | .vxor gi w => decide (gi < nCores) && decide (w < 2 ^ 64)
  | .vshl gi w => decide (gi < nCores) && decide (w < 2 ^ 64)
  | .vsra gi w => decide (gi < nCores) && decide (w < 2 ^ 64)
  | .vsrl gi w => decide (gi < nCores) && decide (w < 2 ^ 64)
  | .viadd gi w => decide (gi < nCores) && decide (w < 2 ^ 64)
  | .visub gi w => decide (gi < nCores) && decide (w < 2 ^ 64)
  | .vdiv gi w => decide (gi < nCores) && decide (w < 2 ^ 64)
  | .vsqrt gi w => decide (gi < nCores) && decide (w < 2 ^ 64)
  | .vcvt gi w => decide (gi < nCores) && decide (w < 2 ^ 64)
  | .vcvtMx gi w => decide (gi < nCores) && decide (w < 2 ^ 64)
  | .vcvtwMx gi w => decide (gi < nCores) && decide (w < 2 ^ 64)
  | .vlsplit gi w => decide (gi < nCores) && decide (w < 2 ^ 64)
  | .vljoin gi w => decide (gi < nCores) && decide (w < 2 ^ 64)
  | .vld gi w ups => decide (gi < nCores) && decide (w < 2 ^ 64) && ups.all Upset.wf
  | .vst gi w ups => decide (gi < nCores) && decide (w < 2 ^ 64) && ups.all Upset.wf
  | .vlds gi w ups => decide (gi < nCores) && decide (w < 2 ^ 64) && ups.all Upset.wf
  | .vsts gi w ups => decide (gi < nCores) && decide (w < 2 ^ 64) && ups.all Upset.wf
  | .accrd gi w => decide (gi < nCores) && decide (w < 2 ^ 64)
  | .vredSum gi w => decide (gi < nCores) && decide (w < 2 ^ 64)
  | .vredMax gi w => decide (gi < nCores) && decide (w < 2 ^ 64)
  | .vredMin gi w => decide (gi < nCores) && decide (w < 2 ^ 64)
  | .vred2Norm gi w => decide (gi < nCores) && decide (w < 2 ^ 64)
  | .vred2Smax gi w => decide (gi < nCores) && decide (w < 2 ^ 64)
  | .vexp2 gi w => decide (gi < nCores) && decide (w < 2 ^ 64)
  | .vexp gi w => decide (gi < nCores) && decide (w < 2 ^ 64)
  | .vlog2 gi w => decide (gi < nCores) && decide (w < 2 ^ 64)
  | .vrcp gi w => decide (gi < nCores) && decide (w < 2 ^ 64)
  | .vrsq gi w => decide (gi < nCores) && decide (w < 2 ^ 64)
  | .vsinpi gi w => decide (gi < nCores) && decide (w < 2 ^ 64)
  | .vcospi gi w => decide (gi < nCores) && decide (w < 2 ^ 64)
  | .vtanh gi w => decide (gi < nCores) && decide (w < 2 ^ 64)
  | .verf gi w => decide (gi < nCores) && decide (w < 2 ^ 64)
  | .vleaf gi w => decide (gi < nCores) && decide (w < 2 ^ 64)
  | .tokincWrite gi tok inc => decide (gi < nCores) && decide (tok < 32) && decide (inc < 256)
  | .cluLselWrite ci sel => decide (ci < nClusters) && decide (sel < 4)
  | .patch gi first vals => decide (gi < nCores) && decide (first + vals.length ≤ 64) && vals.all (fun v => decide (v < 2 ^ 32))
  | .broadcastPatchLand => true
  | .listComplete gi => decide (gi < nCores)
  | .replay => true
  | .rampGroupRelease g => decide (g < 8)
  | .auditRepair _ hbm => hbm.all HbmErr.wf
  | .spareCoreSwap ups m => ups.all Upset.wf && m.wf
  | .shardPermuteRun hbm => hbm.all HbmErr.wf
  | .rollingBistSlice _ fails => fails.all TestUnit.wf
  | .phaseSwitch => true
  | .msg _ flits => flits.all FlitErr.wf
  | .token _ flits => flits.all FlitErr.wf
  | .credit _ flits => flits.all FlitErr.wf
  | .mrd _ ups hbm flits => ups.all Upset.wf && hbm.all HbmErr.wf && flits.all FlitErr.wf
  | .mwr _ flits => flits.all FlitErr.wf
  | .mrsp _ flits => flits.all FlitErr.wf
  | .regrd _ flits => flits.all FlitErr.wf
  | .regwr _ flits => flits.all FlitErr.wf
  | .regrsp _ flits => flits.all FlitErr.wf
  | .tc0PoliceAdmit _ ci _ => decide (ci < nClusters)
  | .halt to_ reason flits => to_.wf && decide (reason < 2 ^ 64) && flits.all FlitErr.wf
  | .resume to_ flits => to_.wf && flits.all FlitErr.wf
  | .quiesceUrgent e flits => e.wf && flits.all FlitErr.wf
  | .quiesced => true
  | .quiesceTimeout => true
  | .barrierArrive ci id flits => decide (ci < nClusters) && decide (id < 2 ^ 64) && flits.all FlitErr.wf
  | .barrierRelease => true
  | .sdlSync _ flits => flits.all FlitErr.wf
  | .sdlSyncSend => true
  | .errorNotice _ flits => flits.all FlitErr.wf
  | .frontgo who ci v => who.wf && decide (ci < nClusters) && decide (v < 2 ^ 32)
  | .frontgoHoldTimeout => true
  | .frontLaunchRequest _ flits => flits.all FlitErr.wf
  | .frontStreamStart k hbm => decide (k < 16) && hbm.all HbmErr.wf
  | .frontMarker _ flits => flits.all FlitErr.wf
  | .frontTile _ flits => flits.all FlitErr.wf
  | .cstoreEccWriteback ci => decide (ci < nClusters)
  | .rowRepair _ => true
  | .hbmPatrolScrub unit e _ => decide (unit < 2 ^ 34) && e.all HbmErr.wf
  | .mramPatrolScrub slot rec bad => decide (slot < 8192) && decide (rec < 128) && (match bad with | some bs => bs.length == 64 | none => true)
  | .gdoneNotice _ flits => flits.all FlitErr.wf
  | .ddoneNotice _ flits => flits.all FlitErr.wf
  | .factorExchange hbm => hbm.all HbmErr.wf
  | .factorFoldTile fidx side blk _ hbm => decide (fidx < 2048) && decide (side < 2) && decide (blk < 8) && hbm.all HbmErr.wf
  | .grfSubloWrite who k v => who.wf && decide (k < 8) && decide (v < 2 ^ 32)
  | .grfSubmit who k v => who.wf && decide (k < 8) && decide (v < 2 ^ 32)
  | .grafterJobStart k hbm => decide (k < 8) && hbm.all HbmErr.wf
  | .root k i => decide (k < 8) && decide (i < 4)
  | .orth k i => decide (k < 8) && decide (i < 4)
  | .chol k i => decide (k < 8) && decide (i < 4)
  | .trsv k i => decide (k < 8) && decide (i < 4)
  | .cg k i => decide (k < 8) && decide (i < 4)
  | .grafterIterationComplete k i => decide (k < 8) && decide (i < 4)
  | .jobDeadline k i => decide (k < 8) && decide (i < 4)
  | .grfAbort k v => decide (k < 8) && decide (v < 2 ^ 32)
  | .rakeClose => true
  | .normAllreduce => true
  | .sieveDecide => true
  | .sweepRecord _ hbm => hbm.all HbmErr.wf
  | .workingCopyAudit hbm => hbm.all HbmErr.wf
  | .recoverySweep hbm => hbm.all HbmErr.wf
  | .stepReplay => true
  | .sieveResume => true
  | .windowClear => true
  | .reduceScatterLayer hbm => hbm.all HbmErr.wf
  | .collFrame p lseq f hbm => decide (p < 4) && decide (lseq < 2 ^ 16) && f.wf && hbm.all HbmErr.wf
  | .rsLanded => true
  | .gather hbm => hbm.all HbmErr.wf
  | .permuteAck => true
  | .permuteCommit => true
  | .mgmtFrame p lseq f => decide (p < 4) && decide (lseq < 2 ^ 16) && f.wf
  | .frameForward p lseq f => decide (p < 4) && decide (lseq < 2 ^ 16) && f.wf
  | .ack p lseq => decide (p < 4) && decide (lseq < 2 ^ 16)
  | .nak p lseq => decide (p < 4) && decide (lseq < 2 ^ 16)
  | .portRetrain p _ => decide (p < 4)
  | .laneSpare p lane => decide (p < 4) && decide (lane < 3)
  | .laneLoss p lane => decide (p < 4) && decide (lane < 3)
  | .v1msg p peer data => decide (p < 4) && decide (peer < 2 ^ 64) && decide (data.length ≤ 4096)
  | .helloSend => true
  | .hello p lseq h => decide (p < 4) && decide (lseq < 2 ^ 16) && h.wf
  | .discoveryRootAssign ns => ns.all Node.wf
  | .disc p lseq d => decide (p < 4) && decide (lseq < 2 ^ 16) && d.wf
  | .portRejoin p h => decide (p < 4) && (match h with | some h => h.wf | none => true)
  | .replayReq p lseq f => decide (p < 4) && decide (lseq < 2 ^ 16) && f.wf
  | .sundialSyncTimer ph => decide (ph < 16)
  | .syncReq p lseq _ ph => decide (p < 4) && decide (lseq < 2 ^ 16) && decide (ph < 16)
  | .syncResp p lseq _ _ _ _ => decide (p < 4) && decide (lseq < 2 ^ 16)
  | .parentLost => true
  | .rootLost => true
  | .launchTime => true
  | .resetFrame p lseq f => decide (p < 4) && decide (lseq < 2 ^ 16) && f.wf
  | .mailboxDoorbell op payload => decide (op < 2 ^ 16) && decide (payload.length ≤ 8192)
  | .slotAck mask => decide (mask < 256)
  | .ticketAck mask => decide (mask < 256)
  | .sliceEnd => true
  | .getEventRecords => true
  | .clearEventRecords => true
  | .getEventInterruptPolicy => true
  | .setEventInterruptPolicy => true
  | .getFwInfo => true
  | .getSupportedLogs => true
  | .getLog => true
  | .getInfo => true
  | .getStatus => true
  | .getTelemetry => true
  | .fpflagReduce => true
  | .reset => true
  | .quiesce => true
  | .setPowerState => true
  | .setPowerCap => true
  | .broadcastPatch => true
  | .copySram hbm => hbm.all HbmErr.wf
  | .layerWrite hbm => hbm.all HbmErr.wf
  | .layerRead => true
  | .factorWrite hbm => hbm.all HbmErr.wf
  | .factorRead => true
  | .jobStart hbm => hbm.all HbmErr.wf
  | .jobStop => true
  | .replayStep => true
  | .skipStep => true
  | .jobResumeStop => true
  | .discover => true
  | .discoveryRead => true
  | .setGrid => true
  | .shardPermute peers => peers.all Peer.wf
  | .planRead => true
  | .v1Send hbm => hbm.all HbmErr.wf
  | .groupReset => true
  | .harvestStart => true
  | .snapshotOpen => true
  | .harvestDrain _ hbm _ => hbm.all HbmErr.wf
  | .harvestDataReceive p lseq f => decide (p < 4) && decide (lseq < 2 ^ 16) && f.wf
  | .harvestRestore _ => true
  | .selftest fails => fails.all TestUnit.wf
  | .marginReplan m => m.wf
  | .marginReplanDaily m => m.wf
  | .spareRead => true
  | .rgaRead => true
  | .rgaFlush => true
  | .rgaClear => true
  | .fwStage hbm => hbm.all HbmErr.wf
  | .recoveryFwStage _ => true
  | .fwCommit => true
  | .debugChallenge => true
  | .debugUnlock => true
  | .toDebugUnlocked => true
  | .toSecured => true
  | .toReturned => true
  | .traceRead => true
  | .debugHalt => true
  | .debugResume => true
  | .memRead hbm => hbm.all HbmErr.wf
  | .memWrite hbm => hbm.all HbmErr.wf
  | .debugReset cut => cut.all Endpoint.wf
  | .debugEnd => true
  | .ticketAbort => true
  | .v1Identify => true
  | .v1Health => true
  | .v1Reset => true
  | .v1SetPcap => true
  | .v1GetLog => true
  | .v1FwUpdate hbm => hbm.all HbmErr.wf
  | .getVersion => true
  | .getCapabilities => true
  | .negotiateAlgorithms _ _ _ _ => true
  | .getDigests => true
  | .getCertificate slot _ _ => decide (slot < 8)
  | .challenge slot nonce => decide (slot < 8) && nonce.length == 32
  | .getMeasurements index sign nonce => decide (index < 256) && (!sign || nonce.length == 32)
  | .keyExchange slot _ => decide (slot < 8)
  | .finish id _ => decide (id < 2 ^ 32)
  | .heartbeat id => decide (id < 2 ^ 32)
  | .keyUpdate id op => decide (id < 2 ^ 32) && decide (op < 4)
  | .endSession id => decide (id < 2 ^ 32)
  | .tapChallenge => true
  | .tapUnlock _ _ => true
  | .tapEnd => true
  | .idcode => true
  | .bypass _ => true
  | .samplePreload _ _ => true
  | .extest _ _ => true
  | .nonceExpire => true
  | .provision => true
  | .hdmCommit _ _ _ => true
  | .hdmRead _ x n hbm => decide (x + n ≤ 2 ^ 39) && hbm.all HbmErr.wf
  | .hdmWrite _ x data => decide (x + data.length ≤ 2 ^ 39)
  | .regResponseTimeout => true
  | .pciePowerState d => (d == 0 || d == 3 || d == 4)
  | .powerTransitionComplete => true
  | .wakeWave => true
  | .throttleUpdate _ _ => true
  | .eccBucketRoll => true
  | .laneWindow p lane _ _ => decide (p < 4) && decide (lane < 3)
  | .monitorReading _ => true
  | .spareEyeCheck p _ => decide (p < 4)
  | .rgaSample ch x => decide (ch < 64) && decide (x < 2 ^ 32)
  | .windowClose => true
  | .sheetWrite => true
  | .powerOn => true
  | .supplyTrip _ => true
  | .cxlPerst _ => true
  | .functionLevelReset => true
  | .dbgSrst _ => true
  | .resetRequest cut => cut.all Endpoint.wf
  | .resetRelease _ width modes offers => [1, 2, 4, 8, 16].contains width && !modes.isEmpty && (modes.all fun m => decide (m < 6)) && offers.length == 4
  | .watchdogKick => true
  | .watchdogTimeout => true
  | .thermalTrip _ => true
  | .refclkLoss => true
  | .refclkReturn => true
  | .facCapHeldApply => true
  | .clearFaults _ => true
  | .capability => true
  | .statusWord _ => true
  | .readVin => true
  | .readIin => true
  | .readPin => true
  | .readTemperature1 => true
  | .readTemperature2 => true
  | .readTemperature3 => true
  | .mfrSerial => true
  | .mfrCoolantFlow => true
  | .mfrPowerCap w _ => (match w with | some v => decide (v < 2 ^ 16) | none => true)
  | .mfrPowerState => true
  | .mfrIdentify v => (match v with | some v => decide (v < 2 ^ 8) | none => true)
  | .mfrEmergArm v _ => decide (v < 2 ^ 8)
  | .mfrEmergReset v _ => decide (v < 2 ^ 8)
  | .emergArmExpire => true
  | .mfrRgaSummary => true
  | .alertResponse => true
  | .facEmergOffAssert => true
  | .facEmergOffDeassert => true
  | .coolantFault => true
  | .coolantGraceExpire => true
  | .coolantRestored => true
  | .registerRead a be => a.wf && decide (be < 256)
  | .cspMemoryAccess ci a len w ups => decide (ci < nClusters) && (decide (a < 2 ^ 32) && a % len == 0) && (len == 1 || len == 2 || len == 4) && (match w with | some v => decide (v < 2 ^ 32) | none => true) && ups.all Upset.wf
  | .badCrcFrame p _ => decide (p < 4)
  | .rowErrorWindowExpire k _ => decide (k < 16)
  | .pmbusUnsupportedCode code _ => decide (code < 256)

end Sys2Proof
end

