-- ==== Sys2Proof/Certificates/Slice0/Obligations.lean ====
section
/-! DEFINITION. The statements for the provers. -/

open Sys2Proof Sys2Proof.Machine

namespace Sys2Proof.Claims

/-- A command answers this next state. -/
abbrev Gives (i : Instr) (s t : State) : Prop := exec i s = .next t

/-- The host's accesses are made at once: its link is up, and none waits behind a launch of its own (R173). -/
def hostFree (s : State) : Prop := s.linkReady = true ∧ s.hostHeld = false ∧ s.host.behind = []

/-- An agent's access is made at once: it can be made, and none of the host's waits behind a launch of its own (R173). -/
def agentFree (s : State) (who : Agent) : Prop := s.agentUp who = true ∧ (who = .host → s.hostHeld = false ∧ s.host.behind = [])

/-- Core, opcode and word of the vector commands that move no memory, but for VLEAF. -/
def vectorRow (i : Instr) : Option (Nat × Nat × Nat) :=
  match i with
  | .vnop gi w => some (gi, 0x00, w)
  | .vadd gi w => some (gi, 0x01, w)
  | .vsub gi w => some (gi, 0x02, w)
  | .vmul gi w => some (gi, 0x03, w)
  | .vfma gi w => some (gi, 0x04, w)
  | .vfnma gi w => some (gi, 0x05, w)
  | .vmax gi w => some (gi, 0x06, w)
  | .vmin gi w => some (gi, 0x07, w)
  | .vabs gi w => some (gi, 0x08, w)
  | .vneg gi w => some (gi, 0x09, w)
  | .vceq gi w => some (gi, 0x0A, w)
  | .vclt gi w => some (gi, 0x0B, w)
  | .vcle gi w => some (gi, 0x0C, w)
  | .vclass gi w => some (gi, 0x0D, w)
  | .vsel gi w => some (gi, 0x0E, w)
  | .vmov gi w => some (gi, 0x0F, w)
  | .vand gi w => some (gi, 0x10, w)
  | .vor gi w => some (gi, 0x11, w)
  | .vxor gi w => some (gi, 0x12, w)
  | .vshl gi w => some (gi, 0x13, w)
  | .vsra gi w => some (gi, 0x14, w)
  | .vsrl gi w => some (gi, 0x15, w)
  | .viadd gi w => some (gi, 0x16, w)
  | .visub gi w => some (gi, 0x17, w)
  | .vdiv gi w => some (gi, 0x18, w)
  | .vsqrt gi w => some (gi, 0x19, w)
  | .vcvt gi w => some (gi, 0x20, w)
  | .vcvtMx gi w => some (gi, 0x21, w)
  | .vcvtwMx gi w => some (gi, 0x22, w)
  | .vlsplit gi w => some (gi, 0x23, w)
  | .vljoin gi w => some (gi, 0x24, w)
  | .accrd gi w => some (gi, 0x40, w)
  | .vredSum gi w => some (gi, 0x50, w)
  | .vredMax gi w => some (gi, 0x51, w)
  | .vredMin gi w => some (gi, 0x52, w)
  | .vred2Norm gi w => some (gi, 0x58, w)
  | .vred2Smax gi w => some (gi, 0x59, w)
  | .vexp2 gi w => some (gi, 0x60, w)
  | .vexp gi w => some (gi, 0x61, w)
  | .vlog2 gi w => some (gi, 0x62, w)
  | .vrcp gi w => some (gi, 0x63, w)
  | .vrsq gi w => some (gi, 0x64, w)
  | .vsinpi gi w => some (gi, 0x65, w)
  | .vcospi gi w => some (gi, 0x66, w)
  | .vtanh gi w => some (gi, 0x67, w)
  | .verf gi w => some (gi, 0x68, w)
  | _ => none

/-- The word a vector command issues: its opcode in the OP field. -/
abbrev vword (op w : Nat) : Nat := putBits w 0 8 op

/-- The core as a word of opcode `op` finds it when it issues: the wait counted, and everything due by then landed. -/
def atIssue (s : State) (gi op w : Nat) : CX :=
  let x := s.vctx gi
  let t := x.issueAt (vword op w)
  { x with c := (x.c.count .CORE_VSTAT 0 16 (t - x.slotOf (vword op w))).land x.idx t }

/-- A word may issue: the core runs, the word is legal, and no source is pending when it issues. -/
def wordReady (s : State) (gi op w : Nat) : Prop :=
  (s.core gi).halted = false ∧ (s.vctx gi).vRuns (vword op w) = true ∧
    ∀ r ∈ (atIssue s gi op w).vSources (vword op w), (atIssue s gi op w).c.pending r = false

/-- The results of a word put in flight by core `c`, to land at `due`. -/
def inFlight (c : Core) (due : Nat) (rs : List (Nat × Nat)) : List Flight :=
  rs.mapIdx fun k r => ⟨r.1, due, c.seq + k, r.2, none⟩

/-- A descriptor fires no signal. -/
abbrev noSignals (d : Nat) : Prop := dSigKind d 0 = 0 ∧ dSigKind d 1 = 0

/-- No trace session is open (R423). -/
abbrev untraced (s : State) : Prop := s.hf .DBG_STAT 0 0 2 = 0

/-- Every core but one is as before. -/
abbrev otherCores (gi : Nat) (s t : State) : Prop := ∀ gj, gj ≠ gi → t.core gj = s.core gj

/-- A Ngumal command with opcode `op` waits at the head of the mailbox queue, may run, and names a slot that exists. -/
def Waits (s : State) (op : Nat) (c : Cmd) : Prop :=
  s.mailboxUp = true ∧ s.mb.cmds.head? = some c ∧ c.opcode = op ∧ c.slot < 8 ∧ s.mb.slots.length = 8

/-- The command has left the queue and its slot holds a VALID response. -/
def Answered (s t : State) (c : Cmd) (status : Nat) (data : List Byte) : Prop :=
  t.mb.cmds = s.mb.cmds.tail ∧ t.slot c.slot = ⟨2, c.tag, status, data, false, 0⟩

/-- What an L command needs besides: its resource free and a ticket. -/
def Tickets (s : State) (op n : Nat) : Prop := s.resourceBusy op = false ∧ s.freeTicket = some n ∧ s.mb.tickets.length = 8

/-- An L command was answered IN_PROGRESS with ticket `n`, which runs. -/
def Opened (s t : State) (c : Cmd) (n : Nat) : Prop :=
  Answered s t c St.IN_PROGRESS (toLe 4 n) ∧ t.ticket n = ⟨true, false, c.tag, St.IN_PROGRESS, 0, c.opcode, c.body, false⟩

/-- An L command was answered IN_PROGRESS with ticket `n`, which has ended with a status. -/
def Ended (s t : State) (c : Cmd) (n status : Nat) : Prop :=
  Answered s t c St.IN_PROGRESS (toLe 4 n) ∧ t.ticket n = ⟨true, true, c.tag, status, 100, c.opcode, c.body, false⟩

/-- The 64 bytes of a completion record (R328). -/
def recordBytes (s : State) (c : Cmd) (n status len : Nat) : List Byte :=
  toLe 2 status ++ toLe 2 c.tag ++ toLe 1 n ++ toLe 3 0 ++ toLe 4 len ++ toLe 8 s.sundial ++ toLe 40 0 ++ toLe 4 1

/-- What a written layer entry holds: a reserved RULE leaves the field as it was (R12). -/
def keptRule (old new : Nat) : Nat := if bits new 320 4 ≤ 7 then new else putBits new 320 4 (bits old 320 4)

/-- A frame with this LSEQ is the next in order on a port that carries frames. -/
def InOrder (s : State) (p lseq : Nat) : Prop := s.portUp p = true ∧ lseq % 2 ^ 16 = (s.port p).rx ∧ s.links.ports.length = 4

/-- The frame was accepted: the port expects the next LSEQ and has acknowledged this one. -/
def Taken (s t : State) (p : Nat) : Prop :=
  (t.port p).rx = ((s.port p).rx + 1) % 2 ^ 16 ∧ (t.port p).acked = ((s.port p).rx + 1) % 2 ^ 16 ∧ (t.port p).nak = false

/-- A frame with body `b` went out on port `q`, on VC `vc`, last in its retry buffer. -/
def SentOn (s t : State) (q vc : Nat) (b : FrameBody) : Prop :=
  (t.port q).retry = (s.port q).retry ++ [⟨(s.port q).tx, ⟨s.myX, s.myY, s.myX, s.myY, s.jobTag, vc, b⟩, 0⟩]

/-- A DISC body went out on port `q`, last in its retry buffer, with the coordinates the module has after it. -/
def Spread (s t : State) (q : Nat) (d : DiscMsg) : Prop :=
  (t.port q).retry = (s.port q).retry ++ [⟨(s.port q).tx, ⟨t.myX, t.myY, t.myX, t.myY, s.jobTag, 1, .disc d⟩, 0⟩]

/-- Discovery has ended with a table, in which `e` is the module's own entry: its coordinates, its place in the Sundial tree. -/
def Settled (s t : State) (e : DiscEntry) (tb : List DiscEntry) (xs ys : Nat) : Prop :=
  t.links.running = false ∧ t.links.table = tb ∧ t.links.parent = e.parent ∧ t.links.depth = e.depth ∧ t.links.respTick = s.sundial ∧
    t.hf .SDL_STAT 0 2 1 = b2n e.parent.isNone ∧ (e.parent = none → t.hf .SDL_STAT 0 0 2 = 2) ∧ t.hf .LNK_COORD 0 13 1 = 1 ∧
    (s.hf .LNK_COORD 0 12 1 = 0 → s.step.job = false → s.frozen (hubKey .LNK_COORD 0) = false →
      t.hf .LNK_COORD 0 0 12 = (e.x + 8 * e.y + 64 * (xs - 1) + 512 * (ys - 1)) % 4096) ∧
    (s.hf .LNK_COORD 0 12 1 = 1 → t.hf .LNK_COORD 0 0 12 = s.hf .LNK_COORD 0 0 12)

/-- The state in which a port has accepted the frame it expected (R300). -/
def received (s : State) (p : Nat) : State :=
  s.setPort p { s.port p with rx := ((s.port p).rx + 1) % 2 ^ 16, nak := false, acked := ((s.port p).rx + 1) % 2 ^ 16 }

/-- A slot of a Grafter that exists. -/
def Place (s : State) (k i : Nat) : Prop := k < 8 ∧ i < 4 ∧ s.grafters.length = 8 ∧ (s.grafter k).slots.length = 4

/-- A job of slot `i` works: beside its Grafter, only what the cores of its region and the memory it works in hold may differ. -/
def Worked (k i d : Nat) (s t : State) : Prop :=
  OnlyIn [.grafters, .mem, .flaws, .cores, .fresh] s t ∧ (∀ a, grfSpace (s.regionOf k i) d a = false → mget t.mem a = mget s.mem a) ∧
    ∀ gi, coreCi gi ∉ s.regionOf k i → t.core gi = s.core gi

/-- An attempt met RANGE (R223): with DEXP above 0 it restarts once, cold, with DEXP − 1; otherwise the job ends with RANGE. -/
def Ranged (k i : Nat) (j : GJob) (t : State) : Prop :=
  (0 < j.dexp → j.retry = false → ∀ j', t.job k i = some j' → j'.retry = true ∧ j'.dexp = j.dexp - 1 ∧ j'.cold = true) ∧
    (j.dexp = 0 ∨ j.retry = true → (gVote j.desc = false → t.job k i = none) ∧
      (gVote j.desc = true → ∃ j', t.job k i = some j' ∧ j'.done = true ∧ j'.lstatus = St.RANGE ∧ j'.rank = 0))

/-- The fields of the state a command may change; every other stays, the queue among them. Commands that store nothing list no memory. -/
def touches (i : Instr) : List Part :=
  match i with
  | .registerWrite _ _ _ | .loReadLatch _ | .coldFrameAccess _ _ | .frontgo _ _ _ | .frontgoHoldTimeout | .registerRead _ _ => [.mem, .flaws, .hub, .mbx, .cores, .clusters, .net, .frontTab, .frontHeld, .step, .sieve, .factors, .grafters, .coll, .links, .harvest, .gauge, .mb, .host, .sec, .rst, .pwr, .logs, .logLost, .msix]
  | .rwpCommit | .throttleUpdate _ _ => [.hub, .gauge, .pwr, .logs, .logLost, .msix]
  | .listEntryFetch _ _ | .chainBodyLoad _ _ | .pass _ _ | .emul _ | .eadd _ | .efma _ | .chain _ _ | .fill _ _ | .fillT _ _ | .load _ | .store _
  | .vld _ _ _ | .vst _ _ _ | .vlds _ _ _ | .vsts _ _ _ | .vleaf _ _ => [.mem, .flaws, .cores, .clusters, .net]
  | .descIssue _ => [.hub, .cores, .clusters, .net, .sec]
  | .descComplete _ | .nop _ => [.cores, .clusters, .net, .outbox, .sec]
  | .descEngineStop _ => [.hub, .cores, .clusters, .net]
  | .fillIn _ => [.cores, .clusters, .net, .outbox]
  | .fillComplete _ | .send _ | .repeatEntry _ | .resultLand _ | .cluLselWrite _ _ | .patch _ _ _ => [.cores]
  | .sendInject _ | .vnop _ _ | .vadd _ _ | .vsub _ _ | .vmul _ _ | .vfma _ _ | .vfnma _ _ | .vmax _ _ | .vmin _ _ | .vabs _ _ | .vneg _ _
  | .vceq _ _ | .vclt _ _ | .vcle _ _ | .vclass _ _ | .vsel _ _ | .vmov _ _ | .vand _ _ | .vor _ _ | .vxor _ _ | .vshl _ _ | .vsra _ _ | .vsrl _ _
  | .viadd _ _ | .visub _ _ | .vdiv _ _ | .vsqrt _ _ | .vcvt _ _ | .vcvtMx _ _ | .vcvtwMx _ _ | .vlsplit _ _ | .vljoin _ _ | .accrd _ _
  | .vredSum _ _ | .vredMax _ _ | .vredMin _ _ | .vred2Norm _ _ | .vred2Smax _ _ | .vexp2 _ _ | .vexp _ _ | .vlog2 _ _ | .vrcp _ _ | .vrsq _ _
  | .vsinpi _ _ | .vcospi _ _ | .vtanh _ _ | .verf _ _ | .tokincWrite _ _ _ => [.cores, .clusters, .net]
  | .post _ | .postArm _ => [.cores, .net]
  | .rakeSq _ _ _ => [.mem, .flaws, .hub, .cores, .clusters, .net, .rake, .rel]
  | .lmemEccWriteback _ => [.mem, .flaws, .cores]
  | .broadcastPatchLand => [.cores, .step]
  | .listComplete _ => [.mem, .flaws, .hub, .cores, .clusters, .rake, .step, .sieve, .layers, .layersNext, .grafters, .coll, .harvest, .rel, .gauge, .mb, .hubFlitCe, .logs, .logLost, .msix, .fresh]
  | .replay | .stepReplay => [.mem, .flaws, .hub, .cores, .clusters, .net, .outbox, .frontHeld, .quietG, .quiescedG, .quiesce, .rake, .step, .sieve, .factors, .grafters, .coll, .links, .harvest, .gauge, .mb, .logs, .logLost, .msix]
  | .rampGroupRelease _ => [.clusters]
  | .auditRepair _ _ | .factorFoldTile _ _ _ _ _ => [.mem, .flaws, .hub, .cores, .clusters, .net, .step, .harvest, .rel, .gauge, .mb, .logs, .logLost, .msix]
  | .spareCoreSwap _ _ => [.mem, .flaws, .hub, .cores, .clusters, .step, .rel, .gauge, .pwr, .logs, .logLost, .msix, .fresh]
  | .shardPermuteRun _ => [.mem, .flaws, .hub, .cores, .clusters, .net, .step, .coll, .links, .harvest, .rel, .gauge, .mb, .logs, .logLost, .msix]
  | .rollingBistSlice _ _ => [.mem, .flaws, .hub, .cores, .clusters, .step, .harvest, .rel, .gauge, .mb, .pwr, .logs, .logLost, .msix, .fresh]
  | .phaseSwitch => [.hub, .cores, .step]
  | .msg _ _ | .token _ _ | .credit _ _ | .mrsp _ _ => [.mem, .flaws, .cores, .clusters, .net, .hubFlitCe]
  | .mrd _ _ _ _ => [.mem, .flaws, .hub, .cores, .clusters, .net, .rel, .hubFlitCe]
  | .mwr _ _ => [.mem, .flaws, .hub, .cores, .clusters, .net, .harvest, .gauge, .mb, .hubFlitCe, .logs, .logLost, .msix]
  | .regrd _ _ => [.mem, .flaws, .hub, .cores, .clusters, .net, .grafters, .mb, .host, .hubFlitCe]
  | .regwr _ _ => [.mem, .flaws, .hub, .mbx, .cores, .clusters, .net, .frontTab, .frontHeld, .step, .sieve, .factors, .grafters, .coll, .links, .harvest, .gauge, .mb, .sec, .rst, .pwr, .hubFlitCe, .logs, .logLost, .msix]
  | .regrsp _ _ => [.clusters, .net, .host, .hubFlitCe]
  | .tc0PoliceAdmit _ _ _ => [.clusters, .net]
  | .halt _ _ _ | .resume _ _ => [.cores, .clusters, .net, .hubFlitCe]
  | .quiesceUrgent _ _ => [.clusters, .net, .quietG, .quiescedG, .hubFlitCe]
  | .quiesced => [.quiesce, .gauge, .mb, .msix]
  | .quiesceTimeout => [.hub, .quiesce, .gauge, .mb, .logs, .logLost, .msix]
  | .barrierArrive _ _ _ => [.clusters, .net, .barrier, .hubFlitCe]
  | .barrierRelease => [.clusters, .barrier]
  | .sdlSync _ _ => [.clusters, .net, .grafters, .hubFlitCe]
  | .sdlSyncSend => [.net]
  | .errorNotice _ _ => [.hub, .clusters, .net, .quietG, .quiescedG, .quiesce, .step, .sieve, .coll, .links, .rel, .gauge, .mb, .hubFlitCe, .logs, .logLost, .msix]
  | .frontLaunchRequest _ _ => [.clusters, .net, .frontQ, .hubFlitCe]
  | .frontStreamStart _ _ => [.mem, .flaws, .hub, .mbx, .cores, .clusters, .net, .frontTab, .frontQ, .streams, .frontHeld, .step, .sieve, .factors, .grafters, .coll, .links, .harvest, .rel, .gauge, .mb, .host, .sec, .rst, .pwr, .logs, .logLost, .msix]
  | .frontMarker _ _ | .frontTile _ _ => [.cores, .clusters, .net, .outbox, .streams, .hubFlitCe]
  | .cstoreEccWriteback _ => [.mem, .flaws, .clusters]
  | .rowRepair _ | .eccBucketRoll => [.hub, .rel, .gauge, .logs, .logLost, .msix]
  | .hbmPatrolScrub _ _ _ => [.mem, .hub, .rel, .gauge, .logs, .logLost, .msix]
  | .mramPatrolScrub _ _ _ => [.hub, .gauge, .logs, .logLost, .msix]
  | .gdoneNotice _ _ => [.mem, .flaws, .hub, .cores, .clusters, .net, .step, .factors, .grafters, .coll, .links, .harvest, .gauge, .mb, .hubFlitCe, .logs, .logLost, .msix]
  | .ddoneNotice _ _ => [.cores, .clusters, .net, .step, .hubFlitCe]
  | .factorExchange _ | .reduceScatterLayer _ | .collFrame _ _ _ _ | .gather _ => [.mem, .flaws, .hub, .cores, .clusters, .net, .step, .factors, .grafters, .coll, .links, .harvest, .rel, .gauge, .mb, .logs, .logLost, .msix]
  | .grfSubloWrite _ _ _ => [.clusters, .grafters]
  | .grfSubmit _ _ _ => [.grafters]
  | .grafterJobStart _ _ => [.mem, .flaws, .hub, .cores, .clusters, .net, .grafters, .harvest, .rel, .gauge, .mb, .logs, .logLost, .msix, .fresh]
  | .root _ _ | .orth _ _ | .chol _ _ | .trsv _ _ | .cg _ _ => [.mem, .flaws, .hub, .cores, .clusters, .grafters, .harvest, .gauge, .mb, .logs, .logLost, .msix, .fresh]
  | .grafterIterationComplete _ _ | .jobDeadline _ _ | .grfAbort _ _ => [.mem, .flaws, .hub, .cores, .clusters, .grafters, .harvest, .gauge, .mb, .logs, .logLost, .msix]
  | .rakeClose => [.hub, .cores, .clusters, .rake, .step, .rel, .gauge, .hubFlitCe, .logs, .logLost, .msix]
  | .normAllreduce => [.mem, .flaws, .hub, .cores, .clusters, .step, .factors, .grafters, .coll, .links, .harvest, .gauge, .mb, .logs, .logLost, .msix]
  | .sieveDecide => [.mem, .flaws, .hub, .cores, .clusters, .quietG, .quiescedG, .quiesce, .step, .sieve, .layers, .layersNext, .factors, .grafters, .coll, .links, .harvest, .gauge, .mb, .logs, .logLost, .msix, .fresh]
  | .sweepRecord _ _ | .recoverySweep _ => [.mem, .flaws, .hub, .cores, .clusters, .net, .step, .sieve, .layers, .layersNext, .grafters, .coll, .harvest, .rel, .gauge, .mb, .logs, .logLost, .msix]
  | .workingCopyAudit _ => [.mem, .hub, .net, .step, .coll, .links, .rel, .gauge, .logs, .logLost, .msix]
  | .sieveResume | .launchTime => [.hub]
  | .windowClear => [.sieve]
  | .rsLanded => [.mem, .flaws, .hub, .cores, .clusters, .step, .fresh]
  | .permuteAck => [.hub, .coll, .links, .gauge, .logs, .logLost, .msix]
  | .permuteCommit => [.mem, .flaws, .hub, .cores, .clusters, .step, .factors, .grafters, .coll, .links, .harvest, .gauge, .mb, .pwr, .logs, .logLost, .msix]
  | .mgmtFrame _ _ _ => [.mem, .flaws, .hub, .cores, .clusters, .step, .sieve, .factors, .coll, .links, .harvest, .gauge, .mb, .logs, .logLost, .msix]
  | .frameForward _ _ _ | .portRetrain _ _ | .laneLoss _ _ | .hello _ _ _ | .portRejoin _ _ | .parentLost | .rootLost | .spareEyeCheck _ _ => [.hub, .links, .gauge, .logs, .logLost, .msix]
  | .ack _ _ | .helloSend | .sundialSyncTimer _ | .syncReq _ _ _ _ => [.links]
  | .nak _ _ | .badCrcFrame _ _ => [.hub, .links]
  | .laneSpare _ _ | .laneWindow _ _ _ _ => [.hub, .links, .gauge, .pwr, .logs, .logLost, .msix]
  | .v1msg _ _ _ | .harvestDataReceive _ _ _ => [.mem, .flaws, .hub, .cores, .clusters, .links, .harvest, .gauge, .mb, .logs, .logLost, .msix]
  | .discoveryRootAssign _ | .disc _ _ _ => [.hub, .links, .gauge, .mb, .pwr, .logs, .logLost, .msix]
  | .replayReq _ _ _ => [.hub, .clusters, .quietG, .quiescedG, .quiesce, .step, .sieve, .coll, .links, .gauge, .mb, .logs, .logLost, .msix]
  | .syncResp _ _ _ _ _ _ => [.hub, .grafters, .links, .gauge, .sundial, .fresh]
  | .resetFrame _ _ _ | .debugReset _ | .pciePowerState _ | .powerOn | .supplyTrip _ | .cxlPerst _ | .functionLevelReset | .dbgSrst _
  | .resetRequest _ | .watchdogTimeout | .thermalTrip _ | .refclkReturn | .mfrEmergReset _ _ | .facEmergOffAssert => [.mem, .flaws, .hub, .mbx, .cores, .clusters, .net, .outbox, .frontTab, .frontQ, .streams, .frontHeld, .quietG, .quiescedG, .quiesce, .barrier, .rake, .step, .sieve, .layers, .layersNext, .factors, .grafters, .coll, .links, .harvest, .rel, .gauge, .mb, .host, .sec, .rst, .pwr, .fac, .hubFlitCe, .sundial, .logs, .logLost, .policy, .msix, .fresh]
  | .mailboxDoorbell _ _ | .getInfo | .getStatus | .fpflagReduce | .rgaFlush | .ticketAbort | .v1Identify | .v1GetLog => [.hub, .gauge, .mb, .logs, .logLost, .msix]
  | .slotAck _ | .ticketAck _ => [.mb]
  | .sliceEnd => [.mem, .flaws, .hub, .clusters, .quietG, .quiescedG, .quiesce, .step, .coll, .links, .harvest, .rel, .gauge, .mb, .pwr, .logs, .logLost, .msix, .fresh]
  | .getEventRecords | .getEventInterruptPolicy | .getFwInfo | .getSupportedLogs | .getLog => [.mb, .msix]
  | .clearEventRecords => [.mb, .logs, .logLost, .msix]
  | .setEventInterruptPolicy => [.mb, .policy, .msix]
  | .getTelemetry | .v1Health => [.hub, .gauge, .mb, .logs, .logLost, .msix, .fresh]
  | .reset | .v1Reset => [.hub, .gauge, .mb, .rst, .logs, .logLost, .msix]
  | .quiesce => [.hub, .clusters, .quietG, .quiescedG, .quiesce, .gauge, .mb, .logs, .logLost, .msix]
  | .setPowerState => [.mem, .flaws, .hub, .clusters, .quietG, .quiescedG, .quiesce, .gauge, .mb, .pwr, .logs, .logLost, .msix, .fresh]
  | .setPowerCap | .setGrid | .v1SetPcap => [.hub, .gauge, .mb, .pwr, .logs, .logLost, .msix]
  | .broadcastPatch | .jobStop | .jobResumeStop => [.hub, .step, .gauge, .mb, .logs, .logLost, .msix]
  | .copySram _ => [.mem, .flaws, .hub, .cores, .clusters, .net, .harvest, .rel, .gauge, .mb, .logs, .logLost, .msix]
  | .layerWrite _ => [.mem, .hub, .net, .layers, .layersNext, .rel, .gauge, .mb, .logs, .logLost, .msix]
  | .layerRead | .factorRead | .discoveryRead | .planRead | .spareRead | .rgaRead | .traceRead | .debugHalt | .debugResume => [.mem, .flaws, .hub, .cores, .clusters, .harvest, .gauge, .mb, .logs, .logLost, .msix]
  | .factorWrite _ => [.mem, .hub, .net, .factors, .rel, .gauge, .mb, .logs, .logLost, .msix]
  | .jobStart _ => [.mem, .flaws, .hub, .cores, .clusters, .net, .step, .sieve, .layers, .layersNext, .grafters, .coll, .harvest, .rel, .gauge, .mb, .sec, .logs, .logLost, .msix]
  | .replayStep => [.hub, .clusters, .quietG, .quiescedG, .quiesce, .step, .gauge, .mb, .logs, .logLost, .msix]
  | .skipStep => [.mem, .flaws, .hub, .cores, .clusters, .net, .outbox, .frontHeld, .quietG, .quiescedG, .quiesce, .rake, .step, .sieve, .layers, .layersNext, .grafters, .coll, .harvest, .rel, .gauge, .mb, .hubFlitCe, .logs, .logLost, .msix, .fresh]
  | .discover | .groupReset => [.hub, .links, .gauge, .mb, .logs, .logLost, .msix]
  | .shardPermute _ => [.hub, .coll, .gauge, .mb, .logs, .logLost, .msix]
  | .v1Send _ => [.mem, .hub, .net, .links, .rel, .gauge, .mb, .logs, .logLost, .msix]
  | .harvestStart => [.hub, .harvest, .gauge, .mb, .logs, .logLost, .msix]
  | .snapshotOpen => [.mem, .flaws, .hub, .cores, .clusters, .step, .factors, .grafters, .harvest, .gauge, .mb, .logs, .logLost, .msix]
  | .harvestDrain _ _ _ => [.mem, .hub, .cores, .clusters, .net, .links, .harvest, .rel, .gauge, .mb, .logs, .logLost, .msix]
  | .harvestRestore _ => [.mem, .flaws, .hub, .cores, .clusters, .step, .sieve, .factors, .coll, .links, .harvest, .gauge, .mb, .logs, .logLost, .msix, .fresh]
  | .selftest _ => [.mem, .flaws, .hub, .cores, .clusters, .links, .harvest, .rel, .gauge, .mb, .pwr, .logs, .logLost, .msix, .fresh]
  | .marginReplan _ => [.hub, .clusters, .rel, .gauge, .mb, .pwr, .logs, .logLost, .msix]
  | .marginReplanDaily _ => [.hub, .clusters, .rel, .gauge, .pwr, .logs, .logLost, .msix]
  | .rgaClear | .fwCommit | .debugUnlock => [.hub, .gauge, .mb, .sec, .logs, .logLost, .msix]
  | .fwStage _ | .v1FwUpdate _ => [.mem, .flaws, .hub, .net, .rel, .gauge, .mb, .sec, .logs, .logLost, .msix, .fresh]
  | .recoveryFwStage _ => [.hub, .gauge, .mb, .sec, .rst, .logs, .logLost, .msix]
  | .debugChallenge => [.hub, .gauge, .mb, .sec, .logs, .logLost, .msix, .fresh]
  | .toDebugUnlocked | .toSecured => [.hub, .cores, .gauge, .mb, .sec, .pwr, .logs, .logLost, .msix]
  | .toReturned => [.hub, .cores, .clusters, .gauge, .mb, .sec, .rst, .pwr, .logs, .logLost, .msix]
  | .memRead _ => [.mem, .flaws, .hub, .cores, .clusters, .net, .grafters, .harvest, .rel, .gauge, .mb, .host, .logs, .logLost, .msix]
  | .memWrite _ => [.mem, .flaws, .hub, .mbx, .cores, .clusters, .net, .frontTab, .frontHeld, .step, .sieve, .factors, .grafters, .coll, .links, .harvest, .rel, .gauge, .mb, .sec, .rst, .pwr, .logs, .logLost, .msix]
  | .debugEnd => [.hub, .cores, .gauge, .mb, .logs, .logLost, .msix]
  | .getVersion | .getCapabilities | .negotiateAlgorithms _ _ _ _ | .getDigests | .getCertificate _ _ _ | .finish _ _ | .heartbeat _ | .keyUpdate _ _
  | .endSession _ | .idcode | .bypass _ | .samplePreload _ _ | .extest _ _ => [.sec]
  | .challenge _ _ | .getMeasurements _ _ _ | .keyExchange _ _ => [.sec, .fresh]
  | .tapChallenge => [.hub, .sec, .fresh]
  | .tapUnlock _ _ => [.hub, .gauge, .sec, .logs, .logLost, .msix]
  | .tapEnd => [.hub, .cores, .sec]
  | .nonceExpire => [.hub, .sec]
  | .provision => [.hub, .cores, .gauge, .sec, .logs, .logLost, .msix]
  | .hdmCommit _ _ _ => [.host]
  | .hdmRead _ _ _ _ => [.mem, .hub, .rel, .gauge, .host, .logs, .logLost, .msix]
  | .hdmWrite _ _ _ => [.mem, .flaws, .hub, .cores, .clusters, .harvest, .gauge, .mb, .host, .logs, .logLost, .msix]
  | .regResponseTimeout => [.hub, .mbx, .clusters, .gauge, .host, .logs, .logLost, .msix]
  | .powerTransitionComplete => [.mem, .flaws, .hub, .cores, .clusters, .net, .outbox, .frontTab, .frontQ, .streams, .frontHeld, .quietG, .quiescedG, .quiesce, .barrier, .rake, .step, .sieve, .grafters, .coll, .links, .harvest, .rel, .gauge, .mb, .host, .sec, .rst, .pwr, .fac, .hubFlitCe, .sundial, .logs, .logLost, .msix, .fresh]
  | .wakeWave => [.pwr]
  | .monitorReading _ => [.rel, .gauge]
  | .rgaSample _ _ | .windowClose => [.gauge]
  | .sheetWrite => [.gauge, .fac]
  | .resetRelease _ _ _ _ => [.mem, .flaws, .hub, .cores, .clusters, .net, .step, .sieve, .layers, .layersNext, .grafters, .coll, .links, .harvest, .rel, .gauge, .mb, .host, .sec, .rst, .pwr, .logs, .logLost, .msix, .fresh]
  | .watchdogKick => [.rst]
  | .refclkLoss | .facEmergOffDeassert => [.hub, .rst]
  | .facCapHeldApply | .mfrPowerCap _ _ | .coolantFault => [.hub, .gauge, .pwr, .fac, .logs, .logLost, .msix]
  | .clearFaults _ | .mfrIdentify _ | .mfrEmergArm _ _ | .emergArmExpire | .pmbusUnsupportedCode _ _ => [.hub, .fac]
  | .capability | .statusWord _ | .mfrSerial | .mfrPowerState | .mfrRgaSummary | .alertResponse => [.fac]
  | .readVin | .readIin | .readPin | .readTemperature1 | .readTemperature2 | .readTemperature3 | .mfrCoolantFlow => [.fac, .fresh]
  | .coolantGraceExpire => [.mem, .flaws, .hub, .clusters, .net, .outbox, .frontHeld, .quietG, .quiescedG, .quiesce, .step, .coll, .links, .gauge, .mb, .pwr, .fac, .logs, .logLost, .msix, .fresh]
  | .coolantRestored => [.hub, .pwr, .fac]
  | .cspMemoryAccess _ _ _ _ _ => [.mem, .flaws, .hub, .cores, .clusters, .net, .harvest, .gauge, .mb, .host, .logs, .logLost, .msix]
  | .rowErrorWindowExpire _ _ => [.rel]

/-- What the commands of cores, clusters and the Trellis may change. -/
def fabricParts : List Part := [.mem, .flaws, .cores, .clusters, .net, .outbox, .streams, .barrier, .hubFlitCe, .frontTab, .frontQ, .frontHeld, .quietG, .quiescedG, .sec]

end Sys2Proof.Claims

open Sys2Proof.Claims

/-- When the queue is c followed by rest, a step is exec of c on the state with the queue's rest (the queue is the model's, log entry 8). (R329, R332) -/
def Obligations.StepRunsFrontCommand : Prop :=
  ∀ (s : State) (c : Instr) (rest : List Instr), s.pending = c :: rest → step s = exec c { s with pending := rest }

/-- With no command waiting, a step changes the Sundial, its slews and the Grafters' copies alone, and moves the count by at most 2; while the reference is lost nothing changes (the tick on an empty queue is the model's choice, log entry 8). (R313, R314, R379) -/
def Obligations.IdleStepTicksTheSundial : Prop :=
  ∀ s : State, s.pending = [] →
    ∃ t, step s = .next t ∧ OnlyIn [.sundial, .links, .grafters] s t ∧ s.sundial ≤ t.sundial ∧ t.sundial ≤ s.sundial + 2 ∧
      (s.rst.refLost = true → t = s)

/-- While host accesses can be made, a whole write of RST_BKPk lands and nothing else changes; a read returns it and changes only what the host last read; a Cold frame access reads or writes the word at RST_CFIDX and the index advances, wrapping; a read of UPD_STEPLO returns the low half of the step number and keeps the high half for the host's read of UPD_STEPHI. A write of a register whose byte enables are not all set leaves the register file as it was, whoever makes it; the host's is logged with KIND PARTIAL and raises REG_UNMAPPED; CSP memory takes such a write. A host access of a register of a core, a cluster or a Grafter goes to it as a TC1 packet; one behind a launch of the host that is held waits in order; a running CSP or the Shed makes its own at once, and each is given only the bytes it asked for. (R11, R320, R321, R322, R388, R441, R442) -/
def Obligations.HostRegisterAccess : Prop :=
  (∀ s : State, hostFree s →
    (∀ k v, k < 16 → v < 2 ^ 32 →
      Runs (.registerWrite (.bar2 (Reg.offset .RST_BKP k)) v 15) s fun t => t.h .RST_BKP k = v ∧ OnlyIn [.hub] s t) ∧
    (∀ k, k < 16 → Gives (.registerRead (.bar2 (Reg.offset .RST_BKP k)) 15) s { s with host := { s.host with readData := s.h .RST_BKP k } }) ∧
    (Runs (.coldFrameAccess (.bar2 (Reg.offset .RST_CFDATA 0)) none) s fun t =>
      t.host.readData = Sparse.get (fun _ => 0) s.rst.cold (s.hf .RST_CFIDX 0 0 8) ∧ t.hf .RST_CFIDX 0 0 8 = (s.hf .RST_CFIDX 0 0 8 + 1) % 256 ∧
        t.rst = s.rst ∧ OnlyIn [.hub, .host] s t) ∧
    (∀ v, v < 2 ^ 32 → Runs (.coldFrameAccess (.bar2 (Reg.offset .RST_CFDATA 0)) (some v)) s fun t =>
      Sparse.get (fun _ => 0) t.rst.cold (s.hf .RST_CFIDX 0 0 8) = v ∧ t.hf .RST_CFIDX 0 0 8 = (s.hf .RST_CFIDX 0 0 8 + 1) % 256 ∧
        OnlyIn [.hub, .rst] s t) ∧
    (s.powerState < 3 → Runs (.loReadLatch (.bar2 (Reg.offset .UPD_STEPLO 0))) s fun t =>
      t.host.readData = s.stepNo % 2 ^ 32 ∧ OnlyIn [.host] s t ∧
        Runs (.registerRead (.bar2 (Reg.offset .UPD_STEPHI 0)) 15) t fun u => u.host.readData = s.stepNo / 2 ^ 32 % 2 ^ 32)) ∧
  (∀ (s : State) (who : Agent) (p : RegPlace) (v be : Nat), p.isMem = false → be ≠ 15 → s.writePlace who p v be = s) ∧
  (∀ (s : State) (x v be : Nat), hostFree s → be < 15 → (s.resolve (x % 2 ^ 28 / 4 * 4)).mapped = true →
    s.dark (s.resolve (x % 2 ^ 28 / 4 * 4)) = false → (s.resolve (x % 2 ^ 28 / 4 * 4)).isMem = false →
    Gives (.registerWrite (.bar2 x) v be) s (s.rwErr (regBase + x % 2 ^ 28 / 4 * 4) 3 true)) ∧
  (∀ (s : State) (ci off b : Nat), 0x8000 ≤ off → off % 4 = 0 → b < 256 → rf (s.cluster ci).regs .CSP_CTL 0 0 1 = 0 →
    let t := s.writePlace .shed (.cluster ci off) b 1
    Sparse.get (fun _ => (0 : Byte)) (t.cluster ci).csp (cspKey off) = BitVec.ofNat 8 b ∧
      ∀ k, k ≠ cspKey off → Sparse.get (fun _ => (0 : Byte)) (t.cluster ci).csp k = Sparse.get (fun _ => (0 : Byte)) (s.cluster ci).csp k)
 ∧
  (∀ (s : State) (x : Nat) (e : Endpoint) (off : Nat), hostFree s → (s.resolve (x % 2 ^ 28 / 4 * 4)).mapped = true →
    s.dark (s.resolve (x % 2 ^ 28 / 4 * 4)) = false → (s.resolve (x % 2 ^ 28 / 4 * 4)).remote = some (e, off) →
    (∀ be, Runs (.registerRead (.bar2 x) be) s fun t => t.net = s.net ++ [⟨.hub, e, .tc1, s.stag, .regRd off⟩] ∧
      t.host.reads = s.host.reads ++ [(e, regBase + x % 2 ^ 28 / 4 * 4, be % 16, s.sundial)] ∧ OnlyIn [.net, .host] s t) ∧
    ∀ v, v < 2 ^ 32 → Gives (.registerWrite (.bar2 x) v 15) s (s.inject .hub e .tc1 (.regWr off v 15))) ∧
  (∀ (s : State) (a : RegAddr) (v be : Nat), a.who = .host → s.linkReady = true → s.hostHeld = true → s.host.behind = [] → v < 2 ^ 32 → be < 16 →
    Gives (.registerRead a be) s { s with host := { s.host with behind := [.read a be] } } ∧
    Gives (.registerWrite a v be) s { s with host := { s.host with behind := [.write a v be] } }) ∧
  (∀ (s : State) (a : RegAddr) (v be : Nat), a.who ≠ .host → s.agentUp a.who = true → v < 2 ^ 32 → be < 16 →
    Gives (.registerRead a be) s ((s.readPlace a.who (s.placeFor a)).2.gave a.who (lanes be (s.readPlace a.who (s.placeFor a)).1)) ∧
    Gives (.registerWrite a v be) s (s.writePlace a.who (s.placeFor a) v be) ∧
    ((s.placeFor a).isLo = true → Gives (.loReadLatch a) s ((s.readPlace a.who (s.placeFor a)).2.gave a.who (lanes 15 (s.readPlace a.who (s.placeFor a)).1))) ∧
    ((s.placeFor a).isCold = true → Gives (.coldFrameAccess a (some v)) s (s.writePlace a.who (s.placeFor a) v 15)))

/-- A host read of an unmapped register address returns zero, a write is ignored, MBX_RWERR logs address, kind and direction if its VALID is 0, and REG_UNMAPPED is raised; the same holds of a block in a powered-off domain, with its kind; a write to CSP memory while the CSP runs is treated so with kind CSP_RUNNING. (R324) -/
def Obligations.RefusedHostAccess : Prop :=
  (∀ (s : State) (x v be : Nat), hostFree s → (s.resolve (x % 2 ^ 28 / 4 * 4)).mapped = false →
    (∀ b, Gives (.registerRead (.bar2 x) b) s ((s.rwErr (regBase + x % 2 ^ 28 / 4 * 4) 0 false).gave .host 0)) ∧
    Gives (.registerWrite (.bar2 x) v be) s (s.rwErr (regBase + x % 2 ^ 28 / 4 * 4) 0 true)) ∧
  (∀ (s : State) (x v be : Nat), hostFree s → (s.resolve (x % 2 ^ 28 / 4 * 4)).mapped = true → s.dark (s.resolve (x % 2 ^ 28 / 4 * 4)) = true →
    (∀ b, Gives (.registerRead (.bar2 x) b) s ((s.rwErr (regBase + x % 2 ^ 28 / 4 * 4) 1 false).gave .host 0)) ∧
    Gives (.registerWrite (.bar2 x) v be) s (s.rwErr (regBase + x % 2 ^ 28 / 4 * 4) 1 true)) ∧
  (∀ (s : State) (ci off v be : Nat), 0x8000 ≤ off → rf (s.cluster ci).regs .CSP_CTL 0 0 1 = 1 →
    s.writePlace .host (.cluster ci off) v be = s.rwErr (cluDpa ci off) 2 true) ∧
  (∀ (s : State) (a kind : Nat) (w : Bool), kind < 4 → rf s.mbx .MBX_RWERRHI 0 31 1 = 0 →
    (let t := s.rwErr a kind w
     rg t.mbx .MBX_RWERRLO = a % 2 ^ 32 ∧ rf t.mbx .MBX_RWERRHI 0 0 16 = a / 2 ^ 32 % 2 ^ 16 ∧ rf t.mbx .MBX_RWERRHI 0 16 2 = kind ∧
       rf t.mbx .MBX_RWERRHI 0 18 1 = b2n w ∧ rf t.mbx .MBX_RWERRHI 0 31 1 = 1)) ∧
  (∀ (s : State) (a kind : Nat) (w : Bool), rf s.mbx .MBX_RWERRHI 0 31 1 = 1 → (s.rwErr a kind w).mbx = s.mbx) ∧
  (∀ (s : State) (a kind : Nat) (w : Bool), (s.logs.filter fun e => e.log == 1).length < 256 →
    (s.rwErr a kind w).logs = s.logs ++ [⟨1, St.REG_UNMAPPED, 0, 0, s.stepNo, s.sundial, a⟩])

/-- An aligned load of a running CSP that no write of its own stalls completes with the bytes its address names, and its store changes exactly them; in a Grafter's region the store to a core's local memory is discarded; an address that names nothing reads zero and takes no store. (R138, R163, R213) -/
def Obligations.CspMemoryAccess : Prop :=
  ∀ (s : State) (ci : Nat), s.agentUp (.csp ci) = true →
    (∀ a len, len = 1 ∨ len = 2 ∨ len = 4 → a % len = 0 → a < 0x8000 →
      Gives (.cspMemoryAccess ci a len none []) s (s.gave (.csp ci) ((s.cluster ci).cspRead a len)) ∧
      ∀ v, Runs (.cspMemoryAccess ci a len (some v) []) s fun t => OnlyIn [.clusters] s t ∧
        ∀ k, Sparse.get (fun _ => (0 : Byte)) (t.cluster ci).csp k =
          if a ≤ k ∧ k < a + len then BitVec.ofNat 8 (v / 256 ^ (k - a)) else Sparse.get (fun _ => (0 : Byte)) (s.cluster ci).csp k) ∧
    (∀ a len, len = 1 ∨ len = 2 ∨ len = 4 → a % len = 0 → s.flaws = [] →
      (a < 0x80000 → Runs (.cspMemoryAccess ci (0x20000000 + a) len none []) s fun t =>
        (t.cluster ci).loaded = s.rdN (storeBase ci + a) len ∧ OnlyIn [.clusters] s t) ∧
      ∀ j, j < 64 → a < 0x4000 → Runs (.cspMemoryAccess ci (0x30000000 + 0x10000 * j + a) len none []) s fun t =>
        (t.cluster ci).loaded = s.rdN (localBase (coreOf ci j) + a) len ∧ OnlyIn [.clusters, .cores] s t) ∧
    (∀ a len v, len = 1 ∨ len = 2 ∨ len = 4 → a % len = 0 → a < 0x80000 → s.hrv ≠ 2 →
      Runs (.cspMemoryAccess ci (0x20000000 + a) len (some v) []) s fun t => OnlyIn [.mem, .flaws, .clusters] s t ∧
        ∀ k, mget t.mem k = if storeBase ci + a ≤ k ∧ k < storeBase ci + a + len then BitVec.ofNat 8 (v / 256 ^ (k - (storeBase ci + a))) else mget s.mem k) ∧
    (∀ j a len v, len = 1 ∨ len = 2 ∨ len = 4 → a % len = 0 → a < 0x4000 → j < 64 → s.inRegion ci = true →
      Gives (.cspMemoryAccess ci (0x30000000 + 0x10000 * j + a) len (some v) []) s s) ∧
    (∀ v, Gives (.cspMemoryAccess ci 0x60000000 4 none []) s (s.gave (.csp ci) 0) ∧ Gives (.cspMemoryAccess ci 0x60000000 4 (some v) []) s s)

/-- For each of the 46 vector commands that move no memory (VLEAF aside), a legal word on a running core with no source pending issues: its results, each to its own register, join those in flight, due the row's latency after the issue cycle; its flags are raised; the vector registers, memory and every other core stay, and VNOP puts nothing in flight. (R67, R82, R89, R90, R91, R93) -/
def Obligations.VectorWordsPutResultsInFlight : Prop :=
  ∀ (i : Instr) (gi op w : Nat) (s : State), vectorRow i = some (gi, op, w) → op < 256 → wordReady s gi op w →
    Runs i s fun t =>
      let y := atIssue s gi op w
      let r := y.vCompute (vword op w)
      (t.core gi).flights = y.c.flights ++ (if op = 0 then [] else inFlight y.c ((s.vctx gi).issueAt (vword op w) + (vTiming (vword op w) 0).2.2) r.1) ∧
      rg (t.core gi).regs .CORE_FPFLAGS = rg (s.core gi).regs .CORE_FPFLAGS ||| (if op = 0 then 0 else r.2.1.toNat) ∧
      (∀ k, (t.core gi).getV k = y.c.getV k) ∧ OnlyIn [.cores] s t ∧ ∀ gj, gj ≠ gi → t.core gj = s.core gj

/-- Element i of the result of VSEL, VMOV, VAND, VOR, VXOR, VSHL, VSRL, VIADD and VISUB is the row's function of element i of its operands, at every element type the row admits: a shift by VB modulo the width, sums modulo 2 to the width. A legal VLEAF with no source pending puts the accepted program's result in flight, due 16n + 4 cycles after issue for a program of n operations; where the bytes hold no accepted program it is counted in CORE_VSTAT.ILLEGAL and puts nothing in flight. Which bytes hold a program is a free value. (R88, R93, R94, R95, R106, R107) -/
def Obligations.VectorElementsAndVleaf : Prop :=
  (∀ (et mask a b c i : Nat) (m : RMode), et < 8 → i < 512 / etBits et →
    let w := etBits et
    let x := elem a w i
    let y := elem b w i
    let r := fun op => elem (elementWise op et m mask a b c).1 w i
    r 0x0E = (if elem c w i ≠ 0 then x else y) ∧ r 0x0F = x ∧ r 0x10 = x &&& y ∧ r 0x11 = x ||| y ∧ r 0x12 = x ^^^ y ∧
      r 0x13 = x * 2 ^ (y % w) % 2 ^ w ∧ r 0x15 = x / 2 ^ (y % w) ∧ r 0x16 = (x + y) % 2 ^ w ∧ (r 0x17 + y) % 2 ^ w = x) ∧
  (∀ (gi w : Nat) (s : State), s.flaws = [] → (s.core gi).halted = false → (s.vctx gi).vLegal (vword 0x70 w) = true →
    (∀ r ∈ (atIssue s gi 0x70 w).vSources (vword 0x70 w), (atIssue s gi 0x70 w).c.pending r = false) →
    Runs (.vleaf gi w) s fun t =>
      (∀ p, (s.vctx gi).leafOf (vword 0x70 w) = some p →
        (t.core gi).flights = (atIssue s gi 0x70 w).c.flights ++
          inFlight (atIssue s gi 0x70 w).c ((s.vctx gi).issueAt (vword 0x70 w) + (16 * p.ops.length + 4)) ((atIssue s gi 0x70 w).vCompute (vword 0x70 w)).1) ∧
      ((s.vctx gi).leafOf (vword 0x70 w) = none → (t.core gi).flights = (s.core gi).flights ∧
        rf (t.core gi).regs .CORE_VSTAT 0 16 8 = min (rf (s.core gi).regs .CORE_VSTAT 0 16 8 + 1) 255) ∧
      OnlyIn [.cores] s t ∧ ∀ gj, gj ≠ gi → t.core gj = s.core gj)

/-- With no ECC flaw outstanding and no upset, a load that may issue puts the 64 bytes at its handle's position in flight to VD (VLD with inactive elements zero), 3 cycles after it is served, and changes no memory; a store writes its bytes at its address, inactive elements of VST keeping what was there, and no other byte. (R77, R79, R98, R99) -/
def Obligations.VectorLoadsAndStores : Prop :=
  ∀ (gi w : Nat) (s : State), s.flaws = [] →
    (∀ (op : Nat) (i : Instr), (op = 0x30 ∧ i = .vld gi w [] ∨ op = 0x32 ∧ i = .vlds gi w []) → wordReady s gi op w →
      let y := atIssue s gi op w
      let v := leNat (s.rd (localBase gi + (y.vAddr (vword op w)).toNat) 64)
      Runs i s fun t => (t.core gi).flights = y.c.flights ++ [⟨vVd (vword op w), (s.vctx gi).issueAt (vword op w) + 3, y.c.seq,
          (if op = 0x30 then y.maskedBytes (vword op w) y.mask 64 0 v else v), none⟩] ∧
        (∀ k, (t.core gi).getV k = y.c.getV k) ∧ OnlyIn [.cores] s t ∧ ∀ gj, gj ≠ gi → t.core gj = s.core gj) ∧
    (∀ (op : Nat) (i : Instr), (op = 0x31 ∧ i = .vst gi w [] ∨ op = 0x33 ∧ i = .vsts gi w []) → wordReady s gi op w →
      let y := atIssue s gi op w
      let a := localBase gi + (y.vAddr (vword op w)).toNat
      let n := vLen op (vPart (vword op w))
      let src := y.c.getV (vVa (vword op w)) % 2 ^ (8 * n)
      let v := if op = 0x31 then y.maskedBytes (vword op w) y.mask n (s.rdN a n) src else src
      Runs i s fun t => t.rdN a n = v ∧ (∀ b, (b < a ∨ a + n ≤ b) → mget t.mem b = mget s.mem b) ∧
        (∀ k, (t.core gi).getV k = y.c.getV k) ∧ OnlyIn [.mem, .flaws, .cores] s t ∧ ∀ gj, gj ≠ gi → t.core gj = s.core gj)

/-- A core that may fetch reads its next list entry into the window with its static failure, and FETCH advances by one; an entry beyond the list's memory is noted and not read; a legal REPEAT on its first arrival sends FETCH back BACK entries with n - 1 repetitions left, and when none is left passes on; nothing but the core's and its cluster's records changes. The oldest entry whose waits are met and whose lane is free, and that passes its issue-time test, leaves the window and enters its lane with the counts, handles, chain body and fill slot latched: the compute lane (where every earlier result has landed), the tail of the transfer queue, or the entries that run nothing where it is a NOP, its predicate is false or it has no iteration; a token that just one of its waits names falls by that wait's count. (R109, R113, R119, R120, R121, R122, R125, R129) -/
def Obligations.EntriesFetchAndIssue : Prop :=
  (∀ (s : State) (gi a : Nat), (s.core gi).mayFetch = true → s.flaws = [] → listAddr gi (s.core gi).list (s.core gi).fetch = some a →
    (dOp (s.rdN a 64) ≠ opRepeat ∨ s.entryBad gi (s.core gi).fetch (s.rdN a 64) ≠ 0) →
    Runs (.listEntryFetch gi []) s fun t =>
      (t.core gi).win = (s.core gi).win ++ [⟨(s.core gi).fetch, s.rdN a 64, s.entryBad gi (s.core gi).fetch (s.rdN a 64)⟩] ∧
      (t.core gi).fetch = (s.core gi).fetch + 1 ∧
      (t.core gi).fetchEnd = (lastEntry (s.core gi).list (s.core gi).fetch (s.rdN a 64) && (s.core gi).rep.isNone) ∧
      OnlyIn [.cores, .clusters] s t ∧ otherCores gi s t) ∧
  (∀ (s : State) (gi : Nat), (s.core gi).mayFetch = true → listAddr gi (s.core gi).list (s.core gi).fetch = none →
    Gives (.listEntryFetch gi []) s (s.modCore gi fun c => { c with beyond := true })) ∧
  (∀ (s : State) (gi a n : Nat), (s.core gi).mayFetch = true → listAddr gi (s.core gi).list (s.core gi).fetch = some a →
    dOp (s.rdN a 64) = opRepeat → s.entryBad gi (s.core gi).fetch (s.rdN a 64) = 0 →
    (match (s.core gi).rep with
      | some e => e.2
      | none => if dCsrc (s.rdN a 64) 0 then (s.core gi).prm (dCp (s.rdN a 64) 0) % 2 ^ 16 else dN (s.rdN a 64) 0) = n →
    Runs (.repeatEntry gi) s fun t =>
      (n = 0 → (t.core gi).rep = none ∧ (t.core gi).fetch = (s.core gi).fetch + 1) ∧
      (0 < n → (t.core gi).rep = some ((s.core gi).fetch, n - 1) ∧ (t.core gi).fetch = (s.core gi).fetch - dBack (s.rdN a 64)) ∧
      (t.core gi).win = (s.core gi).win ∧ OnlyIn [.cores] s t ∧ otherCores gi s t) ∧
  (∀ (s : State) (gi : Nat) (e : WinEntry), (s.core gi).mayIssue = true → untraced s → s.ready gi = some e → s.issueStatus gi e.desc = 0 →
    let c := s.core gi
    let n := (c.latchCounts e.desc).foldl (· * ·) 1
    Runs (.descIssue gi) s fun t =>
      (t.core gi).win = c.win.erase e ∧ OnlyIn [.cores] s t ∧ otherCores gi s t ∧
      (dOp e.desc = opNop ∨ c.pred e.desc = false ∨ n = 0 → (t.core gi).comp = c.comp ∧ (t.core gi).tq = c.tq ∧ (t.core gi).idle.length = c.idle.length + 1) ∧
      (dOp e.desc ≠ opNop → c.pred e.desc = true → 0 < n → opCompute (dOp e.desc) = true →
        ∃ r, (t.core gi).comp = some r ∧ r.idx = e.idx ∧ r.desc = e.desc ∧ r.counts = c.latchCounts e.desc ∧ r.hs = c.handles ∧ r.iter = 0 ∧ r.done = false ∧ r.got = s.chainBytes gi e.desc ∧
          (dOp e.desc = opFill → r.slot = c.fillSlotOf e.desc) ∧ (t.core gi).flights = [] ∧ (t.core gi).tq = c.tq) ∧
      (dOp e.desc ≠ opNop → c.pred e.desc = true → 0 < n → opCompute (dOp e.desc) = false →
        ∃ r, (t.core gi).tq = c.tq ++ [r] ∧ r.idx = e.idx ∧ r.desc = e.desc ∧ r.counts = c.latchCounts e.desc ∧ r.hs = c.handles ∧ r.iter = 0 ∧ (t.core gi).comp = c.comp) ∧
      (∀ j, j < 3 → dWaitEn e.desc j = true → (∀ k, k < 3 → k ≠ j → dWaitEn e.desc k = false) →
        rf (t.core gi).regs .CORE_TOK (dWaitTok e.desc j) 0 16 = rf c.regs .CORE_TOK (dWaitTok e.desc j) 0 16 - dWaitCnt e.desc j))

/-- The chain body, as its bytes were at issue, enters the chain buffer word by word; a compute descriptor that has run leaves its lane, and its token signal adds its increment; with none ready there, an entry that ran nothing completes, then the head of the transfer queue; the oldest NOP completes. (R110, R120, R123, R443) -/
def Obligations.DescriptorsComplete : Prop :=
  (∀ (s : State) (gi : Nat) (r : Run), (s.core gi).comp = some r → r.chain = none → (s.core gi).halted = false → s.flaws = [] →
    r.got.length = 8 * dClen r.desc →
    Runs (.chainBodyLoad gi []) s fun t =>
      (t.core gi).comp = some { r with chain := some ((List.range (dClen r.desc)).map fun k => leNat ((r.got.drop (8 * k)).take 8)) } ∧
      OnlyIn [.cores] s t ∧ otherCores gi s t) ∧
  (∀ (s : State) (gi : Nat) (r : Run), untraced s → (s.core gi).stop = 0 → (s.core gi).haltReq = false → (s.core gi).halted = false → (s.core gi).comp = some r → r.done = true →
    dSigKind r.desc 0 = 1 → dSigKind r.desc 1 = 0 → rf (s.core gi).regs .CORE_TOK (dSigTok r.desc 0) 0 16 + dSigInc r.desc 0 ≤ 65535 →
    Runs (.descComplete gi) s fun t => (t.core gi).comp = none ∧ (t.core gi).tq = (s.core gi).tq ∧
      rf (t.core gi).regs .CORE_TOK (dSigTok r.desc 0) 0 16 = rf (s.core gi).regs .CORE_TOK (dSigTok r.desc 0) 0 16 + dSigInc r.desc 0 ∧
      OnlyIn [.cores] s t ∧ otherCores gi s t) ∧
  (∀ (s : State) (gi : Nat) (r : Run) (rest : List Run), untraced s → (s.core gi).stop = 0 → (s.core gi).haltReq = false → (s.core gi).halted = false → (s.core gi).comp = none →
    (s.core gi).idle = [] → (s.core gi).tq = r :: rest → r.done = true → noSignals r.desc →
    Runs (.descComplete gi) s fun t => t.core gi = { s.core gi with tq := rest } ∧ OnlyIn [.cores] s t ∧ otherCores gi s t) ∧
  (∀ (s : State) (gi : Nat) (r : Run) (rest : List Run), untraced s → (s.core gi).stop = 0 → (s.core gi).haltReq = false → (s.core gi).halted = false → (s.core gi).comp = none →
    (s.core gi).idle = r :: rest → noSignals r.desc →
    Runs (.descComplete gi) s fun t => t.core gi = { s.core gi with idle := rest } ∧ OnlyIn [.cores] s t ∧ otherCores gi s t) ∧
  (∀ (s : State) (gi : Nat) (r : Run) (rest : List Run), untraced s → (s.core gi).stop = 0 → (s.core gi).haltReq = false → (s.core gi).halted = false → (s.core gi).idle = r :: rest →
    dOp r.desc = opNop → noSignals r.desc →
    Runs (.nop gi) s fun t => t.core gi = { s.core gi with idle := rest } ∧ OnlyIn [.cores] s t ∧ otherCores gi s t)

/-- When a failing entry is the oldest unissued one, or the next entry lies beyond the list's memory with every entry before it issued, the engine stops: CORE_DSTAT.STATUS takes the status, nothing issues any more, and once nothing issued is left STATE is STOPPED and the cluster sends DESC_FAULT's notice. (R113, R139) -/
def Obligations.EngineStops : Prop :=
  ∀ (s : State) (gi : Nat) (st : Nat), (s.core gi).mayIssue = true →
    (∃ e rest, (s.core gi).win = e :: rest ∧ e.bad = st) ∨ ((s.core gi).win = [] ∧ (s.core gi).beyond = true ∧ st = St.HANDLE_RANGE) → 0 < st → st < 2 ^ 16 →
    Runs (.descEngineStop gi) s fun t =>
      (t.core gi).stop = st ∧ rf (t.core gi).regs .CORE_DSTAT 0 16 16 = st ∧ (t.core gi).mayIssue = false ∧
      ((s.core gi).quietLanes = false → (t.core gi).state = 1 ∧ t.net = s.net) ∧
      ((s.core gi).quietLanes = true → (t.core gi).state = 2 ∧
        t.net = s.net ++ [⟨.cluster (coreCi gi), .hub, .tc0, s.stepNo % 256, .urg 9 (0x010B + coreK gi * 2 ^ 16 + st * 2 ^ 32)⟩] ∧
        rf (t.cluster (coreCi gi)).regs .CLU_FAULT 0 31 1 = 1) ∧
      OnlyIn [.cores, .clusters, .net] s t ∧ otherCores gi s t

/-- With no upset, a loaded PASS or CHAIN that meets no hazard runs every iteration: it is then ready to complete, its registers, accumulators, slots and memory are what its broadcasts and words give in cycle order, no result is left in flight, and no other core changes. No hazard can halt it where no flaw is outstanding, a pass's slot is not fill-pending, and the descriptor is TOLERANT, or it is a pass without a chain, or a chain of one word and one iteration, on a core with nothing in flight. (R81, R127, R128) -/
def Obligations.ComputeLaneRuns : Prop :=
  let ran := fun (s t : State) (gi : Nat) (r : Run) (x : CX) =>
    (∃ q, (t.core gi).comp = some q ∧ q.desc = r.desc ∧ q.done = true ∧ q.iter = r.total) ∧ (t.core gi).flights = [] ∧
      (∀ k, (t.core gi).getV k = x.c.getV k) ∧ (∀ k, (t.core gi).getA k = x.c.getA k) ∧ t.mem = x.mem ∧
      OnlyIn [.mem, .flaws, .cores] s t ∧ otherCores gi s t
  (∀ (s : State) (gi : Nat) (r : Run) (i : Instr) (x : CX),
    ((i = .pass gi [] ∧ (s.core gi).compReady opPass = some r ∧ x = (s.cx gi r).runPass r) ∨
     (i = .chain gi [] ∧ (s.core gi).compReady opChain = some r ∧ x = (s.cx gi r).runChain r)) → x.c.halted = false → x.faults = [] →
    Runs i s fun t => ran s t gi r x) ∧
  (∀ (s : State) (gi : Nat) (r : Run), (s.core gi).compReady opPass = some r → s.flaws = [] → (s.core gi).slotFlaws = [] →
    (s.core gi).pendSlot ((s.core gi).passSlot r.desc) = false → (r.tol = true ∨ r.chain = some [] ∧ (s.core gi).flights = []) →
    Runs (.pass gi []) s fun t => ran s t gi r ((s.cx gi r).runPass r)) ∧
  (∀ (s : State) (gi : Nat) (r : Run), (s.core gi).compReady opChain = some r → s.flaws = [] →
    (r.tol = true ∨ (∃ w, r.chain = some [w]) ∧ r.total = 1 ∧ (s.core gi).flights = []) →
    Runs (.chain gi []) s fun t => ran s t gi r ((s.cx gi r).runChain r))

/-- A one-iteration ELEM in FP32 with parameter operands, on a core with nothing in flight, leaves in every lane of accumulator Aj the correctly rounded product, sum or fused product and sum of the lane with s and b, and is ready to complete; every other accumulator and every vector register stays. A fill with no flaw outstanding decodes its source bytes into the lanes of the slot it names (FILL_T by the transposed read) and sets the slot's fill-pending bit; FILL_COMPLETE clears the bit and ends the iteration. A FILL_IN that finds a marker and a slot no pass reads takes the tile, points at NEXT where it names it, and sets the bit; when its whole source has arrived FILL_COMPLETE clears it. (R71, R74, R75, R84, R176) -/
def Obligations.ElementModeAndSlots : Prop :=
  (∀ (s : State) (gi e : Nat) (r : Run) (i : Instr), (e = 1 ∧ i = .emul gi ∨ e = 2 ∧ i = .eadd gi ∨ e = 3 ∧ i = .efma gi) →
    (s.core gi).compReady opElem = some r → dEop r.desc = e → dEfmt64 r.desc = false → dEosrc r.desc = true → r.counts = [1, 1, 1, 1] →
    (s.core gi).flights = [] → (s.core gi).landedSeq (32 + dEacc r.desc) ≤ (s.core gi).seq →
    let c := s.core gi
    let lane := fun k => elemLane e fp32 (bits (c.getA (dEacc r.desc)) (64 * k) 32) (c.prm (dEsidx r.desc)) (c.prm (dEbidx r.desc))
    Runs i s fun t => (∀ k, k < 16 → bits ((t.core gi).getA (dEacc r.desc)) (64 * k) 64 = (lane k).1 % 2 ^ 64) ∧
      (∀ k, k ≠ dEacc r.desc → (t.core gi).getA k = c.getA k) ∧ (∀ k, (t.core gi).getV k = c.getV k) ∧ (t.core gi).flights = [] ∧
      (t.core gi).comp = some { r with done := true, iter := 1 } ∧ OnlyIn [.cores] s t ∧ otherCores gi s t) ∧
  (∀ (s : State) (gi : Nat) (r : Run) (i : Instr) (tr : Bool), (i = .fill gi [] ∧ tr = false ∧ (s.core gi).compReady opFill = some r ∨
      i = .fillT gi [] ∧ tr = true ∧ (s.core gi).compReady opFillT = some r) → r.wait = false → s.flaws = [] →
    let h := hget r.hs (dH r.desc 0)
    let k := r.slot
    let a := localBase gi + (hPos h (r.indices r.iter)).toNat
    let x := s.cx gi r
    Runs i s fun t => (t.core gi).comp = some { r with wait := true } ∧ (t.core gi).pendSlot k = true ∧
      (∀ j, (t.core gi).lane k j = ((s.core gi).fillSlot tr h (dFsfmt r.desc) (dFk r.desc) k (s.rd a (fillSize h (dFsfmt r.desc) (dFk r.desc)))
        (x.lutOf h (r.indices r.iter)) (x.entOf h (r.indices r.iter))).lane k j) ∧
      (t.core gi).slotPtr = (s.core gi).slotPtr ∧ OnlyIn [.cores] s t ∧ otherCores gi s t) ∧
  (∀ (s : State) (gi : Nat) (r : Run), (s.core gi).comp = some r → (dOp r.desc = opFill ∨ dOp r.desc = opFillT) → r.wait = true →
    Runs (.fillComplete gi) s fun t => (t.core gi).comp = some r.advance ∧ (t.core gi).pendSlot r.slot = false ∧ OnlyIn [.cores] s t ∧ otherCores gi s t) ∧
  (∀ (s : State) (gi tile : Nat) (r : Run), (s.core gi).tqReady opFillIn = some r → (s.core gi).front = some (tile, 1) → r.wait = false →
    let k := (s.core gi).fillSlotOf r.desc
    (s.core gi).passReads k = false → fillSize (hget r.hs (dH r.desc 0)) (dFsfmt r.desc) (dFk r.desc) ≤ 32 * tile →
    Runs (.fillIn gi) s fun t => (t.core gi).pendSlot k = true ∧ (t.core gi).take = some ⟨tile, 1, 0⟩ ∧ (t.core gi).front = none ∧
      (t.core gi).slotPtr = (if dFslot r.desc = 2 then k else (s.core gi).slotPtr) ∧ (∃ q, (t.core gi).tq.head? = some q ∧ q.wait = true ∧ q.slot = k ∧ q.got = []) ∧
      OnlyIn [.cores] s t ∧ otherCores gi s t) ∧
  (∀ (s : State) (gi : Nat) (r : Run), (s.core gi).comp = none → (s.core gi).tqReady opFillIn = some r → r.wait = true → (s.core gi).take = none →
    fillSize (hget r.hs (dH r.desc 0)) (dFsfmt r.desc) (dFk r.desc) ≤ r.got.length →
    Runs (.fillComplete gi) s fun t => (t.core gi).pendSlot r.slot = false ∧ (t.core gi).tq.head? = some { r.advance with got := [] } ∧
      OnlyIn [.cores] s t ∧ otherCores gi s t)

/-- One iteration of a LOAD from outside local memory sends one read request of its length to the endpoint of its address and waits; one from local memory copies its bytes and goes on. A STORE sends one write with its bytes and waits, or copies them. Every byte of memory outside those copied stays. A SEND with a credit goes ahead; it injects one message with its bytes and the next SEQ to the bound receiver, and its credit is consumed. A POST with fewer than eight armed buffers arms its own and returns one credit to the bound sender; with eight armed it waits, and arms once one has been consumed. (R111, R151, R152, R163) -/
def Obligations.TransfersAndChannels : Prop :=
  (∀ (s : State) (gi : Nat) (r : Run), (s.core gi).tqReady opLoad = some r → r.wait = false → hSpace (hget r.hs (dH r.desc 0)) = true → s.mayInject gi = true →
    Runs (.load gi) s fun t => (t.core gi).tq = { r with wait := true } :: (s.core gi).tq.drop 1 ∧
      t.net = s.net ++ [⟨.core gi, s.endpointOf (r.localAt 0), .tc2q, s.stepNo % 256, .mrd (r.localAt 0) (dLen r.desc / 32) (r.iter % 2 ^ 16)⟩] ∧
      OnlyIn [.cores, .net] s t ∧ otherCores gi s t) ∧
  (∀ (s : State) (gi : Nat) (r : Run) (i : Instr), (i = .load gi ∧ (s.core gi).tqReady opLoad = some r ∧ hSpace (hget r.hs (dH r.desc 0)) = false ∨
      i = .store gi ∧ (s.core gi).tqReady opStore = some r ∧ hSpace (hget r.hs (dH r.desc 1)) = false) →
    r.wait = false → s.flaws = [] → (s.core gi).halted = false → memRange (localBase gi + r.localAt 1) (dLen r.desc) = true →
    Runs i s fun t => (t.core gi).tq = r.advance :: (s.core gi).tq.drop 1 ∧
      (∀ k, k < dLen r.desc → mget t.mem (localBase gi + r.localAt 1 + k) = mget s.mem (localBase gi + r.localAt 0 + k)) ∧
      (∀ b, (b < localBase gi + r.localAt 1 ∨ localBase gi + r.localAt 1 + dLen r.desc ≤ b) → mget t.mem b = mget s.mem b) ∧ t.net = s.net ∧
      OnlyIn [.mem, .flaws, .cores, .clusters] s t) ∧
  (∀ (s : State) (gi : Nat) (r : Run), (s.core gi).tqReady opStore = some r → r.wait = false → hSpace (hget r.hs (dH r.desc 1)) = true →
    s.mayInject gi = true → s.flaws = [] → (s.core gi).halted = false →
    Runs (.store gi) s fun t => (t.core gi).tq = { r with wait := true } :: (s.core gi).tq.drop 1 ∧
      t.net = s.net ++ [⟨.core gi, s.endpointOf (r.localAt 1), .tc2q, s.stepNo % 256, .mwr (r.localAt 1) (s.rd (localBase gi + r.localAt 0) (dLen r.desc))⟩] ∧
      OnlyIn [.cores, .net] s t ∧ otherCores gi s t) ∧
  (∀ (s : State) (gi : Nat) (r : Run), (s.core gi).tqReady opSend = some r → r.wait = false → 1 ≤ ((s.core gi).sendCtx (dCh r.desc)).credit →
    Gives (.send gi) s (s.modCore gi fun c => c.setTq { r with wait := true })) ∧
  (∀ (s : State) (gi : Nat) (r : Run), (s.core gi).tqReady opSend = some r → r.wait = true → 1 ≤ ((s.core gi).sendCtx (dCh r.desc)).credit →
    dCh r.desc < (s.core gi).send.length → s.mayInject gi = true → s.flaws = [] → (s.core gi).halted = false →
    let x := (s.core gi).sendCtx (dCh r.desc)
    let b := rg (s.core gi).regs .CORE_SCTX (dCh r.desc)
    Runs (.sendInject gi) s fun t => (t.core gi).tq = r.advance :: (s.core gi).tq.drop 1 ∧
      ((t.core gi).sendCtx (dCh r.desc)).credit = x.credit - 1 ∧ ((t.core gi).sendCtx (dCh r.desc)).seq = (x.seq + 1) % 2 ^ 16 ∧
      t.net = s.net ++ [⟨.core gi, .core (coreOf (bits b 0 7 + 128 * bits b 7 6) (bits b 13 6)), if dTc2 r.desc then .tc2q else .tc1, s.stepNo % 256,
        .msg (bits b 19 2) x.seq (s.rd (localBase gi + r.localAt 0) (dLen r.desc))⟩] ∧ OnlyIn [.cores, .net] s t ∧ otherCores gi s t) ∧
  (∀ (s : State) (gi : Nat) (r : Run) (i : Instr), (s.core gi).tqReady opPost = some r → (i = .post gi ∧ r.wait = false ∨ i = .postArm gi ∧ r.wait = true) →
    s.mayInject gi = true → ((s.core gi).recvCtx (dCh r.desc)).armed.length < 8 → dCh r.desc < (s.core gi).recv.length →
    let b := rg (s.core gi).regs .CORE_RCTX (dCh r.desc)
    Runs i s fun t => (t.core gi).tq = r.advance :: (s.core gi).tq.drop 1 ∧
      ((t.core gi).recvCtx (dCh r.desc)).armed = ((s.core gi).recvCtx (dCh r.desc)).armed ++ [(r.localAt 0, dLen r.desc)] ∧
      t.net = s.net ++ [⟨.core gi, .core (coreOf (bits b 0 7 + 128 * bits b 7 6) (bits b 13 6)), .tc1, s.stepNo % 256, .credit (bits b 19 2) 1⟩] ∧
      OnlyIn [.cores, .net] s t ∧ otherCores gi s t) ∧
  (∀ (s : State) (gi : Nat) (r : Run), (s.core gi).tqReady opPost = some r → r.wait = false → s.mayInject gi = true →
    8 ≤ ((s.core gi).recvCtx (dCh r.desc)).armed.length → Gives (.post gi) s (s.modCore gi fun c => c.setTq { r with wait := true }))

/-- A RAKE_SQ iteration adds the squares of its in-extent values to the Rake of a valid unfrozen layer and goes on; the only result in flight lands in its register; a corrected word is written back, and nothing else in memory; an increment is added to its token; a list selection reaches every core of its cluster; 1 to 16 shadow parameters land together. (R79, R84, R124, R134, R141, R168, R252, R253) -/
def Obligations.RakeAndCoreRegisters : Prop :=
  (∀ (s : State) (gi : Nat) (r : Run), (s.core gi).tqReady opRakeSq = some r → hSpace (hget r.hs (dH r.desc 0)) = false → s.flaws = [] → (s.core gi).halted = false →
    memRange (localBase gi + r.localAt 0) (dLen r.desc) = true → lValid (s.layer (dLayer r.desc)) = true → lFrozen (s.layer (dLayer r.desc)) = false →
    Runs (.rakeSq gi [] []) s fun t => (t.core gi).tq = r.advance :: (s.core gi).tq.drop 1 ∧
      t.rake = (rakeElems (hget r.hs (dH r.desc 0)) (r.indices r.iter) (s.rd (localBase gi + r.localAt 0) (dLen r.desc))).foldl
        (fun k x => k.add (signed 8 (bits s.sieve.ls 0 8)) x) s.rake ∧ OnlyIn [.cores, .clusters, .rake] s t ∧ otherCores gi s t) ∧
  (∀ (s : State) (gi : Nat) (f : Flight), (s.core gi).flights = [f] → (s.core gi).landedSeq f.reg ≤ f.seq →
    Runs (.resultLand gi) s fun t => (t.core gi).flights = [] ∧ (t.core gi).getR f.reg = f.val % (if f.reg < 32 then 2 ^ 512 else 2 ^ 1024) ∧
      (∀ k, k ≠ f.reg → (t.core gi).getR k = (s.core gi).getR k) ∧ OnlyIn [.cores] s t ∧ otherCores gi s t) ∧
  (∀ (s : State) (gi : Nat) (f : Flight), (s.core gi).flights = [f] → f.seq < (s.core gi).landedSeq f.reg →
    Runs (.resultLand gi) s fun t => (t.core gi).flights = [] ∧ (∀ k, (t.core gi).getR k = (s.core gi).getR k) ∧
      rf (t.core gi).regs .CORE_HZCNT 0 16 16 = min (rf (s.core gi).regs .CORE_HZCNT 0 16 16 + 1) 65535) ∧
  (∀ (s : State) (gi w : Nat) (rest : List Nat), (s.core gi).wb = w :: rest →
    Runs (.lmemEccWriteback gi) s fun t => (t.core gi).wb = rest ∧ flawOf t.flaws w = none ∧ (∀ a, a / 8 ≠ w → mget t.mem a = mget s.mem a) ∧
      ((∀ b, flawOf s.flaws w ≠ some (.double b)) → t.mem = s.mem) ∧ OnlyIn [.cores, .flaws, .mem] s t ∧ otherCores gi s t) ∧
  (∀ (s : State) (ci w : Nat) (rest : List Nat), (s.cluster ci).wb = w :: rest →
    Runs (.cstoreEccWriteback ci) s fun t => (t.cluster ci).wb = rest ∧ flawOf t.flaws w = none ∧ (∀ a, a / 8 ≠ w → mget t.mem a = mget s.mem a) ∧
      ((∀ b, flawOf s.flaws w ≠ some (.double b)) → t.mem = s.mem) ∧ OnlyIn [.clusters, .flaws, .mem] s t) ∧
  (∀ (s : State) (gi k n : Nat), k < 32 → n < 256 → rf (s.core gi).regs .CORE_TOK k 0 16 + n ≤ 65535 →
    Runs (.tokincWrite gi k n) s fun t => rf (t.core gi).regs .CORE_TOK k 0 16 = rf (s.core gi).regs .CORE_TOK k 0 16 + n ∧ OnlyIn [.cores] s t ∧ otherCores gi s t) ∧
  (∀ (s : State) (ci sel : Nat), ci < nClusters → sel < 4 →
    Runs (.cluLselWrite ci sel) s fun t => (∀ k, k < 64 → rf (t.core (coreOf ci k)).regs .CORE_LSEL 0 0 2 = sel) ∧ OnlyIn [.cores] s t) ∧
  (∀ (s : State) (gi first : Nat) (vals : List Nat), 1 ≤ vals.length → vals.length ≤ 16 → first + vals.length ≤ 64 →
    Runs (.patch gi first vals) s fun t => (∀ j, j < vals.length → rg (t.core gi).regs .CORE_PRMS (first + j) = vals.getD j 0 % 2 ^ 32) ∧
      (∀ k, k < 64 → (k < first ∨ first + vals.length ≤ k) → rg (t.core gi).regs .CORE_PRMS k = rg (s.core gi).regs .CORE_PRMS k) ∧ OnlyIn [.cores] s t ∧ otherCores gi s t)

/-- One flipped bit in a clean word changes nothing that is read; two change the word. A core that reads a word with one counts it in CORE_ECC.CE and goes on, a word of local memory waiting for its write-back and a slot's word whole again; one that reads a word with two reads what is stored, sets CORE_ECC.UE and halts with CAUSE LMEM_UE. (R79) -/
def Obligations.ErrorsAreCorrectedOrHaltTheCore : Prop :=
  (∀ (mem : Mem) (fl : Flaws) (u : Upset), u.mask < 2 ^ 64 → flawOf fl u.word = none →
    (onebit u.mask = true → (∀ a, mget (strike mem fl u).1 a = mget mem a) ∧ flawOf (strike mem fl u).2 u.word = some (.single u.mask)) ∧
    (u.mask ≠ 0 → onebit u.mask = false → leNat (mgets (strike mem fl u).1 (8 * u.word) 8) = leNat (mgets mem (8 * u.word) 8) ^^^ u.mask ∧
      (∀ a, a / 8 ≠ u.word → mget (strike mem fl u).1 a = mget mem a) ∧ flawOf (strike mem fl u).2 u.word = some (.double u.mask))) ∧
  (∀ (x : CX) (a n w b : Nat), 0 < n → (localBase x.gi + a) / 8 ≤ w → w ≤ (localBase x.gi + a + n - 1) / 8 → x.c.wb = [] →
    let r := x.readLocal a n
    (x.flaws = [(w, some (.single b))] → r.2 = mgets x.mem (localBase x.gi + a) n ∧ r.1.halted = x.halted ∧ r.1.c.wb = [w] ∧
      rf r.1.c.regs .CORE_ECC 0 0 16 = min (rf x.c.regs .CORE_ECC 0 0 16 + 1) 65535) ∧
    (x.flaws = [(w, some (.double b))] → r.2 = mgets x.mem (localBase x.gi + a) n ∧ r.1.halted = true ∧ r.1.faults = x.faults ++ [2] ∧
      rf r.1.c.regs .CORE_ECC 0 16 1 = 1 ∧ rf r.1.c.regs .CORE_STAT 0 0 1 = 1 ∧ rf r.1.c.regs .CORE_STAT 0 1 3 = 3)) ∧
  (∀ (x : CX) (slot lane w lo hi b : Nat) (sc : Option Nat), lane < 16 → w < 32 → lo ≤ w → w ≤ hi →
    let r := x.slotRead slot lo hi sc
    (x.c.slotFlaws = [(544 * slot + 34 * lane + w, some (.single b))] → r.halted = x.halted ∧ r.c.slots = x.c.slots ∧ r.c.slotFlaws = [] ∧
      rf r.c.regs .CORE_ECC 0 0 16 = min (rf x.c.regs .CORE_ECC 0 0 16 + 1) 65535) ∧
    (x.c.slotFlaws = [(544 * slot + 34 * lane + w, some (.double b))] → r.halted = true ∧ r.c.slots = x.c.slots ∧ r.c.slotFlaws = x.c.slotFlaws ∧
      rf r.c.regs .CORE_ECC 0 16 1 = 1 ∧ rf r.c.regs .CORE_STAT 0 1 3 = 3))

/-- A memory read that may be delivered is answered by one MRSP of the same tag with the bytes its address names (zeros at the unmapped ones), and changes nothing but the traffic; a memory write that may be delivered puts its bytes at its address and nowhere else; a response lands in its requester's local memory at its LOAD's place. (R151, R163, R169) -/
def Obligations.MemoryPacketsAreServed : Prop :=
  (∀ (s t : State) (n addr flits tag : Nat) (p : Packet), s.takePacket n = some (p, t) → p.body = .mrd addr flits tag → s.flaws = [] →
    Runs (.mrd n [] [] []) s fun u => OnlyIn [.net, .cores, .clusters] s u ∧ (∀ gi, u.core gi = s.core gi) ∧ (∀ ci, u.cluster ci = s.cluster ci) ∧
      ∃ d : List Byte, u.net = t.net ++ [⟨p.dst, p.src, .tc2r, s.stepNo % 256, .mrsp tag d⟩] ∧ d.length = 32 * flits ∧
        ∀ i, i < 32 * flits → d.getD i 0#8 = if (placeOf (addr + i)).isMem then mget s.mem (addr + i) else 0#8) ∧
  (∀ (s t : State) (n addr : Nat) (data : List Byte) (p : Packet), s.takePacket n = some (p, t) → p.body = .mwr addr data →
    (∀ gi, p.src ≠ .core gi) → data ≠ [] → memRange addr data.length = true → s.hrv ≠ 2 →
    Runs (.mwr n []) s fun u => OnlyIn [.mem, .flaws, .cores, .clusters, .net] s u ∧ u.net = t.net ∧
      ∀ a, mget u.mem a = if h : addr ≤ a ∧ a - addr < data.length then data[a - addr]'h.2 else mget s.mem a) ∧
  (∀ (s t : State) (n tag gi : Nat) (data : List Byte) (p : Packet) (r : Run), s.takePacket n = some (p, t) → p.body = .mrsp tag data →
    p.dst = .core gi → (s.core gi).awaiting opLoad = some r → data ≠ [] → memRange (localBase gi + r.localAt 1) data.length = true →
    Runs (.mrsp n []) s fun u => OnlyIn [.mem, .flaws, .cores, .clusters, .net] s u ∧ u.net = t.net ∧
      (u.core gi).tq = r.advance :: (s.core gi).tq.drop 1 ∧
      ∀ a, mget u.mem a = if h : localBase gi + r.localAt 1 ≤ a ∧ a - (localBase gi + r.localAt 1) < data.length then data[a - (localBase gi + r.localAt 1)]'h.2 else mget s.mem a)

/-- A message in sequence lands in the oldest armed buffer, cut to its length, and NEXT advances; a token message whose predecessors have landed adds its increment to the bound token; credits add to their send context; each touches its own core alone, besides memory and fault reports. A packet whose header flit meets a double error at a hop is discarded there: the errors met up to that hop are recorded, and nothing else happens. (R149, R152, R153, R157) -/
def Obligations.ChannelPacketsLand : Prop :=
  (∀ (s t : State) (n k seq gi a len : Nat) (data : List Byte) (p : Packet) (rest : List (Nat × Nat)), s.takePacket n = some (p, t) →
    p.body = .msg k seq data → p.dst = .core gi → p.cls = .tc2q → k < 4 → (s.core gi).recv.length = 4 → (s.core gi).eject = [] →
    (((s.core gi).recvCtx k).see p.stag).armed = (a, len) :: rest → ((s.core gi).recvCtx k).held = [] → seq = ((s.core gi).recvCtx k).next →
    data ≠ [] → data.length ≤ len → memRange (localBase gi + a) data.length = true →
    rf (s.core gi).regs .CORE_TOK (rf (s.core gi).regs .CORE_RCTX k 21 5) 0 16 < 65535 →
    Runs (.msg n []) s fun u => u.net = t.net ∧ ((u.core gi).recvCtx k).next = (seq + 1) % 2 ^ 16 ∧ ((u.core gi).recvCtx k).armed = rest ∧
      rf (u.core gi).regs .CORE_TOK (rf (s.core gi).regs .CORE_RCTX k 21 5) 0 16 = rf (s.core gi).regs .CORE_TOK (rf (s.core gi).regs .CORE_RCTX k 21 5) 0 16 + 1 ∧
      (∀ b, mget u.mem b = if h : localBase gi + a ≤ b ∧ b - (localBase gi + a) < data.length then data[b - (localBase gi + a)]'h.2 else mget s.mem b) ∧
      (∀ gj, gj ≠ gi → u.core gj = s.core gj)) ∧
  (∀ (s t : State) (n k tseq inc gi : Nat) (p : Packet), s.takePacket n = some (p, t) → p.body = .token k tseq inc → p.dst = .core gi →
    (s.core gi).eject = [] → tokenDue (((s.core gi).recvCtx k).see p.stag).next tseq = true →
    rf (s.core gi).regs .CORE_TOK (rf (s.core gi).regs .CORE_RCTX k 21 5) 0 16 + inc ≤ 65535 →
    Runs (.token n []) s fun u => OnlyIn [.cores, .net] s u ∧ u.net = t.net ∧ (∀ gj, gj ≠ gi → u.core gj = s.core gj) ∧
      rf (u.core gi).regs .CORE_TOK (rf (s.core gi).regs .CORE_RCTX k 21 5) 0 16 = rf (s.core gi).regs .CORE_TOK (rf (s.core gi).regs .CORE_RCTX k 21 5) 0 16 + inc) ∧
  (∀ (s t : State) (n k c gi : Nat) (p : Packet), s.takePacket n = some (p, t) → p.body = .credit k c → p.dst = .core gi → (s.core gi).eject = [] →
    k < (s.core gi).send.length →
    Runs (.credit n []) s fun u => OnlyIn [.cores, .net] s u ∧ u.net = t.net ∧ (∀ gj, gj ≠ gi → u.core gj = s.core gj) ∧
      ((u.core gi).sendCtx k).credit = ((s.core gi).sendCtx k).credit + c ∧ ∀ j, j ≠ k → (u.core gi).sendCtx j = (s.core gi).sendCtx j) ∧
  (∀ (s t : State) (n : Nat) (p : Packet) (fs : List FlitErr), s.takePacket n = some (p, t) → (∃ f ∈ fs, t.metBy p f = true ∧ f.isHeader = true) →
    let lost := (t.meets p fs).foldl State.flitAt t
    (∀ k q d gi, p.body = .msg k q d → p.dst = .core gi → Gives (.msg n fs) s lost) ∧
    (∀ k q i gi, p.body = .token k q i → p.dst = .core gi → Gives (.token n fs) s lost) ∧
    (∀ k c gi, p.body = .credit k c → p.dst = .core gi → Gives (.credit n fs) s lost) ∧
    (∀ a k tag ups hbm, p.body = .mrd a k tag → Gives (.mrd n ups hbm fs) s lost) ∧
    (∀ tag d gi, p.body = .mrsp tag d → p.dst = .core gi → Gives (.mrsp n fs) s lost) ∧
    (∀ v, p.body = .regRsp v → p.dst = .hub → Gives (.regrsp n fs) s lost) ∧
    (∀ k e ci, p.body = .frontReq k e → p.src = .cluster ci → Gives (.frontLaunchRequest n fs) s lost))

/-- A register read that reaches its endpoint is answered with REGRSP carrying what the register reads as; a register write changes what a whole write of its place changes; a response completes the oldest host read of its endpoint with the bytes that read asked for and one that none awaits is discarded; a host read unanswered for 1 ms completes with zeros and is logged as unmapped. (R151, R386, R442) -/
def Obligations.RegisterPackets : Prop :=
  (∀ (s t : State) (n off : Nat) (e : Endpoint) (p : Packet), s.takePacket n = some (p, t) → p.body = .regRd off → p.dst = e →
    (∀ gi, e ≠ .core gi) → s.dark (windowOf e off) = false →
    Gives (.regrd n []) s ((t.readPlace .host (windowOf e off)).2.inject e p.src .tc1 (.regRsp (t.readPlace .host (windowOf e off)).1))) ∧
  (∀ (s t : State) (n off gi : Nat) (p : Packet), s.takePacket n = some (p, t) → p.body = .regRd off → p.dst = .core gi → s.diesOff = false →
    (s.core gi).eject = [] → off < 0x800 → off % 4 = 0 →
    Gives (.regrd n []) s (t.inject (.core gi) p.src .tc1 (.regRsp (bits (hget (s.core gi).handles (off / 32)) (8 * (off % 32)) 32)))) ∧
  (∀ (s t : State) (n off v be : Nat) (e : Endpoint) (p : Packet), s.takePacket n = some (p, t) → p.body = .regWr off v be → p.dst = e → v < 2 ^ 32 →
    (∀ gi, e ≠ .core gi) → s.dark (windowOf e off) = false → Gives (.regwr n []) s (t.writePlace .host (windowOf e off) v be)) ∧
  (∀ (s t : State) (n v tick a be : Nat) (p : Packet) (rest : List (Endpoint × Nat × Nat × Nat)), s.takePacket n = some (p, t) → p.body = .regRsp v → p.dst = .hub →
    v < 2 ^ 32 → s.host.reads = (p.src, a, be, tick) :: rest →
    Gives (.regrsp n []) s { t with host := { t.host with reads := rest, readData := lanes be v } }) ∧
  (∀ (s t : State) (n v : Nat) (p : Packet), s.takePacket n = some (p, t) → p.body = .regRsp v → p.dst = .hub → s.host.reads = [] → Gives (.regrsp n []) s t) ∧
  (∀ (s : State) (e : Endpoint) (a be tick : Nat) (rest : List (Endpoint × Nat × Nat × Nat)), s.host.reads = (e, a, be, tick) :: rest → tick + 250000 ≤ s.sundial →
    Runs .regResponseTimeout s fun t => t.host.reads = rest ∧ t.host.readData = 0 ∧
      (rf s.mbx .MBX_RWERRHI 0 31 1 = 0 → rf t.mbx .MBX_RWERRHI 0 16 2 = 0 ∧ rf t.mbx .MBX_RWERRHI 0 31 1 = 1))

/-- HALT stops every core that its target names (a core, a cluster, a rectangle with a core mask) with nothing issued with CAUSE DEBUG and RESUME starts it again; an endpoint reached by a QUIESCE stops injecting and then reports; the hub completes a QUIESCE when every contributor has reported and no TC1 or TC2 packet is in flight, and reports its timeout otherwise; a barrier that every cluster has arrived at is released to all; a Sundial value reaches its Grafter; the cycles a TC0 packet waited are counted and a reserved code is discarded. (R154, R155, R156, R161, R316, R421) -/
def Obligations.UrgentTraffic : Prop :=
  (∀ (s : State) (u : UrgTarget) (reason : Nat), Runs (.halt u reason []) s fun t => OnlyIn [.cores] s t ∧
    (∀ gi, ¬ (gi ∈ u.cores ∧ gi < nCores) → t.core gi = s.core gi) ∧
    ∀ gi, gi ∈ u.cores → gi < nCores → (s.core gi).halted = false → (s.core gi).quietLanes = true → (t.core gi).debugHalted = true) ∧
  (∀ (s : State) (u : UrgTarget), Runs (.resume u []) s fun t => OnlyIn [.cores] s t ∧ (∀ gi, ¬ (gi ∈ u.cores ∧ gi < nCores) → t.core gi = s.core gi) ∧
    ∀ gi, gi ∈ u.cores → gi < nCores → (s.core gi).debugHalted = true → (t.core gi).halted = false ∧ rf (t.core gi).regs .CORE_STAT 0 1 3 = 0) ∧
  (∀ (s : State) (ci : Nat), s.quiesce.isSome = true → ci < nClusters → (s.cluster ci).quiet = false →
    Gives (.quiesceUrgent (.cluster ci) []) s (s.modCluster ci fun c => { c with quiet := true })) ∧
  (∀ (s : State) (ci : Nat), s.quiesce.isSome = true → ci < nClusters → (s.cluster ci).quiet = true → s.drained (.cluster ci) = true →
    Runs (.quiesceUrgent (.cluster ci) []) s fun t => (t.cluster ci).quiesced = true ∧ OnlyIn [.clusters] s t) ∧
  (∀ (s : State) (e : Endpoint), s.quiesce.isSome = true → e.quiesces = true → (∀ ci, e ≠ .cluster ci) →
    (s.quietG.contains e = false → Gives (.quiesceUrgent e []) s { s with quietG := s.quietG ++ [e] }) ∧
    (s.quietG.contains e = true → s.drained e = true → s.quiescedG.contains e = false →
      Gives (.quiesceUrgent e []) s { s with quiescedG := s.quiescedG ++ [e] })) ∧
  (∀ (s : State) (q : Quiesce), s.quiesce = some q → q.done = false → s.allQuiesced = true → s.trellisEmpty = true →
    Runs .quiesced s fun t => t.quiesce = some { q with done := true } ∧ OnlyIn [.quiesce, .gauge, .mb, .msix] s t) ∧
  (∀ (s : State) (q : Quiesce), s.quiesce = some q → q.done = false → q.late = false → q.start + 250 * s.hf .TRL_QCFG 0 0 16 ≤ s.sundial →
    Runs .quiesceTimeout s fun t => t.quiesce = some { q with late := true }) ∧
  (∀ (s : State) (ci id : Nat), ci < nClusters → Runs (.barrierArrive ci id []) s fun t => (t.cluster ci).arrived = some id ∧ OnlyIn [.clusters, .barrier] s t) ∧
  (∀ (s : State) (id : Nat), s.barrier = some id →
    Runs .barrierRelease s fun t => t.barrier = none ∧ (∀ ci, (t.cluster ci).arrived = none) ∧ OnlyIn [.clusters, .barrier] s t) ∧
  (∀ (s t : State) (n k arg : Nat) (p : Packet), s.takePacket n = some (p, t) → p.body = .urg 8 arg → p.dst = .grafter k → k < s.grafters.length →
    Runs (.sdlSync n []) s fun u => (u.grafter k).slew = (arg : Int) - s.copyOf k ∧ OnlyIn [.grafters, .net] s u ∧ u.net = t.net) ∧
  (∀ s : State, Runs .sdlSyncSend s fun t => OnlyIn [.net] s t ∧
    t.net = s.net ++ (List.range 8).map fun k => ⟨.hub, .grafter k, .tc0, s.stepNo % 256, .urg 8 (s.sundial + s.hf .SDL_GCOMP k 0 12)⟩) ∧
  (∀ (s : State) (n ci cycles c a : Nat) (p : Packet), s.net[n]? = some p → p.body = .urg c a → 1 ≤ c → c ≤ 9 →
    Gives (.tc0PoliceAdmit n ci cycles) s (s.satC ci .TRL_STAT 0 18 14 cycles)) ∧
  (∀ (s : State) (n ci cycles a : Nat) (p : Packet), s.net[n]? = some p → p.body = .urg 10 a →
    Runs (.tc0PoliceAdmit n ci cycles) s fun t => t.net = s.net.eraseIdx n ∧ OnlyIn [.net, .clusters] s t)

/-- A CLU_FRONTGO write sends a launch request while its controller has a place and its cluster is not quiet, and is held otherwise; a host write held for 1 ms is discarded and logged; a request that reaches its controller is queued; a controller that starts a launchable front sends its marker and tiles to the head core, and one it may not launch is broken; a marker that reaches a core with none held is held there; a tile's bytes reach the core that has taken the marker. (R173, R174, R175, R176, R177) -/
def Obligations.FrontsStream : Prop :=
  (∀ (s : State) (who : Agent) (ci v : Nat), goReach who ci = true → agentFree s who → s.frontLoad (bits v 8 4) < 64 → s.frontHeld = [] → (s.cluster ci).quiet = false →
    Gives (.frontgo who ci v) s (s.inject (.cluster ci) (.hbm (bits v 8 4)) .tc1 (.frontReq (bits v 8 4) (bits v 0 8)))) ∧
  (∀ (s : State) (who : Agent) (ci v : Nat), goReach who ci = true → agentFree s who → 64 ≤ s.frontLoad (bits v 8 4) ∨ (s.cluster ci).quiet = true →
    Gives (.frontgo who ci v) s { s with frontHeld := s.frontHeld ++ [⟨who, ci, bits v 8 4, bits v 0 8, s.sundial⟩] }) ∧
  (∀ (s : State) (ci k e tick : Nat), s.frontHeld = [⟨.host, ci, k, e, tick⟩] → s.host.behind = [] → tick + 250000 ≤ s.sundial →
    Gives .frontgoHoldTimeout s ({ s with frontHeld := [] }.rwErr (0x030001000000 + 0x20000 * (ci % 256) + Reg.offset .CLU_FRONTGO 0) 0 true)) ∧
  (∀ (s t : State) (n k e ci : Nat) (p : Packet), s.takePacket n = some (p, t) → p.body = .frontReq k e → p.src = .cluster ci →
    Gives (.frontLaunchRequest n []) s { t with frontQ := t.frontQ ++ [(k, e, ci)] }) ∧
  (∀ (s : State) (k e ci : Nat), s.frontQ = [(k, e, ci)] → s.frontHeld = [] → s.streams = [] → s.quietG = [] → s.flaws = [] → s.host.behind = [] →
    frontOk (Sparse.get (fun _ => 0) s.frontTab (256 * k + e)) = true →
    Runs (.frontStreamStart k []) s fun t => t.frontQ = [] ∧ OnlyIn [.frontQ, .net, .streams, .cores, .clusters] s t ∧
      (∀ gi, t.core gi = s.core gi) ∧ (∀ c, t.cluster c = s.cluster c) ∧
      ∃ f head bs, f ∈ t.streams ∧ f.stack = k ∧ t.net = s.net ++ bs ∧ bs.length = f.left ∧ ∀ p ∈ bs, p.src = .hbm k ∧ p.dst = .core head ∧ p.cls = .tc2q) ∧
  (∀ (s t : State) (n tile left gi : Nat) (p : Packet), s.takePacket n = some (p, t) → p.body = .frontMark tile left → p.dst = .core gi →
    (s.core gi).front = none → (s.core gi).take = none → (s.core gi).frontSrc = none → (s.core gi).tq = [] →
    Runs (.frontMarker n []) s fun u => (u.core gi).front = some (tile, left) ∧ (u.core gi).frontSrc = some p.src ∧ ∀ gj, gj ≠ gi → u.core gj = s.core gj) ∧
  (∀ (s t : State) (n tile left gi : Nat) (data : List Byte) (k : FrontTake) (p : Packet), s.takePacket n = some (p, t) → p.body = .frontTile tile left data →
    p.dst = .core gi → (s.core gi).take = some k → (s.core gi).frontSrc = some p.src → k.seen + data.length < 32 * k.tile * k.left → (s.core gi).tq = [] →
    Runs (.frontTile n []) s fun u => (u.core gi).take = some { k with seen := k.seen + data.length } ∧ ∀ gj, gj ≠ gi → u.core gj = s.core gj)

/-- The oldest accepted patch lands in the shadow parameters of every core, or of those its rectangle names, leaves every other parameter and core, and is no longer waiting; with none waiting nothing changes. At action 5 the phase switch selects the phase's list on every core, PHASE_EFF follows, the phase-entry flag is patched where it is enabled, and REPLAY is next. A launch time that has come clears ARM. A ramp group whose time has come is released, all of it and no other, and one whose time has not is not. RESUME leaves the Sieve's halt and clears CONSEC; WCLR is remembered, and empties the window when the next boundary begins. (R135, R197, R260, R261, R316, R398) -/
def Obligations.PatchesAndPhases : Prop :=
  (∀ (s : State) (p : Patch) (rest : List Patch), s.step.patches = p :: rest → p.first + p.vals.length ≤ 64 → p.rect = none →
    Runs .broadcastPatchLand s fun t => t.step = { s.step with patches := rest } ∧ OnlyIn [.cores, .step] s t ∧
      ∀ gi, t.core gi = (s.core gi).patchShadow p.first p.vals ∧
        (∀ j, j < p.vals.length → rg (t.core gi).regs .CORE_PRMS (p.first + j) = p.vals.getD j 0 % 2 ^ 32) ∧
        ∀ k, k < 64 → (k < p.first ∨ p.first + p.vals.length ≤ k) → rg (t.core gi).regs .CORE_PRMS k = rg (s.core gi).regs .CORE_PRMS k) ∧
  (∀ (s : State) (p : Patch) (rest : List Patch) (x0 y0 x1 y1 m : Nat), s.step.patches = p :: rest → p.first + p.vals.length ≤ 64 →
    p.rect = some (x0, y0, x1, y1, m) →
    Runs .broadcastPatchLand s fun t => t.step = { s.step with patches := rest } ∧ OnlyIn [.cores, .step] s t ∧
      (∀ gi, gi ∉ rectCores x0 y0 x1 y1 m → t.core gi = s.core gi) ∧
      ∀ gi, gi ∈ rectCores x0 y0 x1 y1 m →
        (∀ j, j < p.vals.length → rg (t.core gi).regs .CORE_PRMS (p.first + j) = p.vals.getD j 0 % 2 ^ 32) ∧
        ∀ k, k < 64 → (k < p.first ∨ p.first + p.vals.length ≤ k) → rg (t.core gi).regs .CORE_PRMS k = rg (s.core gi).regs .CORE_PRMS k) ∧
  (∀ s : State, s.step.patches = [] → Gives .broadcastPatchLand s s) ∧
  (∀ s : State, s.atAction 5 = true → Runs .phaseSwitch s fun t =>
    let gen := s.hf .STEP_CFG 0 1 1
    t.hf .STEP_CFG 0 2 1 = gen ∧ t.step.phase = .boundary 6 ∧ OnlyIn [.cores, .step, .hub] s t ∧
      (s.hf .STEP_CFG 0 13 1 = 1 → ⟨none, s.hf .STEP_CFG 0 7 6, [1]⟩ ∈ t.step.patches) ∧
      ∀ gi, rf (t.core gi).regs .CORE_LSEL 0 0 2 = if gen = 1 then s.hf .STEP_CFG 0 5 2 else s.hf .STEP_CFG 0 3 2) ∧
  (∀ s : State, s.hf .SDL_LAUNCHHI 0 31 1 = 1 → s.atAction 6 = true → s.launchTime ≤ s.sundial →
    Runs .launchTime s fun t => t.hf .SDL_LAUNCHHI 0 31 1 = 0 ∧ OnlyIn [.hub] s t) ∧
  (∀ (s : State) (g : Nat), g < 8 → 625 * g ≤ 2 * (s.sundial - s.step.ramp) →
    Runs (.rampGroupRelease g) s fun t => OnlyIn [.clusters] s t ∧
      (∀ ci, ci < nClusters → (ci % 128 + ci / 128) % 8 = g → t.cluster ci = { s.cluster ci with released := true }) ∧
      ∀ ci, (ci % 128 + ci / 128) % 8 ≠ g → t.cluster ci = s.cluster ci) ∧
  (∀ (s : State) (g : Nat), 2 * (s.sundial - s.step.ramp) < 625 * g → Gives (.rampGroupRelease g) s s) ∧
  (∀ s : State, s.hf .SIV_STAT 0 4 1 = 1 → Runs .sieveResume s fun t => t.hf .SIV_STAT 0 4 1 = 0 ∧ t.hf .SIV_STAT 0 8 8 = 0 ∧ OnlyIn [.hub] s t) ∧
  (∀ s : State, Gives .windowClear s { s with sieve := { s.sieve with clear := true } }) ∧
  (∀ s : State, s.sieve.clear = true → s.windowClear.sieve = { s.sieve with window := [], clear := false } ∧ s.windowClear.hf .SIV_STAT 0 3 1 = 0)

/-- When a boundary's actions are done and nothing holds it, REPLAY of the next step is applied: its number is in force, the active hyperparameters are the shadow ones, the step runs undecided with its replay count 0 and an empty Rake, and every core outside a Grafter's region takes its shadow parameters and starts its list; a request to replay that step, come early, faults it at once. A named set that is not valid holds the module instead. With the Trellis quiesced the faulted step restarts: its replay count rises (a REPLAY_STEP's restarts at 0), its Rake, payload, notices and reduce-scatter are forgotten, the QUIESCE is over, and every core outside a Grafter's region has its channel images back and its list restarted from entry 0. (R23, R131, R132, R158, R240, R245, R246, R269) -/
def Obligations.ReplayApplies : Prop :=
  (∀ s : State, s.mayReplay = true → s.badHyper = none → s.nextStep < 2 ^ 64 → s.coll.held = [] → s.coll.reqs = [] →
    Runs .replay s fun t => t.stepNo = s.nextStep ∧ t.step.phase = .running ∧ t.step.decided = false ∧ t.step.closed = false ∧ t.rake = Rake.init ∧
      t.replays = 0 ∧ (∀ i, i < 128 → t.h .UPD_HP i = s.h .UPD_HPS i) ∧
      ∀ gi, coreCi gi ∉ s.regionClusters → (t.core gi).regs = ((s.core gi).replay s.nextStep).regs ∧ (t.core gi).win = [] ∧ (t.core gi).fetch = 0) ∧
  (∀ (s : State) (cause : Nat), s.mayReplay = true → s.badHyper = none → s.nextStep < 2 ^ 64 → s.coll.held = [] → s.coll.reqs = [(s.nextStep, 0, cause)] →
    Runs .replay s fun t => t.stepNo = s.nextStep ∧ t.step.phase = .running ∧ t.step.faulted = true ∧ t.coll.reqs = [] ∧ t.hf .UPD_STAT 0 16 16 = cause % 2 ^ 16) ∧
  (∀ (s : State) (k : Nat), s.mayReplay = true → s.badHyper = some k →
    Runs .replay s fun t => t.step.held = St.HPARAM_INVALID ∧ t.step.phase = s.step.phase ∧ t.stepNo = s.stepNo ∧ t.mayReplay = false ∧
      OnlyIn [.step, .logs, .logLost, .msix, .gauge, .hub] s t) ∧
  (∀ (s : State) (q : Quiesce), s.step.faulted = true → s.step.phase = .running → s.quiesce = some q → q.done = true → s.coll.held = [] → s.coll.reqs = [] →
    Runs .stepReplay s fun t => t.step.faulted = false ∧ t.step.closed = false ∧ t.step.group = none ∧ t.step.gdone = [] ∧ t.step.rsSent = [] ∧ t.rake = Rake.init ∧
      t.quiesce = none ∧ t.replays = (if s.step.rerun then 0 else min (s.replays + 1) 3) ∧ t.stepNo = s.stepNo ∧
      ∀ gi, coreCi gi ∉ s.regionClusters → t.core gi = (s.core gi).stepReplay)

/-- A core whose list is complete becomes IDLE and counts in its cluster, and the last of a GENERATE step begins its boundary; with every list complete the Rake closes: its fields are the module's own, the nodes and the counters of R87 are cleared and RKE_FPFLAGS takes the flags; with the Rake closed the module latches its vote and takes part in the all-reduce, and a group of one has its own fields back at once. (R130, R254, R255, R343) -/
def Obligations.ListsAndRakeClose : Prop :=
  (∀ (s : State) (gi : Nat), (s.core gi).listDone = true →
    let u := ((s.setCore gi ((s.core gi).setState 0)).setCf (coreCi gi) .CLU_STAT 0 0 7 (min (rf (s.cluster (coreCi gi)).regs .CLU_STAT 0 0 7 + 1) 64)).irq (coreCi gi)
    (u.listsDone = false ∨ s.step.phase ≠ .running ∨ (u.generate = false ∧ u.shortLayer = none)) →
    Runs (.listComplete gi) s fun t => (t.core gi).state = 0 ∧ (t.core gi).win = [] ∧
      rf (t.cluster (coreCi gi)).regs .CLU_STAT 0 0 7 = min (rf (s.cluster (coreCi gi)).regs .CLU_STAT 0 0 7 + 1) 64 ∧ OnlyIn [.cores, .clusters] s t ∧ otherCores gi s t) ∧
  (∀ (s : State) (gi : Nat), (s.core gi).listDone = true →
    let u := ((s.setCore gi ((s.core gi).setState 0)).setCf (coreCi gi) .CLU_STAT 0 0 7 (min (rf (s.cluster (coreCi gi)).regs .CLU_STAT 0 0 7 + 1) 64)).irq (coreCi gi)
    u.listsDone = true → s.step.phase = .running → s.step.faulted = false → s.step.held = 0 → s.step.decided = false → s.step.stopping = false → u.generate = true →
    Runs (.listComplete gi) s fun t => t.step.phase = .boundary 1 ∧ t.step.decided = true ∧ t.step.commit = false) ∧
  (∀ s : State, s.step.phase = .running → s.listsDone = true → s.generate = false → s.step.faulted = false → s.step.held = 0 → s.step.closed = false → s.step.decided = false →
    Runs .rakeClose s fun t => t.step.closed = true ∧ t.step.own.sq = s.rake.acc ∧ t.step.own.nf = s.rake.nf ∧ t.step.own.abs = s.rake.abs ∧
      t.step.own.drop = s.rake.drop ∧ t.step.own.sat = s.rake.sat ∧ t.step.own.flags = s.fpflags ∧ t.rake = Rake.init ∧
      t.hf .RKE_FPFLAGS 0 0 5 = s.fpflags % 32 ∧ ∀ gi, (t.core gi).ce = 0 ∧ rg (t.core gi).regs .CORE_HZCNT = 0) ∧
  (∀ s : State, s.step.phase = .running → s.step.closed = true → s.step.group = none → s.step.faulted = false → s.step.held = 0 → s.step.exch = none →
    s.step.due = none → s.coll.normOn = false → s.coll.held = [] →
    Runs .normAllreduce s fun t => t.step.votes.isSome = true ∧ (t.coll.normOn = true ∨ t.step.group.isSome = true)) ∧
  (∀ (s : State) (v : List Nat), s.step.phase = .running → s.step.closed = true → s.step.group = none → s.step.faulted = false → s.step.held = 0 →
    s.step.exch = none → s.step.due = none → s.coll.normOn = false → s.step.votes = some v → s.step.voted = true → s.ring false = 1 → s.ring true = 1 → s.coll.held = [] →
    Runs .normAllreduce s fun t => t.step.group = some { s.step.own with vmin := packVote v, vmax := packVote v } ∧ t.coll.normOn = false ∧
      (∀ i, i < 10 → t.h .RKE_SQ i = bits s.step.own.sq (32 * i) 32) ∧ OnlyIn [.step, .coll, .hub] s t)

/-- With the group payload here, a payload with a non-finite value, past the ceiling or past the spike limit without a commit on it is skipped: nothing commits, CONSEC counts, the boundary begins; a first non-finite one is replayed instead where SIV_CFG says so and a replay is left; any other is committed: the update count rises, the norm and the step factor are in their registers, the window takes the norm. (R256, R258, R259, R260, R261, R262) -/
def Obligations.SieveDecides : Prop :=
  ∀ (s : State) (g : Norm), s.step.group = some g → s.step.phase = .running → s.step.decided = false → s.step.faulted = false → s.step.held = 0 → s.step.stopping = false → s.coll.held = [] →
    ((g.sat = true ∨ 0 < g.nf ∨ 0 < g.abs) → (s.sieveTest g).1 = 2 ∧ (s.sieveTest g).2 = false) ∧
    ((s.sieveTest g).2 = false → ¬ ((s.sieveTest g).1 = 2 ∧ bit s.sieve.cfg 2 = true ∧ s.sieve.nfDone = false ∧ s.replays < 2) →
      Runs .sieveDecide s fun t => t.step.decided = true ∧ t.step.commit = false ∧ t.step.phase = .boundary 1 ∧
        t.hf .SIV_STAT 0 8 8 = min (s.hf .SIV_STAT 0 8 8 + 1) 255 ∧ t.hf .SIV_STAT 0 0 3 = (s.sieveTest g).1 ∧ t.h .UPD_TCNT = s.h .UPD_TCNT) ∧
    ((s.sieveTest g).1 = 2 → bit s.sieve.cfg 2 = true → s.sieve.nfDone = false → s.replays < 2 →
      Runs .sieveDecide s fun t => t.step.faulted = true ∧ t.step.decided = false ∧ t.step.phase = .running ∧ t.sieve = { s.sieve with nfDone := true } ∧
        t.hf .UPD_STAT 0 16 16 = 0 ∧ t.quiesce.isSome = true ∧ t.mem = s.mem) ∧
    ((s.sieveTest g).2 = true →
      let gn := gradNorm g.sq
      Runs .sieveDecide s fun t => t.step.decided = true ∧ t.step.commit = true ∧ t.h .UPD_TCNT = min (s.h .UPD_TCNT + 1) (2 ^ 32 - 1) ∧
        t.h .SIV_NORM = gn % 2 ^ 32 ∧ t.hf .SIV_STAT 0 8 8 = 0 ∧
        t.h .SIV_FACTOR = stepFactor (clipFactor g.sq gn (s.clipTarget (s.sieveTest g).1)) (signed 8 (bits s.sieve.ls 0 8)) % 2 ^ 32)

/-- A record whose turn has come is swept into its other bank, its step word and committed bank written last, and its gather is owed; once every trained record of the shard table has been swept the journal's JDONE has the step and the boundary begins. The gather due is run and no longer owed; in FULL mode the working copy is re-derived from the record's master. The recovery sweep runs once and says so. An audit compares the module's own runs, adds the chunks that differ and changes no memory. At action 1 the next failed chunk is written again, from the module's own master or from the owner's values, and counted; after the last the boundary goes on. (R263, R264, R266, R267, R282) -/
def Obligations.RecordsAreSwept : Prop :=
  (∀ (s : State) (i : Nat) (hbm : List HbmErr), s.step.phase = .running → s.step.decided = true → s.step.commit = true → s.step.recover = false →
    s.step.held = 0 → i < s.shardCount → i ∉ s.step.swept → lTrained (s.layer (s.shard i).2) = true → i ∉ s.step.sweepWait →
    (lDirected (s.layer (s.shard i).2) = false ∨ s.dirReady (s.shard i).2 = true) → s.stackTurn i = true → memRange (s.shard i).1 32 = true →
    let u := (s.auditAbandon (s.shard i).2).sweepRec s.decision (s.record (s.shard i).1 (s.shard i).2) hbm
    let v := { u with step := { u.step with swept := s.step.swept ++ [i], sweepWait := s.step.sweepWait ++ [i] } }
    v.recSstep (s.shard i).1 = s.stepNo ∧ v.recCur (s.shard i).1 = 1 - s.recCur (s.shard i).1 ∧ Gives (.sweepRecord i hbm) s v.settleSweep ∧
      ((∃ j, j < v.shardCount ∧ j ∉ v.step.swept ∧ lTrained (v.layer (v.shard j).2) = true) → v.settleSweep = v) ∧
      ((∀ j, j < v.shardCount → lTrained (v.layer (v.shard j).2) = true → j ∈ v.step.swept) → v.settleSweep = (v.putJdone v.stepNo).beginBoundary)) ∧
  (∀ (s : State) (k : Nat), s.gatherTurn = some k → s.coll.held = [] → Runs (.gather []) s fun t => t.step.sweepWait = s.step.sweepWait.filter (· != k)) ∧
  (∀ (s : State) (k : Nat), s.gatherTurn = some k → s.coll.held = [] → s.sharded = false →
    let r := s.record (s.shard k).1 (s.shard k).2
    let v := { s with step := { s.step with sweepWait := s.step.sweepWait.filter (· != k) } }.gatherStat r.layer
    Gives (.gather []) s (v.rederive r.layer (r.row0 * lNout r.l) (s.master r))) ∧
  (∀ s : State, s.step.recover = true → Runs (.recoverySweep []) s fun t => t.step.recover = false ∧ t.hf .UPD_STAT 0 0 1 = 1) ∧
  (∀ (s : State) (i : Nat), s.step.audit = some i → i ∈ s.step.final → s.step.phase = .running → Sparse.get (fun _ => 0) s.coll.sent (4 * i + 3) = 0 →
    Runs (.workingCopyAudit []) s fun t => (∃ bad, t.step.repairs = s.step.repairs ++ bad ∧ ∀ e ∈ bad, e.1 = i) ∧ t.mem = s.mem) ∧
  (∀ (s : State) (codes : List (Nat × Nat)) (i off : Nat) (rest : List (Nat × Nat)), s.atAction 1 = true → s.step.repairs = (i, off) :: rest →
    Runs (.auditRepair codes []) s fun t => t.step.repairs = rest ∧ t.hf .UPD_STAT 0 8 8 = min (s.hf .UPD_STAT 0 8 8 + 1) 255 ∧
      (rest = [] → t.step.phase = .boundary 2) ∧ (rest ≠ [] → t.step.phase = s.step.phase) ∧
      let l := s.layer i
      let own := s.shards.find? fun e =>
        e.2 == i && decide (s.recRow0 e.1 * lNout l ≤ off) && decide (off < (s.recRow0 e.1 + s.recRows e.1) * lNout l)
      (own = none → t.mem = (s.putWeights l off ((codes.take 2048).map (widenElem (lGfmtMx l)))).mem) ∧
      ∀ e, own = some e → t.mem = (s.putWeights l off ((((narrowRows (lGfmtMx l) (lNout l) (s.master (s.record e.1 i))).map
        (widenElem (lGfmtMx l))).drop (off - s.recRow0 e.1 * lNout l)).take 2048)).mem) ∧
  (∀ (s : State) (es : List HbmErr), (∀ codes, exec (.auditRepair codes es) s = s.hbmRun es fun u => exec (.auditRepair codes []) u) ∧
    exec (.gather es) s = (s.hbmRun es fun u => exec (.gather []) u) ∧ exec (.workingCopyAudit es) s = s.hbmRun es fun u => exec (.workingCopyAudit []) u)

/-- A gradient notice of a trained layer whose count is short counts in a LEARN step that runs, and sets STEP_STAT.GDXS otherwise; a direction notice of a directed layer whose count is short counts; each is taken from the traffic. An error notice that reaches the hub is taken from the traffic and its event is raised; one of an HBM unit whose re-read failed too is handled as a data loss; any other, after the step's decision, as a late fault, and before it as a cause of step replay. (R139, R154, R194, R250, R267) -/
def Obligations.NoticesReachTheHub : Prop :=
  (∀ (s t : State) (n i : Nat), s.takeNotice n .STEP_GDONE [] = some (some i, t) → t.step.phase = .running → t.generate = false → lTrained (t.layer i) = true →
    t.gradReady i = false → t.coll.held = [] → Gives (.gdoneNotice n []) s { t with step := { t.step with gdone := countAt t.step.gdone i } }) ∧
  (∀ (s t : State) (n i : Nat), s.takeNotice n .STEP_GDONE [] = some (some i, t) → (t.step.phase ≠ .running ∨ t.generate = true ∨ lTrained (t.layer i) = false ∨ t.gradReady i = true) →
    Gives (.gdoneNotice n []) s (t.setHf .STEP_STAT 0 0 1 1)) ∧
  (∀ (s t : State) (n i : Nat), s.takeNotice n .UPD_DDONE [] = some (some i, t) → t.step.phase = .running → t.generate = false → lTrained (t.layer i) = true →
    lDirected (t.layer i) = true → t.dirReady i = false →
    Gives (.ddoneNotice n []) s { t with step := { t.step with ddone := countAt t.step.ddone i } }) ∧
  (∀ (s t : State) (n arg : Nat) (p : Packet), s.takePacket n = some (p, t) → p.body = .urg 9 arg →
    ((∀ k, p.src ≠ .hbm k) ∨ bits arg 0 16 ≠ St.HBM_UNCORRECTABLE →
      let u := (t.noticeEvent p.src (bits arg 0 16) (bits arg 16 16) (bits arg 32 16)).chargeUe p.src (bits arg 0 16) (bits arg 16 16)
      (u.step.decided = true → Gives (.errorNotice n []) s u.lateFault) ∧
      (u.step.decided = false → Gives (.errorNotice n []) s (u.decideReplay (bits arg 0 16)))) ∧
    (∀ (k w : Nat) (persist : Bool), p.src = .hbm k → bits arg 0 16 = St.HBM_UNCORRECTABLE → (t.rel.ues.find? fun e => e.1 == k) = some (k, w, persist) →
      let u := { t with rel := { t.rel with ues := t.rel.ues.erase (k, w, persist) } }.noticeEvent (.hbm k) St.HBM_UNCORRECTABLE 0 w
      (persist = true → Gives (.errorNotice n []) s (u.hbmLoss w).permFault) ∧
      (persist = false → u.step.decided = true → Gives (.errorNotice n []) s u.lateFault) ∧
      (persist = false → u.step.decided = false → Gives (.errorNotice n []) s (u.decideReplay St.HBM_UNCORRECTABLE))))

/-- The exchange of the committed statistics step begins once its gather has completed and the fold before it has been published: BUSY is set and its scans are taken, and with no block to exchange it is complete at once; a tile whose sum has arrived is folded and recorded, unless a running job reads the buffer, when the fold waits from that tick. (R206, R207, R208, R209, R211) -/
def Obligations.FactorsAreExchanged : Prop :=
  (∀ (s : State) (m : Nat), s.step.due = some m → s.step.exch = none → s.step.folded = none → s.gatherDone = true → (s.sharded = true ∨ m < s.stepNo) → s.exchBlocks = [] → s.coll.held = [] →
    Runs (.factorExchange []) s fun t => t.step.due = none ∧ t.step.exch = none ∧ t.step.folded.map (·.step) = some m ∧ t.hf .STEP_STATSTS 0 0 1 = 0 ∧ OnlyIn [.step, .hub] s t) ∧
  (∀ (s : State) (m : Nat), s.step.due = some m → s.step.exch = none → s.step.folded = none → s.gatherDone = true → (s.sharded = true ∨ m < s.stepNo) → s.exchBlocks ≠ [] → (1 < s.ring false ∨ 1 < s.ring true) → s.coll.held = [] →
    Runs (.factorExchange []) s fun t => t.step.due = none ∧ t.hf .STEP_STATSTS 0 0 1 = 1 ∧
      ∃ x, t.step.exch = some x ∧ x.step = m ∧ x.scans = s.exchBlocks.map (s.scanBlock ((s.step.statK + 255) % 256)) ∧ x.group = none) ∧
  (∀ (s : State) (fidx side blk k i l : Nat) (x : Exchange) (g : List Scan) (c : Scan), s.step.exch = some x → x.group = some g → s.privLayer fidx = some (i, l) →
    (g.find? fun c => c.fidx == fidx && c.side == side && c.blk == blk) = some c → (fidx, side, blk, k) ∉ x.done → (fidx, side, blk) ∈ x.dropped → s.foldBlocked fidx side = true →
    Runs (.factorFoldTile fidx side blk k []) s fun t => t.step.exch = some { x with wait := some (x.wait.getD s.sundial) } ∧ OnlyIn [.step] s t) ∧
  (∀ (s : State) (fidx side blk k i l : Nat) (x : Exchange) (g : List Scan) (c : Scan), s.step.exch = some x → x.group = some g → s.privLayer fidx = some (i, l) →
    (g.find? fun c => c.fidx == fidx && c.side == side && c.blk == blk) = some c → (fidx, side, blk, k) ∉ x.done → (fidx, side, blk) ∉ x.dropped → s.foldBlocked fidx side = false →
    k < (upperTiles c.maxima.length).length →
    (∃ e ∈ x.sums, e.1 = fidx ∧ e.2.1 = side ∧ e.2.2.1 = blk ∧ e.2.2.2.1 = k) →
    Runs (.factorFoldTile fidx side blk k []) s fun t => ∃ y, (t.step.exch = some y ∨ t.step.folded = some y) ∧ (fidx, side, blk, k) ∈ y.done ∧ y.wait = none)

/-- An accepted Ngumal command makes its slot PENDING and is last in the queue; a CXL-defined command is in progress; an acknowledged VALID slot is EMPTY and an acknowledged DONE ticket free, and no other changes; a slice end gives the turn to the next running ticket; TICKET_ABORT marks a running ticket, which ends ABORTED at its slice end. (R318, R329, R330, R331, R332, R333) -/
def Obligations.MailboxAccepts : Prop :=
  (∀ (s : State) (op : Nat) (payload : List Byte), s.mailboxUp = true → s.recovering = false → s.mb.cxl = none → s.mb.slots.length = 8 →
    ((0xC000 ≤ op ∧ op ≤ 0xC0FF) ∨ (0xD000 ≤ op ∧ op ≤ 0xD0FF)) → s.ngumalRet op payload = retOk →
    Runs (.mailboxDoorbell op payload) s fun t =>
      let tag := leNat (payload.take 2)
      let k := leNat ((payload.drop 2).take 1) % 8
      t.mb.ret = 0 ∧ t.mb.cmds = s.mb.cmds ++ [⟨op, tag, k, payload.drop 8⟩] ∧ t.slot k = ⟨1, tag, St.PENDING, [], false, s.sundial⟩ ∧
        t.mb.tickets = s.mb.tickets ∧ (∀ j, j ≠ k → t.slot j = s.slot j) ∧ OnlyIn [.mb] s t) ∧
  (∀ (s : State) (op : Nat) (payload : List Byte), s.mailboxUp = true → s.mb.cxl = none → op ∈ [0x0100, 0x0101, 0x0102, 0x0103, 0x0200, 0x0400, 0x0401] →
    Gives (.mailboxDoorbell op payload) s { s with mb := { s.mb with cxl := some (op, payload) } }) ∧
  (∀ (s : State) (mask : Nat), Runs (.slotAck mask) s fun t => OnlyIn [.mb] s t ∧ t.mb.cmds = s.mb.cmds ∧ t.mb.tickets = s.mb.tickets ∧
    ∀ k, k < 8 → t.slot k = if bit mask k = true ∧ (s.slot k).state = 2 then Slot.init else s.slot k) ∧
  (∀ (s : State) (mask : Nat), Runs (.ticketAck mask) s fun t => OnlyIn [.mb] s t ∧ t.mb.cmds = s.mb.cmds ∧ t.mb.slots = s.mb.slots ∧
    ∀ n, n < 8 → t.ticket n = if bit mask n = true ∧ (s.ticket n).active = true ∧ (s.ticket n).done = true then Ticket.init else s.ticket n) ∧
  (∀ (s : State) (c : Cmd) (n : Nat), Waits s 0xD090 c → c.field 0 1 = n → n < 8 → (s.ticket n).active = true → (s.ticket n).done = false →
    s.unabortable (s.ticket n) = false → s.mb.tickets.length = 8 →
    Runs .ticketAbort s fun t => Answered s t c St.OK [] ∧ t.ticket n = { s.ticket n with abort := true } ∧ OnlyIn [.mb, .msix, .gauge] s t) ∧
  (∀ (s : State) (n : Nat), s.mb.turn = some n → s.slicing n = false ∨ (s.ticket n).abort = false →
    Gives .sliceEnd s { s with mb := { s.mb with turn := s.nextTurn n } }) ∧
  (∀ s : State, s.mb.turn = none → Gives .sliceEnd s s) ∧
  (∀ (s : State) (n : Nat), s.mb.turn = some n → s.slicing n = true → (s.ticket n).abort = true →
    Gives .sliceEnd s { s.abortTicket n with mb := { (s.abortTicket n).mb with turn := (s.abortTicket n).nextTurn n } }) ∧
  (∀ (s : State) (n : Nat), s.mb.turn = some n → s.slicing n = true → (s.ticket n).abort = true → n < 8 → s.mb.tickets.length = 8 →
    (s.ticket n).opcode ∉ [0xD012, 0xD030, 0xD031, 0xD043, 0xD050, 0xD052] →
    Runs .sliceEnd s fun t => t.ticket n = { s.ticket n with done := true, status := St.ABORTED, progress := 100 } ∧
      (∀ k, k ≠ n → t.ticket k = s.ticket k) ∧ OnlyIn [.mb, .msix] s t)

/-- GET_EVENT_RECORDS gives up to 63 records of a log, oldest first, and removes none; CLEAR_EVENT_RECORDS removes a whole log with its overflow, or its oldest records; the interrupt policy is read and set; firmware info, the supported logs and the command effects log are answered; each completion clears the command in progress and raises vector 0. The layouts and return codes are the model's (PRESUMED). (R318, R339, R340) -/
def Obligations.CxlCommandsAnswer : Prop :=
  (∀ (s : State) (l : Nat), l < 4 → s.mb.cxl = some (0x0100, toLe 1 l) → Runs .getEventRecords s fun t =>
    t.mb.ret = retOk ∧ (t.mb.out.take 22).drop 20 = toLe 2 (min 63 (s.logOf l).length) ∧
      t.mb.out.drop 32 = (((s.logOf l).take 63).mapIdx fun i e => e.bytes (i + 1)).flatten ∧ t.mb.cxl = none ∧ OnlyIn [.mb, .msix] s t) ∧
  (∀ (s : State) (l : Nat), l < 4 → s.mb.cxl = some (0x0101, toLe 1 l ++ toLe 1 1 ++ toLe 4 0) → Runs .clearEventRecords s fun t =>
    t.mb.ret = retOk ∧ t.logOf l = [] ∧ (∀ k, k ≠ l → t.logOf k = s.logOf k) ∧ t.mb.cxl = none ∧ OnlyIn [.mb, .msix, .logs, .logLost] s t) ∧
  (∀ (s : State) (l : Nat), l < 4 → 1 ≤ (s.logOf l).length → s.mb.cxl = some (0x0101, toLe 1 l ++ toLe 1 0 ++ toLe 1 1 ++ toLe 3 0 ++ toLe 2 1) →
    Runs .clearEventRecords s fun t => t.mb.ret = retOk ∧ t.logOf l = (s.logOf l).tail ∧ (∀ k, k ≠ l → t.logOf k = s.logOf k) ∧
      OnlyIn [.mb, .msix, .logs] s t) ∧
  (∀ s : State, s.mb.cxl = some (0x0102, []) → Runs .getEventInterruptPolicy s fun t =>
    t.mb.ret = retOk ∧ t.mb.out = (s.policy.map fun v => toLe 1 (if v = 0 then 0 else 1 + 16 * v)).flatten ∧ OnlyIn [.mb, .msix] s t) ∧
  (∀ (s : State) (ps : List Nat), ps.length = 4 → (∀ v ∈ ps, v = 0 ∨ v = 3 ∨ v = 4) →
    s.mb.cxl = some (0x0103, (ps.map fun v => toLe 1 (if v = 0 then 0 else 1 + 16 * v)).flatten) →
    Runs .setEventInterruptPolicy s fun t => t.mb.ret = retOk ∧ t.policy = ps ∧ OnlyIn [.mb, .msix, .policy] s t) ∧
  (∀ s : State, s.mb.cxl = some (0x0200, []) → Runs .getFwInfo s fun t =>
    t.mb.ret = retOk ∧ t.mb.out.length = 80 ∧ t.mb.out.take 2 = [1#8, 1#8] ∧ OnlyIn [.mb, .msix] s t) ∧
  (∀ s : State, s.mb.cxl = some (0x0400, []) → Runs .getSupportedLogs s fun t =>
    t.mb.ret = retOk ∧ t.mb.out = toLe 2 1 ++ toLe 6 0 ++ celUuid ++ toLe 4 celBytes.length ∧ OnlyIn [.mb, .msix] s t) ∧
  (∀ (s : State) (off n : Nat), off + n ≤ celBytes.length → s.mb.cxl = some (0x0401, celUuid ++ toLe 4 off ++ toLe 4 n) → Runs .getLog s fun t =>
    t.mb.ret = retOk ∧ t.mb.out = (celBytes.drop off).take n ∧ t.mb.cxl = none ∧ OnlyIn [.mb, .msix] s t) ∧
  (∀ (s : State) (i : Instr) (op : Nat) (input : List Byte), s.mb.cxl = some (op, input) →
    (i, op) ∈ [(Instr.getEventRecords, 0x0100), (.clearEventRecords, 0x0101), (.getEventInterruptPolicy, 0x0102), (.setEventInterruptPolicy, 0x0103),
      (.getFwInfo, 0x0200), (.getSupportedLogs, 0x0400), (.getLog, 0x0401)] →
    Runs i s fun t => t.mb.cxl = none ∧ Sparse.get (fun _ => 0) t.msix 0 = Sparse.get (fun _ => 0) s.msix 0 + 1 ∧ t.mb.cmds = s.mb.cmds ∧
      t.mb.slots = s.mb.slots ∧ t.mb.tickets = s.mb.tickets ∧ OnlyIn [.mb, .msix, .logs, .logLost, .policy] s t)

/-- Each report command leaves the queue and makes its slot VALID with OK and its payload; the two that take sensor readings draw them afresh; the flag reduction ORs every core's flags into RKE_FPFLAGS and is refused while a job runs; a telemetry mask above sensor 55 is INVALID_PAYLOAD. (R43, R335, R337, R338, R374, R401) -/
def Obligations.ReportsAnswer : Prop :=
  (∀ (s : State) (c : Cmd), Waits s 0xD000 c → Runs .getInfo s fun t => Answered s t c St.OK s.infoBytes ∧ OnlyIn [.mb, .msix, .gauge] s t) ∧
  (∀ (s : State) (c : Cmd), Waits s 0xC000 c → Runs .v1Identify s fun t => Answered s t c St.OK s.infoBytes ∧ OnlyIn [.mb, .msix, .gauge] s t) ∧
  (∀ (s : State) (c : Cmd), Waits s 0xD001 c → Runs .getStatus s fun t =>
    Answered s t c St.OK (toLe 1 (s.hf .PWR_STATE 0 0 3) ++ toLe 1 (b2n s.step.job) ++ toLe 1 (s.hf .STEP_CFG 0 2 1) ++ toLe 8 s.stepNo ++ toLe 2 s.holdStatus) ∧
      OnlyIn [.mb, .msix, .gauge] s t) ∧
  (∀ (s : State) (c : Cmd), Waits s 0xD002 c → c.field 0 8 < 2 ^ 56 → Runs .getTelemetry s fun t =>
    Answered s t c St.OK (s.sensorBytes (c.field 0 8)) ∧ OnlyIn [.mb, .msix, .gauge, .fresh] s t) ∧
  (∀ (s : State) (c : Cmd), Waits s 0xD002 c → 2 ^ 56 ≤ c.field 0 8 → Runs .getTelemetry s fun t => Answered s t c St.INVALID_PAYLOAD []) ∧
  (∀ (s : State) (c : Cmd), Waits s 0xC001 c → Runs .v1Health s fun t =>
    Answered s t c St.OK (s.sensorBytes (2 ^ 56 - 1)) ∧ OnlyIn [.mb, .msix, .gauge, .fresh] s t) ∧
  (∀ (s : State) (c : Cmd), Waits s 0xC004 c → Runs .v1GetLog s fun t => Answered s t c St.OK s.gauge.summary ∧ OnlyIn [.mb, .msix, .gauge] s t) ∧
  (∀ (s : State) (c : Cmd), Waits s 0xD003 c → s.step.job = false → Runs .fpflagReduce s fun t =>
    Answered s t c St.OK (toLe 1 s.fpflags) ∧ t.hf .RKE_FPFLAGS 0 0 5 = s.fpflags ∧ OnlyIn [.mb, .msix, .gauge, .hub] s t) ∧
  (∀ (s : State) (c : Cmd), Waits s 0xD003 c → s.step.job = true → Runs .fpflagReduce s fun t => Answered s t c St.BUSY_JOB [] ∧ t.hub = s.hub)

/-- A power cap of 1,200 to 13,500 W lands in PWR_CAP unless frozen; BROADCAST_PATCH is accepted in order; SET_GRID writes the grid and the map in force while no job runs; RESET and V1_RESET are answered OK and ask for their reach; GROUP_RESET with a token and a reach FABRIC or WARM is sent to the module at its coordinate; RGA_FLUSH closes the Rain gauge's window; each answers in its slot, and wrong bodies and a running job are refused. (R135, R272, R335, R337, R372, R373, R377, R382, R400, R402) -/
def Obligations.ShortCommandsAct : Prop :=
  (∀ (s : State) (c : Cmd) (i : Instr) (op : Nat), (i, op) ∈ [(Instr.setPowerCap, 0xD013), (.v1SetPcap, 0xC003)] → Waits s op c →
    (1200 ≤ c.field 0 4 → c.field 0 4 ≤ 13500 → s.frozen (hubKey .PWR_CAP 0) = false →
      Runs i s fun t => Answered s t c St.OK [] ∧ t.hf .PWR_CAP 0 0 14 = c.field 0 4 ∧ OnlyIn [.mb, .msix, .gauge, .hub, .pwr] s t) ∧
    (c.field 0 4 < 1200 ∨ 13500 < c.field 0 4 → Runs i s fun t => Answered s t c St.INVALID_PAYLOAD [] ∧ t.hub = s.hub)) ∧
  (∀ (s : State) (c : Cmd) (p : Patch), Waits s 0xD020 c → patchOf c = some p → Runs .broadcastPatch s fun t =>
    Answered s t c St.OK [] ∧ t.step = { s.step with patches := s.step.patches ++ [p] } ∧ OnlyIn [.mb, .msix, .gauge, .step] s t) ∧
  (∀ (s : State) (c : Cmd), Waits s 0xD020 c → patchOf c = none → Runs .broadcastPatch s fun t => Answered s t c St.INVALID_PAYLOAD [] ∧ t.step = s.step) ∧
  (∀ (s : State) (c : Cmd) (xl yl : Nat), Waits s 0xD042 c → s.step.job = false → s.resourceBusy 0xD042 = false → c.field 0 1 = xl → c.field 1 1 = yl →
    0 < xl * yl → xl * yl ≤ 64 → (∀ r, r < xl * yl → bit (c.field (2 + r) 1) 6 = true) →
    (∀ r q, r < q → q < xl * yl → c.field (2 + r) 1 % 64 ≠ c.field (2 + q) 1 % 64) →
    s.frozen (hubKey .LNK_GRID 0) = false → (∀ r, r < 64 → s.frozen (hubKey .LNK_MMAP r) = false) →
    Runs .setGrid s fun t => Answered s t c St.OK [] ∧ t.xl = xl ∧ t.yl = yl ∧ t.mapBank = s.mapBank ∧ t.epoch = s.epoch ∧
      (∀ r, r < xl * yl → t.hf .LNK_MMAP r (16 * s.mapBank) 7 = c.field (2 + r) 1 % 64 + 64) ∧
      (∀ r, xl * yl ≤ r → r < 64 → t.hf .LNK_MMAP r (16 * s.mapBank) 7 = 0) ∧ OnlyIn [.mb, .msix, .gauge, .hub, .pwr] s t) ∧
  (∀ (s : State) (c : Cmd), Waits s 0xD042 c → s.step.job = true → Runs .setGrid s fun t => Answered s t c St.BUSY_JOB [] ∧ t.hub = s.hub) ∧
  (∀ (s : State) (c : Cmd), Waits s 0xD010 c → targetOk (c.field 0 1) (c.field 1 4) = true → (2 < c.field 0 1 ∨ s.step.job = false ∨ s.holding = true) →
    Runs .reset s fun t => Answered s t c St.OK [] ∧ t.rst = { s.rst with grant := some (c.field 0 1, c.field 1 4) } ∧ OnlyIn [.mb, .msix, .gauge, .rst] s t) ∧
  (∀ (s : State) (c : Cmd), Waits s 0xC002 c → Runs .v1Reset s fun t =>
    Answered s t c St.OK [] ∧ t.rst = { s.rst with grant := some (4, 0) } ∧ OnlyIn [.mb, .msix, .gauge, .rst] s t) ∧
  (∀ (s : State) (c : Cmd) (e : DiscEntry), Waits s 0xD046 c → 3 < c.body.length → c.field 2 1 = 3 ∨ c.field 2 1 = 4 →
    s.discAt (c.field 0 1) (c.field 1 1) = some e → Runs .groupReset s fun t =>
      Answered s t c St.OK [] ∧ OnlyIn [.mb, .msix, .gauge, .links, .logs, .logLost, .hub] s t ∧
        ∀ p, s.routeAt s.myX s.myY ⟨s.myX, s.myY, e.x, e.y, e.tag, 0, .reset []⟩ = some (some p) → p < s.links.ports.length →
          ∃ m, (t.port p).retry = (s.port p).retry ++ [⟨(s.port p).tx, ⟨s.myX, s.myY, e.x, e.y, e.tag, 0, .reset m⟩, 0⟩] ∧
            m = toLe 8 e.serial ++ toLe 1 (c.field 2 1) ++ toLe 7 0 ++ (c.body.drop 3).take 8 ++ (c.body.drop 11).take 132) ∧
  (∀ (s : State) (c : Cmd), Waits s 0xD061 c → s.resourceBusy 0xD061 = false → Runs .rgaFlush s fun t =>
    Answered s t c St.OK [] ∧ OnlyIn [.mb, .msix, .gauge] s t ∧ t.gauge.seq = s.gauge.seq + 1)

/-- With no snapshot open, LAYER_READ, FACTOR_READ, DISCOVERY_READ, PLAN_READ, SPARE_READ and RGA_READ write their bytes to memory and then a completion record, COPY_SRAM copies each manifest entry, LAYER_WRITE loads the entries it names (during a job, for the next boundary), where a reserved RULE leaves the field, FACTOR_WRITE sets the entries' buffers with an empty fold, and V1_SEND leaves on its v1 port; each is answered IN_PROGRESS with its ticket, which ends with OK. (R199, R201, R238, R292, R302, R328, R331, R335, R363, R372) -/
def Obligations.TablesAreCopied : Prop :=
  (∀ (s : State) (i : Instr) (op n a d len : Nat) (c : Cmd) (data : List Byte), Waits s op c → Tickets s op n → s.hrv ≠ 2 →
    ((i = .layerRead ∧ op = 0xD023 ∧ c.field 0 2 + c.field 2 2 ≤ 4096 ∧ a = c.field 4 8 ∧ d = c.field 12 8 ∧ len = 64 * c.field 2 2 ∧
        data = ((List.range (c.field 2 2)).map fun k => toLe 64 (s.layer (c.field 0 2 + k))).flatten) ∨
      (i = .factorRead ∧ op = 0xD025 ∧ c.field 0 2 + c.field 2 2 ≤ 1024 ∧ a = c.field 4 8 ∧ d = c.field 12 8 ∧ len = 64 * c.field 2 2 ∧
        data = ((List.range (c.field 2 2)).map fun k => toLe 64 (s.factor (c.field 0 2 + k))).flatten) ∨
      (i = .discoveryRead ∧ op = 0xD041 ∧ a = c.field 0 8 ∧ d = c.field 8 8 ∧ len = data.length ∧
        data = Config.tableBytes 0 (s.links.table.map DiscEntry.nums).flatten) ∨
      (i = .planRead ∧ op = 0xD044 ∧ a = c.field 0 8 ∧ d = c.field 8 8 ∧ len = data.length ∧ data = planBytes s.coll.plan) ∨
      (i = .spareRead ∧ op = 0xD054 ∧ a = c.field 0 8 ∧ d = c.field 8 8 ∧ len = 20596 ∧ data = s.spareBytes) ∨
      (i = .rgaRead ∧ op = 0xD060 ∧ 0 < c.field 2 2 ∧ c.field 2 2 ≤ 8192 ∧ c.field 0 2 < 8192 ∧ a = c.field 4 8 ∧ d = c.field 12 8 ∧
        len = 8192 * c.field 2 2 ∧ data = ((List.range (c.field 2 2)).map fun k => s.gauge.readSlot (c.field 0 2 + k)).flatten) ∨
      (i = .rgaRead ∧ op = 0xD060 ∧ c.field 2 2 = 1 ∧ 0x8000 ≤ c.field 0 2 ∧ c.field 0 2 < 0x8008 ∧ a = c.field 4 8 ∧ d = c.field 12 8 ∧
        len = 8192 ∧ data = s.gauge.clearPage (c.field 0 2 - 0x8000))) →
    Runs i s fun t => Ended s t c n St.OK ∧ t.mem = ((s.wr a data).wr (d / 64 * 64) (recordBytes s c n St.OK len)).mem ∧
      OnlyIn [.mem, .flaws, .cores, .clusters, .mb, .msix, .gauge] s t) ∧
  (∀ (s : State) (n : Nat) (c : Cmd), Waits s 0xD021 c → Tickets s 0xD021 n → s.hrv ≠ 2 → Runs (.copySram []) s fun t =>
    Ended s t c n St.OK ∧ OnlyIn [.mem, .flaws, .cores, .clusters, .mb, .msix, .gauge] s t ∧
      (c.field 8 4 = 1 → let e := s.rdN (c.field 0 8) 24
        t.mem = ((s.wr (bits e 64 64) (s.rd (bits e 0 64) (bits e 128 32))).wr (c.field 12 8 / 64 * 64) (recordBytes s c n St.OK (bits e 128 32))).mem)) ∧
  (∀ (s : State) (n : Nat) (c : Cmd), Waits s 0xD022 c → Tickets s 0xD022 n → s.layerRefusal c = none → Runs (.layerWrite []) s fun t =>
    Ended s t c n St.OK ∧ OnlyIn [.layers, .layersNext, .mb, .msix, .gauge] s t ∧
      (s.step.job = false → ∀ j, t.layer j = if c.field 0 2 ≤ j ∧ j < c.field 0 2 + c.field 2 2
        then keptRule (Sparse.get (fun _ => 0) (overlay s.layers s.layersNext) j) (s.rdN (c.field 4 8 + 64 * (j - c.field 0 2)) 64 &&& layerBits)
        else s.layer j) ∧
      (s.step.job = true → t.layers = s.layers ∧ ∀ j, j < c.field 2 2 →
        (c.field 0 2 + j, keptRule (Sparse.get (fun _ => 0) (overlay s.layers s.layersNext) (c.field 0 2 + j))
          (s.rdN (c.field 4 8 + 64 * j) 64 &&& layerBits)) ∈ t.layersNext)) ∧
  (∀ (s : State) (n : Nat) (c : Cmd), Waits s 0xD024 c → Tickets s 0xD024 n → c.field 0 2 + c.field 2 2 ≤ 1024 → s.step.job = false → Runs (.factorWrite []) s fun t =>
    Ended s t c n St.OK ∧ OnlyIn [.factors, .mb, .msix, .gauge] s t ∧
      (∀ j, j < c.field 0 2 ∨ c.field 0 2 + c.field 2 2 ≤ j → t.factor j = s.factor j) ∧
      (∀ j, j < c.field 2 2 → let f := t.factor (c.field 0 2 + j)
        let v := s.rdN (c.field 4 8 + 64 * j) 64
        bits f 0 192 = bits v 0 192 ∧ bits f 192 64 = pverEmpty ∧ bits f 256 96 = bits v 256 96 ∧ bits f 352 16 = 0 ∧
          bits f 368 144 = bits (s.factor (c.field 0 2 + j)) 368 144)) ∧
  (∀ (s : State) (n : Nat) (c : Cmd), Waits s 0xD045 c → Tickets s 0xD045 n → c.field 0 1 < 4 → (s.port (c.field 0 1)).v1 = true → s.pstate (c.field 0 1) = 2 ∨ s.pstate (c.field 0 1) = 4 →
    0 < c.field 4 4 → c.field 4 4 ≤ 4096 → s.links.ports.length = 4 → Runs (.v1Send []) s fun t =>
      Ended s t c n St.OK ∧ OnlyIn [.links, .mb, .msix, .gauge] s t ∧
        (t.port (c.field 0 1)).retry = (s.port (c.field 0 1)).retry ++
          [⟨(s.port (c.field 0 1)).tx, ⟨s.myX, s.myY, s.myX, s.myY, s.jobTag, 1, .v1msg (s.rd (c.field 8 8) (c.field 4 4))⟩, 0⟩]) ∧
  (∀ (s : State) (c : Cmd) (i : Instr) (op : Nat), (i, op) ∈ [(Instr.layerRead, 0xD023), (.spareRead, 0xD054), (.discoveryRead, 0xD041), (.planRead, 0xD044), (.copySram [], 0xD021)] →
    Waits s op c → s.resourceBusy op = false → s.freeTicket = none → (op = 0xD023 → c.field 0 2 + c.field 2 2 ≤ 4096) →
    Runs i s fun t => Answered s t c St.TICKETS_EXHAUSTED [] ∧ t.mem = s.mem ∧ t.mb.tickets = s.mb.tickets)

/-- JOB_START begins a job at the boundary of its first step and its ticket runs on; with a job running it is refused. JOB_STOP ends the job where it is at a boundary or held, and is remembered within a step or a permutation; with no job it ends at once. REPLAY_STEP, SKIP_STEP and the stop of JOB_RESUME leave the module's hold: a step held undecided reruns with a QUIESCE, or is skipped, which counts in SIV_STAT.CONSEC, or the job ends; the Sieve's halt is left only by SIV_STAT.RESUME; without a hold they are INVALID_PAYLOAD. DISCOVER starts discovery and keeps its ticket. (R241, R261, R275, R303, R316, R331, R335) -/
def Obligations.JobsStartAndStop : Prop :=
  (∀ (s : State) (n : Nat) (c : Cmd), Waits s 0xD030 c → Tickets s 0xD030 n → s.step.job = false → s.ranks ≤ 1 ∨ s.hf .LNK_COORD 0 13 1 = 1 →
    s.links.running = false ∨ s.solo = true → s.hrv ≠ 2 → Runs (.jobStart []) s fun t => Opened s t c n ∧ t.step.job = true ∧ t.step.starting = true ∧ t.step.phase = .boundary 1 ∧
      t.step.area = c.field 0 8 % 2 ^ 48 ∧ t.step.launch = c.field 8 8 ∧ t.step.bound = s.sundial ∧ t.sec.staged = none ∧ t.stepNo = s.stepNo) ∧
  (∀ (s : State) (n : Nat) (c : Cmd), Waits s 0xD030 c → Tickets s 0xD030 n → s.step.job = false → s.ranks ≤ 1 ∨ s.hf .LNK_COORD 0 13 1 = 1 →
    s.links.running = false ∨ s.solo = true → ∃ u, Opened s u c n ∧ OnlyIn [.mb, .msix, .gauge] s u ∧
      Gives (.jobStart []) s (u.jobStart (c.field 0 8 % 2 ^ 48) (c.field 8 8))) ∧
  (∀ (s : State) (n : Nat) (c : Cmd), Waits s 0xD031 c → Tickets s 0xD031 n → s.step.job = true → (s.step.phase = .running → s.step.held ≠ 0) → s.coll.perm = none →
    ∃ u, Opened s u c n ∧ OnlyIn [.mb, .msix, .gauge] s u ∧ Gives .jobStop s u.endJob) ∧
  (∀ (s : State) (c : Cmd), Waits s 0xD032 c → s.held = true → ∃ u, u.mb.cmds = s.mb.cmds.tail ∧ OnlyIn [.mb] s u ∧
    (c.field 0 1 = 0 → s.heldInStep = true → Gives .replayStep s
      ((({ u with step := { u.step with held := 0, faulted := true, rerun := true } }.setHf .UPD_STAT 0 2 2 0).startQuiesce (s.stepNo % 2 ^ 32)).reply c St.OK [])) ∧
    (c.field 0 1 = 0 → s.heldInStep = false → Gives .replayStep s (u.unhold.reply c St.OK [])) ∧
    (c.field 0 1 = 1 → s.heldInStep = true → s.generate = true → Gives .skipStep s
      (({ u with step := { u.step with held := 0, faulted := false } }.endQuiesce).endGenerate.reply c St.OK [])) ∧
    (c.field 0 1 = 1 → s.heldInStep = true → s.generate = false → ∃ v, Gives .skipStep s
      ((({ u with step := { u.step with held := 0, faulted := false } }.endQuiesce.draw 3).2.skipWith v false).reply c St.OK [])) ∧
    (c.field 0 1 = 1 → s.heldInStep = false → Gives .skipStep s (u.unhold.reply c St.OK [])) ∧
    (c.field 0 1 = 2 → Gives .jobResumeStop s (u.unhold.endJob.reply c St.OK []))) ∧
  (∀ (s : State) (c : Cmd), Waits s 0xD030 c → s.step.job = true → Runs (.jobStart []) s fun t => Answered s t c St.BUSY_JOB [] ∧ t.step = s.step) ∧
  (∀ (s : State) (n : Nat) (c : Cmd), Waits s 0xD031 c → Tickets s 0xD031 n → s.step.job = false → Runs .jobStop s fun t =>
    Ended s t c n St.OK ∧ OnlyIn [.mb, .msix, .gauge] s t) ∧
  (∀ (s : State) (n : Nat) (c : Cmd), Waits s 0xD031 c → Tickets s 0xD031 n → s.step.job = true →
    (s.step.phase = .running ∧ s.step.held = 0) ∨ s.coll.perm.isSome = true → Runs .jobStop s fun t =>
    Opened s t c n ∧ t.step = { s.step with stopping := true } ∧ OnlyIn [.mb, .msix, .gauge, .step] s t) ∧
  (∀ (s : State) (n : Nat) (c : Cmd), Waits s 0xD031 c → Tickets s 0xD031 n → s.step.job = true →
    (s.step.phase = .running → s.step.held ≠ 0) → s.coll.perm = none →
    Runs .jobStop s fun t => Ended s t c n St.OK ∧ t.step.job = false ∧ OnlyIn [.mb, .msix, .gauge, .step, .hub] s t) ∧
  (∀ (s : State) (c : Cmd), Waits s 0xD032 c → c.field 0 1 = 0 → s.held = true → s.heldInStep = true → Runs .replayStep s fun t =>
    Answered s t c St.OK [] ∧ t.step = { s.step with held := 0, faulted := true, rerun := true } ∧ t.replays = 0 ∧
      t.quiesce = some ⟨s.stepNo % 2 ^ 32, s.sundial, false, false⟩) ∧
  (∀ (s : State) (c : Cmd) (k : Nat) (i : Instr), (i, k) ∈ [(Instr.replayStep, 0), (.skipStep, 1)] → Waits s 0xD032 c → c.field 0 1 = k → s.held = true →
    s.heldInStep = false → Runs i s fun t => Answered s t c St.OK [] ∧ t.step = { s.step with held := 0 } ∧ t.hub = s.hub ∧ OnlyIn [.mb, .msix, .gauge, .step] s t) ∧
  (∀ (s : State) (c : Cmd), Waits s 0xD032 c → c.field 0 1 = 1 → s.held = true → s.heldInStep = true → Runs .skipStep s fun t =>
    Answered s t c St.OK [] ∧ t.step.phase ≠ .running ∧ t.step.commit = false ∧ (s.step.stopping = false → t.step.phase = .boundary 1) ∧
      (s.step.stopping = true → t.step.job = false) ∧ (s.generate = false → t.hf .SIV_STAT 0 8 8 = min (s.hf .SIV_STAT 0 8 8 + 1) 255)) ∧
  (∀ (s : State) (c : Cmd), Waits s 0xD032 c → c.field 0 1 = 2 → s.held = true → Runs .jobResumeStop s fun t =>
    Answered s t c St.OK [] ∧ t.step.job = false ∧ t.step.statK = s.step.statK) ∧
  (∀ (s : State) (c : Cmd) (k : Nat) (i : Instr), (i, k) ∈ [(Instr.replayStep, 0), (.skipStep, 1), (.jobResumeStop, 2)] → Waits s 0xD032 c → c.field 0 1 = k →
    s.held = false → Runs i s fun t => Answered s t c St.INVALID_PAYLOAD [] ∧ t.step = s.step) ∧
  (∀ (s : State) (n : Nat) (c : Cmd), Waits s 0xD040 c → Tickets s 0xD040 n → s.step.job = false → Runs .discover s fun t =>
    Opened s t c n ∧ t.links.running = true ∧ t.links.excluded = none ∧ t.links.parent = none ∧ t.links.table = s.links.table ∧
      t.hf .LNK_COORD 0 13 1 = 0 ∧ OnlyIn [.links, .mb, .msix, .gauge, .hub] s t)

/-- SET_POWER_STATE to the state in force ends at once, waits for a transition in progress, and otherwise begins one; a transition whose work is done reaches its target, where NAP clears the cores and keeps memory; D0 and D3hot change the PCIe state, and D3cold leaves every domain but H_AON off; a wake wave switches one row; THROTTLE_UPDATE moves each level by at most one; a commit completes and counts its write. (R14, R391, R392, R393, R394, R395, R397, R399, R402, R430) -/
def Obligations.PowerStatesChange : Prop :=
  (∀ (s : State) (n : Nat) (c : Cmd), Waits s 0xD012 c → Tickets s 0xD012 n → c.field 0 1 ≤ 3 → (s.step.job = true → c.field 0 1 ≤ 1) →
    Runs .setPowerState s fun t =>
      (s.inTransition = true → Opened s t c n ∧ t.pwr.queue = s.pwr.queue ++ [(c.field 0 1, n)] ∧ OnlyIn [.pwr, .mb, .msix, .gauge] s t) ∧
      (s.inTransition = false → c.field 0 1 = s.powerState → Ended s t c n St.OK ∧ t.hub = s.hub) ∧
      (s.inTransition = false → c.field 0 1 ≠ s.powerState → Opened s t c n ∧ t.pwr.ticket = n ∧ t.hf .PWR_STATE 0 3 3 = c.field 0 1 ∧
        t.hf .PWR_STATE 0 6 2 = (if c.field 0 1 = 1 ∧ s.step.job = true then 2 else 1) ∧ t.powerState = s.powerState)) ∧
  (∀ (s : State) (n : Nat) (c : Cmd), Waits s 0xD012 c → Tickets s 0xD012 n → c.field 0 1 ≤ 3 → (s.step.job = true → c.field 0 1 ≤ 1) →
    ∃ u, Opened s u c n ∧ OnlyIn [.mb, .msix, .gauge] s u ∧ Gives .setPowerState s (u.powerAsk (c.field 0 1) n)) ∧
  (∀ s : State, let t := s.hf .PWR_STATE 0 3 3
    (s.hf .PWR_STATE 0 7 1 = 1 → s.step.job = false ∨ s.atAction 6 = true → Gives .powerTransitionComplete s (s.powerDone 1)) ∧
    (s.hf .PWR_STATE 0 7 1 = 1 → s.step.job = true → s.atAction 6 = false → Gives .powerTransitionComplete s s) ∧
    (s.hf .PWR_STATE 0 6 2 = 0 → Gives .powerTransitionComplete s s) ∧
    (s.hf .PWR_STATE 0 6 2 = 1 → t ≤ 1 ∧ 2 ≤ s.powerState ∧ s.pwr.wave < 20 → Gives .powerTransitionComplete s s) ∧
    (s.hf .PWR_STATE 0 6 2 = 1 → ¬(t ≤ 1 ∧ 2 ≤ s.powerState ∧ s.pwr.wave < 20) →
      Gives .powerTransitionComplete s ((if t = 2 ∧ s.powerState < 2 then s.enterNap else if t = 3 then s.enterDark else s).powerDone t))) ∧
  (∀ s : State, (s.host.dstate = 0 → Gives (.pciePowerState 3) s { s with host := { s.host with dstate := 3 } }.goDark) ∧
    (s.host.dstate ≠ 4 → Gives (.pciePowerState 4) s { s.dropJob.enterOff with host := { s.dropJob.enterOff.host with dstate := 4 } })) ∧
  (∀ (s : State) (p : Nat) (temps : List Nat), (s.pwr.throttleDue ≤ s.sundial → s.rst.ready = true → Gives (.throttleUpdate p temps) s
      ((List.range 8).foldl (fun (t : State) d => t.throttleDie p d (temps.getD d 0)) { s with pwr := { s.pwr with throttleDue := s.sundial + 250000 } })) ∧
    (s.sundial < s.pwr.throttleDue ∨ s.rst.ready = false → Gives (.throttleUpdate p temps) s s)) ∧
  (∀ s : State, s.hf .PWR_STATE 0 7 1 = 1 → s.atAction 6 = true → s.pwr.queue = [] → Runs .powerTransitionComplete s fun t =>
    t.powerState = 1 ∧ t.inTransition = false ∧ t.mem = s.mem) ∧
  (∀ s : State, s.hf .PWR_STATE 0 6 2 = 1 → s.hf .PWR_STATE 0 3 3 = 2 → s.powerState < 2 → s.pwr.queue = [] → Runs .powerTransitionComplete s fun t =>
    t.powerState = 2 ∧ t.inTransition = false ∧ t.mem = s.mem ∧ t.net = [] ∧ t.cores = ⟨Core.init, []⟩) ∧
  (∀ s : State, s.hf .PWR_STATE 0 6 2 = 1 → s.hf .PWR_STATE 0 3 3 = 0 → s.pwr.wave = 20 → s.pwr.queue = [] → Runs .powerTransitionComplete s fun t =>
    t.powerState = 0 ∧ t.inTransition = false ∧ t.rst.compute = true ∧ t.mem = s.mem ∧ t.cores = s.cores) ∧
  (∀ s : State, Runs (.pciePowerState 0) s fun t => t.host.dstate = (if s.host.dstate = 3 then 0 else s.host.dstate) ∧ t.powerState = s.powerState ∧ OnlyIn [.host] s t) ∧
  (∀ s : State, s.host.dstate = 0 → s.step.job = false → s.hrv = 0 → s.hf .PWR_STATE 0 6 2 = 0 → s.powerState < 3 → Runs (.pciePowerState 3) s fun t =>
    t.host.dstate = 3 ∧ t.hf .PWR_STATE 0 3 3 = 3 ∧ t.hf .PWR_STATE 0 6 1 = 1) ∧
  (∀ s : State, s.host.dstate ≠ 4 → Runs (.pciePowerState 4) s fun t => t.host.dstate = 4 ∧ t.powerState = 4 ∧ t.step.job = false) ∧
  (∀ s : State, s.pwr.wave < 20 → Runs .wakeWave s fun t => t.pwr.wave = s.pwr.wave + 1 ∧ OnlyIn [.pwr] s t) ∧
  (∀ (s : State) (p : Nat) (temps : List Nat), s.pwr.throttleDue ≤ s.sundial → s.rst.ready = true → Runs (.throttleUpdate p temps) s fun t =>
    t.pwr.throttleDue = s.sundial + 250000 ∧ ∀ d, d < 8 →
      t.hf .PWR_THR d 0 4 = (if 1000 * s.hf .PWR_CAP 0 0 14 < p then min (s.hf .PWR_THR d 0 4 + 1) 15
        else if 100 * p < 97000 * s.hf .PWR_CAP 0 0 14 then s.hf .PWR_THR d 0 4 - 1 else s.hf .PWR_THR d 0 4) ∧
      t.hf .PWR_THR d 4 4 = (if 95000 ≤ temps.getD d 0 then min (s.hf .PWR_THR d 4 4 + 1) 15
        else if temps.getD d 0 ≤ 92000 then s.hf .PWR_THR d 4 4 - 1 else s.hf .PWR_THR d 4 4) ∧
      t.hf .PWR_THR d 8 4 = (if s.pwr.coolForce = true then 15 else max (t.hf .PWR_THR d 0 4) (t.hf .PWR_THR d 4 4))) ∧
  (∀ (s : State) (key old : Nat) (rest : List (Nat × Nat)), s.pwr.commits = (key, old) :: rest → Runs .rwpCommit s fun t =>
    t.pwr.commits = rest ∧ t.wearOf key = s.wearOf key + 1 ∧ (∀ k, k ≠ key → t.wearOf k = s.wearOf k) ∧
      (s.wearOf key + 1 = 1000000 → t.frozen key = true) ∧ OnlyIn [.pwr, .logs, .logLost, .msix, .gauge, .hub] s t)

/-- A frame in order that is not delivered here goes on along its route, on VC TRANSIT with another tag unless it is URGENT; a delivered URG frame of a reserved code is accepted and discarded; one out of order is discarded and NAKed; ACK releases the frames before it, NAK replays from the one it names; a bad CRC counts and NAKs; eight replays retrain the port or take it down; a failed lane is replaced by the spare, or degrades the port, or takes it down when both are lost; a v1 message lands in the next free entry of the ring, and is held back where none is free. (R295, R296, R299, R300, R302, R311, R312, R342, R346, R350, R402) -/
def Obligations.LinksCarryFrames : Prop :=
  (∀ (s : State) (p lseq q : Nat) (f : Frame), InOrder s p lseq → (∀ h, f.body ≠ .hello h) → (∀ d, f.body ≠ .disc d) → s.delivers f = false →
    s.routeAt s.myX s.myY (if f.tag = s.jobTag ∨ f.body.type = 4 then f else { f with vc := 3 }) = some (some q) →
    Runs (.frameForward p lseq f) s fun t => Taken s t p ∧ OnlyIn [.links] s t ∧
      (t.port q).retry = (s.port q).retry ++ [⟨(s.port q).tx, if f.tag = s.jobTag ∨ f.body.type = 4 then f else { f with vc := 3 }, 0⟩]) ∧
  (∀ (s : State) (p lseq : Nat) (f : Frame), InOrder s p lseq → s.delivers f = true → f.body.type = 4 → f.body.ucode = 0 ∨ 4 < f.body.ucode →
    Runs (.frameForward p lseq f) s fun t => Taken s t p ∧ OnlyIn [.links] s t ∧ ∀ q, (t.port q).retry = (s.port q).retry) ∧
  (∀ (s : State) (p lseq : Nat) (f : Frame), s.portUp p = true → s.links.ports.length = 4 → lseq % 2 ^ 16 ≠ (s.port p).rx → (∀ h, f.body ≠ .hello h) →
    (∀ d, f.body ≠ .disc d) → s.delivers f = false →
    Runs (.frameForward p lseq f) s fun t => t.port p = { s.port p with nak := true } ∧ OnlyIn [.links] s t) ∧
  (∀ (s : State) (p lseq i : Nat), p < 4 → s.links.ports.length = 4 → ((s.port p).retry.findIdx? fun u => u.lseq == lseq % 2 ^ 16) = some i →
    (Runs (.ack p lseq) s fun t => t.port p = { s.port p with retry := (s.port p).retry.drop (i + 1) } ∧ OnlyIn [.links] s t) ∧
    (Runs (.nak p lseq) s fun t => (t.port p).retry = (s.port p).retry.mapIdx (fun k u => if i ≤ k then { u with replays := u.replays + 1 } else u) ∧
      t.hf .LNK_ERR p 0 16 = min (s.hf .LNK_ERR p 0 16 + ((s.port p).retry.length - i)) 65535 ∧ OnlyIn [.links, .hub] s t)) ∧
  (∀ (s : State) (p : Nat), s.portUp p = true → s.links.ports.length = 4 → Runs (.badCrcFrame p true) s fun t =>
    t.port p = { s.port p with nak := true } ∧ t.hf .LNK_ERR p 16 8 = min (s.hf .LNK_ERR p 16 8 + 1) 255 ∧ OnlyIn [.links, .hub] s t) ∧
  (∀ (s : State) (p : Nat), s.portUp p = true → s.links.ports.length = 4 → ((s.port p).retry.any fun u => decide (8 ≤ u.replays)) = true →
    (Runs (.portRetrain p true) s fun t => (t.port p).retry = (s.port p).retry.map (fun u => { u with replays := 0 }) ∧ t.pstate p = s.pstate p ∧
      t.hf .LNK_ERR p 24 8 = min (s.hf .LNK_ERR p 24 8 + 1) 255 ∧
      t.hf .LNK_ERR p 0 16 = min (s.hf .LNK_ERR p 0 16 + (s.port p).retry.length) 65535 ∧ OnlyIn [.links, .hub] s t) ∧
    (Runs (.portRetrain p false) s fun t => t.pstate p = 0 ∧ t.links = s.links)) ∧
  (∀ (s : State) (p lane j : Nat), s.laneActive p lane = true → (s.port p).spareOk = true → (s.port p).v1 = false → spareLane (s.h .LNK_LANEMAP p) = some j →
    s.frozen (hubKey .LNK_LANEMAP p) = false → Runs (.laneSpare p lane) s fun t =>
      t.hf .LNK_LANEMAP p (4 + lane) 1 = 1 ∧ t.hf .LNK_LANEMAP p 0 2 = (if s.hf .LNK_LANEMAP p 0 2 = lane then j else s.hf .LNK_LANEMAP p 0 2) ∧
        (s.hf .LNK_LANEMAP p 0 2 ≠ lane → t.hf .LNK_LANEMAP p 2 2 = j) ∧ t.pstate p = s.pstate p) ∧
  (∀ (s : State) (p lane : Nat), s.laneActive p lane = true → s.spares p = false → s.links.ports.length = 4 →
    (lane ∈ (s.port p).lost → Gives (.laneLoss p lane) s s) ∧
    (lane ∉ (s.port p).lost → Runs (.laneLoss p lane) s fun t => t.port p = { s.port p with lost := lane :: (s.port p).lost } ∧
      let gone := fun j => j = lane ∨ j ∈ (s.port p).lost
      (gone (s.hf .LNK_LANEMAP p 0 2) ∧ gone (s.hf .LNK_LANEMAP p 2 2) → 2 ≤ s.pstate p → t.pstate p = 0) ∧
      (¬(gone (s.hf .LNK_LANEMAP p 0 2) ∧ gone (s.hf .LNK_LANEMAP p 2 2)) → t.pstate p = if s.pstate p = 2 then 4 else s.pstate p) ∧
      OnlyIn [.links, .hub, .logs, .logLost, .msix, .gauge] s t)) ∧
  (∀ (s : State) (p lane symbols received : Nat), s.laneActive p lane = true → s.links.ports.length = 4 →
    (received < symbols * 10 * 10 ^ 10 → (s.port p).windows.getD lane 0 < 2 → Runs (.laneWindow p lane symbols received) s fun t =>
      (t.port p).windows = (s.port p).windows.set lane ((s.port p).windows.getD lane 0 + 1) ∧ OnlyIn [.links] s t) ∧
    (received < symbols * 10 * 10 ^ 10 → 2 ≤ (s.port p).windows.getD lane 0 → Runs (.laneWindow p lane symbols received) s fun t =>
      (t.port p).windows = (s.port p).windows.set lane 0 ∧ (s.spares p = false → lane ∈ (t.port p).lost) ∧
        (s.spares p = true → s.frozen (hubKey .LNK_LANEMAP p) = false → t.hf .LNK_LANEMAP p (4 + lane) 1 = 1)) ∧
    (symbols * 10 * 10 ^ 10 ≤ received → Runs (.laneWindow p lane symbols received) s fun t =>
      (t.port p).windows = (s.port p).windows.set lane 0 ∧ OnlyIn [.links] s t)) ∧
  (∀ (s : State) (p : Nat), p < 4 → s.links.ports.length = 4 →
    Gives (.spareEyeCheck p true) s s ∧ Runs (.spareEyeCheck p false) s fun t => t.port p = { s.port p with spareOk := false } ∧ t.pstate p = s.pstate p) ∧
  (∀ (s : State) (p peer : Nat) (data : List Byte), p < 4 → (s.port p).v1 = true → s.pstate p = 2 ∨ s.pstate p = 4 → 0 < data.length → data.length ≤ 4096 → s.hrv ≠ 2 →
    s.rdN (s.v1Base + 4160 * (s.links.v1Write % s.v1Entries) + 4156) 4 = 0 → Runs (.v1msg p peer data) s fun t =>
      let a := s.v1Base + 4160 * (s.links.v1Write % s.v1Entries)
      t.links = { s.links with v1Write := s.links.v1Write + 1 } ∧ OnlyIn [.mem, .flaws, .cores, .clusters, .links] s t ∧
        t.mem = ((s.wr a (data ++ List.replicate (4096 - data.length) 0#8)).wr (a + 4096) (toLe 4 data.length ++ toLe 4 0 ++ toLe 8 peer ++ toLe 44 0 ++ toLe 4 1)).mem) ∧
  (∀ (s : State) (p peer : Nat) (data : List Byte), s.rdN (s.v1Base + 4160 * (s.links.v1Write % s.v1Entries) + 4156) 4 ≠ 0 →
    Gives (.v1msg p peer data) s s)

/-- Each v2 port that is up or isolated sends its HELLO; a HELLO is remembered with the tag it carries, a port to a wrong port or an ineligible peer is isolated, and one to an eligible peer leaves isolation during discovery or for the peer the table holds; a root whose ROOTSER has been still for 10 ms takes and sends every port the table, which gives the coordinates, the Sundial's parent and the depth, or ends discovery with a failure; DISC messages are taken and passed on; a port that rejoins is up in discovery or with the peer the table holds, isolated otherwise, and runs as v1 only where V1EN allows it; the Sundial's requests and responses go along the tree, a small offset is slewed and one above 64 ticks with no job is stepped, the Grafters' copies not with it; a lost parent and a lost root are replaced; a replay request of a member for the step in progress starts a replay, one for a step to come waits, and an old one is let go. (R303, R304, R305, R306, R307, R308, R312, R313, R314, R315) -/
def Obligations.DiscoveryAndSundial : Prop :=
  (∀ s : State, s.links.ports.length = 4 → Runs .helloSend s fun t => OnlyIn [.links] s t ∧ ∀ p, p < 4 →
    if (s.portUp p = true ∨ s.pstate p = 3) ∧ (s.port p).v1 = false then SentOn s t p 1 (.hello (s.hello p)) else t.port p = s.port p) ∧
  (∀ (s : State) (p lseq : Nat) (h : HelloMsg), InOrder s p lseq → Runs (.hello p lseq h) s fun t =>
    (t.port p).peer = some h ∧ Taken s t p ∧
      (h.port ≠ p ^^^ 1 → h.port < 4 → t.pstate p = 3 ∧ t.hf .LNK_PSTAT p 4 1 = 1) ∧
      (h.port = p ^^^ 1 → h.serial ≠ s.serial → s.eligible h = false → t.pstate p = 3 ∧ OnlyIn [.links, .hub] s t) ∧
      (h.port = p ^^^ 1 → h.serial ≠ s.serial → s.eligible h = true → t.pstate p = s.pstate p ∧ OnlyIn [.links, .hub] s t ∧
        t.links.table = s.links.table.map fun e => if e.serial = h.serial then { e with tag := h.jobTag } else e)) ∧
  (∀ (s : State) (p lseq : Nat) (h : HelloMsg), p < 4 → s.pstate p = 3 → (s.port p).v1 = false → lseq % 2 ^ 16 = (s.port p).rx → s.links.ports.length = 4 →
    h.port = p ^^^ 1 → h.serial ≠ s.serial → s.eligible h = true → Runs (.hello p lseq h) s fun t =>
      (s.links.running = true ∨ s.peerHeld p h = true → t.pstate p = if (s.workingLanes p).length = 2 then 2 else 4) ∧
      (s.links.running = false → s.peerHeld p h = false → t.pstate p = 3)) ∧
  (∀ (s : State) (ns : List Node) (xs ys : Nat) (tb : List DiscEntry) (e : DiscEntry), s.links.running = true → s.links.rootSer = s.serial →
    s.links.rootTick + tenMs ≤ s.sundial → s.links.ports.length = 4 → assign ns s.serial s.sizeX s.sizeY = some (xs, ys, tb) →
    (tb.find? fun e => e.serial == s.serial) = some e → Runs (.discoveryRootAssign ns) s fun t =>
      Settled s t e tb xs ys ∧ ∀ p, s.portUp p = true → Spread s t p (.table tb xs ys)) ∧
  (∀ (s : State) (ns : List Node), s.links.running = true → s.links.rootSer = s.serial → s.links.rootTick + tenMs ≤ s.sundial → s.links.ports.length = 4 →
    assign ns s.serial s.sizeX s.sizeY = none → Runs (.discoveryRootAssign ns) s fun t =>
      t.links.running = false ∧ t.links.table = [] ∧ t.hf .LNK_COORD 0 13 1 = 0 ∧ ∀ p, s.portUp p = true → Spread s t p .fail) ∧
  (∀ (s : State) (p lseq xs ys : Nat) (tb : List DiscEntry) (e : DiscEntry), InOrder s p lseq → s.links.running = true →
    (tb.find? fun e => e.serial == s.serial) = some e → Runs (.disc p lseq (.table tb xs ys)) s fun t =>
      Taken s t p ∧ Settled s t e tb xs ys ∧ ∀ q, q ≠ p → s.portUp q = true → Spread s t q (.table tb xs ys)) ∧
  (∀ (s : State) (p lseq : Nat), InOrder s p lseq → s.links.running = true → Runs (.disc p lseq .fail) s fun t =>
    Taken s t p ∧ t.links.running = false ∧ t.links.table = [] ∧ ∀ q, q ≠ p → s.portUp q = true → Spread s t q .fail) ∧
  (∀ (s : State) (p lseq : Nat) (d : DiscMsg), InOrder s p lseq → s.links.running = false → Runs (.disc p lseq d) s fun t =>
    Taken s t p ∧ OnlyIn [.links] s t ∧ t.links.table = s.links.table) ∧
  (∀ (s : State) (p : Nat) (h : HelloMsg), p < 4 → s.links.ports.length = 4 → s.hf .LNK_PCFG p 0 1 = 1 → s.pstate p ≠ 2 → s.pstate p ≠ 4 →
    Runs (.portRejoin p (some h)) s fun t =>
      t.pstate p = (if s.links.running = true ∨ (s.peerHeld p h = true ∧ s.eligible h = true) then 2 else 3) ∧ (t.port p).peer = some h ∧ (t.port p).v1 = false) ∧
  (∀ (s : State) (p : Nat), p < 4 → s.links.ports.length = 4 → s.hf .LNK_PCFG p 0 1 = 1 → s.pstate p ≠ 2 → s.pstate p ≠ 4 →
    Runs (.portRejoin p none) s fun t =>
      (s.hf .LNK_PCFG p 1 1 = 1 → t.pstate p = 2 ∧ (t.port p).v1 = true ∧ t.hf .LNK_PSTAT p 3 1 = 1) ∧
      (s.hf .LNK_PCFG p 1 1 = 0 → t.pstate p = s.pstate p ∧ (t.port p).v1 = false)) ∧
  (∀ (s : State) (p ph : Nat), s.links.parent = some p → s.portUp p = true → s.sundialRuns = true → s.links.ports.length = 4 → ph < 16 →
    Runs (.sundialSyncTimer ph) s fun t =>
      t.links.t1 = 16 * s.sundial + ph ∧ SentOn s t p 0 (.urg 2 [16 * s.sundial + ph]) ∧ OnlyIn [.links] s t) ∧
  (∀ (s : State) (p lseq t2 ph : Nat), InOrder s p lseq → s.sundialRuns = true → ph < 16 → Runs (.syncReq p lseq t2 ph) s fun t =>
    Taken s t p ∧ SentOn s t p 0 (.urg 3 [t2, 16 * s.sundial + ph, if s.hf .SDL_STAT 0 2 1 = 1 then s.sundial else s.links.stamp]) ∧ OnlyIn [.links] s t) ∧
  (∀ (s : State) (p lseq t2 t3 t4 stamp : Nat), InOrder s p lseq → s.links.parent = some p → s.sundialRuns = true →
    (let off : Int := (((t2 : Int) - s.links.t1) - ((t4 : Int) - t3)).tdiv 2
     Runs (.syncResp p lseq t2 t3 t4 stamp) s fun t => Taken s t p ∧ t.links.stamp = stamp ∧ t.links.respTick = t.sundial ∧
      (off.natAbs ≤ 1024 → t.sundial = s.sundial ∧ t.links.slew = off ∧ OnlyIn [.links, .hub, .gauge, .fresh] s t) ∧
      (1024 < off.natAbs → s.step.job = true → s.rst.compute = true → t.sundial = s.sundial ∧ t.links.slew = off) ∧
      (1024 < off.natAbs → s.step.job = false ∨ s.rst.compute = false → t.sundial = ((s.sundial : Int) + off.tdiv 16).toNat ∧ t.links.slew = 0 ∧
        ∀ k, k < s.grafters.length → t.copyOf k = s.copyOf k))) ∧
  (∀ s : State, s.parentLost = true → Runs .parentLost s fun t =>
    (∀ p d, s.bestNeighbour = some (p, d) → t.links.parent = some p ∧ t.links.depth = d + 1 ∧ t.links.electing = false ∧ OnlyIn [.links, .hub] s t) ∧
      (s.bestNeighbour = none → s.links.parent.isSome = true → t.links.parent = none ∧ t.links.depth = 0xFFFF ∧ t.hf .SDL_STAT 0 0 2 = 3) ∧
      (s.bestNeighbour = none → s.links.parent = none → t = s)) ∧
  (∀ s : State, s.hf .SDL_STAT 0 2 1 = 0 → s.links.electing = false → s.links.stamp ≠ 0 → s.links.stampTick + tenMs ≤ s.sundial → Runs .rootLost s fun t =>
    t.links.excluded = some s.links.rootSer ∧ t.links.electing = true ∧ t.links.parent = none ∧ t.links.depth = 0xFFFF) ∧
  (∀ s : State, s.hf .SDL_STAT 0 2 1 = 0 → s.links.electing = true → s.links.rootSer = s.serial → s.links.rootTick + tenMs ≤ s.sundial →
    Runs .rootLost s fun t => t.hf .SDL_STAT 0 2 1 = 1 ∧ t.links.depth = 0 ∧ t.links.electing = false ∧ t.links.parent = none ∧ t.sundial = s.sundial ∧ OnlyIn [.links, .hub] s t) ∧
  (∀ (s : State) (p lseq cause : Nat) (f : Frame), InOrder s p lseq → s.delivers f = true → f.body = .urg 1 [s.stepNo, s.replays, cause] →
    (s.rankOf f.sx f.sy).isSome = true → s.step.phase = .running → s.step.starting = false → s.step.decided = false → s.step.faulted = false → s.step.held = 0 → s.replays < 2 →
    Runs (.replayReq p lseq f) s fun t => Taken s t p ∧ t.step = { s.step with faulted := true } ∧
      t.quiesce = some ⟨s.stepNo % 2 ^ 32, s.sundial, false, false⟩ ∧ t.hf .UPD_STAT 0 16 16 = cause % 2 ^ 16) ∧
  (∀ (s : State) (p lseq n count cause : Nat) (f : Frame), InOrder s p lseq → s.delivers f = true → f.body = .urg 1 [n, count, cause] →
    (s.rankOf f.sx f.sy).isSome = true → s.step.job = true →
    n = s.stepNo + 1 ∨ (n = s.stepNo ∧ (s.replays < count ∨ s.step.starting = true)) →
    Runs (.replayReq p lseq f) s fun t => Taken s t p ∧ t.step = s.step ∧ t.coll.reqs = s.coll.reqs ++ [(n, count, cause)]) ∧
  (∀ (s : State) (p lseq n count cause : Nat) (f : Frame), InOrder s p lseq → s.delivers f = true → f.body = .urg 1 [n, count, cause] →
    n < s.stepNo ∨ (n = s.stepNo ∧ s.step.starting = false ∧ count < s.replays) ∨ s.rankOf f.sx f.sy = none →
    Runs (.replayReq p lseq f) s fun t => Taken s t p ∧ OnlyIn [.links] s t)

/-- A collective frame of a member with the expected step, replay count and epoch is taken, or held until it can be; one of a gather or exchange of the step in force that this module has yet to reach is held; a move's bytes land at its address; any other frame is counted in LNK_CSTALE and discarded. The next layer's reduce-scatter starts when its notices are complete and the one before it is sent; a layer that has landed counts in CSP_EVT29 of every cluster, and a KRON or ORTHM layer in CSP_EVT30. (R250, R279, R280, R283, R285, R291, R310) -/
def Obligations.CollectivesLand : Prop :=
  (∀ (s : State) (p lseq : Nat) (f : Frame) (c : CollMsg), InOrder s p lseq → s.delivers f = true → f.body = .coll c →
    (let r := received s p
     (s.collFrom f c.kind = false → Gives (.collFrame p lseq f []) s (r.satH .LNK_CSTALE 0 0 16 1)) ∧
     (s.collFrom f c.kind = true → s.collFresh c = false → s.collAhead c = true →
       Gives (.collFrame p lseq f []) s { r with coll := { r.coll with held := r.coll.held ++ [c] } }) ∧
     (s.collFrom f c.kind = true → s.collFresh c = false → s.collAhead c = false → Runs (.collFrame p lseq f []) s fun t =>
       Taken s t p ∧ t.hf .LNK_CSTALE 0 0 16 = min (s.hf .LNK_CSTALE 0 0 16 + 1) 65535 ∧ t.coll = s.coll ∧ t.mem = s.mem ∧ t.step = s.step ∧
         (s.coll.was = none → t = r.satH .LNK_CSTALE 0 0 16 1)) ∧
     (s.collFrom f c.kind = true → s.collFresh c = true → r.takeColl c = none →
       Gives (.collFrame p lseq f []) s { r with coll := { r.coll with held := r.coll.held ++ [c] } }) ∧
     (∀ t, s.collFrom f c.kind = true → s.collFresh c = true → r.takeColl c = some t → Gives (.collFrame p lseq f []) s t.settleColl))) ∧
  (∀ (s : State) (p lseq : Nat) (f : Frame) (c : CollMsg), InOrder s p lseq → s.delivers f = true → f.body = .coll c → s.collFrom f c.kind = true →
    s.collFresh c = true → c.kind = .move → s.coll.held = [] → s.hrv ≠ 2 → Runs (.collFrame p lseq f []) s fun t =>
      t.mem = (s.wr c.dpa (c.data.map (BitVec.ofNat 8))).mem ∧ OnlyIn [.mem, .flaws, .cores, .clusters, .links, .coll] s t ∧
        t.coll.perm = s.coll.perm.map fun q => { q with bytes := q.bytes + c.data.length }) ∧
  (∀ (s : State) (i : Nat), s.rsNext = some i → s.step.phase = .running → s.generate = false → s.step.faulted = false → s.gradReady i = true →
    (before s.rsLayers i).all s.rsAllSent = true → s.coll.held = [] → Runs (.reduceScatterLayer []) s fun t =>
      t.step.rsSent = s.step.rsSent ++ [i] ∧ t.hf .LNK_CSTAT 0 0 12 = i % 4096 ∧ t.hf .LNK_CSTAT 0 24 1 = 1) ∧
  (∀ (s : State) (i : Nat), (s.rsLayers.find? fun j => !s.step.landed.contains j) = some i → s.step.phase = .running → s.step.faulted = false →
    s.rsDone i = true → Runs .rsLanded s fun t => t.step.landed = s.step.landed ++ [i] ∧
      (s.sharded = false → OnlyIn [.step, .clusters, .hub] s t ∧ ∀ ci,
        t.cluster ci = if lDirected (s.layer i) = true then ((s.cluster ci).cspEvent 29 1).cspEvent 30 1 else (s.cluster ci).cspEvent 29 1))

/-- The coordinator accepts a permutation during a job and keeps its ticket; without a job it answers PERMUTE_ILLEGAL. At action 3 a module computes its plan and the plan's hash, a hash that differs ends the permutation, and once plans agree it makes its moves and copies; it acknowledges when its bytes have landed, or when it stands on the new map already; at COMMIT the new grid is in force and the permutation is over; management frames move a permutation on or end it. (R287, R288, R289, R290, R291, R292, R335) -/
def Obligations.PermutationsRun : Prop :=
  (∀ (s : State) (n : Nat) (c : Cmd) (peers : List Peer), Waits s 0xD043 c → Tickets s 0xD043 n → s.permRefusal c.body peers = none →
    Runs (.shardPermute peers) s fun t => Opened s t c n ∧ t.hf .LNK_CSTAT 0 26 1 = 1 ∧ OnlyIn [.coll, .hub, .mb, .msix, .gauge] s t ∧
      ∃ q, t.coll.perm = some q ∧ q.body = c.body ∧ q.chief = s.code ∧ q.stage = 1 ∧ (s.coll.was = none → q.old = s.gridNow) ∧
        ∀ g, s.coll.was = some g → newGrid c.body g = some { s.gridNow with step := g.step, replays := g.replays } → q.old = g) ∧
  (∀ (s : State) (c : Cmd) (peers : List Peer), Waits s 0xD043 c → s.step.job = false → Runs (.shardPermute peers) s fun t =>
    Answered s t c St.PERMUTE_ILLEGAL [] ∧ t.coll = s.coll) ∧
  (∀ (s : State) (p : Permute) (new : Grid), s.coll.perm = some p → s.permTurn = true → newGrid p.body p.old = some new → p.stage = 1 →
    (let plan := movesOf (s.pieces p.old new)
     (p.chief ≠ s.code ∨ (∀ e ∈ p.hashes, e.2 = sha512 (planBytes plan)) → Runs (.shardPermuteRun []) s fun t =>
      ∃ q, t.coll.perm = some q ∧ q.plan = plan ∧ q.hash = sha512 (planBytes plan) ∧ t.mem = s.mem ∧
        q.stage = (if p.chief = s.code ∧ ∀ c ∈ p.old.map ++ new.map, c = s.code ∨ c ∈ p.hashes.map (·.1) then 3 else 2)) ∧
     (p.chief = s.code → (∃ e ∈ p.hashes, e.2 ≠ sha512 (planBytes plan)) → Runs (.shardPermuteRun []) s fun t =>
      t.coll.perm = none ∧ t.coll.plan = plan ∧ t.mem = s.mem ∧ t.shards = s.shards ∧ t.gridNow.map = s.gridNow.map))) ∧
  (∀ (s : State) (p : Permute) (new : Grid), s.coll.perm = some p → s.permTurn = true → newGrid p.body p.old = some new → p.stage = 3 →
    (let moving : State := { s with coll := { s.coll with perm := some { p with stage := 4 } } }
     let mine := (s.pieces p.old new).filter fun x => x.src == s.code && !(s.onNew new && x.dst == s.code)
     let joins := new.map.filter fun c => !p.old.map.contains c
     Gives (.shardPermuteRun []) s (joins.foldl (fun (t : State) c => t.makeCopies p p.old new c) (mine.foldl (fun (t : State) x => t.makePiece p new x) moving)))) ∧
  (∀ (s : State) (p : Permute) (new : Grid), s.coll.perm = some p → newGrid p.body p.old = some new → p.stage = 4 →
    s.onNew new = true ∨ (s.boundBytes p.old new ≤ p.bytes ∧ (p.old.map.contains s.code = true ∨ new.map.contains s.code = false ∨ p.shared = true)) →
    Runs .permuteAck s fun t =>
      t.coll.perm = some { p with stage := 5, acks := if p.chief = s.code then p.acks ++ [s.code] else p.acks } ∧ t.mem = s.mem ∧ t.step = s.step ∧
        (p.chief = s.code → t.links = s.links)) ∧
  (∀ (s : State) (p : Permute) (new : Grid), s.coll.perm = some p → newGrid p.body p.old = some new → p.stage = 6 → s.onNew new = false → s.coll.held = [] →
    s.frozen (hubKey .LNK_GRID 0) = false → Runs .permuteCommit s fun t =>
      t.coll.perm = none ∧ t.coll.was = some p.old ∧ t.hf .LNK_CSTAT 0 26 1 = 0 ∧
        t.hf .LNK_GRID 0 0 7 = new.xl ∧ t.hf .LNK_GRID 0 7 7 = new.yl ∧ t.epoch = new.epoch ∧ t.mapBank = 1 - s.mapBank ∧
        (new.map.contains s.code = false → t.step.job = false)) ∧
  (∀ (s : State) (p : Permute) (new : Grid), s.coll.perm = some p → newGrid p.body p.old = some new → p.stage = 6 → s.onNew new = true → s.coll.held = [] →
    Runs .permuteCommit s fun t => t.coll.perm = none ∧ t.coll.was = some p.old ∧ t.hf .LNK_CSTAT 0 26 1 = 0 ∧ t.h .LNK_GRID = s.h .LNK_GRID) ∧
  (∀ (s : State) (p : Permute) (new : Grid), s.coll.perm = some p → newGrid p.body p.old = some new → p.stage = 5 → p.chief = s.code → s.coll.held = [] →
    ((p.old.map ++ new.map).all fun c => p.acks.contains c) = true → Runs .permuteCommit s fun t => t.coll.perm = none ∧ t.coll.was = some p.old) ∧
  (∀ (s : State) (port lseq : Nat) (f : Frame) (p : Permute), InOrder s port lseq → s.delivers f = true → f.body = .mgmt .commit → s.coll.perm = some p →
    f.sx + 8 * f.sy = p.chief → Runs (.mgmtFrame port lseq f) s fun t => Taken s t port ∧ t.coll.perm = some { p with stage := 6 } ∧ OnlyIn [.links, .coll] s t) ∧
  (∀ (s : State) (port lseq : Nat) (f : Frame) (p : Permute), InOrder s port lseq → s.delivers f = true → s.coll.perm = some p →
    (f.body = .mgmt .agree → f.sx + 8 * f.sy = p.chief → p.stage = 2 →
      Runs (.mgmtFrame port lseq f) s fun t => Taken s t port ∧ t.coll.perm = some { p with stage := 3 } ∧ OnlyIn [.links, .coll] s t) ∧
    (f.body = .mgmt .ack → p.chief = s.code →
      Runs (.mgmtFrame port lseq f) s fun t => Taken s t port ∧ t.coll.perm = some { p with acks := p.acks ++ [f.sx + 8 * f.sy] } ∧ OnlyIn [.links, .coll] s t) ∧
    (∀ st, f.body = .mgmt (.ended st) → f.sx + 8 * f.sy = p.chief → p.stage < 6 → Runs (.mgmtFrame port lseq f) s fun t => t.coll.perm = none ∧ t.mem = s.mem)) ∧
  (∀ (s : State) (port lseq : Nat) (f : Frame) (body : List Byte) (old : Grid), InOrder s port lseq → s.delivers f = true → f.body = .mgmt (.permute body old) →
    s.coll.perm = none → Runs (.mgmtFrame port lseq f) s fun t =>
      Taken s t port ∧ t.coll.perm = some ⟨body, old, f.sx + 8 * f.sy, 1, [], [], [], [], 0, false⟩ ∧ t.hf .LNK_CSTAT 0 26 1 = 1)

/-- HARVEST_START arms a snapshot and keeps its ticket; at the boundary's opening the items and scalars are captured, or with too little room it ends with HARVEST_OVERRUN; each drain puts the next bytes of the first item at their place in the host's memory, and the last one puts MVALID and ends the ticket; a buddy takes Harvest data from the module it is set to within its reserve area, and refuses it otherwise. HARVEST_RESTORE of an image that does not fit, or whose hashes differ, ends with CHECKPOINT_INVALID; one that fits and matches completes in FULL mode, and the next step is the one after the snapshot's; in SHARDED mode it waits for the blocks of other members. (R353, R354, R355, R356, R357, R358, R359, R361) -/
def Obligations.SnapshotsRun : Prop :=
  (∀ (s : State) (n : Nat) (c : Cmd), Waits s 0xD050 c → Tickets s 0xD050 n → c.field 0 1 ≤ 1 → c.field 16 8 % 4096 = 0 →
    (c.field 8 8 = 0 ∨ s.stepNo ≤ c.field 8 8) → s.coll.perm = none → s.hrv = 0 → Runs .harvestStart s fun t =>
      Opened s t c n ∧ t.hrv = 1 ∧ t.harvest.ticket = n ∧ t.harvest.body = c.body ∧ t.harvest.target = c.field 8 8 ∧
        OnlyIn [.harvest, .hub, .mb, .msix, .gauge] s t) ∧
  (∀ s : State, s.hrv = 1 → s.step.job = false ∨ s.snapshotDue = true →
    (let n := if s.step.job = true then s.stepNo else (s.stepNo + 2 ^ 64 - 1) % 2 ^ 64
     (placeItems (s.toggled (n + 1)).snapItems).2 ≤ s.harvest.field 24 8 → Runs .snapshotOpen s fun t =>
      t.hrv = 2 ∧ t.harvest.openTick = s.sundial ∧ t.harvest.step = n ∧ t.harvest.items = (placeItems (s.toggled (n + 1)).snapItems).1 ∧
        t.harvest.draining = !s.step.job ∧ OnlyIn [.harvest, .hub] s t) ∧
    (let n := if s.step.job = true then s.stepNo else (s.stepNo + 2 ^ 64 - 1) % 2 ^ 64
     s.harvest.field 24 8 < (placeItems (s.toggled (n + 1)).snapItems).2 → Runs .snapshotOpen s fun t =>
      t.hrv = 0 ∧ t.hf .HRV_STAT 0 10 1 = 1 ∧ t.mem = s.mem ∧ t.mb.tickets = (s.endTicket s.harvest.ticket St.HARVEST_OVERRUN).mb.tickets)) ∧
  (∀ s : State, (s.hrv = 1 → s.step.job = false → Gives .snapshotOpen s (s.openSnap ((s.stepNo + 2 ^ 64 - 1) % 2 ^ 64))) ∧
    (s.step.job = true → s.snapshotDue = true → Gives .snapshotOpen s (s.openSnap s.stepNo)) ∧
    (s.hrv ≠ 1 → Gives .snapshotOpen s s)) ∧
  (∀ (s : State) (k : Nat) (e : List HbmErr) (refused : Bool), s.hrv = 2 ∨ s.hrv = 3 → s.harvest.draining = true →
    (s.hvReach = false ∨ (refused = true ∧ s.harvest.field 0 1 = 1) → Gives (.harvestDrain k e refused) s (s.abandon St.LINK_UNREACHABLE)) ∧
    (s.hvReach = true → refused = false ∨ s.harvest.field 0 1 ≠ 1 →
      (s.harvest.items = [] → Gives (.harvestDrain k e refused) s s.hvFinish) ∧
      (∀ i rest, s.harvest.items = i :: rest →
        (s.hvBudget = some 0 ∨ k = 0 → Gives (.harvestDrain k e refused) s s) ∧
        (s.hvBudget ≠ some 0 → k ≠ 0 → Gives (.harvestDrain k e refused) s (s.hvDrain i rest k e))))) ∧
  (∀ (s : State) (k a len : Nat) (i : HItem) (more : List (Nat × Nat)) (rest : List HItem), s.hrv = 2 → s.harvest.draining = true → s.harvest.field 0 1 = 0 →
    s.harvest.items = i :: rest → i.pieces = (a, len) :: more → 0 < k → k < len → s.hvBudget = none → s.flaws = [] → s.harvest.staged = [] →
    memRange a k = true → 0 < s.harvest.drained → Runs (.harvestDrain k [] false) s fun t =>
      t.harvest.hostMem = msets s.harvest.hostMem (s.harvest.base + (i.off + s.harvest.part.length)) (s.rd a k) ∧ t.harvest.drained = s.harvest.drained + k ∧
        t.harvest.items = { i with pieces := (a + k, len - k) :: more } :: rest ∧ t.mem = s.mem) ∧
  (∀ s : State, s.hrv = 3 → s.harvest.draining = true → s.harvest.field 0 1 = 0 → s.harvest.items = [] → 0 < s.harvest.drained →
    Runs (.harvestDrain 1 [] false) s fun t => t.hrv = 0 ∧ t.hf .HRV_STAT 0 3 7 = 100 ∧
      t.harvest.hostMem = msets (msets s.harvest.hostMem (s.harvest.base + 4096) s.harvest.entries.flatten) s.harvest.base (toLe 8 s.harvest.step) ∧
        t.mb.tickets = (s.endTicket s.harvest.ticket St.OK).mb.tickets) ∧
  (∀ (s : State) (p lseq off : Nat) (f : Frame) (data : List Byte), InOrder s p lseq → s.delivers f = true → f.body = .harvest off data →
    (s.hf .HRV_CFG 0 14 1 = 1 → s.hf .HRV_CFG 0 8 3 = f.sx → s.hf .HRV_CFG 0 11 3 = f.sy → off + data.length ≤ 2 ^ (s.hf .HRV_RSV 0 27 5 + 26) → s.hrv ≠ 2 →
      Runs (.harvestDataReceive p lseq f) s fun t => Taken s t p ∧ t.mem = (s.wr (4096 * s.hf .HRV_RSV 0 0 27 + off) data).mem ∧
        OnlyIn [.mem, .flaws, .cores, .clusters, .links] s t) ∧
    (s.hf .HRV_CFG 0 14 1 = 0 → Runs (.harvestDataReceive p lseq f) s fun t => Taken s t p ∧ t.hf .HRV_STAT 0 11 1 = 1 ∧ OnlyIn [.links, .hub] s t)) ∧
  (∀ (s : State) (n : Nat) (c : Cmd) (img : List Byte), Waits s 0xD051 c → Tickets s 0xD051 n → hvBodyBad c = false → s.step.job = false → s.hrv = 0 →
    s.imageFits (img.take (c.field 24 8)) (c.field 8 8 % 2 ^ 48) = true → ∃ u, Opened s u c n ∧ OnlyIn [.mb, .msix, .gauge] s u ∧
      Gives (.harvestRestore img) s
        ((({ u with harvest := { Harvest.init with ticket := n, body := c.body, header := img.take 4096, hostMem := s.harvest.hostMem, arrived := s.harvest.arrived },
                    coll := { Coll.init with plan := s.coll.plan } }.buildShards (c.field 8 8 % 2 ^ 48)).setHf .HRV_STAT 0 0 3 4).restoreEntries
          (u.planRecords (c.field 8 8 % 2 ^ 48)) (img.take (c.field 24 8)) n)) ∧
  (∀ (s : State) (n : Nat) (c : Cmd) (img : List Byte), Waits s 0xD051 c → Tickets s 0xD051 n → hvBodyBad c = false → s.step.job = false → s.hrv = 0 →
    (s.imageFits (img.take (c.field 24 8)) (c.field 8 8 % 2 ^ 48) = false → Runs (.harvestRestore img) s fun t =>
      Ended s t c n St.CHECKPOINT_INVALID ∧ t.mem = s.mem ∧ t.hrv = 0) ∧
    (s.imageFits (img.take (c.field 24 8)) (c.field 8 8 % 2 ^ 48) = true → s.sharded = false →
      (imageEntries (img.take (c.field 24 8))).all (entryOk (img.take (c.field 24 8))) = true → Runs (.harvestRestore img) s fun t =>
        Ended s t c n St.OK ∧ t.hrv = 0 ∧ t.hf .HRV_STAT 0 3 7 = 100 ∧ t.step.restored = some (c.field 8 8 % 2 ^ 48) ∧
          t.stepNo = (leNat (((img.take 4096).drop 0x28).take 8) + 1) % 2 ^ 64) ∧
    (s.imageFits (img.take (c.field 24 8)) (c.field 8 8 % 2 ^ 48) = true → s.sharded = true →
      (imageEntries (img.take (c.field 24 8))).all (entryOk (img.take (c.field 24 8))) = true → Runs (.harvestRestore img) s fun t =>
        (Ended s t c n St.OK ∧ t.hrv = 0) ∨ (Opened s t c n ∧ t.hrv = 4 ∧ t.harvest.owed ≠ [])) ∧
    (s.imageFits (img.take (c.field 24 8)) (c.field 8 8 % 2 ^ 48) = true →
      (imageEntries (img.take (c.field 24 8))).all (entryOk (img.take (c.field 24 8))) = false → Runs (.harvestRestore img) s fun t =>
        Ended s t c n St.CHECKPOINT_INVALID ∧ t.hrv = 0))

/-- GRF_SUBLO is latched for its writer and GRF_SUBHI queues the descriptor at the combined address, or waits with its writer when the queue has sixteen; a stalled writer writes nothing more; a CSP reaches only the Grafter of its own die. The oldest job whose slot is free leaves the queue: one that is not legal ends with JOB_ILLEGAL in its record, one that conflicts with JOB_CONFLICT, any other occupies its slot or has already ended. A VOTE job whose deadline has come stops; GRF_ABORT stops a running job with ABORTED and sets the rank of one that waits for its vote to 0. (R213, R214, R215, R218, R219, R232) -/
def Obligations.JobsAreSubmitted : Prop :=
  (∀ (s : State) (k v : Nat), k < 8 →
    (s.subStalled .host = false → Gives (.grfSubloWrite .host k v) s (s.setGrafter k { s.grafter k with loHost := v % 2 ^ 32 / 64 * 64 })) ∧
    (s.subStalled .shed = false → Gives (.grfSubloWrite .shed k v) s (s.setGrafter k { s.grafter k with loShed := v % 2 ^ 32 / 64 * 64 })) ∧
    (∀ who, s.subStalled who = true → Gives (.grfSubloWrite who k v) s s ∧ Gives (.grfSubmit who k v) s s) ∧
    (∀ ci, ci < nClusters → dieOf ci = k → s.subStalled (.csp ci) = false → Runs (.grfSubloWrite (.csp ci) k v) s fun t =>
      (t.cluster ci).grfLo = v % 2 ^ 32 / 64 * 64 ∧ (∀ cj, cj ≠ ci → t.cluster cj = s.cluster cj) ∧ OnlyIn [.clusters] s t) ∧
    (∀ ci, dieOf ci ≠ k → Gives (.grfSubloWrite (.csp ci) k v) s s ∧ Gives (.grfSubmit (.csp ci) k v) s s)) ∧
  (∀ (s : State) (k v : Nat) (who : Agent) (lo : Nat), k < 8 → s.subStalled who = false →
    ((who = .host ∧ lo = (s.grafter k).loHost) ∨ (who = .shed ∧ lo = (s.grafter k).loShed) ∨
      (∃ ci, who = .csp ci ∧ ci < nClusters ∧ dieOf ci = k ∧ lo = (s.cluster ci).grfLo)) →
    (let j : Submitted := ⟨lo + v % 2 ^ 16 * 2 ^ 32, who⟩
     ((s.grafter k).queue.length < 16 → (s.grafter k).stalled = [] →
       Gives (.grfSubmit who k v) s (s.setGrafter k { s.grafter k with queue := (s.grafter k).queue ++ [j] })) ∧
     (16 ≤ (s.grafter k).queue.length ∨ (s.grafter k).stalled ≠ [] →
       Gives (.grfSubmit who k v) s (s.setGrafter k { s.grafter k with stalled := (s.grafter k).stalled ++ [j] })))) ∧
  (∀ (s : State) (k i : Nat) (sub : Submitted), k < 8 → s.grafters.length = 8 → s.computing = true →
    ((s.grafter k).queue.zipIdx.find? fun e => (((s.grafter k).slots.getD (gSlot (s.rdN e.1.addr 128)) none).isNone)) = some (sub, i) → s.hrv ≠ 2 →
    s.grfLegal k (s.rdN sub.addr 128) = false → Runs (.grafterJobStart k []) s fun t => t.grafter k = (s.grafter k).dequeue i ∧
      ∃ v, v % 2 ^ 16 = St.JOB_ILLEGAL ∧ v / 2 ^ 38 % 4 = 3 ∧ v / 2 ^ 224 % 2 ^ 32 = gTag (s.rdN sub.addr 128) ∧
        t.mem = (s.wr (gCdpa (s.rdN sub.addr 128) / 64 * 64) (toLe 64 v)).mem) ∧
  (∀ (s : State) (k i : Nat) (sub : Submitted), k < 8 → s.grafters.length = 8 → s.computing = true →
    ((s.grafter k).queue.zipIdx.find? fun e => (((s.grafter k).slots.getD (gSlot (s.rdN e.1.addr 128)) none).isNone)) = some (sub, i) → s.hrv ≠ 2 →
    s.grfLegal k (s.rdN sub.addr 128) = true → (s.setGrafter k ((s.grafter k).dequeue i)).grfConflict k (s.rdN sub.addr 128) = true →
    Runs (.grafterJobStart k []) s fun t => t.grafter k = (s.grafter k).dequeue i ∧
      ∃ v, v % 2 ^ 16 = St.JOB_CONFLICT ∧ v / 2 ^ 38 % 4 = 3 ∧ v / 2 ^ 224 % 2 ^ 32 = gTag (s.rdN sub.addr 128) ∧
        t.mem = (s.wr (gCdpa (s.rdN sub.addr 128) / 64 * 64) (toLe 64 v)).mem) ∧
  (∀ (s : State) (k i : Nat) (sub : Submitted), k < 8 → s.grafters.length = 8 → (s.grafter k).slots.length = 4 → s.computing = true →
    ((s.grafter k).queue.zipIdx.find? fun e => (((s.grafter k).slots.getD (gSlot (s.rdN e.1.addr 128)) none).isNone)) = some (sub, i) →
    s.grfLegal k (s.rdN sub.addr 128) = true → (s.setGrafter k ((s.grafter k).dequeue i)).grfConflict k (s.rdN sub.addr 128) = false →
    Gives (.grafterJobStart k []) s (((s.setGrafter k ((s.grafter k).dequeue i)).startJob k (gSlot (s.rdN sub.addr 128)) sub (s.rdN sub.addr 128)).grfWork
      k (gSlot (s.rdN sub.addr 128)) (s.rdN sub.addr 128)) ∧
    Runs (.grafterJobStart k []) s fun t => (t.grafter k).queue = ((s.grafter k).dequeue i).queue ∧
      (gType (s.rdN sub.addr 128) = gTrsv → ∃ j, t.job k (gSlot (s.rdN sub.addr 128)) = some j ∧ j.desc = s.rdN sub.addr 128 ∧ j.phase = 2 ∧
        j.done = false ∧ j.sub = sub ∧ Worked k (gSlot (s.rdN sub.addr 128)) (s.rdN sub.addr 128) s t) ∧
      (∀ j, t.job k (gSlot (s.rdN sub.addr 128)) = some j → j.desc = s.rdN sub.addr 128 ∧ j.sub = sub)) ∧
  (∀ (s : State) (k i : Nat) (j : GJob), Place s k i → s.job k i = some j → gVote j.desc = true → j.done = false → gDeadline j.desc ≠ 2 ^ 64 - 1 →
    gDeadline j.desc ≤ s.copyOf k → Runs (.jobDeadline k i) s fun t => OnlyIn [.grafters] s t ∧
      ∃ j', t.job k i = some j' ∧ j'.done = true ∧ j'.tstop = s.copyOf k ∧
        j'.rank = (if j.result.isSome = true then 2 else if j.reserve.isSome = true then 1 else 0)) ∧
  (∀ (s : State) (k i : Nat) (j : GJob), Place s k i → s.job k i = some j → j.done = false →
    (gVote j.desc = true → Runs (.grfAbort k (i + 4)) s fun t => OnlyIn [.grafters] s t ∧
      ∃ j', t.job k i = some j' ∧ j'.done = true ∧ j'.lstatus = St.ABORTED ∧ j'.rank = 0) ∧
    (gVote j.desc = false → Runs (.grfAbort k (i + 4)) s fun t => t.job k i = none)) ∧
  (∀ (s : State) (k i : Nat) (j : GJob), Place s k i → s.job k i = some j → j.done = true → j.group = none →
    Runs (.grfAbort k (i + 4)) s fun t => t.job k i = some { j with rank := 0 } ∧ OnlyIn [.grafters] s t)

/-- One iteration of a running ROOT, ORTH or CG replaces its iterate by the next one of its scheme and awaits its test; one that meets RANGE restarts a ROOT or CHOL once with DEXP − 1 or ends the job, and a flagged pivot or a breakdown restarts it once with λr added or ends it; a CHOL that factors and a TRSV that solves stop with their result; a residual test that meets TOL stops the job with OK, one that does not, below the cap, lets it go on and may make the iterate the reserve, and the cap ends it; a job whose DEADLINE has passed stops as of its DEADLINE; a job without a vote that stops leaves its slot and writes its record. Beside its Grafter, a job that works changes only its region's cores and memory and its scratch area. (R213, R221, R222, R223, R224, R225, R226, R227, R228, R229, R232) -/
def Obligations.JobsIterate : Prop :=
  (∀ (s : State) (k i : Nat) (j : GJob), Place s k i → s.running k i gRoot = some j → s.overdue k j = false → j.tested = true →
    (let r := rootStep (gN j.desc) (gP j.desc) (gPcode j.desc) j.q j.lam j.x j.m
     (r.2.2 = (false, false) → Runs (.root k i) s fun t => Worked k i j.desc s t ∧ (∀ n, n ≠ i → t.job k n = s.job k n) ∧
       t.job k i = some { j with x := r.1, m := r.2.1, iter := j.iter + 1, tested := false, resid := r.2.1.resid }) ∧
     (r.2.2 ≠ (false, false) → Runs (.root k i) s fun t => Ranged k i j t))) ∧
  (∀ (s : State) (k i : Nat) (j : GJob), Place s k i → s.running k i gOrth = some j → j.tested = true →
    (let y := orthStep (min (gN j.desc) (gNc j.desc)) (max (gN j.desc) (gNc j.desc)) j.m j.x
     (y.2 = (false, false) → (gram y.1).2 = false → Runs (.orth k i) s fun t => Worked k i j.desc s t ∧
       t.job k i = some { j with x := y.1, m := (gram y.1).1, iter := j.iter + 1, tested := false, resid := (gram y.1).1.resid }) ∧
     (y.2 ≠ (false, false) ∨ (gram y.1).2 = true → gVote j.desc = false → Runs (.orth k i) s fun t => t.job k i = none))) ∧
  (∀ (s : State) (k i : Nat) (j : GJob), Place s k i → s.running k i gChol = some j → s.overdue k j = false →
    (∀ l, cholesky (gN j.desc) j.a j.q j.low = .ok l →
      (gVote j.desc = true → Runs (.chol k i) s fun t => Worked k i j.desc s t ∧
        ∃ j', t.job k i = some j' ∧ j'.done = true ∧ j'.result = some (0, l, Dy.zero) ∧ j'.rank = 2 ∧ j'.lstatus = St.OK) ∧
      (gVote j.desc = false → Runs (.chol k i) s fun t => t.job k i = none)) ∧
    (cholesky (gN j.desc) j.a j.q j.low = .pivot → j.reg = true → gVote j.desc = false → Runs (.chol k i) s fun t => t.job k i = none) ∧
    (cholesky (gN j.desc) j.a j.q j.low = .pivot → j.reg = true → gVote j.desc = true → Runs (.chol k i) s fun t =>
      ∃ j', t.job k i = some j' ∧ j'.done = true ∧ j'.rank = 0 ∧ j'.lstatus = St.PIVOT) ∧
    (cholesky (gN j.desc) j.a j.q j.low = .pivot → j.reg = false → Runs (.chol k i) s fun t => ∀ j', t.job k i = some j' → j'.reg = true) ∧
    (cholesky (gN j.desc) j.a j.q j.low = .range → Runs (.chol k i) s fun t => Ranged k i j t)) ∧
  (∀ (s : State) (k i : Nat) (j : GJob), Place s k i → s.running k i gTrsv = some j → s.hrv ≠ 2 →
    (Runs (.trsv k i) s fun t => (gVote j.desc = false → t.job k i = none) ∧ (gVote j.desc = true → ∃ j', t.job k i = some j' ∧ j'.done = true)) ∧
    (let diag := (List.range (gN j.desc)).map fun r => (j.raw.dy r r).abs
     let top := diag.foldl Dy.max Dy.zero
     let floor := (pow2 (-(gPfe j.desc : Int))).mul top
     (floor.le (diag.foldl Dy.min top) = false → Gives (.trsv k i) s ((s.grfWork k i j.desc).stopJob k i j St.PIVOT)) ∧
     (∀ vs : List (List Dy), floor.le (diag.foldl Dy.min top) = true → (j.bs.map fun b => trsv (gN j.desc) j.raw (gTrans j.desc) b) = vs.map Attempt.ok →
       Gives (.trsv k i) s ((s.grfWork k i j.desc).stopJob k i { j with xs := vs.map exactVec, result := some (0, ⟨[], 0⟩, Dy.zero) } St.OK)))) ∧
  (∀ (s : State) (k i : Nat) (j : GJob), Place s k i → s.running k i gCg = some j → j.tested = true →
    (let st := (List.zip j.xs (List.zip j.rs j.ps)).map fun e => cgStep ⟨j.a.rows, j.a.e⟩
        (((pow2 (-(gPfe j.desc : Int))).mul j.tsum).div (Dy.ofInt (gN j.desc))) e.1 e.2.1 e.2.2
     (st.all Option.isSome = true → Runs (.cg k i) s fun t => Worked k i j.desc s t ∧
       t.job k i = some { j with xs := (st.filterMap id).map (·.1), rs := (st.filterMap id).map (·.2.1), ps := (st.filterMap id).map (·.2.2), iter := j.iter + 1, tested := false }) ∧
     (st.all Option.isSome = false → j.reg = true → gVote j.desc = false → Runs (.cg k i) s fun t => t.job k i = none) ∧
     (st.all Option.isSome = false → j.reg = false → Runs (.cg k i) s fun t => ∀ j', t.job k i = some j' → j'.reg = true))) ∧
  (∀ (s : State) (k i : Nat) (j : GJob), Place s k i → s.job k i = some j → j.tested = false → j.done = false → s.computing = true →
    s.overdue k j = false → gType j.desc ≠ gCg →
    (j.resid.le (pow2 (-(gTole j.desc : Int))) = true → gVote j.desc = true → Runs (.grafterIterationComplete k i) s fun t => OnlyIn [.grafters] s t ∧
      ∃ j', t.job k i = some j' ∧ j'.done = true ∧ j'.rank = 2 ∧ j'.lstatus = St.OK ∧ j'.result = some (j.iter, j.answer, j.resid)) ∧
    (j.resid.le (pow2 (-(gTole j.desc : Int))) = true → gVote j.desc = false → Runs (.grafterIterationComplete k i) s fun t => t.job k i = none) ∧
    (j.resid.le (pow2 (-(gTole j.desc : Int))) = false → j.iter < gMaxit j.desc → Runs (.grafterIterationComplete k i) s fun t => OnlyIn [.grafters] s t ∧
      t.job k i = some { j with tested := true, reserve := if j.reserve.isNone = true ∧ j.resid.le (pow2 (-(gAtole j.desc : Int))) = true then some (j.iter, j.answer, j.resid) else j.reserve }) ∧
    (j.resid.le (pow2 (-(gTole j.desc : Int))) = false → gMaxit j.desc ≤ j.iter → gVote j.desc = true → Runs (.grafterIterationComplete k i) s fun t =>
      OnlyIn [.grafters] s t ∧ ∃ j', t.job k i = some j' ∧ j'.done = true ∧ j'.lstatus = St.CAP) ∧
    (j.resid.le (pow2 (-(gTole j.desc : Int))) = false → gMaxit j.desc ≤ j.iter → gVote j.desc = false → Runs (.grafterIterationComplete k i) s fun t =>
      t.job k i = none)) ∧
  (∀ (s : State) (k i : Nat) (j : GJob), Place s k i → s.job k i = some j → j.tested = false → j.done = false → s.computing = true →
    s.overdue k j = false → gType j.desc = gCg →
    (j.cgMet = false → j.iter < gMaxit j.desc → Gives (.grafterIterationComplete k i) s (s.setJob k i (some { j with tested := true }))) ∧
    (j.cgMet = true ∨ gMaxit j.desc ≤ j.iter → gVote j.desc = false → Runs (.grafterIterationComplete k i) s fun t => t.job k i = none)) ∧
  (∀ (s : State) (k i : Nat) (j : GJob) (c : Instr), Place s k i → s.job k i = some j → j.done = false → s.computing = true → s.overdue k j = true →
    (c = .root k i ∧ gType j.desc = gRoot) ∨ (c = .chol k i ∧ gType j.desc = gChol) ∨ (c = .grafterIterationComplete k i ∧ j.tested = false) →
    Runs c s fun t => OnlyIn [.grafters] s t ∧ ∃ j', t.job k i = some j' ∧ j'.done = true ∧ j'.tstop = gDeadline j.desc ∧
      j'.rank = (if j.result.isSome = true then 2 else if j.reserve.isSome = true then 1 else 0)) ∧
  (∀ (s : State) (k i : Nat) (j : GJob), Place s k i → s.job k i = some j → gVote j.desc = false → j.result = none → s.hrv ≠ 2 →
    ∃ v, v % 2 ^ 16 = St.ABORTED ∧ (s.stopJob k i j St.ABORTED).mem = (s.wr (gCdpa j.desc / 64 * 64) (toLe 64 v)).mem)

/-- The row at the front of the repair queue is repaired and counted, or its bank has no spare row left; an HBM patrol scrub of a good unit changes nothing but, at the end of a pass, its count, one that corrects is charged, and an uncorrectable unit is logged, and queues its row when its re-read fails too; a command whose reads of HBM meet errors counts or logs each, runs on the bits the reads return, and leaves transient errors' units as they were where it has not written them; a bad record of the Rain gauge's ring is kept as it reads; a tracked row whose day is over is dropped; the core buckets roll once a day, and a core still over the threshold is retired; the hourly path-delay readings reach the Rain gauge. (R169, R170, R172, R342, R344, R347, R350, R371) -/
def Obligations.MemoryIsMaintained : Prop :=
  (∀ (s : State) (row : Nat) (rest : List Nat), s.rel.repairQ = row :: rest →
    (Runs (.rowRepair true) s fun t => t.rel.repairQ = rest ∧ t.rel.fixed = s.rel.fixed ++ [row] ∧
      Sparse.get (fun _ => 0) t.rel.repairs (row % 16) = Sparse.get (fun _ => 0) s.rel.repairs (row % 16) + 1 ∧
      t.hf .TRL_HBMSTAT (row % 16) 18 8 = min (s.hf .TRL_HBMSTAT (row % 16) 18 8 + 1) 255 ∧ OnlyIn [.rel, .hub, .logs, .logLost, .msix, .gauge] s t) ∧
    (Runs (.rowRepair false) s fun t => t.rel.repairQ = rest ∧ t.rel.noSpare = s.rel.noSpare ++ [row] ∧ t.rel.repairs = s.rel.repairs ∧
      t.hf .TRL_HBMSTAT (row % 16) 17 1 = 1 ∧ OnlyIn [.rel, .hub, .logs, .logLost, .msix, .gauge] s t)) ∧
  (∀ (s : State) (u v : Nat), s.hf .TRL_SCRUB 0 8 1 = 1 → u < 0x400000000 →
    Gives (.hbmPatrolScrub u none false) s s ∧ Gives (.hbmPatrolScrub u (some (.corrected v)) false) s (s.hbmCe u) ∧
    (∀ e, e = none ∨ e = some (.corrected v) → Runs (.hbmPatrolScrub u e true) s fun t =>
      t.hf .TRL_SCRUB 0 16 16 = min (s.hf .TRL_SCRUB 0 16 16 + 1) 65535 ∧ t.mem = s.mem ∧ t.flaws = s.flaws) ∧
    (∀ m, Gives (.hbmPatrolScrub u (some (.uncorrectable v m false)) false) s ((s.hbmUe u).event St.HBM_UNCORRECTABLE 4 (s.stackOf (32 * u)) u) ∧
      (Runs (.hbmPatrolScrub u (some (.uncorrectable v m true)) false) s fun t => t.mem = strikeUnit s.mem u m ∧ t.flaws = s.flaws ∧
        rowKey (s.stackOf (32 * u)) u ∈ t.rel.repairQ ∧ t.hf .TRL_HBMSTAT (s.stackOf (32 * u)) 16 1 = 1) ∧
      (Runs (.hbmPatrolScrub u (some (.uncorrectable v m false)) true) s fun t => t.mem = s.mem ∧ t.flaws = s.flaws))) ∧
  (∀ (s : State) (u : Nat) (e : Option HbmErr) (last : Bool), s.hf .TRL_SCRUB 0 8 1 = 0 → Gives (.hbmPatrolScrub u e last) s s) ∧
  (∀ (s u : State) (es : List HbmErr) (c : List HbmErr → Instr), es ≠ [] →
    (c ∈ [Instr.factorExchange, .grafterJobStart 0, .workingCopyAudit, .recoverySweep, .reduceScatterLayer, .gather, .shardPermuteRun, .copySram, .layerWrite,
        .factorWrite, .jobStart, .v1Send, .fwStage, .v1FwUpdate] ∨
      (∃ k, c = .grafterJobStart k) ∨ (∃ i, c = .sweepRecord i) ∨ (∃ p lseq f, c = .collFrame p lseq f) ∨ ∃ a b d e, c = .factorFoldTile a b d e) →
    Gives (c []) (es.foldl State.hbmMeets s) u → Gives (c es) s { u with mem := healUnits es (es.foldl State.hbmMeets s).mem u.mem }) ∧
  (∀ (s : State) (slot r : Nat) (bs : List Byte), r < 128 → bs.length = 64 → recordOk bs = false → (s.gauge.slot (slot % 8192)).length = 8192 →
    Runs (.mramPatrolScrub slot r (some bs)) s fun t => ((t.gauge.slot (slot % 8192)).drop (64 * r)).take 64 = bs ∧
      OnlyIn [.gauge, .hub, .logs, .logLost, .msix] s t) ∧
  (∀ (s : State) (slot r : Nat), Gives (.mramPatrolScrub slot r none) s s) ∧
  (∀ (s : State) (slot r : Nat) (bs : List Byte), 128 ≤ r ∨ recordOk bs = true ∨ bs.length ≠ 64 → Gives (.mramPatrolScrub slot r (some bs)) s s) ∧
  (∀ (s : State) (k row : Nat), Runs (.rowErrorWindowExpire k row) s fun t => OnlyIn [.rel] s t ∧ (∀ j, j ≠ k → t.tracker j = s.tracker j) ∧
    ∀ x, x ∈ t.tracker k ↔ x ∈ s.tracker k ∧ ¬(x.row = row ∧ x.live s.sundial = false)) ∧
  (∀ s : State, s.rel.bucketDue ≤ s.sundial →
    let b := (s.rel.buckets.map fun e => (e.1, (0 :: e.2).take 3)).filter fun e => decide (sumNat e.2 ≠ 0)
    Gives .eccBucketRoll s (b.foldl (fun (t : State) e => if 4 ≤ t.coreCount e.1 then t.retireCore e.1 else t)
      { s with rel := { s.rel with buckets := b, bucketDue := s.rel.bucketDue + dayTicks } })) ∧
  (∀ s : State, s.rel.bucketDue ≤ s.sundial → Runs .eccBucketRoll s fun t => t.rel.bucketDue = s.rel.bucketDue + dayTicks ∧
    (s.rel.buckets = [] → t.rel.buckets = [] ∧ OnlyIn [.rel] s t)) ∧
  (∀ (s : State) (slack : List Nat), s.rel.monitorDue ≤ s.sundial →
    Gives (.monitorReading slack) s ((List.range 8).foldl (fun (t : State) d => t.sample (53 + d) (slack.getD d 0) 1 d)
      { s with rel := { s.rel with monitorDue := s.rel.monitorDue + 900000000000 } }) ∧
    Runs (.monitorReading slack) s fun t =>
    t.rel = { s.rel with monitorDue := s.rel.monitorDue + 900000000000 } ∧ OnlyIn [.rel, .gauge] s t)

/-- At action 2 a retired core moves to the spare of its cluster that is free: the spare map names it, the registers R345 lists keep their values and the core is no longer waiting, and waiting divider changes are made; a margin re-plan ends its ticket with OK, or with MARGIN_EXHAUSTED when a die is exhausted by it, and one with nothing below the target keeps every plan; a self-test with no job ends with what its units show, one during a job becomes a rolling test that takes one slice at each boundary. (R331, R345, R347, R348, R349, R351, R352) -/
def Obligations.CoresAreSparedAndTested : Prop :=
  (∀ (s : State) (gi j : Nat) (m : Margin), s.atAction 2 = true → s.swaps = [gi] → s.spareOf (coreCi gi) = some j → s.rel.divider = [] →
    s.frozen (cluKey (coreCi gi) .CLU_SPMAP 0) = false → Runs (.spareCoreSwap [] m) s fun t =>
      bits (t.spmap (coreCi gi)) (8 * j) 8 = coreK gi + 64 ∧ gi ∉ t.rel.retire ∧ t.step.phase = .boundary 3 ∧
        (∀ r ∈ swapRegs, ∀ i, i < r.info.count → rg (t.core gi).regs r i = rg (s.core gi).regs r i) ∧ (∀ gj, gj ≠ gi → t.core gj = s.core gj) ∧ t.mem = s.mem) ∧
  (∀ (s : State) (ups : List Upset) (m : Margin), s.atAction 2 = true →
    Gives (.spareCoreSwap ups m) s (((s.swaps.foldl State.swapCore (s.strikes ups)).divide m).afterAction 2)) ∧
  (∀ (s : State) (n : Nat) (c : Cmd) (m : Margin), Waits s 0xD053 c → Tickets s 0xD053 n → Runs (.marginReplan m) s fun t =>
    Ended s t c n (if ((List.range 8).any fun d => decide (s.hf .PWR_MPLAN d 5 1 < t.hf .PWR_MPLAN d 5 1)) = true then St.MARGIN_EXHAUSTED else St.OK) ∧
      (∃ u st, OnlyIn [.mb, .msix, .gauge] s u ∧ t = (u.replan m).endTicket n st) ∧
      (m.reads = [] → ∀ d, d < 8 → t.hf .PWR_MPLAN d 0 6 = s.hf .PWR_MPLAN d 0 6)) ∧
  (∀ (s : State) (m : Margin), s.rel.replanDue ≤ s.sundial → 
    Gives (.marginReplanDaily m) s ({ s with rel := { s.rel with replanDue := s.rel.replanDue + dayTicks } }.replan m) ∧ Runs (.marginReplanDaily m) s fun t =>
    t.rel.replanDue = s.rel.replanDue + dayTicks ∧ (m.reads = [] → ∀ d, d < 8 → t.hf .PWR_MPLAN d 0 6 = s.hf .PWR_MPLAN d 0 6)) ∧
  (∀ (s : State) (n : Nat) (c : Cmd) (fails : List TestUnit), Waits s 0xD052 c → Tickets s 0xD052 n → c.field 0 1 < 32 → c.field 1 1 < 2 →
    c.field 8 8 % 4096 = 0 → s.rel.bist = none →
    (s.step.job = false → Runs (.selftest fails) s fun t => Ended s t c n (if fails.any (covers (c.field 0 1)) = true then St.BIST_FAIL else St.OK) ∧
      ∃ u, OnlyIn [.mb, .msix, .gauge] s u ∧ t = ((if c.field 0 1 % 4 = 0 then u else u.saved (c.field 8 8)).testAll (c.field 0 1) fails).finish n c (c.field 16 8)
        (if fails.any (covers (c.field 0 1)) = true then St.BIST_FAIL else St.OK) 0) ∧
    (s.step.job = true → c.field 0 1 < 8 → c.field 1 1 = 1 → Runs (.selftest fails) s fun t => Opened s t c n ∧
      t.rel.bist = some ⟨n, 0, [], 0, c.field 0 1, c.field 8 8, c.field 16 8, false⟩ ∧ OnlyIn [.rel, .mb, .msix, .gauge] s t) ∧
    (s.step.job = true → c.field 1 1 = 0 → Runs (.selftest fails) s fun t => Answered s t c St.BUSY_JOB [] ∧ t.rel = s.rel)) ∧
  (∀ (s : State) (b : Bist) (extra : Nat) (fails : List TestUnit), s.rel.bist = some b → s.atAction 4 = true →
    (let mine := if b.slice < 64 then (List.range 80).map fun i => b.slice + 64 * i else []
     let busy := mine.filter fun ci => s.regionBusy ci
     let late := (b.deferred.filter fun ci => !s.regionBusy ci).take extra
     let now := (mine.filter fun ci => !busy.contains ci) ++ late
     let found := fails.filter fun u => covers b.set u && now.contains u.cluster
     let r := found.foldl (fun (a : Bool × State) u => (a.1 || (a.2.bistUnit u).1, (a.2.bistUnit u).2)) (b.failed, s.saved b.save)
     Runs (.rollingBistSlice extra fails) s fun t => t.step.phase = .boundary 5 ∧
      (b.tested + now.length < nClusters → t.cores = r.2.cores ∧ t.clusters = r.2.clusters ∧ t.mem = r.2.mem ∧
        t.rel = { r.2.rel with bist := some { b with slice := b.slice + 1, deferred := b.deferred.filter (fun ci => !late.contains ci) ++ busy, failed := r.1, tested := b.tested + now.length } }) ∧
      (nClusters ≤ b.tested + now.length → t.rel.bist = none))) ∧
  (∀ (s : State) (b : Bist), s.rel.bist = some b → s.atAction 4 = true → b.slice < 64 → b.deferred = [] → (∀ ci, s.regionBusy ci = false) →
    b.tested + 80 < nClusters → Runs (.rollingBistSlice 0 []) s fun t =>
      t.rel.bist = some { b with slice := b.slice + 1, tested := b.tested + 80 } ∧ t.step.phase = .boundary 5 ∧ t.cores = s.cores) ∧
  (∀ (s : State) (b : Bist), s.rel.bist = some b → s.atAction 4 = true → b.slice = 63 → b.deferred = [] → (∀ ci, s.regionBusy ci = false) →
    b.tested + 80 = nClusters → b.failed = false → b.ticket < 8 → s.mb.tickets.length = 8 → (s.ticket b.ticket).active = true → (s.ticket b.ticket).done = false →
    s.hrv ≠ 2 → Runs (.rollingBistSlice 0 []) s fun t => t.rel.bist = none ∧ t.step.phase = .boundary 5 ∧
      t.ticket b.ticket = { s.ticket b.ticket with done := true, status := St.OK, progress := 100 })

/-- While the 48 V input is present, each of these reads completes with the data the table of R427 gives and changes nothing but the endpoint's answer. While the 48 V input is present, a sensor read completes with two bytes; the reading is open, and a sensor in a domain that is off reads zero. With the 48 V input present and PEC right, an identify write, a power cap of 1,200 to 13,500 W, an arming and an armed fire complete; the cap lands in PWR_CAP unless the register is frozen, a cap written during a clock loss is held and applied when the clock is back, and a fire requests WARM reach as source 7 (R376), which a clock loss loses. (R374, R401, R425, R427, R428, R431) -/
def Obligations.FacilityMessages : Prop :=
  (∀ s : State, s.facUp = true →
    Gives .capability s { s with fac := { s.fac with reply := some [0xB0#8] } } ∧
    (∀ uv, Gives (.statusWord uv) s { s with fac := { s.fac with reply := some (toLe 2 (s.statusWord uv)) } }) ∧
    Gives .mfrSerial s { s with fac := { s.fac with reply := some (toLe 8 (Config.serial % 2 ^ 64)) } } ∧
    Gives .mfrPowerState s { s with fac := { s.fac with reply := some (toLe 1 (s.hf .PWR_STATE 0 0 3)) } } ∧
    Gives .mfrRgaSummary s { s with fac := { s.fac with reply := some s.fac.summary } } ∧
    (∀ pec, Gives (.mfrPowerCap none pec) s { s with fac := { s.fac with reply := some (toLe 2 (s.hf .PWR_CAP 0 0 14)) } }) ∧
    Gives (.mfrIdentify none) s { s with fac := { s.fac with reply := some (toLe 1 (b2n s.fac.identify)) } }) ∧
  (∀ s : State, s.facUp = true →
    (∀ i k, (i, k) ∈ [(Instr.readVin, 25), (.readIin, 26), (.readPin, 27)] →
      Gives i s { s with fresh := s.fresh + 1, fac := { s.fac with reply := some (toLe 2 (Config.linear11 (Config.sensor s.fresh k))) } }) ∧
    (∀ i k, (i, k) ∈ [(Instr.readTemperature1, 28), (.readTemperature2, 56), (.readTemperature3, 29), (.mfrCoolantFlow, 30)] →
      (s.hf .PWR_STATE 0 0 3 ≠ 4 →
        Gives i s { s with fresh := s.fresh + 1, fac := { s.fac with reply := some (toLe 2 (Config.linear11 (Config.sensor s.fresh k))) } }) ∧
      (s.hf .PWR_STATE 0 0 3 = 4 → Gives i s { s with fac := { s.fac with reply := some (toLe 2 0) } }))) ∧
  (∀ (s : State) (v : Nat), s.facUp = true → v ≤ 1 →
    Gives (.mfrIdentify (some v)) s { s with fac := { s.fac with identify := v == 1, reply := some [] } }) ∧
  (∀ (s : State) (w : Nat), s.facUp = true → 1200 ≤ w → w ≤ 13500 → s.rst.refLost = false → s.frozen (hubKey .PWR_CAP 0) = false →
    Runs (.mfrPowerCap (some w) true) s fun t => t.hf .PWR_CAP 0 0 14 = w ∧ t.fac.reply = some [] ∧ t.fac.held = none) ∧
  (∀ (s : State) (w : Nat), s.facUp = true → 1200 ≤ w → w ≤ 13500 → s.rst.refLost = true →
    Gives (.mfrPowerCap (some w) true) s { s with fac := { s.fac with held := some w, reply := some [] } }) ∧
  (∀ (s : State) (w : Nat), s.fac.held = some w → 1200 ≤ w → w ≤ 13500 → s.rst.refLost = false → s.frozen (hubKey .PWR_CAP 0) = false →
    Runs .facCapHeldApply s fun t => t.hf .PWR_CAP 0 0 14 = w ∧ t.fac.held = none) ∧
  (∀ s : State, s.facUp = true →
    Runs (.mfrEmergArm 0xA5 true) s fun t => t.fac.armed = some s.sundial ∧ t.hf .FAC_STAT 0 6 1 = 1 ∧ t.fac.reply = some []) ∧
  (∀ (s : State) (n : Nat), s.facUp = true → s.fac.armed = some n → s.sundial < n + 25000000 → s.rst.refLost = false →
    Runs (.mfrEmergReset 0x5A true) s fun t => t.fac.armed = none ∧ 7 ∈ t.rst.accepted ∧ (∃ r, t.rst.reach = some r ∧ 4 ≤ r)) ∧
  (∀ (s : State) (n : Nat), s.facUp = true → s.fac.armed = some n → s.sundial < n + 25000000 →
    (s.rst.refLost = true → Runs (.mfrEmergReset 0x5A true) s fun t => t.fac.armed = none ∧ t.hf .FAC_STAT 0 6 1 = 0 ∧ t.rst = s.rst ∧ OnlyIn [.hub, .fac] s t) ∧
    (s.rst.refLost = false → Gives (.mfrEmergReset 0x5A true) s
      ((({ (s.setHf .FAC_STAT 0 6 1 0) with fac := { s.fac with armed := none, reply := some [] } } : State).setHf .FAC_STAT 0 4 1 1).request 7 4 [] [] [] [])))

/-- An unsupported code, a value out of range, or a write that needs PEC and lacks it, sets CML and is not acknowledged; a wrong message of the arming sequence disarms too; without the 48 V input nothing is acknowledged and nothing else changes. FAC_EMERG_OFF takes the module to OFF and holds source 7, with WARM reach, until it deasserts; a coolant fault forces level 15 on every die until the coolant is restored, and after CGRACE seconds begins the way to DARK where COOLACT asks for it; an arming expires after 100 ms; CLEAR_FAULTS leaves the latched bits whose condition is present; the alert response carries the endpoint's address. (R425, R427, R428, R429, R430, R431) -/
def Obligations.FacilityRefusesAndFaults : Prop :=
  (∀ (s : State) (code : Nat), s.facUp = true → code ∉ [0x03, 0x19, 0x79, 0x88, 0x89, 0x97, 0x8D, 0x8E, 0x8F, 0x9E, 0xD0, 0xD1, 0xD2, 0xD3, 0xD4, 0xD5, 0xD6] →
    ∀ b, Runs (.pmbusUnsupportedCode code b) s fun t => t.hf .FAC_STAT 0 3 1 = 1 ∧ t.fac.reply = none ∧ OnlyIn [.hub, .fac] s t) ∧
  (∀ (s : State) (code : Nat), s.facUp = true → code ∈ [0x03, 0xD1, 0xD4, 0xD5] →
    Gives (.pmbusUnsupportedCode code false) s s ∧
    Runs (.pmbusUnsupportedCode code true) s fun t => t.hf .FAC_STAT 0 3 1 = 1 ∧ t.fac.reply = none ∧ OnlyIn [.hub, .fac] s t) ∧
  (∀ (s : State) (v : Nat) (i : Instr), s.facUp = true →
    i ∈ [Instr.clearFaults false, .mfrPowerCap (some v) false, .mfrEmergArm v false, .mfrEmergReset v false] ∨ (i = .mfrPowerCap (some v) true ∧ (v < 1200 ∨ 13500 < v)) ∨
      (i = .mfrIdentify (some v) ∧ 1 < v) →
    Runs i s fun t => t.hf .FAC_STAT 0 3 1 = 1 ∧ t.fac.reply = none ∧ t.fac.armed = s.fac.armed ∧ OnlyIn [.hub, .fac] s t) ∧
  (∀ (s : State) (v : Nat) (i : Instr), s.facUp = true → (i = .mfrEmergArm v true ∧ v ≠ 0xA5) ∨ (i = .mfrEmergReset v true ∧ v ≠ 0x5A) →
    Runs i s fun t => t.fac.armed = none ∧ t.hf .FAC_STAT 0 6 1 = 0 ∧ t.hf .FAC_STAT 0 3 1 = 1 ∧ t.fac.reply = none ∧ OnlyIn [.hub, .fac] s t) ∧
  (∀ s : State, s.facUp = true → s.isArmed = false →
    Runs (.mfrEmergReset 0x5A true) s fun t => t.fac.armed = none ∧ t.rst = s.rst ∧ OnlyIn [.hub, .fac] s t) ∧
  (∀ (s : State) (i : Instr) (b : Bool) (v : Nat) (o : Option Nat), s.facUp = false →
    i ∈ [Instr.capability, .statusWord b, .mfrSerial, .mfrPowerState, .readVin, .readIin, .readPin, .readTemperature1, .readTemperature2, .readTemperature3,
      .mfrCoolantFlow, .mfrRgaSummary, .clearFaults b, .mfrEmergArm v b, .mfrEmergReset v b, .mfrPowerCap o b, .mfrIdentify o, .pmbusUnsupportedCode v b] →
    Gives i s { s with fac := { s.fac with reply := none } }) ∧
  (∀ s : State, s.facUp = true → s.hf .FAC_STAT 0 8 1 = 0 →
    Gives .facEmergOffAssert s ((((s.enterOff.setHf .FAC_STAT 0 8 1 1).setHf .FAC_STAT 0 4 1 1).hold_ 7).request 7 4 [] [] [] [])) ∧
  (∀ s : State, s.facUp = true → s.hf .FAC_STAT 0 8 1 = 0 → s.rst.refLost = false →
    Runs .facEmergOffAssert s fun t => 7 ∈ t.rst.asserted ∧ 7 ∈ t.rst.accepted ∧ (∃ r, t.rst.reach = some r ∧ 4 ≤ r)) ∧
  (∀ s : State, s.hf .FAC_STAT 0 8 1 = 1 →
    Runs .facEmergOffDeassert s fun t => t.hf .FAC_STAT 0 8 1 = 0 ∧ 7 ∉ t.rst.asserted ∧ OnlyIn [.hub, .rst] s t) ∧
  (∀ s : State, s.facUp = true → s.hf .FAC_STAT 0 7 1 = 1 →
    Runs .coolantFault s fun t => t.pwr.coolForce = true ∧ t.hf .FAC_STAT 0 7 1 = 0 ∧ t.hf .FAC_STAT 0 2 1 = 1 ∧ t.fac.coolTick = some s.sundial ∧
      ∀ d, d < 8 → t.hf .PWR_THR d 8 4 = 15) ∧
  (∀ s : State, s.facUp = true → s.hf .FAC_STAT 0 7 1 = 0 →
    Runs .coolantRestored s fun t => t.pwr.coolForce = false ∧ t.hf .FAC_STAT 0 7 1 = 1 ∧ t.fac.coolTick = none ∧
      ∀ d, d < 8 → t.hf .PWR_THR d 8 4 = max (s.hf .PWR_THR d 0 4) (s.hf .PWR_THR d 4 4)) ∧
  (∀ (s : State) (n : Nat), s.fac.coolTick = some n → n + 250000000 * s.hf .FAC_CFG 0 0 8 ≤ s.sundial →
    (let t : State := { s with fac := { s.fac with coolTick := none } }
     (s.hf .FAC_CFG 0 8 1 = 0 → Gives .coolantGraceExpire s t) ∧
     (s.hf .FAC_CFG 0 8 1 = 1 → Gives .coolantGraceExpire s t.goDark) ∧
     (s.hf .FAC_CFG 0 8 1 = 1 → s.powerState < 3 → s.hf .PWR_STATE 0 6 2 = 0 → s.step.job = false → s.hrv = 0 → Runs .coolantGraceExpire s fun t =>
       t.hf .PWR_STATE 0 3 3 = 3 ∧ t.hf .PWR_STATE 0 6 1 = 1))) ∧
  (∀ (s : State) (n : Nat), s.fac.armed = some n → n + 25000000 ≤ s.sundial →
    Runs .emergArmExpire s fun t => t.fac.armed = none ∧ t.hf .FAC_STAT 0 6 1 = 0 ∧ OnlyIn [.hub, .fac] s t) ∧
  (∀ s : State, s.facUp = true → Runs (.clearFaults true) s fun t =>
    t.hf .FAC_STAT 0 1 5 = b2n s.rst.refLost + 2 * b2n s.pwr.coolForce + 8 * s.hf .FAC_STAT 0 8 1 ∧ t.fac.reply = some [] ∧ OnlyIn [.hub, .fac] s t) ∧
  (∀ s : State, s.alerting = true →
    Gives .alertResponse s { s with fac := { s.fac with reply := some (toLe 1 (0x40 + s.hf .FAC_STAT 0 9 3)) } }) ∧
  (∀ s : State, s.alerting = false → Gives .alertResponse s { s with fac := { s.fac with reply := none } })

/-- DEBUG_CHALLENGE answers 16 bytes of the random source (a free draw), and TAP_CHALLENGE shifts them out; they replace whatever nonce there was, whichever path issued it. A verification, good or bad and from either path, leaves no nonce, and a token presented when there is none is never good. A nonce of 15,000,000,000 ticks (60 s) or more is refused as stale, and NONCE_EXPIRE removes it. A reset of WARM reach or wider leaves none. (R414) -/
def Obligations.NoncesAreFreshAndSpent : Prop :=
  (∀ (s : State) (c : Cmd), Waits s 0xD080 c → s.resourceBusy 0xD080 = false → Runs .debugChallenge s fun t =>
    let n := toLe 16 (s.draw 128).1
    n.length = 16 ∧ Answered s t c St.OK n ∧ t.sec.nonce = some (n, s.sundial) ∧ t.fresh = s.fresh + 1 ∧ t.hf .DBG_STAT 0 4 1 = 1) ∧
  (∀ s : State, s.mailboxUp = true → Runs .tapChallenge s fun t =>
    let n := toLe 16 (s.draw 128).1
    n.length = 16 ∧ t.sec.tap = n ∧ t.sec.nonce = some (n, s.sundial) ∧ t.fresh = s.fresh + 1 ∧ t.hf .DBG_STAT 0 4 1 = 1) ∧
  (∀ (s : State) (c : Cmd) (i : Instr) (levels : List Nat), (i, levels) ∈ [(Instr.debugUnlock, [1, 2]), (.toDebugUnlocked, [3]), (.toReturned, [5])] →
    Waits s 0xD081 c → s.resourceBusy 0xD081 = false → c.field 0 1 ∈ levels → c.body.length = 221 → s.lcs = 1 → s.level = 0 →
    Runs i s fun t => t.sec.nonce = none) ∧
  (∀ (s : State) (l : Nat) (tok : List Byte), s.mailboxUp = true → l = 1 ∨ l = 2 → tok.length = 220 → s.lcs = 1 → s.level = 0 →
    Runs (.tapUnlock l tok) s fun t => t.sec.nonce = none) ∧
  (∀ (s : State) (c : Cmd) (n : List Byte) (at_ : Nat), Waits s 0xD081 c → s.resourceBusy 0xD081 = false → c.field 0 1 = 1 → c.body.length = 221 → s.lcs = 1 → s.level = 0 →
    leNat ((c.body.drop 1).take 2) = 1 → leNat ((c.body.drop 3).take 6) = 0 →
    s.sec.nonce = none ∨ (s.sec.nonce = some (n, at_) ∧ (n ≠ (c.body.drop 73).take 16 ∨ at_ + 15000000000 ≤ s.sundial)) →
    Runs .debugUnlock s fun t => Answered s t c St.NONCE_STALE [] ∧ t.level = 0) ∧
  (∀ (s : State) (n : List Byte) (at_ : Nat), s.sec.nonce = some (n, at_) →
    (at_ + 15000000000 ≤ s.sundial → Runs .nonceExpire s fun t => t.sec.nonce = none ∧ t.hf .DBG_STAT 0 4 1 = 0 ∧ OnlyIn [.sec, .hub] s t) ∧
    (s.sundial < at_ + 15000000000 → Gives .nonceExpire s s)) ∧
  (∀ (s : State) (cut : List Endpoint) (r i : Nat), s.rst.grant = some (r, i) → 4 ≤ r → s.rst.refLost = false → s.rst.reach = none →
    Runs (.resetRequest cut) s fun t => t.sec.nonce = none ∧ t.hf .DBG_STAT 0 4 1 = 0)

/-- DEBUG_UNLOCK and TAP_UNLOCK at level 1 or 2 open a session outside SECURED whatever the token, and in SECURED exactly when the token is good; a refusal's status is answered or shifted out and the level stays. INVASIVE sets TAINT and logs DEBUG_ENTERED. A second session is DEBUG_DENIED but for the raise from 1 to 2; no token is ROLE_DENIED; another level is INVALID_PAYLOAD. DEBUG_END and TAP_END end the session from either path and resume every debug-halted core. IDCODE and BYPASS always answer; SAMPLE_PRELOAD and EXTEST only at their levels. That a session opened in DARK is suspended is the model's reading of R424 (DEDUCED). (R403, R413, R415, R417, R418, R419, R424) -/
def Obligations.DebugSessionsOpenAndEnd : Prop :=
  (∀ (s : State) (c : Cmd), Waits s 0xD081 c → s.resourceBusy 0xD081 = false →
    (c.field 0 1 < 3 ∨ 5 < c.field 0 1) → 1 < c.body.length →
    (c.field 0 1 ≠ 1 → c.field 0 1 ≠ 2 → Runs .debugUnlock s fun t => Answered s t c St.INVALID_PAYLOAD [] ∧ t.level = s.level) ∧
    (c.field 0 1 = 1 ∨ c.field 0 1 = 2 → s.level = 0 → (s.lcs ≠ 1 ∨ s.tokenBad (c.field 0 1) (c.body.drop 1) = none) →
      Runs .debugUnlock s fun t => Answered s t c St.OK [] ∧ t.level = c.field 0 1 ∧ t.hf .DBG_STAT 0 2 1 = (if s.powerState = 3 then 1 else 0) ∧
        t.hf .DBG_STAT 0 3 1 = 0 ∧ (c.field 0 1 = 2 → t.hf .SEC_STAT 0 2 1 = 1)) ∧
    (∀ st, c.field 0 1 = 1 ∨ c.field 0 1 = 2 → s.level = 0 → s.lcs = 1 → s.tokenBad (c.field 0 1) (c.body.drop 1) = some st →
      Runs .debugUnlock s fun t => Answered s t c st [] ∧ t.level = 0 ∧ t.sec.nonce = none) ∧
    (c.field 0 1 = 2 → s.level = 1 → s.hf .DBG_STAT 0 2 1 = 0 → s.lcs ≠ 1 →
      Runs .debugUnlock s fun t => Answered s t c St.OK [] ∧ t.level = 2 ∧ t.hf .DBG_STAT 0 3 1 = s.hf .DBG_STAT 0 3 1 ∧ t.hf .SEC_STAT 0 2 1 = 1) ∧
    (c.field 0 1 = 1 → s.level ≠ 0 → Runs .debugUnlock s fun t => Answered s t c St.DEBUG_DENIED [] ∧ t.level = s.level)) ∧
  (∀ (s : State) (c : Cmd), Waits s 0xD081 c → s.resourceBusy 0xD081 = false → c.field 0 1 < 3 → c.body.length ≤ 1 →
    Runs .debugUnlock s fun t => Answered s t c St.ROLE_DENIED [] ∧ t.level = s.level) ∧
  (∀ (s : State) (c : Cmd), Waits s 0xD083 c → s.resourceBusy 0xD083 = false → Runs .debugEnd s fun t =>
    Answered s t c St.OK [] ∧ t.level = 0 ∧ t.hf .DBG_STAT 0 2 1 = 0 ∧ (∀ gi, t.core gi = (s.core gi).debugResume) ∧ OnlyIn [.mb, .msix, .gauge, .cores, .hub] s t) ∧
  (∀ (s : State) (l : Nat) (tok : List Byte), s.mailboxUp = true → l = 1 ∨ l = 2 → tok ≠ [] → s.level = 0 →
    (s.lcs ≠ 1 ∨ s.tokenBad l tok = none → Runs (.tapUnlock l tok) s fun t =>
      t.sec.tap = toLe 2 St.OK ∧ t.sec.extest = false ∧ t.level = l ∧ t.hf .DBG_STAT 0 3 1 = 1) ∧
    (∀ st, s.lcs = 1 → s.tokenBad l tok = some st → Runs (.tapUnlock l tok) s fun t => t.sec.tap = toLe 2 st ∧ t.level = 0)) ∧
  (∀ s : State, Runs .tapEnd s fun t => t.level = 0 ∧ t.sec.tap = [] ∧ t.sec.extest = false ∧ (∀ gi, t.core gi = (s.core gi).debugResume) ∧ OnlyIn [.cores, .hub, .sec] s t) ∧
  (∀ s : State, Gives .idcode s { s with sec := { s.sec with extest := false, tap := toLe 4 Config.idcode.toNat } }) ∧
  (∀ (s : State) (tdi : List Byte), Runs (.bypass tdi) s fun t => t.sec.tap.length = tdi.length ∧ leNat t.sec.tap = 2 * leNat tdi % 2 ^ (8 * tdi.length) ∧ OnlyIn [.sec] s t) ∧
  (∀ (s : State) (pins next_ : List Byte),
    (1 ≤ s.level → Gives (.samplePreload pins next_) s { s with sec := { s.sec with extest := false, tap := pins, cells := next_ } }) ∧
    (s.level = 0 → Gives (.samplePreload pins next_) s s) ∧
    (s.level = 2 → Gives (.extest pins next_) s { s with sec := { s.sec with extest := true, tap := pins, cells := next_ } }) ∧
    (s.level ≠ 2 → Gives (.extest pins next_) s s))

/-- From a listed state, a lifecycle level with a good token takes effect at once and ends any session; from any other it is LIFECYCLE_DENIED, with a bad token the token's status, with none ROLE_DENIED. RETURNED zeroes the group key, the Cold frame and BKP00-15 and asks for a WARM reset. A write of SEC_PROV.GO in BLANK with a key staged and no job fuses the key and SECURED; outside BLANK LIFECYCLE_DENIED is raised. FW_STAGE verifies its copy and holds it only when good; FW_COMMIT writes the staged image and is INVALID_PAYLOAD with none; V1_FW_UPDATE does both; in recovery a good image is programmed and a WARM reset asked for, and a bad one leaves no good image. In each, a good image or token is one for which imageBad or tokenBad is none. (R337, R382, R406, R408, R409, R410, R411, R412, R415) -/
def Obligations.LifecycleAndFirmware : Prop :=
  (∀ (s : State) (c : Cmd) (i : Instr) (l : Nat) (from_ : List Nat), (i, l, from_) ∈ [(Instr.toDebugUnlocked, 3, [1]), (.toSecured, 4, [2]), (.toReturned, 5, [1, 2])] →
    Waits s 0xD081 c → s.resourceBusy 0xD081 = false → c.field 0 1 = l →
    (c.body.length ≤ 1 → Runs i s fun t => Answered s t c St.ROLE_DENIED [] ∧ t.sec = s.sec) ∧
    (1 < c.body.length → s.lcs ∉ from_ → Runs i s fun t => Answered s t c St.LIFECYCLE_DENIED [] ∧ t.sec = s.sec) ∧
    (∀ st, 1 < c.body.length → s.lcs ∈ from_ → s.tokenBad l (c.body.drop 1) = some st → Runs i s fun t =>
      Answered s t c st [] ∧ t.sec = { s.sec with nonce := none } ∧ t.lcs = s.lcs) ∧
    (1 < c.body.length → s.lcs ∈ from_ → s.tokenBad l (c.body.drop 1) = none → s.frozen (hubKey .SEC_LCDBG 0) = false → Runs i s fun t =>
      Answered s t c St.OK [] ∧ t.level = 0 ∧ (∀ gi, t.core gi = (s.core gi).debugResume) ∧ t.lcs = (if l = 3 then 2 else if l = 4 then 1 else 3) ∧
        (l = 5 → t.rst.cold = [] ∧ t.rst.grant = some (4, 0) ∧ (∀ k, k < 16 → t.h .RST_BKP k = 0) ∧
          ((∀ k, k < 33 → s.frozen (hubKey .SEC_GKEY k) = false) → ∀ k, k < 33 → t.h .SEC_GKEY k = 0)))) ∧
  (∀ s : State, (s.lcs = 0 ∧ leNat s.stagedKey ≠ 0 ∧ s.step.job = false → Runs .provision s fun t =>
      t.sec = { s.sec with fuse := 1, skey := s.stagedKey } ∧ t.level = 0 ∧ OnlyIn [.sec, .hub, .cores] s t) ∧
    (s.lcs = 0 ∧ leNat s.stagedKey ≠ 0 ∧ s.step.job = true → Gives .provision s s) ∧
    (s.lcs ≠ 0 ∨ leNat s.stagedKey = 0 → Runs .provision s fun t => t.sec = s.sec ∧ t.lcs = s.lcs ∧ OnlyIn [.logs, .logLost, .msix, .gauge, .hub] s t)) ∧
  (∀ (s : State) (c : Cmd) (n : Nat), s.recovering = false → Waits s 0xD070 c → Tickets s 0xD070 n → c.field 8 4 ≤ 2 ^ 28 → s.step.job = false → Runs (.fwStage []) s fun t =>
    let img := s.rd (c.field 0 8) (c.field 8 4)
    (s.imageBad img = none → Ended s t c n St.OK ∧ t.sec = { s.sec with staged := some (img.take (leNat ((img.drop 4).take 4))) }) ∧
    (∀ st, s.imageBad img = some st → Ended s t c n st ∧ t.sec = { s.sec with staged := none })) ∧
  (∀ (s : State) (c : Cmd), s.recovering = false → Waits s 0xD070 c → c.field 8 4 ≤ 2 ^ 28 → s.step.job = true → Runs (.fwStage []) s fun t =>
    Answered s t c St.BUSY_JOB [] ∧ t.sec = s.sec ∧ t.mem = s.mem) ∧
  (∀ (s : State) (c : Cmd) (n : Nat), Waits s 0xD071 c → Tickets s 0xD071 n →
    (∀ img, s.sec.staged = some img → Runs .fwCommit s fun t =>
      Ended s t c n St.OK ∧ t.sec = { s.sec with flash := .image img, staged := none } ∧ OnlyIn [.mb, .msix, .gauge, .sec] s t) ∧
    (s.sec.staged = none → Runs .fwCommit s fun t => Answered s t c St.INVALID_PAYLOAD [] ∧ t.sec = s.sec)) ∧
  (∀ (s : State) (c : Cmd), Waits s 0xC005 c → s.resourceBusy 0xC005 = false → 12 ≤ c.body.length → c.field 8 4 ≤ 2 ^ 28 →
    (s.step.job = true → Runs (.v1FwUpdate []) s fun t => Answered s t c St.BUSY_JOB [] ∧ t.sec = s.sec) ∧
    (s.step.job = false → Runs (.v1FwUpdate []) s fun t =>
      let img := s.rd (c.field 0 8) (c.field 8 4)
      (s.imageBad img = none → Answered s t c St.OK [] ∧ t.sec = { s.sec with flash := .image (img.take (leNat ((img.drop 4).take 4))), staged := none }) ∧
      (∀ st, s.imageBad img = some st → Answered s t c st [] ∧ t.sec.flash = s.sec.flash ∧ t.sec.staged = none))) ∧
  (∀ (s : State) (c : Cmd) (n : Nat) (img : List Byte), s.recovering = true → Waits s 0xD070 c → Tickets s 0xD070 n → c.field 8 4 ≤ 2 ^ 28 →
    Runs (.recoveryFwStage img) s fun t =>
      let b := img.take (c.field 8 4)
      (s.imageBad b = none → Ended s t c n St.OK ∧ t.sec.flash = .image (b.take (leNat ((b.drop 4).take 4))) ∧ t.rst.grant = some (4, 0)) ∧
      (∀ st, s.imageBad b = some st → Ended s t c n st ∧ t.sec.flash = .erased ∧ t.recovering = true))

/-- While the security block serves requests, a negotiation in order (GET_VERSION, GET_CAPABILITIES, NEGOTIATE_ALGORITHMS offering ECDSA P-521 and SHA-512) is answered and advances; the digest and parts of slot 0's chain are read; GET_MEASUREMENTS reports the count, one of the five SHA-512 blocks or all; CHALLENGE, signed measurements and KEY_EXCHANGE answer with fresh values, but ERROR Unspecified in RETURNED, and another slot is refused; two sessions at most begin, FINISH establishes one, HEARTBEAT, KEY_UPDATE and END_SESSION act in it. The codes and the request order are SPDM 1.3's (PRESUMED). (R404, R405) -/
def Obligations.SpdmAnswers : Prop :=
  (∀ s : State, s.mailboxUp = true →
    Gives .getVersion s { s with sec := { s.sec with negotiated := 1, spdm := .ok 0x04 (toLe 1 1 ++ toLe 2 0x1300) } } ∧
    (s.sec.negotiated ≠ 0 → Gives .getCapabilities s { s with sec := { s.sec with negotiated := 2, spdm := .ok 0x61 (toLe 4 Config.spdmCaps) } }) ∧
    (s.sec.negotiated = 0 → Gives .getCapabilities s { s with sec := { s.sec with spdm := .error 4 } }) ∧
    (∀ asym hash dhe aead, 2 ≤ s.sec.negotiated → bit asym 8 = true → bit hash 2 = true → Runs (.negotiateAlgorithms asym hash dhe aead) s fun t =>
      t.sec.negotiated = 3 ∧ OnlyIn [.sec] s t ∧
        t.sec.spdm = .ok 0x63 (toLe 4 256 ++ toLe 4 4 ++ toLe 2 (if bit dhe 5 = true then 32 else 0) ++ toLe 2 (if bit aead 1 = true then 2 else 0)))) ∧
  (∀ s : State, s.mailboxUp = true → 3 ≤ s.sec.negotiated →
    Gives .getDigests s { s with sec := { s.sec with spdm := .ok 0x01 (toLe 1 1 ++ sha512 certBytes) } } ∧
    (∀ off len, off + len ≤ certBytes.length → Gives (.getCertificate 0 off len) s
      { s with sec := { s.sec with spdm := .ok 0x02 (toLe 2 len ++ toLe 2 (certBytes.length - off - len) ++ (certBytes.drop off).take len) } }) ∧
    (∀ slot off len, slot ≠ 0 → Gives (.getCertificate slot off len) s { s with sec := { s.sec with spdm := .error 1 } }) ∧
    (∀ nonce, Gives (.getMeasurements 0 false nonce) s { s with sec := { s.sec with spdm := .ok 0x60 [5#8] } }) ∧
    (∀ i nonce, 1 ≤ i → i ≤ 5 → Gives (.getMeasurements i false nonce) s { s with sec := { s.sec with spdm := .ok 0x60 (toLe 1 1 ++ toLe 1 i ++ toLe 1 1 ++ toLe 2 67 ++ toLe 1 (Config.blockType i) ++ toLe 2 64 ++ s.measurement i) } }) ∧
    (∀ nonce, Gives (.getMeasurements 255 false nonce) s { s with sec := { s.sec with spdm := .ok 0x60 (toLe 1 5 ++ ((List.range 5).map fun k => s.blockBytes (k + 1)).flatten) } })) ∧
  (∀ s : State, s.mailboxUp = true → 3 ≤ s.sec.negotiated → s.lcs = 3 → ∀ slot nonce index key,
    Gives (.challenge slot nonce) s { s with sec := { s.sec with spdm := .error 5 } } ∧
    Gives (.getMeasurements index true nonce) s { s with sec := { s.sec with spdm := .error 5 } } ∧
    Gives (.keyExchange slot key) s { s with sec := { s.sec with spdm := .error 5 } }) ∧
  (∀ s : State, s.mailboxUp = true → 3 ≤ s.sec.negotiated → s.lcs ≠ 3 →
    (∀ nonce, Runs (.challenge 0 nonce) s fun t => (∃ sig, t.sec.spdm = .ok 0x03 (sha512 certBytes ++ toLe 32 (s.draw 256).1 ++ toLe 132 sig)) ∧
      t.fresh = s.fresh + 2 ∧ OnlyIn [.sec, .fresh] s t) ∧
    (∀ i nonce, 1 ≤ i → i ≤ 5 → Runs (.getMeasurements i true nonce) s fun t =>
      (∃ sig, t.sec.spdm = .ok 0x60 (toLe 1 1 ++ s.blockBytes i ++ toLe 32 (s.draw 256).1 ++ toLe 132 sig)) ∧ OnlyIn [.sec, .fresh] s t) ∧
    (∀ slot nonce key, slot ≠ 0 → Gives (.challenge slot nonce) s { s with sec := { s.sec with spdm := .error 1 } } ∧
      Gives (.keyExchange slot key) s { s with sec := { s.sec with spdm := .error 1 } }) ∧
    (∀ key, s.sec.sessions.length < 2 → Runs (.keyExchange 0 key) s fun t => ∃ id,
      t.sec.sessions = s.sec.sessions ++ [⟨id, false, 0⟩] ∧ (∀ e ∈ s.sec.sessions, e.id ≠ id) ∧ OnlyIn [.sec, .fresh] s t) ∧
    (∀ key, 2 ≤ s.sec.sessions.length → Gives (.keyExchange 0 key) s { s with sec := { s.sec with spdm := .error 10 } })) ∧
  (∀ (s : State) (e : Session), s.mailboxUp = true → s.sec.sessions.find? (fun x => x.id == e.id) = some e →
    (e.established = false →
      Gives (.finish e.id true) s { s with sec := { s.sec with spdm := .ok 0x65 [], sessions := s.sec.sessions.map fun x => if x.id = e.id then { e with established := true } else x } } ∧
      Gives (.finish e.id false) s { s with sec := { s.sec with spdm := .error 6, sessions := s.sec.sessions.filter fun x => x.id != e.id } } ∧
      (∀ i, i ∈ [Instr.heartbeat e.id, .keyUpdate e.id 1, .endSession e.id] → Gives i s { s with sec := { s.sec with spdm := .error 4 } })) ∧
    (e.established = true →
      Gives (.heartbeat e.id) s { s with sec := { s.sec with spdm := .ok 0x68 [] } } ∧
      (∀ op, op = 1 ∨ op = 2 → Gives (.keyUpdate e.id op) s
        { s with sec := { s.sec with spdm := .ok 0x69 [], sessions := s.sec.sessions.map fun x => if x.id = e.id then { e with keys := e.keys + 1 } else x } }) ∧
      Gives (.keyUpdate e.id 3) s { s with sec := { s.sec with spdm := .ok 0x69 [] } } ∧
      Gives (.endSession e.id) s { s with sec := { s.sec with spdm := .ok 0x6C [], sessions := s.sec.sessions.filter fun x => x.id != e.id } }))

/-- With a session of the level an op needs, not suspended and the dies powered, each op's whole effect follows the answer that opens its ticket: TRACE_READ copies the trace ring to BUF; HALT asks the cores of its scope, and no other, to halt; RESUME clears their debug halts; MEM_READ copies memory, a debug-halted core's private state, registers or Shed SRAM to BUF, and MEM_WRITE the other way; RESET asserts source 8 at its reach; each ends its ticket OK with a completion record in HBM. Without the level, or suspended, each answers DEBUG_DENIED, as does a private-state op on a core that is not debug-halted; a wrong OP, SPACE, scope, target or range answers INVALID_PAYLOAD. (R323, R328, R376, R420, R421, R422, R423, R424) -/
def Obligations.DebugOpsAct : Prop :=
  (∀ (s : State) (c : Cmd) (n : Nat), Waits s 0xD082 c → Tickets s 0xD082 n → ∃ u, Opened s u c n ∧ OnlyIn [.mb, .msix, .gauge] s u ∧
    (c.field 0 1 = 0x01 → s.dbgDenied 1 true = false →
      Gives .traceRead s ((u.wrS c.dbgBuf s.sec.trace.flatten).finish n c c.dbgCdpa St.OK s.sec.trace.flatten.length)) ∧
    (c.field 0 1 = 0x10 → s.dbgDenied 2 true = false → scopeOk c.dbgScope c.dbgIdx = true →
      Gives .debugHalt s ((u.scoped c.dbgScope c.dbgIdx Core.debugHalt).finish n c c.dbgCdpa St.OK 0)) ∧
    (c.field 0 1 = 0x11 → s.dbgDenied 2 true = false → scopeOk c.dbgScope c.dbgIdx = true → s.otherHalt c.dbgScope c.dbgIdx = false →
      Gives .debugResume s ((u.scoped c.dbgScope c.dbgIdx Core.debugResume).finish n c c.dbgCdpa St.OK 0)) ∧
    (c.field 0 1 = 0x12 → State.memRefuse c s = none → ∀ e,
      Gives (.memRead e) s (((u.memRead c e).2.wrS c.dbgBuf (u.memRead c e).1).finish n c c.dbgCdpa St.OK c.dbgLen)) ∧
    (c.field 0 1 = 0x13 → State.memRefuse c s = none → ∀ e,
      (c.dbgLen = 0 → Gives (.memWrite e) s ((u.memWrite c []).finish n c c.dbgCdpa St.OK 0)) ∧
      (0 < c.dbgLen → Gives (.memWrite e) s (((u.readAt c.dbgBuf c.dbgLen e).2.memWrite c (u.readAt c.dbgBuf c.dbgLen e).1).finish n c c.dbgCdpa St.OK c.dbgLen))) ∧
    (c.field 0 1 = 0x14 → s.dbgDenied 2 false = false → targetOk c.dbgScope c.dbgIdx = true → ∀ cut,
      Gives (.debugReset cut) s ((u.finish n c c.dbgCdpa St.OK 0).request 8 c.dbgScope (targets c.dbgScope c.dbgIdx).1
        (targets c.dbgScope c.dbgIdx).2.1 (targets c.dbgScope c.dbgIdx).2.2 cut))) ∧
  (∀ (s : State) (c : Cmd) (n x : Nat), Waits s 0xD082 c → Tickets s 0xD082 n → s.hrv ≠ 2 → placeOf (c.dbgCdpa / 64 * 64) = .hbm x →
    (c.field 0 1 = 0x01 → s.dbgDenied 1 true = false → Runs .traceRead s fun t => Ended s t c n St.OK ∧
      t.mem = ((s.wr c.dbgBuf s.sec.trace.flatten).wr (c.dbgCdpa / 64 * 64) (recordBytes s c n St.OK s.sec.trace.flatten.length)).mem ∧ t.sec = s.sec) ∧
    (c.field 0 1 = 0x10 → s.dbgDenied 2 true = false → scopeOk c.dbgScope c.dbgIdx = true → Runs .debugHalt s fun t => Ended s t c n St.OK ∧
      (∀ gi, gi < nCores → t.core gi = if inScope c.dbgScope c.dbgIdx gi = true then (s.core gi).debugHalt else s.core gi) ∧
      t.mem = (s.wr (c.dbgCdpa / 64 * 64) (recordBytes s c n St.OK 0)).mem) ∧
    (c.field 0 1 = 0x11 → s.dbgDenied 2 true = false → scopeOk c.dbgScope c.dbgIdx = true → s.otherHalt c.dbgScope c.dbgIdx = false → Runs .debugResume s fun t =>
      Ended s t c n St.OK ∧ (∀ gi, gi < nCores → t.core gi = if inScope c.dbgScope c.dbgIdx gi = true then (s.core gi).debugResume else s.core gi)) ∧
    (c.field 0 1 = 0x12 → State.memRefuse c s = none →
      (∀ e, Runs (.memRead e) s fun t => Ended s t c n St.OK) ∧
      (c.dbgSpace = 0 → ∀ y, placeOf c.dbgAddr = .hbm y → memRange c.dbgAddr c.dbgLen = true → 0 < c.dbgLen → Runs (.memRead []) s fun t =>
        t.mem = ((s.wr c.dbgBuf (s.rd c.dbgAddr c.dbgLen)).wr (c.dbgCdpa / 64 * 64) (recordBytes s c n St.OK c.dbgLen)).mem) ∧
      (c.dbgSpace = 1 → ∀ e, Runs (.memRead e) s fun t =>
        t.mem = ((s.wr c.dbgBuf ((List.range c.dbgLen).map fun i => (s.core c.dbgIdx).privByte (c.dbgAddr + i))).wr (c.dbgCdpa / 64 * 64) (recordBytes s c n St.OK c.dbgLen)).mem) ∧
      (c.dbgSpace = 2 → ∀ e, Runs (.memRead e) s fun t =>
        let data := (List.range c.dbgLen).map fun i => if c.dbgAddr + i < shedSize then Sparse.get (fun k => BitVec.ofNat 8 (Config.shedByte k)) s.sec.shed (c.dbgAddr + i) else 0#8
        t.mem = ((s.wr c.dbgBuf data).wr (c.dbgCdpa / 64 * 64) (recordBytes s c n St.OK c.dbgLen)).mem)) ∧
    (c.field 0 1 = 0x13 → State.memRefuse c s = none →
      (∀ e, Runs (.memWrite e) s fun t => Ended s t c n St.OK) ∧
      (∀ y, placeOf c.dbgBuf = .hbm y → memRange c.dbgBuf c.dbgLen = true → 0 < c.dbgLen →
        (c.dbgSpace = 0 → inRegs c.dbgAddr c.dbgLen = false → Runs (.memWrite []) s fun t =>
          t.mem = ((s.wr c.dbgAddr (s.rd c.dbgBuf c.dbgLen)).wr (c.dbgCdpa / 64 * 64) (recordBytes s c n St.OK c.dbgLen)).mem) ∧
        (c.dbgSpace = 1 → Runs (.memWrite []) s fun t =>
          t.core c.dbgIdx = (List.range c.dbgLen).foldl (fun k i => k.setPrivByte (c.dbgAddr + i) ((s.rd c.dbgBuf c.dbgLen).getD i 0)) (s.core c.dbgIdx)) ∧
        (c.dbgSpace = 2 → Runs (.memWrite []) s fun t =>
          ∀ (open_ : Nat → Byte) (i : Nat), i < c.dbgLen → c.dbgAddr + i < shedSize → Sparse.get open_ t.sec.shed (c.dbgAddr + i) = (s.rd c.dbgBuf c.dbgLen).getD i 0))) ∧
    (c.field 0 1 = 0x14 → s.dbgDenied 2 false = false → targetOk c.dbgScope c.dbgIdx = true → s.rst.refLost = false → ∀ cut, Runs (.debugReset cut) s fun t =>
      8 ∈ t.rst.accepted ∧ t.rst.reach = some (max c.dbgScope (s.rst.reach.getD 0)) ∧ (c.dbgScope < 3 → s.rst.reach = none → s.rst.releasing = false → s.diesOff = false →
        Ended s t c n St.OK ∧ (c.dbgScope = 0 → t.core c.dbgIdx = Core.init)))) ∧
  (∀ (s : State) (c : Cmd) (i : Instr) (op need : Nat), (i, op, need) ∈ [(Instr.traceRead, 0x01, 1), (.debugHalt, 0x10, 2), (.debugResume, 0x11, 2), (.memRead [], 0x12, 2),
      (.memWrite [], 0x13, 2), (.debugReset [], 0x14, 2)] → Waits s 0xD082 c → c.field 0 1 = op → s.level < need ∨ s.hf .DBG_STAT 0 2 1 = 1 →
    Runs i s fun t => Answered s t c St.DEBUG_DENIED [] ∧ t.mem = s.mem ∧ t.cores = s.cores ∧ t.rst = s.rst) ∧
  (∀ (s : State) (c : Cmd), Waits s 0xD082 c → c.field 0 1 ∉ dbgOps → Runs .traceRead s fun t => Answered s t c St.INVALID_PAYLOAD []) ∧
  (∀ (s : State) (c : Cmd), Waits s 0xD082 c → s.dbgDenied 2 true = false →
    (c.field 0 1 = 0x10 → scopeOk c.dbgScope c.dbgIdx = false → Runs .debugHalt s fun t => Answered s t c St.INVALID_PAYLOAD [] ∧ t.cores = s.cores) ∧
    (c.field 0 1 = 0x12 → 2 < c.dbgSpace ∨ 2 ^ 24 < c.dbgLen → Runs (.memRead []) s fun t => Answered s t c St.INVALID_PAYLOAD []) ∧
    (c.field 0 1 = 0x13 → c.dbgSpace = 1 → c.dbgLen ≤ 2 ^ 24 → c.dbgIdx < nCores → privOk c.dbgAddr c.dbgLen = true → (s.core c.dbgIdx).debugHalted = false →
      Runs (.memWrite []) s fun t => Answered s t c St.DEBUG_DENIED [] ∧ t.cores = s.cores))

/-- In a CXL mode the decoder commits 512 GiB, 1 way, at DPA 0, and anything else is Error Not Committed; there is none in a PCIe-only mode. An access through the committed decoder (CXL) or through BAR4 (PCIe-only, at 64 GiB times MBX_HWIN.WIN) reads and writes exactly the HBM bytes it names; an uncorrectable error changes what is returned, is logged, and discards no step. While HBM is in self-refresh or off, a read returns zeros and a write changes no memory. (R171, R325, R326, R327) -/
def Obligations.HostMemoryAccess : Prop :=
  (∀ (s : State) (size ways dpa : Nat), s.linkReady = true →
    (s.cxlMode = true → size = 2 ^ 39 ∧ ways = 1 ∧ dpa = 0 → Gives (.hdmCommit size ways dpa) s { s with host := { s.host with hdm := true, hdmErr := false } }) ∧
    (s.cxlMode = true → size ≠ 2 ^ 39 ∨ ways ≠ 1 ∨ dpa ≠ 0 → Gives (.hdmCommit size ways dpa) s { s with host := { s.host with hdmErr := true } }) ∧
    (s.cxlMode = false → Gives (.hdmCommit size ways dpa) s s)) ∧
  (∀ (s : State) (bar4 : Bool) (x n a : Nat), s.linkReady = true → 0 < n →
    (bar4 = true ∧ s.cxlMode = false ∧ x + n ≤ 2 ^ 36 ∧ a = 2 ^ 36 * rf s.mbx .MBX_HWIN 0 0 3 + x) ∨ (bar4 = false ∧ s.cxlMode = true ∧ s.host.hdm = true ∧ x + n ≤ 2 ^ 39 ∧ a = x) →
    (∀ e : List HbmErr, s.hbmAway = false → Gives (.hdmRead bar4 x n e) s { (s.hostBytes a n e).2 with host := { (s.hostBytes a n e).2.host with data := (s.hostBytes a n e).1 } }) ∧
    (s.hbmAway = false → Gives (.hdmRead bar4 x n []) s { s with host := { s.host with data := s.rd a n } }) ∧
    (s.hbmAway = false → s.hrv ≠ 2 → ∀ data : List Byte, data.length = n → Gives (.hdmWrite bar4 x data) s (s.wr a data)) ∧
    (s.hbmAway = false → ∀ u mask persist, a / 32 ≤ u → u ≤ (a + n - 1) / 32 → Runs (.hdmRead bar4 x n [.uncorrectable u mask persist]) s fun t =>
      t.host.data = ((maskUnit (s.rd (a / 32 * 32) (32 * ((a + n - 1) / 32 + 1 - a / 32))) (32 * u - a / 32 * 32) mask).drop (a - a / 32 * 32)).take n ∧
        t.step = s.step ∧ OnlyIn [.mem, .hub, .host, .logs, .logLost, .msix, .gauge] s t) ∧
    (s.hbmAway = true → ∀ e : List HbmErr, Runs (.hdmRead bar4 x n e) s fun t => t.host.data = List.replicate n 0 ∧ t.host.unavail = true ∧ t.mem = s.mem ∧
      OnlyIn [.host, .logs, .logLost, .msix, .gauge, .hub] s t) ∧
    (s.hbmAway = true → ∀ data : List Byte, data.length = n → Runs (.hdmWrite bar4 x data) s fun t => t.mem = s.mem ∧ t.host.unavail = true ∧
      OnlyIn [.host, .logs, .logLost, .msix, .gauge, .hub] s t)) ∧
  (∀ (s : State) (x n : Nat) (e : List HbmErr),
    (s.cxlMode = true → Gives (.hdmRead true x n e) s s) ∧ (s.cxlMode = false → Gives (.hdmRead false x n e) s s) ∧ (s.host.hdm = false → Gives (.hdmRead false x n e) s s))

/-- With the reference clock and no reset latched, each source latches its reach and itself: an answered RESET asserts as source 3, a function-level reset clears FABRIC reach and keeps the layer table, the factor table and HBM, CXL_PERST_N, DBG_SRST_N at INVASIVE, a watchdog timeout, a junction at 110 °C and a good RESET frame clear WARM reach (keeping BKP00-15, the Cold frame and TAINT), and a supply trip clears POR reach; a bad RESET frame raises TOKEN_INVALID and asks for nothing. DBG_SRST_N below INVASIVE, a watchdog not timed out or not counting, a cooler junction, and requests while the reference is lost do nothing; its return asserts source 9. The power-on source holds until POWER_ON. (R375, R376, R377, R378, R379, R380, R382, R383, R387, R417, R435, R439) -/
def Obligations.ResetsClearTheirReach : Prop :=
  (∀ (s : State) (i : Instr) (src reach : Nat), s.rst.refLost = false → s.rst.reach = none → s.rst.releasing = false →
    ((∃ idx cut, i = .resetRequest cut ∧ src = 3 ∧ s.rst.grant = some (reach, idx)) ∨ (i = .functionLevelReset ∧ src = 2 ∧ reach = 3) ∨
      (i = .cxlPerst true ∧ src = 1 ∧ reach = 4) ∨ (i = .dbgSrst true ∧ src = 8 ∧ reach = 4 ∧ s.level = 2) ∨
      (i = .watchdogTimeout ∧ src = 5 ∧ reach = 4 ∧ s.rst.ready = true ∧ s.rst.kick + 250000 * s.hf .RST_WDOG 0 0 16 ≤ s.sundial) ∨
      (∃ m, 110000 ≤ m ∧ i = .thermalTrip m ∧ src = 6 ∧ reach = 4) ∨ (∃ cause, i = .supplyTrip cause ∧ src = 0 ∧ reach = 5 ∧ s.pwr.commits = []) ∨
      (i = .powerOn ∧ s.rst.asserted.contains 0 = false ∧ src = 0 ∧ reach = 5 ∧ s.pwr.commits = [])) →
    Runs i s fun t => t.rst.reach = some reach ∧ src ∈ t.rst.accepted ∧ t.rst.grant = (if src = 3 ∨ 4 ≤ reach then none else s.rst.grant) ∧
      (i ∈ [Instr.cxlPerst true, .dbgSrst true] → src ∈ t.rst.asserted) ∧
      (reach = 3 → t.sundial = 0 ∧ t.net = [] ∧ (∀ gi, t.core gi = Core.init) ∧ (∀ k, t.grafter k = Grafter.init) ∧
        (s.coll.perm = none → t.layers = s.layers ∧ t.factors = s.factors ∧ t.links.ports = s.links.ports ∧ (s.step.job = true → t.step.held = St.RESET_ABORTED ∧ t.step.job = true) ∧
          ∀ a, a < 0x008000000000 → mget t.mem a = mget s.mem a) ∧
        (∀ a, 0x008000000000 ≤ a → mget t.mem a = 0)) ∧
      (reach = 4 → t.sundial = 0 ∧ t.mb = Mailbox.init ∧ t.logs = [] ∧ t.step = StepState.init ∧ t.layers = [] ∧ t.links.ports = Links.init.ports ∧ t.rst.ready = false ∧
        t.rst.cold = s.rst.cold ∧ (∀ k, k < 16 → t.h .RST_BKP k = s.h .RST_BKP k) ∧ t.hf .SEC_STAT 0 2 1 = s.hf .SEC_STAT 0 2 1 ∧ t.level = 0 ∧
        t.sec.fuse = s.sec.fuse ∧ t.sec.flash = s.sec.flash ∧ t.gauge.ring = s.gauge.ring ∧ t.gauge.clearLog = s.gauge.clearLog) ∧
      (reach = 5 → t.rst.cold = [] ∧ (∀ k, k < 16 → t.h .RST_BKP k = 0) ∧ t.hf .SEC_STAT 0 2 1 = 0 ∧ t.sec.fuse = s.sec.fuse ∧ t.gauge.ring = s.gauge.ring)) ∧
  (∀ (s : State) (cut : List Endpoint) (gi : Nat), gi < nCores → s.rst.refLost = false → s.rst.reach = none → s.rst.releasing = false → s.diesOff = false → s.rst.grant = some (0, gi) →
    Runs (.resetRequest cut) s fun t => t.core gi = Core.init ∧
      (s.coll.perm = none → (∀ g, g ≠ gi → t.core g = s.core g) ∧ t.clusters = s.clusters ∧ t.step = s.step ∧ t.net = s.net ∧
        ∀ a, mget t.mem a = if (match placeOf a with | .localMem g _ => g == gi | _ => false) = true then 0 else mget s.mem a) ∧
      (cut ≠ [] → t.rst.hung = s.rst.hung ++ cut ∧ t.hf .RST_STAT 0 0 1 = 1)) ∧
  (∀ (s : State) (reach idx : Nat) (cut : List Endpoint), s.rst.grant = some (reach, idx) →
    Gives (.resetRequest cut) s ({ s with rst := { s.rst with grant := none } }.request 3 reach (targets reach idx).1 (targets reach idx).2.1 (targets reach idx).2.2 cut)) ∧
  (∀ s : State, Gives .functionLevelReset s (s.request 2 3 [] [] [] []) ∧
    (∀ m, 110000 ≤ m → Gives (.thermalTrip m) s (s.request 6 4 [] [] [] [])) ∧
    (s.rst.ready = true → s.rst.kick + 250000 * s.hf .RST_WDOG 0 0 16 ≤ s.sundial → Gives .watchdogTimeout s (s.request 5 4 [] [] [] [])) ∧
    (s.rst.refLost = false → Gives (.cxlPerst true) s ((s.hold_ 1).request 1 4 [] [] [] [])) ∧
    (s.rst.refLost = false → s.level = 2 → Gives (.dbgSrst true) s ((s.hold_ 8).request 8 4 [] [] [] [])) ∧
    (s.rst.asserted.contains 0 = false → Gives .powerOn s ({ s.loseCommits with rst := { s.loseCommits.rst with refLost := false } }.request 0 5 [] [] [] []))) ∧
  (∀ (s : State) (cause : Nat), s.pwr.commits = [] → s.frozen (hubKey .PWR_RAILEV 0) = false → Runs (.supplyTrip cause) s fun t =>
    0 ∈ t.rst.asserted ∧ t.h .PWR_RAILEV 0 = cause % 8 + 8 ∧ t.pwr.trips = s.pwr.trips + 1) ∧
  (∀ s : State, s.rst.asserted.contains 0 = true → Gives .powerOn s { s with rst := { s.rst with asserted := s.rst.asserted.filter (· != 0) } }) ∧
  (∀ s : State, s.rst.refLost = false →
    Gives (.cxlPerst false) s { s with rst := { s.rst with asserted := s.rst.asserted.filter (· != 1) } } ∧
    Gives (.dbgSrst false) s { s with rst := { s.rst with asserted := s.rst.asserted.filter (· != 8) } } ∧
    (s.level ≠ 2 → Gives (.dbgSrst true) s s) ∧ (∀ m, m < 110000 → Gives (.thermalTrip m) s s) ∧
    (s.rst.ready = false ∨ s.sundial < s.rst.kick + 250000 * s.hf .RST_WDOG 0 0 16 → Gives .watchdogTimeout s s) ∧
    (s.rst.grant = none → ∀ cut, Gives (.resetRequest cut) s s) ∧ (s.rst.asserted.contains 0 = false → Runs .refclkLoss s fun t =>
      t.rst = { s.rst with refLost := true } ∧ t.hf .FAC_STAT 0 1 1 = 1 ∧ t.hf .CLK_STAT 0 0 1 = 0 ∧ OnlyIn [.rst, .hub] s t)) ∧
  (∀ s : State, Gives .watchdogKick s { s with rst := { s.rst with kick := s.sundial } }) ∧
  (∀ s : State, s.rst.refLost = true →
    Gives (.cxlPerst true) s s ∧ Gives (.dbgSrst true) s s ∧ Gives .functionLevelReset s s ∧ Gives .refclkLoss s s ∧ (∀ m, Gives (.thermalTrip m) s s) ∧
    Runs .refclkReturn s fun t => t.rst.refLost = false ∧ 9 ∈ t.rst.accepted ∧ (s.rst.reach = none → s.rst.asserted = [] → t.hf .RST_STAT 0 1 1 = 1) ∧ ∃ r, t.rst.reach = some r ∧ 4 ≤ r) ∧
  (∀ (s : State) (p lseq : Nat) (f : Frame) (m : List Byte), InOrder s p lseq → s.delivers f = true → f.body = .reset m → s.rst.reach = none → s.rst.releasing = false →
    (s.resetOk m = true → Runs (.resetFrame p lseq f) s fun t => t.rst.reach = some (leNat ((m.drop 8).take 1)) ∧ 4 ∈ t.rst.accepted ∧
      t.h .RST_GRTICKLO 0 + 2 ^ 32 * t.h .RST_GRTICKHI 0 = leNat ((m.drop 16).take 8)) ∧
    (s.resetOk m = false → Runs (.resetFrame p lseq f) s fun t => Taken s t p ∧ t.rst = s.rst ∧ OnlyIn [.links, .hub, .logs, .logLost, .msix, .gauge] s t))

/-- Nothing is released while a source asserts or the reference is lost. CORE and CLUSTER reach complete in one step, as does DIE reach with the dies off; DIE and FABRIC after their dies woke in waves. WARM begins at step 2 and POR at step 1; step 3 notes the link's mode and width, starts Ngumal from a good image and begins the watchdog's count, or enters recovery and stays there; the ports train and discovery begins at step 4; step 5 waits for cool junctions after a thermal trip and takes the address map's mode, under which HBM is undefined where it has changed; step 7 wakes every die and the end is RUN with compute ready. Completion records the first source, the reach and whether there were several in RST_CAUSE, and clears the latch. (R376, R383, R384, R385, R397, R407, R410) -/
def Obligations.ReleaseRunsInOrder : Prop :=
  (∀ (s : State) (cool : Bool) (width : Nat) (modes : List Nat) (offers : List (Option Bool)), s.rst.reach = none ∨ s.rst.asserted ≠ [] ∨ s.rst.refLost = true → Gives (.resetRelease cool width modes offers) s s) ∧
  (∀ (s : State) (cool : Bool) (width r : Nat) (modes : List Nat) (offers : List (Option Bool)), s.rst.reach = some r → s.rst.asserted = [] → s.rst.refLost = false →
    (r ≤ 1 ∨ (r = 2 ∧ (s.diesOff = true ∨ (s.rst.releasing = true ∧ 20 ≤ s.pwr.wave))) → Gives (.resetRelease cool width modes offers) s s.released) ∧
    (r = 3 → s.rst.releasing = true → 20 ≤ s.pwr.wave → Gives (.resetRelease cool width modes offers) s s.fabricUp) ∧
    (∀ src rest, s.rst.accepted = src :: rest → src < 16 →
      r ≤ 1 ∨ (r = 2 ∧ (s.diesOff = true ∨ (s.rst.releasing = true ∧ s.pwr.wave = 20))) ∨ (r = 4 ∧ s.rst.releasing = true ∧ s.hf .RST_STAT 0 2 4 = 7 ∧ s.pwr.wave = 20) →
      Runs (.resetRelease cool width modes offers) s fun t => t.rst.reach = none ∧ t.rst.accepted = [] ∧ t.rst.releasing = false ∧ t.hf .RST_STAT 0 2 4 = 0 ∧
        t.hf .RST_CAUSE 0 0 4 = src ∧ t.hf .RST_CAUSE 0 4 3 = r ∧ t.hf .RST_CAUSE 0 7 1 = (if rest = [] then 0 else 1) ∧
        (r = 4 → t.hf .PWR_STATE 0 0 3 = 0 ∧ t.rst.compute = true)) ∧
    (r = 2 ∨ r = 3 → s.diesOff = false ∨ r = 3 → s.rst.releasing = false → Runs (.resetRelease cool width modes offers) s fun t => t.rst.releasing = true ∧ t.pwr.wave = 0 ∧
      t.pwr.waking = (if r = 3 then List.range 8 else s.rst.dies) ∧ (r = 3 → t.hf .TRL_AMAP 0 1 1 = s.hf .TRL_AMAP 0 0 1)) ∧
    (r = 3 → s.rst.releasing = true → s.pwr.wave = 20 → Runs (.resetRelease cool width modes offers) s fun t => t.rst.reach = none ∧ t.rst.compute = true ∧ (s.step.job = false → t.hf .PWR_STATE 0 0 3 = 0)) ∧
    (r = 2 ∨ r = 3 → s.rst.releasing = true → s.pwr.wave < 20 → s.diesOff = false ∨ r = 3 → Gives (.resetRelease cool width modes offers) s s) ∧
    (r = 4 ∨ r = 5 → s.rst.releasing = false → Runs (.resetRelease cool width modes offers) s fun t => t.rst.releasing = true ∧ t.hf .RST_STAT 0 2 4 = (if r = 5 then 1 else 2)) ∧
    (r = 4 ∨ r = 5 → s.rst.releasing = true →
      (s.hf .RST_STAT 0 2 4 = 1 → Runs (.resetRelease cool width modes offers) s fun t => t.hf .RST_STAT 0 2 4 = 2 ∧ OnlyIn [.rst, .hub] s t) ∧
      (s.hf .RST_STAT 0 2 4 = 2 → Runs (.resetRelease cool width modes offers) s fun t => t.hf .RST_STAT 0 2 4 = 3 ∧ t.host.mode = modes.foldl min 5 ∧ t.host.width = width ∧
        (s.flashGood s.sec.flash = true → t.rst.ready = true ∧ t.rst.kick = s.sundial ∧ t.hf .SEC_STAT 0 10 1 = 0 ∧ t.sec.boot = s.sec.flash ∧
          t.sec.svn = max s.sec.svn s.sec.flash.svn) ∧
        (s.flashGood s.sec.flash = false → t.hf .SEC_STAT 0 10 1 = 1 ∧ t.rst.ready = s.rst.ready)) ∧
      (s.hf .RST_STAT 0 2 4 = 3 → s.rst.ready = false → Gives (.resetRelease cool width modes offers) s s) ∧
      (s.hf .RST_STAT 0 2 4 = 3 → s.rst.ready = true → Runs (.resetRelease cool width modes offers) s fun t => t.hf .RST_STAT 0 2 4 = 4 ∧ t.links.running = true) ∧
      (s.hf .RST_STAT 0 2 4 = 3 → s.rst.ready = true → Gives (.resetRelease cool width modes offers) s
        ((({ s with rst := { s.rst with releasing := true } }.setHf .RST_STAT 0 2 4 4).trainPorts offers).startDiscovery)) ∧
      (s.hf .RST_STAT 0 2 4 = 7 → 20 ≤ s.pwr.wave → Gives (.resetRelease cool width modes offers) s s.computeUp.released) ∧
      (s.hf .RST_STAT 0 2 4 = 2 → Gives (.resetRelease cool width modes offers) s
        ({ s with host := { s.host with mode := modes.foldl min 5, width := width }, rst := { s.rst with releasing := true } }.setHf .RST_STAT 0 2 4 3).boot) ∧
      (s.hf .RST_STAT 0 2 4 = 4 → 6 ∈ s.rst.accepted → cool = false → Gives (.resetRelease cool width modes offers) s s) ∧
      (s.hf .RST_STAT 0 2 4 = 4 → 6 ∉ s.rst.accepted ∨ cool = true → Runs (.resetRelease cool width modes offers) s fun t =>
        t.hf .RST_STAT 0 2 4 = 5 ∧ t.hf .TRL_AMAP 0 1 1 = s.hf .TRL_AMAP 0 0 1 ∧
        (s.hf .TRL_AMAP 0 1 1 = s.hf .TRL_AMAP 0 0 1 → OnlyIn [.rst, .hub] s t) ∧ OnlyIn [.rst, .hub, .mem, .flaws, .fresh] s t) ∧
      (s.hf .RST_STAT 0 2 4 = 5 → Runs (.resetRelease cool width modes offers) s fun t => t.hf .RST_STAT 0 2 4 = 6 ∧ OnlyIn [.rst, .hub] s t) ∧
      (s.hf .RST_STAT 0 2 4 = 6 → Runs (.resetRelease cool width modes offers) s fun t => t.hf .RST_STAT 0 2 4 = 7 ∧ t.pwr.wave = 0 ∧ t.pwr.waking = List.range 8) ∧
      (s.hf .RST_STAT 0 2 4 = 7 → s.pwr.wave < 20 → Gives (.resetRelease cool width modes offers) s s)))

/-- A timed sample with a finite value adds one to its bin of the open window, up to 16,777,215, and becomes the extreme when it lies beyond it; a value that is not finite adds to the channel's count of those. An hourly close that is due writes the next sheet and opens a window; a sheet written is in its slot of the ring and the next begins. RGA_CLEAR in SECURED with a good token appends a clear record, moves the floor to the next SEQ and opens a new window; with none, outside SECURED, with a bad token, or with the clear log full it is refused and nothing is cleared. (R364, R365, R366, R367, R368, R370, R371, R372, R373, R411, R415) -/
def Obligations.RainGaugeRecords : Prop :=
  (∀ (s : State) (ch x : Nat), chanTimed ch = true → s.rst.ready = true → Gives (.rgaSample ch x) s (s.sample ch x (chanSource ch).1 (chanSource ch).2)) ∧
  (∀ (s : State) (ch x : Nat), chanTimed ch = true → s.rst.ready = true →
    let w := s.gauge.win
    let set := Sparse.get (fun _ => 0) w.settings ch
    (∀ neg m e, fp32.decode x = .fin neg m e → Runs (.rgaSample ch x) s fun t =>
      let b := binOf (signed 8 set) (bits set 8 4 + 1) neg m e
      let n := Sparse.get (fun _ => 0) w.counts (16 * ch + b)
      Sparse.get (fun _ => 0) t.gauge.win.counts (16 * ch + b) = (if n < 0xFFFFFF then n + 1 else n) ∧
        (∀ k, k ≠ 16 * ch + b → Sparse.get (fun _ => 0) t.gauge.win.counts k = Sparse.get (fun _ => 0) w.counts k) ∧
        (Sparse.get (fun _ => (none : Option Extreme)) w.ext ch = none →
          (Sparse.get (fun _ => (none : Option Extreme)) t.gauge.win.ext ch).map (fun e => (e.val, e.tick, e.step)) = some (x, s.sundial, s.stepNo)) ∧
        (∀ o, Sparse.get (fun _ => (none : Option Extreme)) w.ext ch = some o → chanMin ch = false → ¬ 0 < cmpV (.fin neg m e) (fp32.decode o.val) →
          Sparse.get (fun _ => (none : Option Extreme)) t.gauge.win.ext ch = some o) ∧
        t.gauge.win.nf = w.nf ∧ t.gauge.ring = s.gauge.ring ∧ OnlyIn [.gauge] s t) ∧
    ((∀ neg m e, fp32.decode x ≠ .fin neg m e) → Runs (.rgaSample ch x) s fun t =>
      Sparse.get (fun _ => 0) t.gauge.win.nf ch = min (Sparse.get (fun _ => 0) w.nf ch + 1) (2 ^ 32 - 1) ∧ t.gauge.win.counts = w.counts ∧
        t.gauge.win.ext = w.ext ∧ OnlyIn [.gauge] s t)) ∧
  (∀ (s : State) (ch x : Nat), chanTimed ch = false ∨ s.rst.ready = false → Gives (.rgaSample ch x) s s) ∧
  (∀ s : State, (s.rst.ready = true → s.hf .RGA_CFG 0 0 1 = 1 → s.gauge.due ≤ s.sundial → Runs .windowClose s fun t =>
      t.gauge.seq = s.gauge.seq + 1 ∧ t.gauge.due = s.gauge.due + 900000000000 ∧ t.gauge.win.openTick = s.sundial ∧ t.gauge.win.openStep = s.stepNo ∧
        t.gauge.win.counts = [] ∧ t.gauge.win.tally = [] ∧ (s.gauge.writing = none → s.gauge.queued = none → (t.gauge.writing.map fun e => e.1) = some s.gauge.seq) ∧
        OnlyIn [.gauge] s t) ∧
    (s.rst.ready = true → s.hf .RGA_CFG 0 0 1 = 1 → s.gauge.due ≤ s.sundial →
      Gives .windowClose s { s.closeWindow 0 with gauge := { (s.closeWindow 0).gauge with due := s.gauge.due + 900000000000 } }) ∧
    (s.rst.ready = false ∨ s.hf .RGA_CFG 0 0 1 = 0 ∨ s.sundial < s.gauge.due → Gives .windowClose s s)) ∧
  (∀ (s : State) (q : Nat) (img : List Byte), s.rst.ready = true → s.gauge.writing = some (q, img) → Runs .sheetWrite s fun t =>
    (s.gauge.queued = none → t.gauge.slot (q % 8192) = img ∧ t.gauge.writing = none) ∧
      (∀ e, s.gauge.queued = some e → t.gauge.writing = some e ∧ t.gauge.queued = none ∧ (e.1 % 8192 ≠ q % 8192 → t.gauge.slot (q % 8192) = img)) ∧
      t.fac.summary = t.gauge.summary ∧ t.gauge.seq = s.gauge.seq ∧ OnlyIn [.gauge, .fac] s t) ∧
  (∀ s : State, s.rst.ready = true → s.gauge.writing.isSome = true →
    Gives .sheetWrite s { s with gauge := s.gauge.finishWrite, fac := { s.fac with summary := s.gauge.finishWrite.summary } }) ∧
  (∀ s : State, s.rst.ready = false ∨ s.gauge.writing = none → Gives .sheetWrite s s) ∧
  (∀ (s : State) (c : Cmd), Waits s 0xD062 c → s.resourceBusy 0xD062 = false →
    (c.body = [] → Runs .rgaClear s fun t => Answered s t c St.ROLE_DENIED [] ∧ t.gauge.clearLog = s.gauge.clearLog ∧ t.gauge.floor = s.gauge.floor) ∧
    (c.body ≠ [] → s.lcs ≠ 1 → Runs .rgaClear s fun t => Answered s t c St.LIFECYCLE_DENIED [] ∧ t.gauge.clearLog = s.gauge.clearLog ∧ t.gauge.floor = s.gauge.floor) ∧
    (∀ st, c.body ≠ [] → s.lcs = 1 → s.tokenBad 6 c.body = some st → Runs .rgaClear s fun t =>
      Answered s t c st [] ∧ t.gauge.clearLog = s.gauge.clearLog ∧ t.gauge.floor = s.gauge.floor ∧ t.sec.nonce = none) ∧
    (c.body ≠ [] → s.lcs = 1 → s.tokenBad 6 c.body = none → 1024 ≤ s.gauge.clearLog.length → Runs .rgaClear s fun t =>
      Answered s t c St.RESOURCE_BUSY [] ∧ t.gauge.clearLog = s.gauge.clearLog ∧ t.gauge.floor = s.gauge.floor) ∧
    (c.body ≠ [] → s.lcs = 1 → s.tokenBad 6 c.body = none → s.gauge.clearLog.length < 1024 → Runs .rgaClear s fun t =>
      Answered s t c St.OK [] ∧ OnlyIn [.mb, .msix, .gauge, .sec, .logs, .logLost, .hub] s t ∧ t.gauge.clearLog = s.gauge.clearLog ++ [Sys2Proof.Machine.record (s.clearRecord c.body)] ∧ t.gauge.floor = s.gauge.seq ∧
        t.gauge.seq = s.gauge.seq ∧ t.gauge.ring = s.gauge.ring ∧ t.gauge.win.openTick = s.sundial))

/-- A command that may change only parts of cores, clusters, memory and the Trellis (and the debug trace) leaves, in every state, every part of the state that touches does not list for it: hub registers, group, step, mailbox, logs and the queue among them. A vector word that moves no memory leaves every byte of memory. (R23, R71, R77, R93, R98, R109, R110, R111, R151, R156, R163, R175) -/
def Obligations.FabricFrames : Prop :=
  ∀ (i : Instr) (s t : State), (∀ p ∈ touches i, p ∈ fabricParts) → exec i s = .next t → OnlyIn (touches i) s t

/-- Each command of the host, the mailbox, the step, the links, the resets, power, the Rain gauge, the security block and the facility side leaves, in every state, every part of the state that touches does not list for it, and no command changes the queue. (R11, R256, R295, R320, R329, R331, R364, R375, R391, R404, R418, R427) -/
def Obligations.HubFrames : Prop :=
  ∀ (i : Instr) (s t : State), ¬ (∀ p ∈ touches i, p ∈ fabricParts) → exec i s = .next t → OnlyIn (touches i) s t

/-- The state right after reset meets the invariant: canonical memory, 8 slots, 8 tickets, 8 Grafters of 4 slots, 4 ports, logs of 256 records at most and at most 32 commands; Ngumal and compute are ready, no job runs, no reset is latched, memory lists nothing, every core is idle, registers hold the reset values their descriptions give (PWR_CAP 13,500 W, RST_WDOG 1,000 ms, the Sieve's limits +infinity, a 1 × 1 grid, an hourly gauge, TRL_SCRUB 280, no retired lane), and the lifecycle is BLANK (the last is the model's choice, log entry 6). (R213, R293, R329, R330, R331, R339) -/
def Obligations.ResetMeetsTheInvariant : Prop :=
  State.reset.Inv ∧ State.reset.rst.ready = true ∧ State.reset.rst.compute = true ∧ State.reset.rst.reach = none ∧ State.reset.step.job = false ∧
    State.reset.mem = [] ∧ State.reset.lcs = 0 ∧ State.reset.pending = [] ∧ (∀ gi, State.reset.core gi = Core.init) ∧ Core.init.state = 0 ∧
    State.reset.h .PWR_CAP 0 = 13500 ∧ State.reset.h .RST_WDOG 0 = 1000 ∧ State.reset.h .SIV_CEIL 0 = 0x7F800000 ∧ State.reset.h .SIV_CLIPN 0 = 0x7F800000 ∧
    State.reset.h .SIV_SPIKE 0 = 0x7F800000 ∧ State.reset.h .LNK_GRID 0 = 129 ∧ State.reset.h .RGA_CFG 0 = 1 ∧ State.reset.h .TRL_SCRUB 0 = 280 ∧
    (∀ p, p < 4 → State.reset.h .LNK_LANEMAP p = 4) ∧ (∀ i, i < 128 → State.reset.h .UPD_HPS i = 0)

/-- For every command and every state, exec answers a next state, never a fault or a refusal: an ill-formed or refused operation has the outcome the rules give it. (R12, R113, R163, R324) -/
def Obligations.EveryCommandCompletes : Prop :=
  ∀ (i : Instr) (s : State), ∃ t, exec i s = .next t

/-- From every state that meets the invariant, whichever command is at the front of the queue and on an empty queue, a step that answers a next state answers one that meets it: memory stays canonical, the slots, tickets, Grafters, job slots and ports stay as many as the module has, no event log grows beyond its 256 records and the mailbox queue never beyond 32 commands. (R163, R213, R293, R329, R330, R331, R339) -/
def Obligations.StepKeepsInv : Prop :=
  ∀ s t : State, s.Inv → step s = .next t → t.Inv
end

