-- ==== Sys2Proof/Laws/Crypto.lean ====
section
/-! SUPPORT. The lengths of SHA-512's working state and of its result. -/

namespace Sys2Proof.Machine

theorem shaRound_length (v : List Nat) (kw : Nat × Nat) : (shaRound v kw).length = v.length := by
  unfold shaRound
  split <;> simp

theorem shaRounds_length (kws : List (Nat × Nat)) (v : List Nat) : (kws.foldl shaRound v).length = v.length := by
  induction kws generalizing v with
  | nil => rfl
  | cons x r ih => simp only [List.foldl_cons, ih, shaRound_length]

theorem shaBlock_length (h : List Nat) (b : List Byte) : (shaBlock h b).length = h.length := by
  simp [shaBlock, shaRounds_length]

theorem shaBlocks_length (n : Nat) (h : List Nat) (bs : List Byte) : (shaBlocks n h bs).length = h.length := by
  induction n generalizing h bs with
  | zero => rfl
  | succ n ih => simp only [shaBlocks, ih, shaBlock_length]

theorem flatten_length_const (n : Nat) (l : List (List Byte)) (h : ∀ x ∈ l, x.length = n) : l.flatten.length = n * l.length := by
  induction l with
  | nil => simp
  | cons x r ih =>
    simp only [List.flatten_cons, List.length_append, List.length_cons]
    rw [h x (by simp), ih fun y hy => h y (by simp [hy])]
    ring

/-- SHA-512 is 64 bytes long. -/
@[simp] theorem sha512_length (bs : List Byte) : (sha512 bs).length = 64 := by
  have h : ∀ x ∈ (shaBlocks ((shaPad bs).length / 128) shaH (shaPad bs)).map (toBe 8), x.length = 8 := by
    intro x hx
    obtain ⟨y, _, rfl⟩ := List.mem_map.1 hx
    simp [toBe, toLe_length]
  rw [sha512, flatten_length_const 8 _ h]
  simp [shaBlocks_length, shaH]

end Sys2Proof.Machine
end

