-- ==== Sys2Proof/Laws/Sparse.lean ====
section
/-! SUPPORT. Laws of sparse maps: read after write, and the canonical form that every write keeps. -/

namespace Sys2Proof.Machine

variable {α : Type} (d : Nat → α)

theorem Sparse.get_drop_same (m : List (Nat × α)) (k : Nat) : Sparse.get d (Sparse.drop m k) k = d k := by
  induction m with
  | nil => rfl
  | cons e r ih =>
    obtain ⟨i, w⟩ := e
    by_cases h : k = i <;> simp [Sparse.drop, Sparse.get, h]
    · subst h; exact ih
    · exact ih

theorem Sparse.get_drop_other (m : List (Nat × α)) (k j : Nat) (h : j ≠ k) :
    Sparse.get d (Sparse.drop m k) j = Sparse.get d m j := by
  induction m with
  | nil => rfl
  | cons e r ih =>
    obtain ⟨i, w⟩ := e
    by_cases hk : k = i
    · subst hk; simp [Sparse.drop, Sparse.get, h, ih]
    · by_cases hj : j = i <;> simp [Sparse.drop, Sparse.get, hk, hj, ih]

theorem Sparse.get_put_same (m : List (Nat × α)) (k : Nat) (v : α) : Sparse.get d (Sparse.put m k v) k = v := by
  induction m with
  | nil => simp [Sparse.put, Sparse.get]
  | cons e r ih =>
    obtain ⟨i, w⟩ := e
    by_cases hk : k = i
    · simp [Sparse.put, Sparse.get, hk]
    · by_cases hl : k < i <;> simp [Sparse.put, Sparse.get, hk, hl, ih]

theorem Sparse.get_put_other (m : List (Nat × α)) (k j : Nat) (v : α) (h : j ≠ k) :
    Sparse.get d (Sparse.put m k v) j = Sparse.get d m j := by
  induction m with
  | nil => simp [Sparse.put, Sparse.get, h]
  | cons e r ih =>
    obtain ⟨i, w⟩ := e
    by_cases hk : k = i
    · subst hk; simp [Sparse.put, Sparse.get, h]
    · by_cases hl : k < i
      · simp [Sparse.put, Sparse.get, hk, hl, h]
      · by_cases hj : j = i <;> simp [Sparse.put, Sparse.get, hk, hl, hj, ih]

/-- A key reads as what was written to it. -/
@[simp] theorem Sparse.get_set_same [DecidableEq α] (m : List (Nat × α)) (k : Nat) (v : α) : Sparse.get d (Sparse.set d m k v) k = v := by
  unfold Sparse.set
  split
  · rename_i h; rw [Sparse.get_drop_same, h]
  · exact Sparse.get_put_same d m k v

/-- A write leaves every other key alone. -/
theorem Sparse.get_set_other [DecidableEq α] (m : List (Nat × α)) (k j : Nat) (v : α) (h : j ≠ k) :
    Sparse.get d (Sparse.set d m k v) j = Sparse.get d m j := by
  unfold Sparse.set
  split
  · exact Sparse.get_drop_other d m k j h
  · exact Sparse.get_put_other d m k j v h

/-- Reading after a run of writes: inside the run the value written there, outside what was there. -/
theorem Sparse.get_setRun [DecidableEq α] (m : List (Nat × α)) (k j : Nat) (vs : List α) :
    Sparse.get d (Sparse.setRun d m k vs) j = if h : k ≤ j ∧ j - k < vs.length then vs[j - k]'h.2 else Sparse.get d m j := by
  induction vs generalizing m k with
  | nil => simp [Sparse.setRun]
  | cons v vs ih =>
    rw [Sparse.setRun, ih]
    by_cases hk : j = k
    · subst hk; simp
    · by_cases hlt : j < k
      · rw [dif_neg (by omega), dif_neg (by omega), Sparse.get_set_other d m k j v hk]
      · by_cases hin : j - k < vs.length + 1
        · rw [dif_pos ⟨by omega, by omega⟩, dif_pos ⟨by omega, by simpa using hin⟩]
          have : j - k = (j - (k + 1)) + 1 := by omega
          simp [this]
        · rw [dif_neg (by omega), dif_neg (by simp; omega), Sparse.get_set_other d m k j v hk]

/-! ### The canonical form -/

/-- Keys strictly rising, as the library says it. -/
theorem Sparse.sorted_iff (m : List (Nat × α)) : Sparse.sorted m = true ↔ m.Pairwise (fun a b => a.1 < b.1) := by
  induction m with
  | nil => simp [Sparse.sorted]
  | cons e r ih =>
    cases r with
    | nil => simp [Sparse.sorted]
    | cons e' r' =>
      obtain ⟨i, w⟩ := e
      obtain ⟨j, w'⟩ := e'
      rw [Sparse.sorted, Bool.and_eq_true, ih, List.pairwise_cons (a := (i, w))]
      constructor
      · rintro ⟨hij, hr⟩
        refine ⟨?_, hr⟩
        intro b hb
        rcases List.mem_cons.mp hb with rfl | hb'
        · simpa using hij
        · exact lt_trans (by simpa using hij) ((List.pairwise_cons.mp hr).1 b hb')
      · rintro ⟨h1, hr⟩
        exact ⟨by simpa using h1 (j, w') (by simp), hr⟩

theorem Sparse.wf_iff [DecidableEq α] (m : List (Nat × α)) :
    Sparse.wf d m = true ↔ m.Pairwise (fun a b => a.1 < b.1) ∧ ∀ e ∈ m, e.2 ≠ d e.1 := by
  simp [Sparse.wf, Sparse.sorted_iff]

theorem Sparse.mem_drop {m : List (Nat × α)} {k : Nat} {e : Nat × α} (h : e ∈ Sparse.drop m k) : e ∈ m := by
  induction m with
  | nil => simp [Sparse.drop] at h
  | cons x r ih =>
    obtain ⟨i, w⟩ := x
    by_cases hk : k = i
    · simp [Sparse.drop, hk] at h; exact List.mem_cons_of_mem _ (ih (by rw [hk]; exact h))
    · simp [Sparse.drop, hk] at h
      rcases h with rfl | h
      · simp
      · exact List.mem_cons_of_mem _ (ih h)

theorem Sparse.mem_put {m : List (Nat × α)} {k : Nat} {v : α} {e : Nat × α} (h : e ∈ Sparse.put m k v) : e = (k, v) ∨ e ∈ m := by
  induction m with
  | nil => simp [Sparse.put] at h; exact Or.inl h
  | cons x r ih =>
    obtain ⟨i, w⟩ := x
    by_cases hk : k = i
    · simp [Sparse.put, hk] at h
      rcases h with rfl | h
      · exact Or.inl (by rw [hk])
      · exact Or.inr (List.mem_cons_of_mem _ h)
    · by_cases hl : k < i
      · simp [Sparse.put, hk, hl] at h
        rcases h with rfl | rfl | h
        · exact Or.inl rfl
        · exact Or.inr (by simp)
        · exact Or.inr (List.mem_cons_of_mem _ h)
      · simp [Sparse.put, hk, hl] at h
        rcases h with rfl | h
        · exact Or.inr (by simp)
        · rcases ih h with h | h
          · exact Or.inl h
          · exact Or.inr (List.mem_cons_of_mem _ h)

theorem Sparse.drop_sorted {m : List (Nat × α)} (k : Nat) (h : m.Pairwise (fun a b => a.1 < b.1)) :
    (Sparse.drop m k).Pairwise (fun a b => a.1 < b.1) := by
  induction m with
  | nil => simp [Sparse.drop]
  | cons x r ih =>
    obtain ⟨i, w⟩ := x
    have hr := List.pairwise_cons.mp h
    by_cases hk : k = i
    · simp only [Sparse.drop, hk, if_true]; exact hk ▸ ih hr.2
    · simp only [Sparse.drop, hk, if_false]
      exact List.pairwise_cons.mpr ⟨fun b hb => hr.1 b (Sparse.mem_drop hb), ih hr.2⟩

theorem Sparse.put_sorted {m : List (Nat × α)} (k : Nat) (v : α) (h : m.Pairwise (fun a b => a.1 < b.1)) :
    (Sparse.put m k v).Pairwise (fun a b => a.1 < b.1) := by
  induction m with
  | nil => simp [Sparse.put]
  | cons x r ih =>
    obtain ⟨i, w⟩ := x
    have hr := List.pairwise_cons.mp h
    by_cases hk : k = i
    · simp only [Sparse.put, hk, if_true]
      exact List.pairwise_cons.mpr ⟨fun b hb => hr.1 b hb, hr.2⟩
    · by_cases hl : k < i
      · simp only [Sparse.put, hk, hl, if_true, if_false]
        refine List.pairwise_cons.mpr ⟨fun b hb => ?_, h⟩
        rcases List.mem_cons.mp hb with rfl | hb
        · exact hl
        · exact lt_trans hl (hr.1 b hb)
      · simp only [Sparse.put, hk, hl, if_false]
        refine List.pairwise_cons.mpr ⟨fun b hb => ?_, ih hr.2⟩
        rcases Sparse.mem_put hb with rfl | hb
        · show i < k; omega
        · exact hr.1 b hb

/-- Every canonical write keeps the canonical form. -/
theorem Sparse.wf_set [DecidableEq α] {m : List (Nat × α)} (k : Nat) (v : α) (h : Sparse.wf d m = true) : Sparse.wf d (Sparse.set d m k v) = true := by
  rw [Sparse.wf_iff] at h ⊢
  unfold Sparse.set
  split
  · exact ⟨Sparse.drop_sorted k h.1, fun e he => h.2 e (Sparse.mem_drop he)⟩
  · rename_i hv
    refine ⟨Sparse.put_sorted k v h.1, fun e he => ?_⟩
    rcases Sparse.mem_put he with rfl | he
    · exact hv
    · exact h.2 e he

theorem Sparse.wf_setRun [DecidableEq α] {m : List (Nat × α)} (k : Nat) (vs : List α) (h : Sparse.wf d m = true) :
    Sparse.wf d (Sparse.setRun d m k vs) = true := by
  induction vs generalizing m k with
  | nil => exact h
  | cons v vs ih => exact ih (k + 1) (Sparse.wf_set d k v h)

theorem Sparse.wf_filter [DecidableEq α] {m : List (Nat × α)} (p : Nat × α → Bool) (h : Sparse.wf d m = true) : Sparse.wf d (m.filter p) = true := by
  rw [Sparse.wf_iff] at h ⊢
  exact ⟨h.1.filter p, fun e he => h.2 e (List.mem_of_mem_filter he)⟩

/-- Equal reads of canonical maps make equal data. -/
theorem Sparse.get_of_mem {m : List (Nat × α)} (hs : m.Pairwise (fun a b => a.1 < b.1)) {e : Nat × α} (he : e ∈ m) :
    Sparse.get d m e.1 = e.2 := by
  induction m with
  | nil => simp at he
  | cons x r ih =>
    obtain ⟨i, w⟩ := x
    have hr := List.pairwise_cons.mp hs
    rcases List.mem_cons.mp he with rfl | h
    · simp [Sparse.get]
    · have : e.1 ≠ i := by have := hr.1 e h; simp at this; omega
      simp [Sparse.get, this, ih hr.2 h]

/-! ### Families -/

@[simp] theorem Fam.get_set_same [DecidableEq α] (f : Fam α) (i : Nat) (v : α) : (f.set i v).get i = v := by
  simp [Fam.get, Fam.set]

theorem Fam.get_set_other [DecidableEq α] (f : Fam α) (i j : Nat) (v : α) (h : j ≠ i) : (f.set i v).get j = f.get j := by
  simp only [Fam.get, Fam.set]
  exact Sparse.get_set_other _ f.exc i j v h

/-- Mapping a family maps each unit. -/
@[simp] theorem Fam.get_map [DecidableEq α] (g : α → α) (f : Fam α) (i : Nat) : (f.map g).get i = g (f.get i) := by
  obtain ⟨d, m⟩ := f
  simp only [Fam.get, Fam.map]
  induction m with
  | nil => simp [Sparse.get]
  | cons e r ih =>
    obtain ⟨k, v⟩ := e
    simp only [List.foldr_cons]
    by_cases h : i = k
    · subst h
      simp [Sparse.get]
    · rw [Sparse.get_set_other _ _ _ _ _ h, ih]
      simp [Sparse.get, h]

/-- Writing back the units listed leaves the others. -/
theorem Fam.get_keep [DecidableEq α] (keep : List Nat) (f acc : Fam α) (i : Nat) :
    (keep.foldl (fun a j => a.set j (f.get j)) acc).get i = if i ∈ keep then f.get i else acc.get i := by
  induction keep generalizing acc with
  | nil => simp
  | cons j r ih =>
    simp only [List.foldl_cons, ih, List.mem_cons]
    by_cases hr : i ∈ r
    · simp [hr]
    · by_cases hj : i = j
      · subst hj
        simp [hr]
      · simp [hr, hj, Fam.get_set_other _ _ _ _ hj]

/-- Every unit but the ones kept is mapped. -/
theorem Fam.get_mapBut [DecidableEq α] (keep : List Nat) (g : α → α) (f : Fam α) (i : Nat) :
    (f.mapBut keep g).get i = if i ∈ keep then f.get i else g (f.get i) := by
  simp [Fam.mapBut, Fam.get_keep]

/-- A unit that is not listed stays. -/
theorem Fam.get_mapAt_other [DecidableEq α] (units : List Nat) (g : α → α) (f : Fam α) (i : Nat) (h : i ∉ units) :
    (f.mapAt units g).get i = f.get i := by
  induction units generalizing f with
  | nil => rfl
  | cons j r ih =>
    simp only [List.mem_cons, not_or] at h
    have := ih (f.set j (g (f.get j))) h.2
    simp only [Fam.mapAt, List.foldl_cons] at this ⊢
    rw [this, Fam.get_set_other _ _ _ _ h.1]

/-- A unit listed once is mapped. -/
theorem Fam.get_mapAt [DecidableEq α] (units : List Nat) (g : α → α) (f : Fam α) (i : Nat) (hn : units.Nodup) (h : i ∈ units) :
    (f.mapAt units g).get i = g (f.get i) := by
  induction units generalizing f with
  | nil => simp at h
  | cons j r ih =>
    have hn' := List.nodup_cons.mp hn
    rcases List.mem_cons.mp h with rfl | hr
    · have := Fam.get_mapAt_other r g (f.set i (g (f.get i))) i hn'.1
      simp only [Fam.mapAt, List.foldl_cons] at this ⊢
      rw [this, Fam.get_set_same]
    · have hj : i ≠ j := fun e => hn'.1 (e ▸ hr)
      have := ih (f.set j (g (f.get j))) hn'.2 hr
      simp only [Fam.mapAt, List.foldl_cons] at this ⊢
      rw [this, Fam.get_set_other _ _ _ _ hj]

/-- The units below `n` that `p` names are mapped. -/
theorem Fam.get_mapIf [DecidableEq α] (n : Nat) (p : Nat → Bool) (g : α → α) (f : Fam α) (i : Nat) (hi : i < n) :
    (f.mapIf n p g).get i = if p i = true then g (f.get i) else f.get i := by
  unfold Fam.mapIf
  split
  · rename_i hd
    obtain ⟨d, m⟩ := f
    simp only [Fam.get] at hd ⊢
    induction m with
    | nil =>
      simp only [List.foldr_nil, Sparse.get]
      split
      · exact hd.symm
      · rfl
    | cons e r ih =>
      obtain ⟨k, v⟩ := e
      simp only [List.foldr_cons]
      by_cases h : i = k
      · subst h
        simp [Sparse.get]
      · rw [Sparse.get_set_other _ _ _ _ _ h, ih]
        simp [Sparse.get, h]
  · split
    · rename_i hp
      exact Fam.get_mapAt _ g f i (List.nodup_range.filter _) (List.mem_filter.mpr ⟨List.mem_range.mpr hi, hp⟩)
    · rename_i hp
      exact Fam.get_mapAt_other _ g f i fun h => hp (List.mem_filter.mp h).2

end Sys2Proof.Machine
end

