-- ==== Sys2Proof/Laws/State.lean ====
section
/-! SUPPORT. What the named updates leave alone: one lemma per field of the state per update. -/

namespace Sys2Proof.Machine

/-! ### `State.setH` -/

@[simp] theorem State.setH_mem (s : State) (r : Reg) (i v : Nat) : (s.setH r i v).mem = s.mem := rfl
@[simp] theorem State.setH_flaws (s : State) (r : Reg) (i v : Nat) : (s.setH r i v).flaws = s.flaws := rfl
@[simp] theorem State.setH_mbx (s : State) (r : Reg) (i v : Nat) : (s.setH r i v).mbx = s.mbx := rfl
@[simp] theorem State.setH_cores (s : State) (r : Reg) (i v : Nat) : (s.setH r i v).cores = s.cores := rfl
@[simp] theorem State.setH_clusters (s : State) (r : Reg) (i v : Nat) : (s.setH r i v).clusters = s.clusters := rfl
@[simp] theorem State.setH_outbox (s : State) (r : Reg) (i v : Nat) : (s.setH r i v).outbox = s.outbox := rfl
@[simp] theorem State.setH_net (s : State) (r : Reg) (i v : Nat) : (s.setH r i v).net = s.net := rfl
@[simp] theorem State.setH_frontTab (s : State) (r : Reg) (i v : Nat) : (s.setH r i v).frontTab = s.frontTab := rfl
@[simp] theorem State.setH_frontQ (s : State) (r : Reg) (i v : Nat) : (s.setH r i v).frontQ = s.frontQ := rfl
@[simp] theorem State.setH_streams (s : State) (r : Reg) (i v : Nat) : (s.setH r i v).streams = s.streams := rfl
@[simp] theorem State.setH_frontHeld (s : State) (r : Reg) (i v : Nat) : (s.setH r i v).frontHeld = s.frontHeld := rfl
@[simp] theorem State.setH_quietG (s : State) (r : Reg) (i v : Nat) : (s.setH r i v).quietG = s.quietG := rfl
@[simp] theorem State.setH_quiescedG (s : State) (r : Reg) (i v : Nat) : (s.setH r i v).quiescedG = s.quiescedG := rfl
@[simp] theorem State.setH_quiesce (s : State) (r : Reg) (i v : Nat) : (s.setH r i v).quiesce = s.quiesce := rfl
@[simp] theorem State.setH_barrier (s : State) (r : Reg) (i v : Nat) : (s.setH r i v).barrier = s.barrier := rfl
@[simp] theorem State.setH_rake (s : State) (r : Reg) (i v : Nat) : (s.setH r i v).rake = s.rake := rfl
@[simp] theorem State.setH_step (s : State) (r : Reg) (i v : Nat) : (s.setH r i v).step = s.step := rfl
@[simp] theorem State.setH_sieve (s : State) (r : Reg) (i v : Nat) : (s.setH r i v).sieve = s.sieve := rfl
@[simp] theorem State.setH_layers (s : State) (r : Reg) (i v : Nat) : (s.setH r i v).layers = s.layers := rfl
@[simp] theorem State.setH_layersNext (s : State) (r : Reg) (i v : Nat) : (s.setH r i v).layersNext = s.layersNext := rfl
@[simp] theorem State.setH_factors (s : State) (r : Reg) (i v : Nat) : (s.setH r i v).factors = s.factors := rfl
@[simp] theorem State.setH_grafters (s : State) (r : Reg) (i v : Nat) : (s.setH r i v).grafters = s.grafters := rfl
@[simp] theorem State.setH_coll (s : State) (r : Reg) (i v : Nat) : (s.setH r i v).coll = s.coll := rfl
@[simp] theorem State.setH_links (s : State) (r : Reg) (i v : Nat) : (s.setH r i v).links = s.links := rfl
@[simp] theorem State.setH_harvest (s : State) (r : Reg) (i v : Nat) : (s.setH r i v).harvest = s.harvest := rfl
@[simp] theorem State.setH_rel (s : State) (r : Reg) (i v : Nat) : (s.setH r i v).rel = s.rel := rfl
@[simp] theorem State.setH_gauge (s : State) (r : Reg) (i v : Nat) : (s.setH r i v).gauge = s.gauge := rfl
@[simp] theorem State.setH_mb (s : State) (r : Reg) (i v : Nat) : (s.setH r i v).mb = s.mb := rfl
@[simp] theorem State.setH_host (s : State) (r : Reg) (i v : Nat) : (s.setH r i v).host = s.host := rfl
@[simp] theorem State.setH_sec (s : State) (r : Reg) (i v : Nat) : (s.setH r i v).sec = s.sec := rfl
@[simp] theorem State.setH_rst (s : State) (r : Reg) (i v : Nat) : (s.setH r i v).rst = s.rst := rfl
@[simp] theorem State.setH_pwr (s : State) (r : Reg) (i v : Nat) : (s.setH r i v).pwr = s.pwr := rfl
@[simp] theorem State.setH_fac (s : State) (r : Reg) (i v : Nat) : (s.setH r i v).fac = s.fac := rfl
@[simp] theorem State.setH_hubFlitCe (s : State) (r : Reg) (i v : Nat) : (s.setH r i v).hubFlitCe = s.hubFlitCe := rfl
@[simp] theorem State.setH_sundial (s : State) (r : Reg) (i v : Nat) : (s.setH r i v).sundial = s.sundial := rfl
@[simp] theorem State.setH_logs (s : State) (r : Reg) (i v : Nat) : (s.setH r i v).logs = s.logs := rfl
@[simp] theorem State.setH_logLost (s : State) (r : Reg) (i v : Nat) : (s.setH r i v).logLost = s.logLost := rfl
@[simp] theorem State.setH_policy (s : State) (r : Reg) (i v : Nat) : (s.setH r i v).policy = s.policy := rfl
@[simp] theorem State.setH_msix (s : State) (r : Reg) (i v : Nat) : (s.setH r i v).msix = s.msix := rfl
@[simp] theorem State.setH_fresh (s : State) (r : Reg) (i v : Nat) : (s.setH r i v).fresh = s.fresh := rfl
@[simp] theorem State.setH_pending (s : State) (r : Reg) (i v : Nat) : (s.setH r i v).pending = s.pending := rfl

/-! ### `State.setHf` -/

@[simp] theorem State.setHf_mem (s : State) (r : Reg) (i lo w v : Nat) : (s.setHf r i lo w v).mem = s.mem := rfl
@[simp] theorem State.setHf_flaws (s : State) (r : Reg) (i lo w v : Nat) : (s.setHf r i lo w v).flaws = s.flaws := rfl
@[simp] theorem State.setHf_mbx (s : State) (r : Reg) (i lo w v : Nat) : (s.setHf r i lo w v).mbx = s.mbx := rfl
@[simp] theorem State.setHf_cores (s : State) (r : Reg) (i lo w v : Nat) : (s.setHf r i lo w v).cores = s.cores := rfl
@[simp] theorem State.setHf_clusters (s : State) (r : Reg) (i lo w v : Nat) : (s.setHf r i lo w v).clusters = s.clusters := rfl
@[simp] theorem State.setHf_outbox (s : State) (r : Reg) (i lo w v : Nat) : (s.setHf r i lo w v).outbox = s.outbox := rfl
@[simp] theorem State.setHf_net (s : State) (r : Reg) (i lo w v : Nat) : (s.setHf r i lo w v).net = s.net := rfl
@[simp] theorem State.setHf_frontTab (s : State) (r : Reg) (i lo w v : Nat) : (s.setHf r i lo w v).frontTab = s.frontTab := rfl
@[simp] theorem State.setHf_frontQ (s : State) (r : Reg) (i lo w v : Nat) : (s.setHf r i lo w v).frontQ = s.frontQ := rfl
@[simp] theorem State.setHf_streams (s : State) (r : Reg) (i lo w v : Nat) : (s.setHf r i lo w v).streams = s.streams := rfl
@[simp] theorem State.setHf_frontHeld (s : State) (r : Reg) (i lo w v : Nat) : (s.setHf r i lo w v).frontHeld = s.frontHeld := rfl
@[simp] theorem State.setHf_quietG (s : State) (r : Reg) (i lo w v : Nat) : (s.setHf r i lo w v).quietG = s.quietG := rfl
@[simp] theorem State.setHf_quiescedG (s : State) (r : Reg) (i lo w v : Nat) : (s.setHf r i lo w v).quiescedG = s.quiescedG := rfl
@[simp] theorem State.setHf_quiesce (s : State) (r : Reg) (i lo w v : Nat) : (s.setHf r i lo w v).quiesce = s.quiesce := rfl
@[simp] theorem State.setHf_barrier (s : State) (r : Reg) (i lo w v : Nat) : (s.setHf r i lo w v).barrier = s.barrier := rfl
@[simp] theorem State.setHf_rake (s : State) (r : Reg) (i lo w v : Nat) : (s.setHf r i lo w v).rake = s.rake := rfl
@[simp] theorem State.setHf_step (s : State) (r : Reg) (i lo w v : Nat) : (s.setHf r i lo w v).step = s.step := rfl
@[simp] theorem State.setHf_sieve (s : State) (r : Reg) (i lo w v : Nat) : (s.setHf r i lo w v).sieve = s.sieve := rfl
@[simp] theorem State.setHf_layers (s : State) (r : Reg) (i lo w v : Nat) : (s.setHf r i lo w v).layers = s.layers := rfl
@[simp] theorem State.setHf_layersNext (s : State) (r : Reg) (i lo w v : Nat) : (s.setHf r i lo w v).layersNext = s.layersNext := rfl
@[simp] theorem State.setHf_factors (s : State) (r : Reg) (i lo w v : Nat) : (s.setHf r i lo w v).factors = s.factors := rfl
@[simp] theorem State.setHf_grafters (s : State) (r : Reg) (i lo w v : Nat) : (s.setHf r i lo w v).grafters = s.grafters := rfl
@[simp] theorem State.setHf_coll (s : State) (r : Reg) (i lo w v : Nat) : (s.setHf r i lo w v).coll = s.coll := rfl
@[simp] theorem State.setHf_links (s : State) (r : Reg) (i lo w v : Nat) : (s.setHf r i lo w v).links = s.links := rfl
@[simp] theorem State.setHf_harvest (s : State) (r : Reg) (i lo w v : Nat) : (s.setHf r i lo w v).harvest = s.harvest := rfl
@[simp] theorem State.setHf_rel (s : State) (r : Reg) (i lo w v : Nat) : (s.setHf r i lo w v).rel = s.rel := rfl
@[simp] theorem State.setHf_gauge (s : State) (r : Reg) (i lo w v : Nat) : (s.setHf r i lo w v).gauge = s.gauge := rfl
@[simp] theorem State.setHf_mb (s : State) (r : Reg) (i lo w v : Nat) : (s.setHf r i lo w v).mb = s.mb := rfl
@[simp] theorem State.setHf_host (s : State) (r : Reg) (i lo w v : Nat) : (s.setHf r i lo w v).host = s.host := rfl
@[simp] theorem State.setHf_sec (s : State) (r : Reg) (i lo w v : Nat) : (s.setHf r i lo w v).sec = s.sec := rfl
@[simp] theorem State.setHf_rst (s : State) (r : Reg) (i lo w v : Nat) : (s.setHf r i lo w v).rst = s.rst := rfl
@[simp] theorem State.setHf_pwr (s : State) (r : Reg) (i lo w v : Nat) : (s.setHf r i lo w v).pwr = s.pwr := rfl
@[simp] theorem State.setHf_fac (s : State) (r : Reg) (i lo w v : Nat) : (s.setHf r i lo w v).fac = s.fac := rfl
@[simp] theorem State.setHf_hubFlitCe (s : State) (r : Reg) (i lo w v : Nat) : (s.setHf r i lo w v).hubFlitCe = s.hubFlitCe := rfl
@[simp] theorem State.setHf_sundial (s : State) (r : Reg) (i lo w v : Nat) : (s.setHf r i lo w v).sundial = s.sundial := rfl
@[simp] theorem State.setHf_logs (s : State) (r : Reg) (i lo w v : Nat) : (s.setHf r i lo w v).logs = s.logs := rfl
@[simp] theorem State.setHf_logLost (s : State) (r : Reg) (i lo w v : Nat) : (s.setHf r i lo w v).logLost = s.logLost := rfl
@[simp] theorem State.setHf_policy (s : State) (r : Reg) (i lo w v : Nat) : (s.setHf r i lo w v).policy = s.policy := rfl
@[simp] theorem State.setHf_msix (s : State) (r : Reg) (i lo w v : Nat) : (s.setHf r i lo w v).msix = s.msix := rfl
@[simp] theorem State.setHf_fresh (s : State) (r : Reg) (i lo w v : Nat) : (s.setHf r i lo w v).fresh = s.fresh := rfl
@[simp] theorem State.setHf_pending (s : State) (r : Reg) (i lo w v : Nat) : (s.setHf r i lo w v).pending = s.pending := rfl

/-! ### `State.satH` -/

@[simp] theorem State.satH_mem (s : State) (r : Reg) (i lo w n : Nat) : (s.satH r i lo w n).mem = s.mem := rfl
@[simp] theorem State.satH_flaws (s : State) (r : Reg) (i lo w n : Nat) : (s.satH r i lo w n).flaws = s.flaws := rfl
@[simp] theorem State.satH_mbx (s : State) (r : Reg) (i lo w n : Nat) : (s.satH r i lo w n).mbx = s.mbx := rfl
@[simp] theorem State.satH_cores (s : State) (r : Reg) (i lo w n : Nat) : (s.satH r i lo w n).cores = s.cores := rfl
@[simp] theorem State.satH_clusters (s : State) (r : Reg) (i lo w n : Nat) : (s.satH r i lo w n).clusters = s.clusters := rfl
@[simp] theorem State.satH_outbox (s : State) (r : Reg) (i lo w n : Nat) : (s.satH r i lo w n).outbox = s.outbox := rfl
@[simp] theorem State.satH_net (s : State) (r : Reg) (i lo w n : Nat) : (s.satH r i lo w n).net = s.net := rfl
@[simp] theorem State.satH_frontTab (s : State) (r : Reg) (i lo w n : Nat) : (s.satH r i lo w n).frontTab = s.frontTab := rfl
@[simp] theorem State.satH_frontQ (s : State) (r : Reg) (i lo w n : Nat) : (s.satH r i lo w n).frontQ = s.frontQ := rfl
@[simp] theorem State.satH_streams (s : State) (r : Reg) (i lo w n : Nat) : (s.satH r i lo w n).streams = s.streams := rfl
@[simp] theorem State.satH_frontHeld (s : State) (r : Reg) (i lo w n : Nat) : (s.satH r i lo w n).frontHeld = s.frontHeld := rfl
@[simp] theorem State.satH_quietG (s : State) (r : Reg) (i lo w n : Nat) : (s.satH r i lo w n).quietG = s.quietG := rfl
@[simp] theorem State.satH_quiescedG (s : State) (r : Reg) (i lo w n : Nat) : (s.satH r i lo w n).quiescedG = s.quiescedG := rfl
@[simp] theorem State.satH_quiesce (s : State) (r : Reg) (i lo w n : Nat) : (s.satH r i lo w n).quiesce = s.quiesce := rfl
@[simp] theorem State.satH_barrier (s : State) (r : Reg) (i lo w n : Nat) : (s.satH r i lo w n).barrier = s.barrier := rfl
@[simp] theorem State.satH_rake (s : State) (r : Reg) (i lo w n : Nat) : (s.satH r i lo w n).rake = s.rake := rfl
@[simp] theorem State.satH_step (s : State) (r : Reg) (i lo w n : Nat) : (s.satH r i lo w n).step = s.step := rfl
@[simp] theorem State.satH_sieve (s : State) (r : Reg) (i lo w n : Nat) : (s.satH r i lo w n).sieve = s.sieve := rfl
@[simp] theorem State.satH_layers (s : State) (r : Reg) (i lo w n : Nat) : (s.satH r i lo w n).layers = s.layers := rfl
@[simp] theorem State.satH_layersNext (s : State) (r : Reg) (i lo w n : Nat) : (s.satH r i lo w n).layersNext = s.layersNext := rfl
@[simp] theorem State.satH_factors (s : State) (r : Reg) (i lo w n : Nat) : (s.satH r i lo w n).factors = s.factors := rfl
@[simp] theorem State.satH_grafters (s : State) (r : Reg) (i lo w n : Nat) : (s.satH r i lo w n).grafters = s.grafters := rfl
@[simp] theorem State.satH_coll (s : State) (r : Reg) (i lo w n : Nat) : (s.satH r i lo w n).coll = s.coll := rfl
@[simp] theorem State.satH_links (s : State) (r : Reg) (i lo w n : Nat) : (s.satH r i lo w n).links = s.links := rfl
@[simp] theorem State.satH_harvest (s : State) (r : Reg) (i lo w n : Nat) : (s.satH r i lo w n).harvest = s.harvest := rfl
@[simp] theorem State.satH_rel (s : State) (r : Reg) (i lo w n : Nat) : (s.satH r i lo w n).rel = s.rel := rfl
@[simp] theorem State.satH_gauge (s : State) (r : Reg) (i lo w n : Nat) : (s.satH r i lo w n).gauge = s.gauge := rfl
@[simp] theorem State.satH_mb (s : State) (r : Reg) (i lo w n : Nat) : (s.satH r i lo w n).mb = s.mb := rfl
@[simp] theorem State.satH_host (s : State) (r : Reg) (i lo w n : Nat) : (s.satH r i lo w n).host = s.host := rfl
@[simp] theorem State.satH_sec (s : State) (r : Reg) (i lo w n : Nat) : (s.satH r i lo w n).sec = s.sec := rfl
@[simp] theorem State.satH_rst (s : State) (r : Reg) (i lo w n : Nat) : (s.satH r i lo w n).rst = s.rst := rfl
@[simp] theorem State.satH_pwr (s : State) (r : Reg) (i lo w n : Nat) : (s.satH r i lo w n).pwr = s.pwr := rfl
@[simp] theorem State.satH_fac (s : State) (r : Reg) (i lo w n : Nat) : (s.satH r i lo w n).fac = s.fac := rfl
@[simp] theorem State.satH_hubFlitCe (s : State) (r : Reg) (i lo w n : Nat) : (s.satH r i lo w n).hubFlitCe = s.hubFlitCe := rfl
@[simp] theorem State.satH_sundial (s : State) (r : Reg) (i lo w n : Nat) : (s.satH r i lo w n).sundial = s.sundial := rfl
@[simp] theorem State.satH_logs (s : State) (r : Reg) (i lo w n : Nat) : (s.satH r i lo w n).logs = s.logs := rfl
@[simp] theorem State.satH_logLost (s : State) (r : Reg) (i lo w n : Nat) : (s.satH r i lo w n).logLost = s.logLost := rfl
@[simp] theorem State.satH_policy (s : State) (r : Reg) (i lo w n : Nat) : (s.satH r i lo w n).policy = s.policy := rfl
@[simp] theorem State.satH_msix (s : State) (r : Reg) (i lo w n : Nat) : (s.satH r i lo w n).msix = s.msix := rfl
@[simp] theorem State.satH_fresh (s : State) (r : Reg) (i lo w n : Nat) : (s.satH r i lo w n).fresh = s.fresh := rfl
@[simp] theorem State.satH_pending (s : State) (r : Reg) (i lo w n : Nat) : (s.satH r i lo w n).pending = s.pending := rfl

/-! ### `State.setStepNo` -/

@[simp] theorem State.setStepNo_mem (s : State) (n : Nat) : (s.setStepNo n).mem = s.mem := rfl
@[simp] theorem State.setStepNo_flaws (s : State) (n : Nat) : (s.setStepNo n).flaws = s.flaws := rfl
@[simp] theorem State.setStepNo_mbx (s : State) (n : Nat) : (s.setStepNo n).mbx = s.mbx := rfl
@[simp] theorem State.setStepNo_cores (s : State) (n : Nat) : (s.setStepNo n).cores = s.cores := rfl
@[simp] theorem State.setStepNo_clusters (s : State) (n : Nat) : (s.setStepNo n).clusters = s.clusters := rfl
@[simp] theorem State.setStepNo_outbox (s : State) (n : Nat) : (s.setStepNo n).outbox = s.outbox := rfl
@[simp] theorem State.setStepNo_net (s : State) (n : Nat) : (s.setStepNo n).net = s.net := rfl
@[simp] theorem State.setStepNo_frontTab (s : State) (n : Nat) : (s.setStepNo n).frontTab = s.frontTab := rfl
@[simp] theorem State.setStepNo_frontQ (s : State) (n : Nat) : (s.setStepNo n).frontQ = s.frontQ := rfl
@[simp] theorem State.setStepNo_streams (s : State) (n : Nat) : (s.setStepNo n).streams = s.streams := rfl
@[simp] theorem State.setStepNo_frontHeld (s : State) (n : Nat) : (s.setStepNo n).frontHeld = s.frontHeld := rfl
@[simp] theorem State.setStepNo_quietG (s : State) (n : Nat) : (s.setStepNo n).quietG = s.quietG := rfl
@[simp] theorem State.setStepNo_quiescedG (s : State) (n : Nat) : (s.setStepNo n).quiescedG = s.quiescedG := rfl
@[simp] theorem State.setStepNo_quiesce (s : State) (n : Nat) : (s.setStepNo n).quiesce = s.quiesce := rfl
@[simp] theorem State.setStepNo_barrier (s : State) (n : Nat) : (s.setStepNo n).barrier = s.barrier := rfl
@[simp] theorem State.setStepNo_rake (s : State) (n : Nat) : (s.setStepNo n).rake = s.rake := rfl
@[simp] theorem State.setStepNo_step (s : State) (n : Nat) : (s.setStepNo n).step = s.step := rfl
@[simp] theorem State.setStepNo_sieve (s : State) (n : Nat) : (s.setStepNo n).sieve = s.sieve := rfl
@[simp] theorem State.setStepNo_layers (s : State) (n : Nat) : (s.setStepNo n).layers = s.layers := rfl
@[simp] theorem State.setStepNo_layersNext (s : State) (n : Nat) : (s.setStepNo n).layersNext = s.layersNext := rfl
@[simp] theorem State.setStepNo_factors (s : State) (n : Nat) : (s.setStepNo n).factors = s.factors := rfl
@[simp] theorem State.setStepNo_grafters (s : State) (n : Nat) : (s.setStepNo n).grafters = s.grafters := rfl
@[simp] theorem State.setStepNo_coll (s : State) (n : Nat) : (s.setStepNo n).coll = s.coll := rfl
@[simp] theorem State.setStepNo_links (s : State) (n : Nat) : (s.setStepNo n).links = s.links := rfl
@[simp] theorem State.setStepNo_harvest (s : State) (n : Nat) : (s.setStepNo n).harvest = s.harvest := rfl
@[simp] theorem State.setStepNo_rel (s : State) (n : Nat) : (s.setStepNo n).rel = s.rel := rfl
@[simp] theorem State.setStepNo_gauge (s : State) (n : Nat) : (s.setStepNo n).gauge = s.gauge := rfl
@[simp] theorem State.setStepNo_mb (s : State) (n : Nat) : (s.setStepNo n).mb = s.mb := rfl
@[simp] theorem State.setStepNo_host (s : State) (n : Nat) : (s.setStepNo n).host = s.host := rfl
@[simp] theorem State.setStepNo_sec (s : State) (n : Nat) : (s.setStepNo n).sec = s.sec := rfl
@[simp] theorem State.setStepNo_rst (s : State) (n : Nat) : (s.setStepNo n).rst = s.rst := rfl
@[simp] theorem State.setStepNo_pwr (s : State) (n : Nat) : (s.setStepNo n).pwr = s.pwr := rfl
@[simp] theorem State.setStepNo_fac (s : State) (n : Nat) : (s.setStepNo n).fac = s.fac := rfl
@[simp] theorem State.setStepNo_hubFlitCe (s : State) (n : Nat) : (s.setStepNo n).hubFlitCe = s.hubFlitCe := rfl
@[simp] theorem State.setStepNo_sundial (s : State) (n : Nat) : (s.setStepNo n).sundial = s.sundial := rfl
@[simp] theorem State.setStepNo_logs (s : State) (n : Nat) : (s.setStepNo n).logs = s.logs := rfl
@[simp] theorem State.setStepNo_logLost (s : State) (n : Nat) : (s.setStepNo n).logLost = s.logLost := rfl
@[simp] theorem State.setStepNo_policy (s : State) (n : Nat) : (s.setStepNo n).policy = s.policy := rfl
@[simp] theorem State.setStepNo_msix (s : State) (n : Nat) : (s.setStepNo n).msix = s.msix := rfl
@[simp] theorem State.setStepNo_fresh (s : State) (n : Nat) : (s.setStepNo n).fresh = s.fresh := rfl
@[simp] theorem State.setStepNo_pending (s : State) (n : Nat) : (s.setStepNo n).pending = s.pending := rfl

/-! ### `State.setCore` -/

@[simp] theorem State.setCore_mem (s : State) (gi : Nat) (c : Core) : (s.setCore gi c).mem = s.mem := rfl
@[simp] theorem State.setCore_flaws (s : State) (gi : Nat) (c : Core) : (s.setCore gi c).flaws = s.flaws := rfl
@[simp] theorem State.setCore_hub (s : State) (gi : Nat) (c : Core) : (s.setCore gi c).hub = s.hub := rfl
@[simp] theorem State.setCore_mbx (s : State) (gi : Nat) (c : Core) : (s.setCore gi c).mbx = s.mbx := rfl
@[simp] theorem State.setCore_clusters (s : State) (gi : Nat) (c : Core) : (s.setCore gi c).clusters = s.clusters := rfl
@[simp] theorem State.setCore_outbox (s : State) (gi : Nat) (c : Core) : (s.setCore gi c).outbox = s.outbox := rfl
@[simp] theorem State.setCore_net (s : State) (gi : Nat) (c : Core) : (s.setCore gi c).net = s.net := rfl
@[simp] theorem State.setCore_frontTab (s : State) (gi : Nat) (c : Core) : (s.setCore gi c).frontTab = s.frontTab := rfl
@[simp] theorem State.setCore_frontQ (s : State) (gi : Nat) (c : Core) : (s.setCore gi c).frontQ = s.frontQ := rfl
@[simp] theorem State.setCore_streams (s : State) (gi : Nat) (c : Core) : (s.setCore gi c).streams = s.streams := rfl
@[simp] theorem State.setCore_frontHeld (s : State) (gi : Nat) (c : Core) : (s.setCore gi c).frontHeld = s.frontHeld := rfl
@[simp] theorem State.setCore_quietG (s : State) (gi : Nat) (c : Core) : (s.setCore gi c).quietG = s.quietG := rfl
@[simp] theorem State.setCore_quiescedG (s : State) (gi : Nat) (c : Core) : (s.setCore gi c).quiescedG = s.quiescedG := rfl
@[simp] theorem State.setCore_quiesce (s : State) (gi : Nat) (c : Core) : (s.setCore gi c).quiesce = s.quiesce := rfl
@[simp] theorem State.setCore_barrier (s : State) (gi : Nat) (c : Core) : (s.setCore gi c).barrier = s.barrier := rfl
@[simp] theorem State.setCore_rake (s : State) (gi : Nat) (c : Core) : (s.setCore gi c).rake = s.rake := rfl
@[simp] theorem State.setCore_step (s : State) (gi : Nat) (c : Core) : (s.setCore gi c).step = s.step := rfl
@[simp] theorem State.setCore_sieve (s : State) (gi : Nat) (c : Core) : (s.setCore gi c).sieve = s.sieve := rfl
@[simp] theorem State.setCore_layers (s : State) (gi : Nat) (c : Core) : (s.setCore gi c).layers = s.layers := rfl
@[simp] theorem State.setCore_layersNext (s : State) (gi : Nat) (c : Core) : (s.setCore gi c).layersNext = s.layersNext := rfl
@[simp] theorem State.setCore_factors (s : State) (gi : Nat) (c : Core) : (s.setCore gi c).factors = s.factors := rfl
@[simp] theorem State.setCore_grafters (s : State) (gi : Nat) (c : Core) : (s.setCore gi c).grafters = s.grafters := rfl
@[simp] theorem State.setCore_coll (s : State) (gi : Nat) (c : Core) : (s.setCore gi c).coll = s.coll := rfl
@[simp] theorem State.setCore_links (s : State) (gi : Nat) (c : Core) : (s.setCore gi c).links = s.links := rfl
@[simp] theorem State.setCore_harvest (s : State) (gi : Nat) (c : Core) : (s.setCore gi c).harvest = s.harvest := rfl
@[simp] theorem State.setCore_rel (s : State) (gi : Nat) (c : Core) : (s.setCore gi c).rel = s.rel := rfl
@[simp] theorem State.setCore_gauge (s : State) (gi : Nat) (c : Core) : (s.setCore gi c).gauge = s.gauge := rfl
@[simp] theorem State.setCore_mb (s : State) (gi : Nat) (c : Core) : (s.setCore gi c).mb = s.mb := rfl
@[simp] theorem State.setCore_host (s : State) (gi : Nat) (c : Core) : (s.setCore gi c).host = s.host := rfl
@[simp] theorem State.setCore_sec (s : State) (gi : Nat) (c : Core) : (s.setCore gi c).sec = s.sec := rfl
@[simp] theorem State.setCore_rst (s : State) (gi : Nat) (c : Core) : (s.setCore gi c).rst = s.rst := rfl
@[simp] theorem State.setCore_pwr (s : State) (gi : Nat) (c : Core) : (s.setCore gi c).pwr = s.pwr := rfl
@[simp] theorem State.setCore_fac (s : State) (gi : Nat) (c : Core) : (s.setCore gi c).fac = s.fac := rfl
@[simp] theorem State.setCore_hubFlitCe (s : State) (gi : Nat) (c : Core) : (s.setCore gi c).hubFlitCe = s.hubFlitCe := rfl
@[simp] theorem State.setCore_sundial (s : State) (gi : Nat) (c : Core) : (s.setCore gi c).sundial = s.sundial := rfl
@[simp] theorem State.setCore_logs (s : State) (gi : Nat) (c : Core) : (s.setCore gi c).logs = s.logs := rfl
@[simp] theorem State.setCore_logLost (s : State) (gi : Nat) (c : Core) : (s.setCore gi c).logLost = s.logLost := rfl
@[simp] theorem State.setCore_policy (s : State) (gi : Nat) (c : Core) : (s.setCore gi c).policy = s.policy := rfl
@[simp] theorem State.setCore_msix (s : State) (gi : Nat) (c : Core) : (s.setCore gi c).msix = s.msix := rfl
@[simp] theorem State.setCore_fresh (s : State) (gi : Nat) (c : Core) : (s.setCore gi c).fresh = s.fresh := rfl
@[simp] theorem State.setCore_pending (s : State) (gi : Nat) (c : Core) : (s.setCore gi c).pending = s.pending := rfl

/-! ### `State.modCore` -/

@[simp] theorem State.modCore_mem (s : State) (gi : Nat) (f : Core → Core) : (s.modCore gi f).mem = s.mem := rfl
@[simp] theorem State.modCore_flaws (s : State) (gi : Nat) (f : Core → Core) : (s.modCore gi f).flaws = s.flaws := rfl
@[simp] theorem State.modCore_hub (s : State) (gi : Nat) (f : Core → Core) : (s.modCore gi f).hub = s.hub := rfl
@[simp] theorem State.modCore_mbx (s : State) (gi : Nat) (f : Core → Core) : (s.modCore gi f).mbx = s.mbx := rfl
@[simp] theorem State.modCore_clusters (s : State) (gi : Nat) (f : Core → Core) : (s.modCore gi f).clusters = s.clusters := rfl
@[simp] theorem State.modCore_outbox (s : State) (gi : Nat) (f : Core → Core) : (s.modCore gi f).outbox = s.outbox := rfl
@[simp] theorem State.modCore_net (s : State) (gi : Nat) (f : Core → Core) : (s.modCore gi f).net = s.net := rfl
@[simp] theorem State.modCore_frontTab (s : State) (gi : Nat) (f : Core → Core) : (s.modCore gi f).frontTab = s.frontTab := rfl
@[simp] theorem State.modCore_frontQ (s : State) (gi : Nat) (f : Core → Core) : (s.modCore gi f).frontQ = s.frontQ := rfl
@[simp] theorem State.modCore_streams (s : State) (gi : Nat) (f : Core → Core) : (s.modCore gi f).streams = s.streams := rfl
@[simp] theorem State.modCore_frontHeld (s : State) (gi : Nat) (f : Core → Core) : (s.modCore gi f).frontHeld = s.frontHeld := rfl
@[simp] theorem State.modCore_quietG (s : State) (gi : Nat) (f : Core → Core) : (s.modCore gi f).quietG = s.quietG := rfl
@[simp] theorem State.modCore_quiescedG (s : State) (gi : Nat) (f : Core → Core) : (s.modCore gi f).quiescedG = s.quiescedG := rfl
@[simp] theorem State.modCore_quiesce (s : State) (gi : Nat) (f : Core → Core) : (s.modCore gi f).quiesce = s.quiesce := rfl
@[simp] theorem State.modCore_barrier (s : State) (gi : Nat) (f : Core → Core) : (s.modCore gi f).barrier = s.barrier := rfl
@[simp] theorem State.modCore_rake (s : State) (gi : Nat) (f : Core → Core) : (s.modCore gi f).rake = s.rake := rfl
@[simp] theorem State.modCore_step (s : State) (gi : Nat) (f : Core → Core) : (s.modCore gi f).step = s.step := rfl
@[simp] theorem State.modCore_sieve (s : State) (gi : Nat) (f : Core → Core) : (s.modCore gi f).sieve = s.sieve := rfl
@[simp] theorem State.modCore_layers (s : State) (gi : Nat) (f : Core → Core) : (s.modCore gi f).layers = s.layers := rfl
@[simp] theorem State.modCore_layersNext (s : State) (gi : Nat) (f : Core → Core) : (s.modCore gi f).layersNext = s.layersNext := rfl
@[simp] theorem State.modCore_factors (s : State) (gi : Nat) (f : Core → Core) : (s.modCore gi f).factors = s.factors := rfl
@[simp] theorem State.modCore_grafters (s : State) (gi : Nat) (f : Core → Core) : (s.modCore gi f).grafters = s.grafters := rfl
@[simp] theorem State.modCore_coll (s : State) (gi : Nat) (f : Core → Core) : (s.modCore gi f).coll = s.coll := rfl
@[simp] theorem State.modCore_links (s : State) (gi : Nat) (f : Core → Core) : (s.modCore gi f).links = s.links := rfl
@[simp] theorem State.modCore_harvest (s : State) (gi : Nat) (f : Core → Core) : (s.modCore gi f).harvest = s.harvest := rfl
@[simp] theorem State.modCore_rel (s : State) (gi : Nat) (f : Core → Core) : (s.modCore gi f).rel = s.rel := rfl
@[simp] theorem State.modCore_gauge (s : State) (gi : Nat) (f : Core → Core) : (s.modCore gi f).gauge = s.gauge := rfl
@[simp] theorem State.modCore_mb (s : State) (gi : Nat) (f : Core → Core) : (s.modCore gi f).mb = s.mb := rfl
@[simp] theorem State.modCore_host (s : State) (gi : Nat) (f : Core → Core) : (s.modCore gi f).host = s.host := rfl
@[simp] theorem State.modCore_sec (s : State) (gi : Nat) (f : Core → Core) : (s.modCore gi f).sec = s.sec := rfl
@[simp] theorem State.modCore_rst (s : State) (gi : Nat) (f : Core → Core) : (s.modCore gi f).rst = s.rst := rfl
@[simp] theorem State.modCore_pwr (s : State) (gi : Nat) (f : Core → Core) : (s.modCore gi f).pwr = s.pwr := rfl
@[simp] theorem State.modCore_fac (s : State) (gi : Nat) (f : Core → Core) : (s.modCore gi f).fac = s.fac := rfl
@[simp] theorem State.modCore_hubFlitCe (s : State) (gi : Nat) (f : Core → Core) : (s.modCore gi f).hubFlitCe = s.hubFlitCe := rfl
@[simp] theorem State.modCore_sundial (s : State) (gi : Nat) (f : Core → Core) : (s.modCore gi f).sundial = s.sundial := rfl
@[simp] theorem State.modCore_logs (s : State) (gi : Nat) (f : Core → Core) : (s.modCore gi f).logs = s.logs := rfl
@[simp] theorem State.modCore_logLost (s : State) (gi : Nat) (f : Core → Core) : (s.modCore gi f).logLost = s.logLost := rfl
@[simp] theorem State.modCore_policy (s : State) (gi : Nat) (f : Core → Core) : (s.modCore gi f).policy = s.policy := rfl
@[simp] theorem State.modCore_msix (s : State) (gi : Nat) (f : Core → Core) : (s.modCore gi f).msix = s.msix := rfl
@[simp] theorem State.modCore_fresh (s : State) (gi : Nat) (f : Core → Core) : (s.modCore gi f).fresh = s.fresh := rfl
@[simp] theorem State.modCore_pending (s : State) (gi : Nat) (f : Core → Core) : (s.modCore gi f).pending = s.pending := rfl

/-! ### `State.setCluster` -/

@[simp] theorem State.setCluster_mem (s : State) (ci : Nat) (c : Cluster) : (s.setCluster ci c).mem = s.mem := rfl
@[simp] theorem State.setCluster_flaws (s : State) (ci : Nat) (c : Cluster) : (s.setCluster ci c).flaws = s.flaws := rfl
@[simp] theorem State.setCluster_hub (s : State) (ci : Nat) (c : Cluster) : (s.setCluster ci c).hub = s.hub := rfl
@[simp] theorem State.setCluster_mbx (s : State) (ci : Nat) (c : Cluster) : (s.setCluster ci c).mbx = s.mbx := rfl
@[simp] theorem State.setCluster_cores (s : State) (ci : Nat) (c : Cluster) : (s.setCluster ci c).cores = s.cores := rfl
@[simp] theorem State.setCluster_outbox (s : State) (ci : Nat) (c : Cluster) : (s.setCluster ci c).outbox = s.outbox := rfl
@[simp] theorem State.setCluster_net (s : State) (ci : Nat) (c : Cluster) : (s.setCluster ci c).net = s.net := rfl
@[simp] theorem State.setCluster_frontTab (s : State) (ci : Nat) (c : Cluster) : (s.setCluster ci c).frontTab = s.frontTab := rfl
@[simp] theorem State.setCluster_frontQ (s : State) (ci : Nat) (c : Cluster) : (s.setCluster ci c).frontQ = s.frontQ := rfl
@[simp] theorem State.setCluster_streams (s : State) (ci : Nat) (c : Cluster) : (s.setCluster ci c).streams = s.streams := rfl
@[simp] theorem State.setCluster_frontHeld (s : State) (ci : Nat) (c : Cluster) : (s.setCluster ci c).frontHeld = s.frontHeld := rfl
@[simp] theorem State.setCluster_quietG (s : State) (ci : Nat) (c : Cluster) : (s.setCluster ci c).quietG = s.quietG := rfl
@[simp] theorem State.setCluster_quiescedG (s : State) (ci : Nat) (c : Cluster) : (s.setCluster ci c).quiescedG = s.quiescedG := rfl
@[simp] theorem State.setCluster_quiesce (s : State) (ci : Nat) (c : Cluster) : (s.setCluster ci c).quiesce = s.quiesce := rfl
@[simp] theorem State.setCluster_barrier (s : State) (ci : Nat) (c : Cluster) : (s.setCluster ci c).barrier = s.barrier := rfl
@[simp] theorem State.setCluster_rake (s : State) (ci : Nat) (c : Cluster) : (s.setCluster ci c).rake = s.rake := rfl
@[simp] theorem State.setCluster_step (s : State) (ci : Nat) (c : Cluster) : (s.setCluster ci c).step = s.step := rfl
@[simp] theorem State.setCluster_sieve (s : State) (ci : Nat) (c : Cluster) : (s.setCluster ci c).sieve = s.sieve := rfl
@[simp] theorem State.setCluster_layers (s : State) (ci : Nat) (c : Cluster) : (s.setCluster ci c).layers = s.layers := rfl
@[simp] theorem State.setCluster_layersNext (s : State) (ci : Nat) (c : Cluster) : (s.setCluster ci c).layersNext = s.layersNext := rfl
@[simp] theorem State.setCluster_factors (s : State) (ci : Nat) (c : Cluster) : (s.setCluster ci c).factors = s.factors := rfl
@[simp] theorem State.setCluster_grafters (s : State) (ci : Nat) (c : Cluster) : (s.setCluster ci c).grafters = s.grafters := rfl
@[simp] theorem State.setCluster_coll (s : State) (ci : Nat) (c : Cluster) : (s.setCluster ci c).coll = s.coll := rfl
@[simp] theorem State.setCluster_links (s : State) (ci : Nat) (c : Cluster) : (s.setCluster ci c).links = s.links := rfl
@[simp] theorem State.setCluster_harvest (s : State) (ci : Nat) (c : Cluster) : (s.setCluster ci c).harvest = s.harvest := rfl
@[simp] theorem State.setCluster_rel (s : State) (ci : Nat) (c : Cluster) : (s.setCluster ci c).rel = s.rel := rfl
@[simp] theorem State.setCluster_gauge (s : State) (ci : Nat) (c : Cluster) : (s.setCluster ci c).gauge = s.gauge := rfl
@[simp] theorem State.setCluster_mb (s : State) (ci : Nat) (c : Cluster) : (s.setCluster ci c).mb = s.mb := rfl
@[simp] theorem State.setCluster_host (s : State) (ci : Nat) (c : Cluster) : (s.setCluster ci c).host = s.host := rfl
@[simp] theorem State.setCluster_sec (s : State) (ci : Nat) (c : Cluster) : (s.setCluster ci c).sec = s.sec := rfl
@[simp] theorem State.setCluster_rst (s : State) (ci : Nat) (c : Cluster) : (s.setCluster ci c).rst = s.rst := rfl
@[simp] theorem State.setCluster_pwr (s : State) (ci : Nat) (c : Cluster) : (s.setCluster ci c).pwr = s.pwr := rfl
@[simp] theorem State.setCluster_fac (s : State) (ci : Nat) (c : Cluster) : (s.setCluster ci c).fac = s.fac := rfl
@[simp] theorem State.setCluster_hubFlitCe (s : State) (ci : Nat) (c : Cluster) : (s.setCluster ci c).hubFlitCe = s.hubFlitCe := rfl
@[simp] theorem State.setCluster_sundial (s : State) (ci : Nat) (c : Cluster) : (s.setCluster ci c).sundial = s.sundial := rfl
@[simp] theorem State.setCluster_logs (s : State) (ci : Nat) (c : Cluster) : (s.setCluster ci c).logs = s.logs := rfl
@[simp] theorem State.setCluster_logLost (s : State) (ci : Nat) (c : Cluster) : (s.setCluster ci c).logLost = s.logLost := rfl
@[simp] theorem State.setCluster_policy (s : State) (ci : Nat) (c : Cluster) : (s.setCluster ci c).policy = s.policy := rfl
@[simp] theorem State.setCluster_msix (s : State) (ci : Nat) (c : Cluster) : (s.setCluster ci c).msix = s.msix := rfl
@[simp] theorem State.setCluster_fresh (s : State) (ci : Nat) (c : Cluster) : (s.setCluster ci c).fresh = s.fresh := rfl
@[simp] theorem State.setCluster_pending (s : State) (ci : Nat) (c : Cluster) : (s.setCluster ci c).pending = s.pending := rfl

/-! ### `State.modCluster` -/

@[simp] theorem State.modCluster_mem (s : State) (ci : Nat) (f : Cluster → Cluster) : (s.modCluster ci f).mem = s.mem := rfl
@[simp] theorem State.modCluster_flaws (s : State) (ci : Nat) (f : Cluster → Cluster) : (s.modCluster ci f).flaws = s.flaws := rfl
@[simp] theorem State.modCluster_hub (s : State) (ci : Nat) (f : Cluster → Cluster) : (s.modCluster ci f).hub = s.hub := rfl
@[simp] theorem State.modCluster_mbx (s : State) (ci : Nat) (f : Cluster → Cluster) : (s.modCluster ci f).mbx = s.mbx := rfl
@[simp] theorem State.modCluster_cores (s : State) (ci : Nat) (f : Cluster → Cluster) : (s.modCluster ci f).cores = s.cores := rfl
@[simp] theorem State.modCluster_outbox (s : State) (ci : Nat) (f : Cluster → Cluster) : (s.modCluster ci f).outbox = s.outbox := rfl
@[simp] theorem State.modCluster_net (s : State) (ci : Nat) (f : Cluster → Cluster) : (s.modCluster ci f).net = s.net := rfl
@[simp] theorem State.modCluster_frontTab (s : State) (ci : Nat) (f : Cluster → Cluster) : (s.modCluster ci f).frontTab = s.frontTab := rfl
@[simp] theorem State.modCluster_frontQ (s : State) (ci : Nat) (f : Cluster → Cluster) : (s.modCluster ci f).frontQ = s.frontQ := rfl
@[simp] theorem State.modCluster_streams (s : State) (ci : Nat) (f : Cluster → Cluster) : (s.modCluster ci f).streams = s.streams := rfl
@[simp] theorem State.modCluster_frontHeld (s : State) (ci : Nat) (f : Cluster → Cluster) : (s.modCluster ci f).frontHeld = s.frontHeld := rfl
@[simp] theorem State.modCluster_quietG (s : State) (ci : Nat) (f : Cluster → Cluster) : (s.modCluster ci f).quietG = s.quietG := rfl
@[simp] theorem State.modCluster_quiescedG (s : State) (ci : Nat) (f : Cluster → Cluster) : (s.modCluster ci f).quiescedG = s.quiescedG := rfl
@[simp] theorem State.modCluster_quiesce (s : State) (ci : Nat) (f : Cluster → Cluster) : (s.modCluster ci f).quiesce = s.quiesce := rfl
@[simp] theorem State.modCluster_barrier (s : State) (ci : Nat) (f : Cluster → Cluster) : (s.modCluster ci f).barrier = s.barrier := rfl
@[simp] theorem State.modCluster_rake (s : State) (ci : Nat) (f : Cluster → Cluster) : (s.modCluster ci f).rake = s.rake := rfl
@[simp] theorem State.modCluster_step (s : State) (ci : Nat) (f : Cluster → Cluster) : (s.modCluster ci f).step = s.step := rfl
@[simp] theorem State.modCluster_sieve (s : State) (ci : Nat) (f : Cluster → Cluster) : (s.modCluster ci f).sieve = s.sieve := rfl
@[simp] theorem State.modCluster_layers (s : State) (ci : Nat) (f : Cluster → Cluster) : (s.modCluster ci f).layers = s.layers := rfl
@[simp] theorem State.modCluster_layersNext (s : State) (ci : Nat) (f : Cluster → Cluster) : (s.modCluster ci f).layersNext = s.layersNext := rfl
@[simp] theorem State.modCluster_factors (s : State) (ci : Nat) (f : Cluster → Cluster) : (s.modCluster ci f).factors = s.factors := rfl
@[simp] theorem State.modCluster_grafters (s : State) (ci : Nat) (f : Cluster → Cluster) : (s.modCluster ci f).grafters = s.grafters := rfl
@[simp] theorem State.modCluster_coll (s : State) (ci : Nat) (f : Cluster → Cluster) : (s.modCluster ci f).coll = s.coll := rfl
@[simp] theorem State.modCluster_links (s : State) (ci : Nat) (f : Cluster → Cluster) : (s.modCluster ci f).links = s.links := rfl
@[simp] theorem State.modCluster_harvest (s : State) (ci : Nat) (f : Cluster → Cluster) : (s.modCluster ci f).harvest = s.harvest := rfl
@[simp] theorem State.modCluster_rel (s : State) (ci : Nat) (f : Cluster → Cluster) : (s.modCluster ci f).rel = s.rel := rfl
@[simp] theorem State.modCluster_gauge (s : State) (ci : Nat) (f : Cluster → Cluster) : (s.modCluster ci f).gauge = s.gauge := rfl
@[simp] theorem State.modCluster_mb (s : State) (ci : Nat) (f : Cluster → Cluster) : (s.modCluster ci f).mb = s.mb := rfl
@[simp] theorem State.modCluster_host (s : State) (ci : Nat) (f : Cluster → Cluster) : (s.modCluster ci f).host = s.host := rfl
@[simp] theorem State.modCluster_sec (s : State) (ci : Nat) (f : Cluster → Cluster) : (s.modCluster ci f).sec = s.sec := rfl
@[simp] theorem State.modCluster_rst (s : State) (ci : Nat) (f : Cluster → Cluster) : (s.modCluster ci f).rst = s.rst := rfl
@[simp] theorem State.modCluster_pwr (s : State) (ci : Nat) (f : Cluster → Cluster) : (s.modCluster ci f).pwr = s.pwr := rfl
@[simp] theorem State.modCluster_fac (s : State) (ci : Nat) (f : Cluster → Cluster) : (s.modCluster ci f).fac = s.fac := rfl
@[simp] theorem State.modCluster_hubFlitCe (s : State) (ci : Nat) (f : Cluster → Cluster) : (s.modCluster ci f).hubFlitCe = s.hubFlitCe := rfl
@[simp] theorem State.modCluster_sundial (s : State) (ci : Nat) (f : Cluster → Cluster) : (s.modCluster ci f).sundial = s.sundial := rfl
@[simp] theorem State.modCluster_logs (s : State) (ci : Nat) (f : Cluster → Cluster) : (s.modCluster ci f).logs = s.logs := rfl
@[simp] theorem State.modCluster_logLost (s : State) (ci : Nat) (f : Cluster → Cluster) : (s.modCluster ci f).logLost = s.logLost := rfl
@[simp] theorem State.modCluster_policy (s : State) (ci : Nat) (f : Cluster → Cluster) : (s.modCluster ci f).policy = s.policy := rfl
@[simp] theorem State.modCluster_msix (s : State) (ci : Nat) (f : Cluster → Cluster) : (s.modCluster ci f).msix = s.msix := rfl
@[simp] theorem State.modCluster_fresh (s : State) (ci : Nat) (f : Cluster → Cluster) : (s.modCluster ci f).fresh = s.fresh := rfl
@[simp] theorem State.modCluster_pending (s : State) (ci : Nat) (f : Cluster → Cluster) : (s.modCluster ci f).pending = s.pending := rfl

/-! ### `State.satC` -/

@[simp] theorem State.satC_mem (s : State) (ci : Nat) (r : Reg) (i lo w n : Nat) : (s.satC ci r i lo w n).mem = s.mem := rfl
@[simp] theorem State.satC_flaws (s : State) (ci : Nat) (r : Reg) (i lo w n : Nat) : (s.satC ci r i lo w n).flaws = s.flaws := rfl
@[simp] theorem State.satC_hub (s : State) (ci : Nat) (r : Reg) (i lo w n : Nat) : (s.satC ci r i lo w n).hub = s.hub := rfl
@[simp] theorem State.satC_mbx (s : State) (ci : Nat) (r : Reg) (i lo w n : Nat) : (s.satC ci r i lo w n).mbx = s.mbx := rfl
@[simp] theorem State.satC_cores (s : State) (ci : Nat) (r : Reg) (i lo w n : Nat) : (s.satC ci r i lo w n).cores = s.cores := rfl
@[simp] theorem State.satC_outbox (s : State) (ci : Nat) (r : Reg) (i lo w n : Nat) : (s.satC ci r i lo w n).outbox = s.outbox := rfl
@[simp] theorem State.satC_net (s : State) (ci : Nat) (r : Reg) (i lo w n : Nat) : (s.satC ci r i lo w n).net = s.net := rfl
@[simp] theorem State.satC_frontTab (s : State) (ci : Nat) (r : Reg) (i lo w n : Nat) : (s.satC ci r i lo w n).frontTab = s.frontTab := rfl
@[simp] theorem State.satC_frontQ (s : State) (ci : Nat) (r : Reg) (i lo w n : Nat) : (s.satC ci r i lo w n).frontQ = s.frontQ := rfl
@[simp] theorem State.satC_streams (s : State) (ci : Nat) (r : Reg) (i lo w n : Nat) : (s.satC ci r i lo w n).streams = s.streams := rfl
@[simp] theorem State.satC_frontHeld (s : State) (ci : Nat) (r : Reg) (i lo w n : Nat) : (s.satC ci r i lo w n).frontHeld = s.frontHeld := rfl
@[simp] theorem State.satC_quietG (s : State) (ci : Nat) (r : Reg) (i lo w n : Nat) : (s.satC ci r i lo w n).quietG = s.quietG := rfl
@[simp] theorem State.satC_quiescedG (s : State) (ci : Nat) (r : Reg) (i lo w n : Nat) : (s.satC ci r i lo w n).quiescedG = s.quiescedG := rfl
@[simp] theorem State.satC_quiesce (s : State) (ci : Nat) (r : Reg) (i lo w n : Nat) : (s.satC ci r i lo w n).quiesce = s.quiesce := rfl
@[simp] theorem State.satC_barrier (s : State) (ci : Nat) (r : Reg) (i lo w n : Nat) : (s.satC ci r i lo w n).barrier = s.barrier := rfl
@[simp] theorem State.satC_rake (s : State) (ci : Nat) (r : Reg) (i lo w n : Nat) : (s.satC ci r i lo w n).rake = s.rake := rfl
@[simp] theorem State.satC_step (s : State) (ci : Nat) (r : Reg) (i lo w n : Nat) : (s.satC ci r i lo w n).step = s.step := rfl
@[simp] theorem State.satC_sieve (s : State) (ci : Nat) (r : Reg) (i lo w n : Nat) : (s.satC ci r i lo w n).sieve = s.sieve := rfl
@[simp] theorem State.satC_layers (s : State) (ci : Nat) (r : Reg) (i lo w n : Nat) : (s.satC ci r i lo w n).layers = s.layers := rfl
@[simp] theorem State.satC_layersNext (s : State) (ci : Nat) (r : Reg) (i lo w n : Nat) : (s.satC ci r i lo w n).layersNext = s.layersNext := rfl
@[simp] theorem State.satC_factors (s : State) (ci : Nat) (r : Reg) (i lo w n : Nat) : (s.satC ci r i lo w n).factors = s.factors := rfl
@[simp] theorem State.satC_grafters (s : State) (ci : Nat) (r : Reg) (i lo w n : Nat) : (s.satC ci r i lo w n).grafters = s.grafters := rfl
@[simp] theorem State.satC_coll (s : State) (ci : Nat) (r : Reg) (i lo w n : Nat) : (s.satC ci r i lo w n).coll = s.coll := rfl
@[simp] theorem State.satC_links (s : State) (ci : Nat) (r : Reg) (i lo w n : Nat) : (s.satC ci r i lo w n).links = s.links := rfl
@[simp] theorem State.satC_harvest (s : State) (ci : Nat) (r : Reg) (i lo w n : Nat) : (s.satC ci r i lo w n).harvest = s.harvest := rfl
@[simp] theorem State.satC_rel (s : State) (ci : Nat) (r : Reg) (i lo w n : Nat) : (s.satC ci r i lo w n).rel = s.rel := rfl
@[simp] theorem State.satC_gauge (s : State) (ci : Nat) (r : Reg) (i lo w n : Nat) : (s.satC ci r i lo w n).gauge = s.gauge := rfl
@[simp] theorem State.satC_mb (s : State) (ci : Nat) (r : Reg) (i lo w n : Nat) : (s.satC ci r i lo w n).mb = s.mb := rfl
@[simp] theorem State.satC_host (s : State) (ci : Nat) (r : Reg) (i lo w n : Nat) : (s.satC ci r i lo w n).host = s.host := rfl
@[simp] theorem State.satC_sec (s : State) (ci : Nat) (r : Reg) (i lo w n : Nat) : (s.satC ci r i lo w n).sec = s.sec := rfl
@[simp] theorem State.satC_rst (s : State) (ci : Nat) (r : Reg) (i lo w n : Nat) : (s.satC ci r i lo w n).rst = s.rst := rfl
@[simp] theorem State.satC_pwr (s : State) (ci : Nat) (r : Reg) (i lo w n : Nat) : (s.satC ci r i lo w n).pwr = s.pwr := rfl
@[simp] theorem State.satC_fac (s : State) (ci : Nat) (r : Reg) (i lo w n : Nat) : (s.satC ci r i lo w n).fac = s.fac := rfl
@[simp] theorem State.satC_hubFlitCe (s : State) (ci : Nat) (r : Reg) (i lo w n : Nat) : (s.satC ci r i lo w n).hubFlitCe = s.hubFlitCe := rfl
@[simp] theorem State.satC_sundial (s : State) (ci : Nat) (r : Reg) (i lo w n : Nat) : (s.satC ci r i lo w n).sundial = s.sundial := rfl
@[simp] theorem State.satC_logs (s : State) (ci : Nat) (r : Reg) (i lo w n : Nat) : (s.satC ci r i lo w n).logs = s.logs := rfl
@[simp] theorem State.satC_logLost (s : State) (ci : Nat) (r : Reg) (i lo w n : Nat) : (s.satC ci r i lo w n).logLost = s.logLost := rfl
@[simp] theorem State.satC_policy (s : State) (ci : Nat) (r : Reg) (i lo w n : Nat) : (s.satC ci r i lo w n).policy = s.policy := rfl
@[simp] theorem State.satC_msix (s : State) (ci : Nat) (r : Reg) (i lo w n : Nat) : (s.satC ci r i lo w n).msix = s.msix := rfl
@[simp] theorem State.satC_fresh (s : State) (ci : Nat) (r : Reg) (i lo w n : Nat) : (s.satC ci r i lo w n).fresh = s.fresh := rfl
@[simp] theorem State.satC_pending (s : State) (ci : Nat) (r : Reg) (i lo w n : Nat) : (s.satC ci r i lo w n).pending = s.pending := rfl

/-! ### `State.setCf` -/

@[simp] theorem State.setCf_mem (s : State) (ci : Nat) (r : Reg) (i lo w v : Nat) : (s.setCf ci r i lo w v).mem = s.mem := rfl
@[simp] theorem State.setCf_flaws (s : State) (ci : Nat) (r : Reg) (i lo w v : Nat) : (s.setCf ci r i lo w v).flaws = s.flaws := rfl
@[simp] theorem State.setCf_hub (s : State) (ci : Nat) (r : Reg) (i lo w v : Nat) : (s.setCf ci r i lo w v).hub = s.hub := rfl
@[simp] theorem State.setCf_mbx (s : State) (ci : Nat) (r : Reg) (i lo w v : Nat) : (s.setCf ci r i lo w v).mbx = s.mbx := rfl
@[simp] theorem State.setCf_cores (s : State) (ci : Nat) (r : Reg) (i lo w v : Nat) : (s.setCf ci r i lo w v).cores = s.cores := rfl
@[simp] theorem State.setCf_outbox (s : State) (ci : Nat) (r : Reg) (i lo w v : Nat) : (s.setCf ci r i lo w v).outbox = s.outbox := rfl
@[simp] theorem State.setCf_net (s : State) (ci : Nat) (r : Reg) (i lo w v : Nat) : (s.setCf ci r i lo w v).net = s.net := rfl
@[simp] theorem State.setCf_frontTab (s : State) (ci : Nat) (r : Reg) (i lo w v : Nat) : (s.setCf ci r i lo w v).frontTab = s.frontTab := rfl
@[simp] theorem State.setCf_frontQ (s : State) (ci : Nat) (r : Reg) (i lo w v : Nat) : (s.setCf ci r i lo w v).frontQ = s.frontQ := rfl
@[simp] theorem State.setCf_streams (s : State) (ci : Nat) (r : Reg) (i lo w v : Nat) : (s.setCf ci r i lo w v).streams = s.streams := rfl
@[simp] theorem State.setCf_frontHeld (s : State) (ci : Nat) (r : Reg) (i lo w v : Nat) : (s.setCf ci r i lo w v).frontHeld = s.frontHeld := rfl
@[simp] theorem State.setCf_quietG (s : State) (ci : Nat) (r : Reg) (i lo w v : Nat) : (s.setCf ci r i lo w v).quietG = s.quietG := rfl
@[simp] theorem State.setCf_quiescedG (s : State) (ci : Nat) (r : Reg) (i lo w v : Nat) : (s.setCf ci r i lo w v).quiescedG = s.quiescedG := rfl
@[simp] theorem State.setCf_quiesce (s : State) (ci : Nat) (r : Reg) (i lo w v : Nat) : (s.setCf ci r i lo w v).quiesce = s.quiesce := rfl
@[simp] theorem State.setCf_barrier (s : State) (ci : Nat) (r : Reg) (i lo w v : Nat) : (s.setCf ci r i lo w v).barrier = s.barrier := rfl
@[simp] theorem State.setCf_rake (s : State) (ci : Nat) (r : Reg) (i lo w v : Nat) : (s.setCf ci r i lo w v).rake = s.rake := rfl
@[simp] theorem State.setCf_step (s : State) (ci : Nat) (r : Reg) (i lo w v : Nat) : (s.setCf ci r i lo w v).step = s.step := rfl
@[simp] theorem State.setCf_sieve (s : State) (ci : Nat) (r : Reg) (i lo w v : Nat) : (s.setCf ci r i lo w v).sieve = s.sieve := rfl
@[simp] theorem State.setCf_layers (s : State) (ci : Nat) (r : Reg) (i lo w v : Nat) : (s.setCf ci r i lo w v).layers = s.layers := rfl
@[simp] theorem State.setCf_layersNext (s : State) (ci : Nat) (r : Reg) (i lo w v : Nat) : (s.setCf ci r i lo w v).layersNext = s.layersNext := rfl
@[simp] theorem State.setCf_factors (s : State) (ci : Nat) (r : Reg) (i lo w v : Nat) : (s.setCf ci r i lo w v).factors = s.factors := rfl
@[simp] theorem State.setCf_grafters (s : State) (ci : Nat) (r : Reg) (i lo w v : Nat) : (s.setCf ci r i lo w v).grafters = s.grafters := rfl
@[simp] theorem State.setCf_coll (s : State) (ci : Nat) (r : Reg) (i lo w v : Nat) : (s.setCf ci r i lo w v).coll = s.coll := rfl
@[simp] theorem State.setCf_links (s : State) (ci : Nat) (r : Reg) (i lo w v : Nat) : (s.setCf ci r i lo w v).links = s.links := rfl
@[simp] theorem State.setCf_harvest (s : State) (ci : Nat) (r : Reg) (i lo w v : Nat) : (s.setCf ci r i lo w v).harvest = s.harvest := rfl
@[simp] theorem State.setCf_rel (s : State) (ci : Nat) (r : Reg) (i lo w v : Nat) : (s.setCf ci r i lo w v).rel = s.rel := rfl
@[simp] theorem State.setCf_gauge (s : State) (ci : Nat) (r : Reg) (i lo w v : Nat) : (s.setCf ci r i lo w v).gauge = s.gauge := rfl
@[simp] theorem State.setCf_mb (s : State) (ci : Nat) (r : Reg) (i lo w v : Nat) : (s.setCf ci r i lo w v).mb = s.mb := rfl
@[simp] theorem State.setCf_host (s : State) (ci : Nat) (r : Reg) (i lo w v : Nat) : (s.setCf ci r i lo w v).host = s.host := rfl
@[simp] theorem State.setCf_sec (s : State) (ci : Nat) (r : Reg) (i lo w v : Nat) : (s.setCf ci r i lo w v).sec = s.sec := rfl
@[simp] theorem State.setCf_rst (s : State) (ci : Nat) (r : Reg) (i lo w v : Nat) : (s.setCf ci r i lo w v).rst = s.rst := rfl
@[simp] theorem State.setCf_pwr (s : State) (ci : Nat) (r : Reg) (i lo w v : Nat) : (s.setCf ci r i lo w v).pwr = s.pwr := rfl
@[simp] theorem State.setCf_fac (s : State) (ci : Nat) (r : Reg) (i lo w v : Nat) : (s.setCf ci r i lo w v).fac = s.fac := rfl
@[simp] theorem State.setCf_hubFlitCe (s : State) (ci : Nat) (r : Reg) (i lo w v : Nat) : (s.setCf ci r i lo w v).hubFlitCe = s.hubFlitCe := rfl
@[simp] theorem State.setCf_sundial (s : State) (ci : Nat) (r : Reg) (i lo w v : Nat) : (s.setCf ci r i lo w v).sundial = s.sundial := rfl
@[simp] theorem State.setCf_logs (s : State) (ci : Nat) (r : Reg) (i lo w v : Nat) : (s.setCf ci r i lo w v).logs = s.logs := rfl
@[simp] theorem State.setCf_logLost (s : State) (ci : Nat) (r : Reg) (i lo w v : Nat) : (s.setCf ci r i lo w v).logLost = s.logLost := rfl
@[simp] theorem State.setCf_policy (s : State) (ci : Nat) (r : Reg) (i lo w v : Nat) : (s.setCf ci r i lo w v).policy = s.policy := rfl
@[simp] theorem State.setCf_msix (s : State) (ci : Nat) (r : Reg) (i lo w v : Nat) : (s.setCf ci r i lo w v).msix = s.msix := rfl
@[simp] theorem State.setCf_fresh (s : State) (ci : Nat) (r : Reg) (i lo w v : Nat) : (s.setCf ci r i lo w v).fresh = s.fresh := rfl
@[simp] theorem State.setCf_pending (s : State) (ci : Nat) (r : Reg) (i lo w v : Nat) : (s.setCf ci r i lo w v).pending = s.pending := rfl

/-! ### `State.raiseMsix` -/

@[simp] theorem State.raiseMsix_mem (s : State) (v : Nat) : (s.raiseMsix v).mem = s.mem := rfl
@[simp] theorem State.raiseMsix_flaws (s : State) (v : Nat) : (s.raiseMsix v).flaws = s.flaws := rfl
@[simp] theorem State.raiseMsix_hub (s : State) (v : Nat) : (s.raiseMsix v).hub = s.hub := rfl
@[simp] theorem State.raiseMsix_mbx (s : State) (v : Nat) : (s.raiseMsix v).mbx = s.mbx := rfl
@[simp] theorem State.raiseMsix_cores (s : State) (v : Nat) : (s.raiseMsix v).cores = s.cores := rfl
@[simp] theorem State.raiseMsix_clusters (s : State) (v : Nat) : (s.raiseMsix v).clusters = s.clusters := rfl
@[simp] theorem State.raiseMsix_outbox (s : State) (v : Nat) : (s.raiseMsix v).outbox = s.outbox := rfl
@[simp] theorem State.raiseMsix_net (s : State) (v : Nat) : (s.raiseMsix v).net = s.net := rfl
@[simp] theorem State.raiseMsix_frontTab (s : State) (v : Nat) : (s.raiseMsix v).frontTab = s.frontTab := rfl
@[simp] theorem State.raiseMsix_frontQ (s : State) (v : Nat) : (s.raiseMsix v).frontQ = s.frontQ := rfl
@[simp] theorem State.raiseMsix_streams (s : State) (v : Nat) : (s.raiseMsix v).streams = s.streams := rfl
@[simp] theorem State.raiseMsix_frontHeld (s : State) (v : Nat) : (s.raiseMsix v).frontHeld = s.frontHeld := rfl
@[simp] theorem State.raiseMsix_quietG (s : State) (v : Nat) : (s.raiseMsix v).quietG = s.quietG := rfl
@[simp] theorem State.raiseMsix_quiescedG (s : State) (v : Nat) : (s.raiseMsix v).quiescedG = s.quiescedG := rfl
@[simp] theorem State.raiseMsix_quiesce (s : State) (v : Nat) : (s.raiseMsix v).quiesce = s.quiesce := rfl
@[simp] theorem State.raiseMsix_barrier (s : State) (v : Nat) : (s.raiseMsix v).barrier = s.barrier := rfl
@[simp] theorem State.raiseMsix_rake (s : State) (v : Nat) : (s.raiseMsix v).rake = s.rake := rfl
@[simp] theorem State.raiseMsix_step (s : State) (v : Nat) : (s.raiseMsix v).step = s.step := rfl
@[simp] theorem State.raiseMsix_sieve (s : State) (v : Nat) : (s.raiseMsix v).sieve = s.sieve := rfl
@[simp] theorem State.raiseMsix_layers (s : State) (v : Nat) : (s.raiseMsix v).layers = s.layers := rfl
@[simp] theorem State.raiseMsix_layersNext (s : State) (v : Nat) : (s.raiseMsix v).layersNext = s.layersNext := rfl
@[simp] theorem State.raiseMsix_factors (s : State) (v : Nat) : (s.raiseMsix v).factors = s.factors := rfl
@[simp] theorem State.raiseMsix_grafters (s : State) (v : Nat) : (s.raiseMsix v).grafters = s.grafters := rfl
@[simp] theorem State.raiseMsix_coll (s : State) (v : Nat) : (s.raiseMsix v).coll = s.coll := rfl
@[simp] theorem State.raiseMsix_links (s : State) (v : Nat) : (s.raiseMsix v).links = s.links := rfl
@[simp] theorem State.raiseMsix_harvest (s : State) (v : Nat) : (s.raiseMsix v).harvest = s.harvest := rfl
@[simp] theorem State.raiseMsix_rel (s : State) (v : Nat) : (s.raiseMsix v).rel = s.rel := rfl
@[simp] theorem State.raiseMsix_gauge (s : State) (v : Nat) : (s.raiseMsix v).gauge = s.gauge := rfl
@[simp] theorem State.raiseMsix_mb (s : State) (v : Nat) : (s.raiseMsix v).mb = s.mb := rfl
@[simp] theorem State.raiseMsix_host (s : State) (v : Nat) : (s.raiseMsix v).host = s.host := rfl
@[simp] theorem State.raiseMsix_sec (s : State) (v : Nat) : (s.raiseMsix v).sec = s.sec := rfl
@[simp] theorem State.raiseMsix_rst (s : State) (v : Nat) : (s.raiseMsix v).rst = s.rst := rfl
@[simp] theorem State.raiseMsix_pwr (s : State) (v : Nat) : (s.raiseMsix v).pwr = s.pwr := rfl
@[simp] theorem State.raiseMsix_fac (s : State) (v : Nat) : (s.raiseMsix v).fac = s.fac := rfl
@[simp] theorem State.raiseMsix_hubFlitCe (s : State) (v : Nat) : (s.raiseMsix v).hubFlitCe = s.hubFlitCe := rfl
@[simp] theorem State.raiseMsix_sundial (s : State) (v : Nat) : (s.raiseMsix v).sundial = s.sundial := rfl
@[simp] theorem State.raiseMsix_logs (s : State) (v : Nat) : (s.raiseMsix v).logs = s.logs := rfl
@[simp] theorem State.raiseMsix_logLost (s : State) (v : Nat) : (s.raiseMsix v).logLost = s.logLost := rfl
@[simp] theorem State.raiseMsix_policy (s : State) (v : Nat) : (s.raiseMsix v).policy = s.policy := rfl
@[simp] theorem State.raiseMsix_fresh (s : State) (v : Nat) : (s.raiseMsix v).fresh = s.fresh := rfl
@[simp] theorem State.raiseMsix_pending (s : State) (v : Nat) : (s.raiseMsix v).pending = s.pending := rfl

/-! ### `State.sample` -/

@[simp] theorem State.sample_mem (s : State) (ch x kind idx : Nat) : (s.sample ch x kind idx).mem = s.mem := rfl
@[simp] theorem State.sample_flaws (s : State) (ch x kind idx : Nat) : (s.sample ch x kind idx).flaws = s.flaws := rfl
@[simp] theorem State.sample_hub (s : State) (ch x kind idx : Nat) : (s.sample ch x kind idx).hub = s.hub := rfl
@[simp] theorem State.sample_mbx (s : State) (ch x kind idx : Nat) : (s.sample ch x kind idx).mbx = s.mbx := rfl
@[simp] theorem State.sample_cores (s : State) (ch x kind idx : Nat) : (s.sample ch x kind idx).cores = s.cores := rfl
@[simp] theorem State.sample_clusters (s : State) (ch x kind idx : Nat) : (s.sample ch x kind idx).clusters = s.clusters := rfl
@[simp] theorem State.sample_outbox (s : State) (ch x kind idx : Nat) : (s.sample ch x kind idx).outbox = s.outbox := rfl
@[simp] theorem State.sample_net (s : State) (ch x kind idx : Nat) : (s.sample ch x kind idx).net = s.net := rfl
@[simp] theorem State.sample_frontTab (s : State) (ch x kind idx : Nat) : (s.sample ch x kind idx).frontTab = s.frontTab := rfl
@[simp] theorem State.sample_frontQ (s : State) (ch x kind idx : Nat) : (s.sample ch x kind idx).frontQ = s.frontQ := rfl
@[simp] theorem State.sample_streams (s : State) (ch x kind idx : Nat) : (s.sample ch x kind idx).streams = s.streams := rfl
@[simp] theorem State.sample_frontHeld (s : State) (ch x kind idx : Nat) : (s.sample ch x kind idx).frontHeld = s.frontHeld := rfl
@[simp] theorem State.sample_quietG (s : State) (ch x kind idx : Nat) : (s.sample ch x kind idx).quietG = s.quietG := rfl
@[simp] theorem State.sample_quiescedG (s : State) (ch x kind idx : Nat) : (s.sample ch x kind idx).quiescedG = s.quiescedG := rfl
@[simp] theorem State.sample_quiesce (s : State) (ch x kind idx : Nat) : (s.sample ch x kind idx).quiesce = s.quiesce := rfl
@[simp] theorem State.sample_barrier (s : State) (ch x kind idx : Nat) : (s.sample ch x kind idx).barrier = s.barrier := rfl
@[simp] theorem State.sample_rake (s : State) (ch x kind idx : Nat) : (s.sample ch x kind idx).rake = s.rake := rfl
@[simp] theorem State.sample_step (s : State) (ch x kind idx : Nat) : (s.sample ch x kind idx).step = s.step := rfl
@[simp] theorem State.sample_sieve (s : State) (ch x kind idx : Nat) : (s.sample ch x kind idx).sieve = s.sieve := rfl
@[simp] theorem State.sample_layers (s : State) (ch x kind idx : Nat) : (s.sample ch x kind idx).layers = s.layers := rfl
@[simp] theorem State.sample_layersNext (s : State) (ch x kind idx : Nat) : (s.sample ch x kind idx).layersNext = s.layersNext := rfl
@[simp] theorem State.sample_factors (s : State) (ch x kind idx : Nat) : (s.sample ch x kind idx).factors = s.factors := rfl
@[simp] theorem State.sample_grafters (s : State) (ch x kind idx : Nat) : (s.sample ch x kind idx).grafters = s.grafters := rfl
@[simp] theorem State.sample_coll (s : State) (ch x kind idx : Nat) : (s.sample ch x kind idx).coll = s.coll := rfl
@[simp] theorem State.sample_links (s : State) (ch x kind idx : Nat) : (s.sample ch x kind idx).links = s.links := rfl
@[simp] theorem State.sample_harvest (s : State) (ch x kind idx : Nat) : (s.sample ch x kind idx).harvest = s.harvest := rfl
@[simp] theorem State.sample_rel (s : State) (ch x kind idx : Nat) : (s.sample ch x kind idx).rel = s.rel := rfl
@[simp] theorem State.sample_mb (s : State) (ch x kind idx : Nat) : (s.sample ch x kind idx).mb = s.mb := rfl
@[simp] theorem State.sample_host (s : State) (ch x kind idx : Nat) : (s.sample ch x kind idx).host = s.host := rfl
@[simp] theorem State.sample_sec (s : State) (ch x kind idx : Nat) : (s.sample ch x kind idx).sec = s.sec := rfl
@[simp] theorem State.sample_rst (s : State) (ch x kind idx : Nat) : (s.sample ch x kind idx).rst = s.rst := rfl
@[simp] theorem State.sample_pwr (s : State) (ch x kind idx : Nat) : (s.sample ch x kind idx).pwr = s.pwr := rfl
@[simp] theorem State.sample_fac (s : State) (ch x kind idx : Nat) : (s.sample ch x kind idx).fac = s.fac := rfl
@[simp] theorem State.sample_hubFlitCe (s : State) (ch x kind idx : Nat) : (s.sample ch x kind idx).hubFlitCe = s.hubFlitCe := rfl
@[simp] theorem State.sample_sundial (s : State) (ch x kind idx : Nat) : (s.sample ch x kind idx).sundial = s.sundial := rfl
@[simp] theorem State.sample_logs (s : State) (ch x kind idx : Nat) : (s.sample ch x kind idx).logs = s.logs := rfl
@[simp] theorem State.sample_logLost (s : State) (ch x kind idx : Nat) : (s.sample ch x kind idx).logLost = s.logLost := rfl
@[simp] theorem State.sample_policy (s : State) (ch x kind idx : Nat) : (s.sample ch x kind idx).policy = s.policy := rfl
@[simp] theorem State.sample_msix (s : State) (ch x kind idx : Nat) : (s.sample ch x kind idx).msix = s.msix := rfl
@[simp] theorem State.sample_fresh (s : State) (ch x kind idx : Nat) : (s.sample ch x kind idx).fresh = s.fresh := rfl
@[simp] theorem State.sample_pending (s : State) (ch x kind idx : Nat) : (s.sample ch x kind idx).pending = s.pending := rfl

/-! ### `State.sampleN` -/

@[simp] theorem State.sampleN_mem (s : State) (ch n : Nat) : (s.sampleN ch n).mem = s.mem := rfl
@[simp] theorem State.sampleN_flaws (s : State) (ch n : Nat) : (s.sampleN ch n).flaws = s.flaws := rfl
@[simp] theorem State.sampleN_hub (s : State) (ch n : Nat) : (s.sampleN ch n).hub = s.hub := rfl
@[simp] theorem State.sampleN_mbx (s : State) (ch n : Nat) : (s.sampleN ch n).mbx = s.mbx := rfl
@[simp] theorem State.sampleN_cores (s : State) (ch n : Nat) : (s.sampleN ch n).cores = s.cores := rfl
@[simp] theorem State.sampleN_clusters (s : State) (ch n : Nat) : (s.sampleN ch n).clusters = s.clusters := rfl
@[simp] theorem State.sampleN_outbox (s : State) (ch n : Nat) : (s.sampleN ch n).outbox = s.outbox := rfl
@[simp] theorem State.sampleN_net (s : State) (ch n : Nat) : (s.sampleN ch n).net = s.net := rfl
@[simp] theorem State.sampleN_frontTab (s : State) (ch n : Nat) : (s.sampleN ch n).frontTab = s.frontTab := rfl
@[simp] theorem State.sampleN_frontQ (s : State) (ch n : Nat) : (s.sampleN ch n).frontQ = s.frontQ := rfl
@[simp] theorem State.sampleN_streams (s : State) (ch n : Nat) : (s.sampleN ch n).streams = s.streams := rfl
@[simp] theorem State.sampleN_frontHeld (s : State) (ch n : Nat) : (s.sampleN ch n).frontHeld = s.frontHeld := rfl
@[simp] theorem State.sampleN_quietG (s : State) (ch n : Nat) : (s.sampleN ch n).quietG = s.quietG := rfl
@[simp] theorem State.sampleN_quiescedG (s : State) (ch n : Nat) : (s.sampleN ch n).quiescedG = s.quiescedG := rfl
@[simp] theorem State.sampleN_quiesce (s : State) (ch n : Nat) : (s.sampleN ch n).quiesce = s.quiesce := rfl
@[simp] theorem State.sampleN_barrier (s : State) (ch n : Nat) : (s.sampleN ch n).barrier = s.barrier := rfl
@[simp] theorem State.sampleN_rake (s : State) (ch n : Nat) : (s.sampleN ch n).rake = s.rake := rfl
@[simp] theorem State.sampleN_step (s : State) (ch n : Nat) : (s.sampleN ch n).step = s.step := rfl
@[simp] theorem State.sampleN_sieve (s : State) (ch n : Nat) : (s.sampleN ch n).sieve = s.sieve := rfl
@[simp] theorem State.sampleN_layers (s : State) (ch n : Nat) : (s.sampleN ch n).layers = s.layers := rfl
@[simp] theorem State.sampleN_layersNext (s : State) (ch n : Nat) : (s.sampleN ch n).layersNext = s.layersNext := rfl
@[simp] theorem State.sampleN_factors (s : State) (ch n : Nat) : (s.sampleN ch n).factors = s.factors := rfl
@[simp] theorem State.sampleN_grafters (s : State) (ch n : Nat) : (s.sampleN ch n).grafters = s.grafters := rfl
@[simp] theorem State.sampleN_coll (s : State) (ch n : Nat) : (s.sampleN ch n).coll = s.coll := rfl
@[simp] theorem State.sampleN_links (s : State) (ch n : Nat) : (s.sampleN ch n).links = s.links := rfl
@[simp] theorem State.sampleN_harvest (s : State) (ch n : Nat) : (s.sampleN ch n).harvest = s.harvest := rfl
@[simp] theorem State.sampleN_rel (s : State) (ch n : Nat) : (s.sampleN ch n).rel = s.rel := rfl
@[simp] theorem State.sampleN_mb (s : State) (ch n : Nat) : (s.sampleN ch n).mb = s.mb := rfl
@[simp] theorem State.sampleN_host (s : State) (ch n : Nat) : (s.sampleN ch n).host = s.host := rfl
@[simp] theorem State.sampleN_sec (s : State) (ch n : Nat) : (s.sampleN ch n).sec = s.sec := rfl
@[simp] theorem State.sampleN_rst (s : State) (ch n : Nat) : (s.sampleN ch n).rst = s.rst := rfl
@[simp] theorem State.sampleN_pwr (s : State) (ch n : Nat) : (s.sampleN ch n).pwr = s.pwr := rfl
@[simp] theorem State.sampleN_fac (s : State) (ch n : Nat) : (s.sampleN ch n).fac = s.fac := rfl
@[simp] theorem State.sampleN_hubFlitCe (s : State) (ch n : Nat) : (s.sampleN ch n).hubFlitCe = s.hubFlitCe := rfl
@[simp] theorem State.sampleN_sundial (s : State) (ch n : Nat) : (s.sampleN ch n).sundial = s.sundial := rfl
@[simp] theorem State.sampleN_logs (s : State) (ch n : Nat) : (s.sampleN ch n).logs = s.logs := rfl
@[simp] theorem State.sampleN_logLost (s : State) (ch n : Nat) : (s.sampleN ch n).logLost = s.logLost := rfl
@[simp] theorem State.sampleN_policy (s : State) (ch n : Nat) : (s.sampleN ch n).policy = s.policy := rfl
@[simp] theorem State.sampleN_msix (s : State) (ch n : Nat) : (s.sampleN ch n).msix = s.msix := rfl
@[simp] theorem State.sampleN_fresh (s : State) (ch n : Nat) : (s.sampleN ch n).fresh = s.fresh := rfl
@[simp] theorem State.sampleN_pending (s : State) (ch n : Nat) : (s.sampleN ch n).pending = s.pending := rfl

/-! ### `State.sampleUs` -/

@[simp] theorem State.sampleUs_mem (s : State) (ch n : Nat) : (s.sampleUs ch n).mem = s.mem := State.sample_mem s ch (fp32Ratio n 250) 0 0
@[simp] theorem State.sampleUs_flaws (s : State) (ch n : Nat) : (s.sampleUs ch n).flaws = s.flaws := State.sample_flaws s ch (fp32Ratio n 250) 0 0
@[simp] theorem State.sampleUs_hub (s : State) (ch n : Nat) : (s.sampleUs ch n).hub = s.hub := State.sample_hub s ch (fp32Ratio n 250) 0 0
@[simp] theorem State.sampleUs_mbx (s : State) (ch n : Nat) : (s.sampleUs ch n).mbx = s.mbx := State.sample_mbx s ch (fp32Ratio n 250) 0 0
@[simp] theorem State.sampleUs_cores (s : State) (ch n : Nat) : (s.sampleUs ch n).cores = s.cores := State.sample_cores s ch (fp32Ratio n 250) 0 0
@[simp] theorem State.sampleUs_clusters (s : State) (ch n : Nat) : (s.sampleUs ch n).clusters = s.clusters := State.sample_clusters s ch (fp32Ratio n 250) 0 0
@[simp] theorem State.sampleUs_outbox (s : State) (ch n : Nat) : (s.sampleUs ch n).outbox = s.outbox := State.sample_outbox s ch (fp32Ratio n 250) 0 0
@[simp] theorem State.sampleUs_net (s : State) (ch n : Nat) : (s.sampleUs ch n).net = s.net := State.sample_net s ch (fp32Ratio n 250) 0 0
@[simp] theorem State.sampleUs_frontTab (s : State) (ch n : Nat) : (s.sampleUs ch n).frontTab = s.frontTab := State.sample_frontTab s ch (fp32Ratio n 250) 0 0
@[simp] theorem State.sampleUs_frontQ (s : State) (ch n : Nat) : (s.sampleUs ch n).frontQ = s.frontQ := State.sample_frontQ s ch (fp32Ratio n 250) 0 0
@[simp] theorem State.sampleUs_streams (s : State) (ch n : Nat) : (s.sampleUs ch n).streams = s.streams := State.sample_streams s ch (fp32Ratio n 250) 0 0
@[simp] theorem State.sampleUs_frontHeld (s : State) (ch n : Nat) : (s.sampleUs ch n).frontHeld = s.frontHeld := State.sample_frontHeld s ch (fp32Ratio n 250) 0 0
@[simp] theorem State.sampleUs_quietG (s : State) (ch n : Nat) : (s.sampleUs ch n).quietG = s.quietG := State.sample_quietG s ch (fp32Ratio n 250) 0 0
@[simp] theorem State.sampleUs_quiescedG (s : State) (ch n : Nat) : (s.sampleUs ch n).quiescedG = s.quiescedG := State.sample_quiescedG s ch (fp32Ratio n 250) 0 0
@[simp] theorem State.sampleUs_quiesce (s : State) (ch n : Nat) : (s.sampleUs ch n).quiesce = s.quiesce := State.sample_quiesce s ch (fp32Ratio n 250) 0 0
@[simp] theorem State.sampleUs_barrier (s : State) (ch n : Nat) : (s.sampleUs ch n).barrier = s.barrier := State.sample_barrier s ch (fp32Ratio n 250) 0 0
@[simp] theorem State.sampleUs_rake (s : State) (ch n : Nat) : (s.sampleUs ch n).rake = s.rake := State.sample_rake s ch (fp32Ratio n 250) 0 0
@[simp] theorem State.sampleUs_step (s : State) (ch n : Nat) : (s.sampleUs ch n).step = s.step := State.sample_step s ch (fp32Ratio n 250) 0 0
@[simp] theorem State.sampleUs_sieve (s : State) (ch n : Nat) : (s.sampleUs ch n).sieve = s.sieve := State.sample_sieve s ch (fp32Ratio n 250) 0 0
@[simp] theorem State.sampleUs_layers (s : State) (ch n : Nat) : (s.sampleUs ch n).layers = s.layers := State.sample_layers s ch (fp32Ratio n 250) 0 0
@[simp] theorem State.sampleUs_layersNext (s : State) (ch n : Nat) : (s.sampleUs ch n).layersNext = s.layersNext := State.sample_layersNext s ch (fp32Ratio n 250) 0 0
@[simp] theorem State.sampleUs_factors (s : State) (ch n : Nat) : (s.sampleUs ch n).factors = s.factors := State.sample_factors s ch (fp32Ratio n 250) 0 0
@[simp] theorem State.sampleUs_grafters (s : State) (ch n : Nat) : (s.sampleUs ch n).grafters = s.grafters := State.sample_grafters s ch (fp32Ratio n 250) 0 0
@[simp] theorem State.sampleUs_coll (s : State) (ch n : Nat) : (s.sampleUs ch n).coll = s.coll := State.sample_coll s ch (fp32Ratio n 250) 0 0
@[simp] theorem State.sampleUs_links (s : State) (ch n : Nat) : (s.sampleUs ch n).links = s.links := State.sample_links s ch (fp32Ratio n 250) 0 0
@[simp] theorem State.sampleUs_harvest (s : State) (ch n : Nat) : (s.sampleUs ch n).harvest = s.harvest := State.sample_harvest s ch (fp32Ratio n 250) 0 0
@[simp] theorem State.sampleUs_rel (s : State) (ch n : Nat) : (s.sampleUs ch n).rel = s.rel := State.sample_rel s ch (fp32Ratio n 250) 0 0
@[simp] theorem State.sampleUs_mb (s : State) (ch n : Nat) : (s.sampleUs ch n).mb = s.mb := State.sample_mb s ch (fp32Ratio n 250) 0 0
@[simp] theorem State.sampleUs_host (s : State) (ch n : Nat) : (s.sampleUs ch n).host = s.host := State.sample_host s ch (fp32Ratio n 250) 0 0
@[simp] theorem State.sampleUs_sec (s : State) (ch n : Nat) : (s.sampleUs ch n).sec = s.sec := State.sample_sec s ch (fp32Ratio n 250) 0 0
@[simp] theorem State.sampleUs_rst (s : State) (ch n : Nat) : (s.sampleUs ch n).rst = s.rst := State.sample_rst s ch (fp32Ratio n 250) 0 0
@[simp] theorem State.sampleUs_pwr (s : State) (ch n : Nat) : (s.sampleUs ch n).pwr = s.pwr := State.sample_pwr s ch (fp32Ratio n 250) 0 0
@[simp] theorem State.sampleUs_fac (s : State) (ch n : Nat) : (s.sampleUs ch n).fac = s.fac := State.sample_fac s ch (fp32Ratio n 250) 0 0
@[simp] theorem State.sampleUs_hubFlitCe (s : State) (ch n : Nat) : (s.sampleUs ch n).hubFlitCe = s.hubFlitCe := State.sample_hubFlitCe s ch (fp32Ratio n 250) 0 0
@[simp] theorem State.sampleUs_sundial (s : State) (ch n : Nat) : (s.sampleUs ch n).sundial = s.sundial := State.sample_sundial s ch (fp32Ratio n 250) 0 0
@[simp] theorem State.sampleUs_logs (s : State) (ch n : Nat) : (s.sampleUs ch n).logs = s.logs := State.sample_logs s ch (fp32Ratio n 250) 0 0
@[simp] theorem State.sampleUs_logLost (s : State) (ch n : Nat) : (s.sampleUs ch n).logLost = s.logLost := State.sample_logLost s ch (fp32Ratio n 250) 0 0
@[simp] theorem State.sampleUs_policy (s : State) (ch n : Nat) : (s.sampleUs ch n).policy = s.policy := State.sample_policy s ch (fp32Ratio n 250) 0 0
@[simp] theorem State.sampleUs_msix (s : State) (ch n : Nat) : (s.sampleUs ch n).msix = s.msix := State.sample_msix s ch (fp32Ratio n 250) 0 0
@[simp] theorem State.sampleUs_fresh (s : State) (ch n : Nat) : (s.sampleUs ch n).fresh = s.fresh := State.sample_fresh s ch (fp32Ratio n 250) 0 0
@[simp] theorem State.sampleUs_pending (s : State) (ch n : Nat) : (s.sampleUs ch n).pending = s.pending := State.sample_pending s ch (fp32Ratio n 250) 0 0

/-! ### `State.inject` -/

@[simp] theorem State.inject_mem (s : State) (src dst : Endpoint) (cls : TClass) (body : Payload) : (s.inject src dst cls body).mem = s.mem := rfl
@[simp] theorem State.inject_flaws (s : State) (src dst : Endpoint) (cls : TClass) (body : Payload) : (s.inject src dst cls body).flaws = s.flaws := rfl
@[simp] theorem State.inject_hub (s : State) (src dst : Endpoint) (cls : TClass) (body : Payload) : (s.inject src dst cls body).hub = s.hub := rfl
@[simp] theorem State.inject_mbx (s : State) (src dst : Endpoint) (cls : TClass) (body : Payload) : (s.inject src dst cls body).mbx = s.mbx := rfl
@[simp] theorem State.inject_cores (s : State) (src dst : Endpoint) (cls : TClass) (body : Payload) : (s.inject src dst cls body).cores = s.cores := rfl
@[simp] theorem State.inject_clusters (s : State) (src dst : Endpoint) (cls : TClass) (body : Payload) : (s.inject src dst cls body).clusters = s.clusters := rfl
@[simp] theorem State.inject_frontTab (s : State) (src dst : Endpoint) (cls : TClass) (body : Payload) : (s.inject src dst cls body).frontTab = s.frontTab := rfl
@[simp] theorem State.inject_frontQ (s : State) (src dst : Endpoint) (cls : TClass) (body : Payload) : (s.inject src dst cls body).frontQ = s.frontQ := rfl
@[simp] theorem State.inject_streams (s : State) (src dst : Endpoint) (cls : TClass) (body : Payload) : (s.inject src dst cls body).streams = s.streams := rfl
@[simp] theorem State.inject_frontHeld (s : State) (src dst : Endpoint) (cls : TClass) (body : Payload) : (s.inject src dst cls body).frontHeld = s.frontHeld := rfl
@[simp] theorem State.inject_quietG (s : State) (src dst : Endpoint) (cls : TClass) (body : Payload) : (s.inject src dst cls body).quietG = s.quietG := rfl
@[simp] theorem State.inject_quiescedG (s : State) (src dst : Endpoint) (cls : TClass) (body : Payload) : (s.inject src dst cls body).quiescedG = s.quiescedG := rfl
@[simp] theorem State.inject_quiesce (s : State) (src dst : Endpoint) (cls : TClass) (body : Payload) : (s.inject src dst cls body).quiesce = s.quiesce := rfl
@[simp] theorem State.inject_barrier (s : State) (src dst : Endpoint) (cls : TClass) (body : Payload) : (s.inject src dst cls body).barrier = s.barrier := rfl
@[simp] theorem State.inject_rake (s : State) (src dst : Endpoint) (cls : TClass) (body : Payload) : (s.inject src dst cls body).rake = s.rake := rfl
@[simp] theorem State.inject_step (s : State) (src dst : Endpoint) (cls : TClass) (body : Payload) : (s.inject src dst cls body).step = s.step := rfl
@[simp] theorem State.inject_sieve (s : State) (src dst : Endpoint) (cls : TClass) (body : Payload) : (s.inject src dst cls body).sieve = s.sieve := rfl
@[simp] theorem State.inject_layers (s : State) (src dst : Endpoint) (cls : TClass) (body : Payload) : (s.inject src dst cls body).layers = s.layers := rfl
@[simp] theorem State.inject_layersNext (s : State) (src dst : Endpoint) (cls : TClass) (body : Payload) : (s.inject src dst cls body).layersNext = s.layersNext := rfl
@[simp] theorem State.inject_factors (s : State) (src dst : Endpoint) (cls : TClass) (body : Payload) : (s.inject src dst cls body).factors = s.factors := rfl
@[simp] theorem State.inject_grafters (s : State) (src dst : Endpoint) (cls : TClass) (body : Payload) : (s.inject src dst cls body).grafters = s.grafters := rfl
@[simp] theorem State.inject_coll (s : State) (src dst : Endpoint) (cls : TClass) (body : Payload) : (s.inject src dst cls body).coll = s.coll := rfl
@[simp] theorem State.inject_links (s : State) (src dst : Endpoint) (cls : TClass) (body : Payload) : (s.inject src dst cls body).links = s.links := rfl
@[simp] theorem State.inject_harvest (s : State) (src dst : Endpoint) (cls : TClass) (body : Payload) : (s.inject src dst cls body).harvest = s.harvest := rfl
@[simp] theorem State.inject_rel (s : State) (src dst : Endpoint) (cls : TClass) (body : Payload) : (s.inject src dst cls body).rel = s.rel := rfl
@[simp] theorem State.inject_gauge (s : State) (src dst : Endpoint) (cls : TClass) (body : Payload) : (s.inject src dst cls body).gauge = s.gauge := rfl
@[simp] theorem State.inject_mb (s : State) (src dst : Endpoint) (cls : TClass) (body : Payload) : (s.inject src dst cls body).mb = s.mb := rfl
@[simp] theorem State.inject_host (s : State) (src dst : Endpoint) (cls : TClass) (body : Payload) : (s.inject src dst cls body).host = s.host := rfl
@[simp] theorem State.inject_sec (s : State) (src dst : Endpoint) (cls : TClass) (body : Payload) : (s.inject src dst cls body).sec = s.sec := rfl
@[simp] theorem State.inject_rst (s : State) (src dst : Endpoint) (cls : TClass) (body : Payload) : (s.inject src dst cls body).rst = s.rst := rfl
@[simp] theorem State.inject_pwr (s : State) (src dst : Endpoint) (cls : TClass) (body : Payload) : (s.inject src dst cls body).pwr = s.pwr := rfl
@[simp] theorem State.inject_fac (s : State) (src dst : Endpoint) (cls : TClass) (body : Payload) : (s.inject src dst cls body).fac = s.fac := rfl
@[simp] theorem State.inject_hubFlitCe (s : State) (src dst : Endpoint) (cls : TClass) (body : Payload) : (s.inject src dst cls body).hubFlitCe = s.hubFlitCe := rfl
@[simp] theorem State.inject_sundial (s : State) (src dst : Endpoint) (cls : TClass) (body : Payload) : (s.inject src dst cls body).sundial = s.sundial := rfl
@[simp] theorem State.inject_logs (s : State) (src dst : Endpoint) (cls : TClass) (body : Payload) : (s.inject src dst cls body).logs = s.logs := rfl
@[simp] theorem State.inject_logLost (s : State) (src dst : Endpoint) (cls : TClass) (body : Payload) : (s.inject src dst cls body).logLost = s.logLost := rfl
@[simp] theorem State.inject_policy (s : State) (src dst : Endpoint) (cls : TClass) (body : Payload) : (s.inject src dst cls body).policy = s.policy := rfl
@[simp] theorem State.inject_msix (s : State) (src dst : Endpoint) (cls : TClass) (body : Payload) : (s.inject src dst cls body).msix = s.msix := rfl
@[simp] theorem State.inject_fresh (s : State) (src dst : Endpoint) (cls : TClass) (body : Payload) : (s.inject src dst cls body).fresh = s.fresh := rfl
@[simp] theorem State.inject_pending (s : State) (src dst : Endpoint) (cls : TClass) (body : Payload) : (s.inject src dst cls body).pending = s.pending := rfl

/-! ### `State.notice` -/

@[simp] theorem State.notice_mem (s : State) (src : Endpoint) (status detail extra : Nat) : (s.notice src status detail extra).mem = s.mem := rfl
@[simp] theorem State.notice_flaws (s : State) (src : Endpoint) (status detail extra : Nat) : (s.notice src status detail extra).flaws = s.flaws := rfl
@[simp] theorem State.notice_hub (s : State) (src : Endpoint) (status detail extra : Nat) : (s.notice src status detail extra).hub = s.hub := rfl
@[simp] theorem State.notice_mbx (s : State) (src : Endpoint) (status detail extra : Nat) : (s.notice src status detail extra).mbx = s.mbx := rfl
@[simp] theorem State.notice_cores (s : State) (src : Endpoint) (status detail extra : Nat) : (s.notice src status detail extra).cores = s.cores := rfl
@[simp] theorem State.notice_clusters (s : State) (src : Endpoint) (status detail extra : Nat) : (s.notice src status detail extra).clusters = s.clusters := rfl
@[simp] theorem State.notice_frontTab (s : State) (src : Endpoint) (status detail extra : Nat) : (s.notice src status detail extra).frontTab = s.frontTab := rfl
@[simp] theorem State.notice_frontQ (s : State) (src : Endpoint) (status detail extra : Nat) : (s.notice src status detail extra).frontQ = s.frontQ := rfl
@[simp] theorem State.notice_streams (s : State) (src : Endpoint) (status detail extra : Nat) : (s.notice src status detail extra).streams = s.streams := rfl
@[simp] theorem State.notice_frontHeld (s : State) (src : Endpoint) (status detail extra : Nat) : (s.notice src status detail extra).frontHeld = s.frontHeld := rfl
@[simp] theorem State.notice_quietG (s : State) (src : Endpoint) (status detail extra : Nat) : (s.notice src status detail extra).quietG = s.quietG := rfl
@[simp] theorem State.notice_quiescedG (s : State) (src : Endpoint) (status detail extra : Nat) : (s.notice src status detail extra).quiescedG = s.quiescedG := rfl
@[simp] theorem State.notice_quiesce (s : State) (src : Endpoint) (status detail extra : Nat) : (s.notice src status detail extra).quiesce = s.quiesce := rfl
@[simp] theorem State.notice_barrier (s : State) (src : Endpoint) (status detail extra : Nat) : (s.notice src status detail extra).barrier = s.barrier := rfl
@[simp] theorem State.notice_rake (s : State) (src : Endpoint) (status detail extra : Nat) : (s.notice src status detail extra).rake = s.rake := rfl
@[simp] theorem State.notice_step (s : State) (src : Endpoint) (status detail extra : Nat) : (s.notice src status detail extra).step = s.step := rfl
@[simp] theorem State.notice_sieve (s : State) (src : Endpoint) (status detail extra : Nat) : (s.notice src status detail extra).sieve = s.sieve := rfl
@[simp] theorem State.notice_layers (s : State) (src : Endpoint) (status detail extra : Nat) : (s.notice src status detail extra).layers = s.layers := rfl
@[simp] theorem State.notice_layersNext (s : State) (src : Endpoint) (status detail extra : Nat) : (s.notice src status detail extra).layersNext = s.layersNext := rfl
@[simp] theorem State.notice_factors (s : State) (src : Endpoint) (status detail extra : Nat) : (s.notice src status detail extra).factors = s.factors := rfl
@[simp] theorem State.notice_grafters (s : State) (src : Endpoint) (status detail extra : Nat) : (s.notice src status detail extra).grafters = s.grafters := rfl
@[simp] theorem State.notice_coll (s : State) (src : Endpoint) (status detail extra : Nat) : (s.notice src status detail extra).coll = s.coll := rfl
@[simp] theorem State.notice_links (s : State) (src : Endpoint) (status detail extra : Nat) : (s.notice src status detail extra).links = s.links := rfl
@[simp] theorem State.notice_harvest (s : State) (src : Endpoint) (status detail extra : Nat) : (s.notice src status detail extra).harvest = s.harvest := rfl
@[simp] theorem State.notice_rel (s : State) (src : Endpoint) (status detail extra : Nat) : (s.notice src status detail extra).rel = s.rel := rfl
@[simp] theorem State.notice_gauge (s : State) (src : Endpoint) (status detail extra : Nat) : (s.notice src status detail extra).gauge = s.gauge := rfl
@[simp] theorem State.notice_mb (s : State) (src : Endpoint) (status detail extra : Nat) : (s.notice src status detail extra).mb = s.mb := rfl
@[simp] theorem State.notice_host (s : State) (src : Endpoint) (status detail extra : Nat) : (s.notice src status detail extra).host = s.host := rfl
@[simp] theorem State.notice_sec (s : State) (src : Endpoint) (status detail extra : Nat) : (s.notice src status detail extra).sec = s.sec := rfl
@[simp] theorem State.notice_rst (s : State) (src : Endpoint) (status detail extra : Nat) : (s.notice src status detail extra).rst = s.rst := rfl
@[simp] theorem State.notice_pwr (s : State) (src : Endpoint) (status detail extra : Nat) : (s.notice src status detail extra).pwr = s.pwr := rfl
@[simp] theorem State.notice_fac (s : State) (src : Endpoint) (status detail extra : Nat) : (s.notice src status detail extra).fac = s.fac := rfl
@[simp] theorem State.notice_hubFlitCe (s : State) (src : Endpoint) (status detail extra : Nat) : (s.notice src status detail extra).hubFlitCe = s.hubFlitCe := rfl
@[simp] theorem State.notice_sundial (s : State) (src : Endpoint) (status detail extra : Nat) : (s.notice src status detail extra).sundial = s.sundial := rfl
@[simp] theorem State.notice_logs (s : State) (src : Endpoint) (status detail extra : Nat) : (s.notice src status detail extra).logs = s.logs := rfl
@[simp] theorem State.notice_logLost (s : State) (src : Endpoint) (status detail extra : Nat) : (s.notice src status detail extra).logLost = s.logLost := rfl
@[simp] theorem State.notice_policy (s : State) (src : Endpoint) (status detail extra : Nat) : (s.notice src status detail extra).policy = s.policy := rfl
@[simp] theorem State.notice_msix (s : State) (src : Endpoint) (status detail extra : Nat) : (s.notice src status detail extra).msix = s.msix := rfl
@[simp] theorem State.notice_fresh (s : State) (src : Endpoint) (status detail extra : Nat) : (s.notice src status detail extra).fresh = s.fresh := rfl
@[simp] theorem State.notice_pending (s : State) (src : Endpoint) (status detail extra : Nat) : (s.notice src status detail extra).pending = s.pending := rfl

/-! ### `State.setSlot` -/

@[simp] theorem State.setSlot_mem (s : State) (k : Nat) (x : Slot) : (s.setSlot k x).mem = s.mem := rfl
@[simp] theorem State.setSlot_flaws (s : State) (k : Nat) (x : Slot) : (s.setSlot k x).flaws = s.flaws := rfl
@[simp] theorem State.setSlot_hub (s : State) (k : Nat) (x : Slot) : (s.setSlot k x).hub = s.hub := rfl
@[simp] theorem State.setSlot_mbx (s : State) (k : Nat) (x : Slot) : (s.setSlot k x).mbx = s.mbx := rfl
@[simp] theorem State.setSlot_cores (s : State) (k : Nat) (x : Slot) : (s.setSlot k x).cores = s.cores := rfl
@[simp] theorem State.setSlot_clusters (s : State) (k : Nat) (x : Slot) : (s.setSlot k x).clusters = s.clusters := rfl
@[simp] theorem State.setSlot_outbox (s : State) (k : Nat) (x : Slot) : (s.setSlot k x).outbox = s.outbox := rfl
@[simp] theorem State.setSlot_net (s : State) (k : Nat) (x : Slot) : (s.setSlot k x).net = s.net := rfl
@[simp] theorem State.setSlot_frontTab (s : State) (k : Nat) (x : Slot) : (s.setSlot k x).frontTab = s.frontTab := rfl
@[simp] theorem State.setSlot_frontQ (s : State) (k : Nat) (x : Slot) : (s.setSlot k x).frontQ = s.frontQ := rfl
@[simp] theorem State.setSlot_streams (s : State) (k : Nat) (x : Slot) : (s.setSlot k x).streams = s.streams := rfl
@[simp] theorem State.setSlot_frontHeld (s : State) (k : Nat) (x : Slot) : (s.setSlot k x).frontHeld = s.frontHeld := rfl
@[simp] theorem State.setSlot_quietG (s : State) (k : Nat) (x : Slot) : (s.setSlot k x).quietG = s.quietG := rfl
@[simp] theorem State.setSlot_quiescedG (s : State) (k : Nat) (x : Slot) : (s.setSlot k x).quiescedG = s.quiescedG := rfl
@[simp] theorem State.setSlot_quiesce (s : State) (k : Nat) (x : Slot) : (s.setSlot k x).quiesce = s.quiesce := rfl
@[simp] theorem State.setSlot_barrier (s : State) (k : Nat) (x : Slot) : (s.setSlot k x).barrier = s.barrier := rfl
@[simp] theorem State.setSlot_rake (s : State) (k : Nat) (x : Slot) : (s.setSlot k x).rake = s.rake := rfl
@[simp] theorem State.setSlot_step (s : State) (k : Nat) (x : Slot) : (s.setSlot k x).step = s.step := rfl
@[simp] theorem State.setSlot_sieve (s : State) (k : Nat) (x : Slot) : (s.setSlot k x).sieve = s.sieve := rfl
@[simp] theorem State.setSlot_layers (s : State) (k : Nat) (x : Slot) : (s.setSlot k x).layers = s.layers := rfl
@[simp] theorem State.setSlot_layersNext (s : State) (k : Nat) (x : Slot) : (s.setSlot k x).layersNext = s.layersNext := rfl
@[simp] theorem State.setSlot_factors (s : State) (k : Nat) (x : Slot) : (s.setSlot k x).factors = s.factors := rfl
@[simp] theorem State.setSlot_grafters (s : State) (k : Nat) (x : Slot) : (s.setSlot k x).grafters = s.grafters := rfl
@[simp] theorem State.setSlot_coll (s : State) (k : Nat) (x : Slot) : (s.setSlot k x).coll = s.coll := rfl
@[simp] theorem State.setSlot_links (s : State) (k : Nat) (x : Slot) : (s.setSlot k x).links = s.links := rfl
@[simp] theorem State.setSlot_harvest (s : State) (k : Nat) (x : Slot) : (s.setSlot k x).harvest = s.harvest := rfl
@[simp] theorem State.setSlot_rel (s : State) (k : Nat) (x : Slot) : (s.setSlot k x).rel = s.rel := rfl
@[simp] theorem State.setSlot_gauge (s : State) (k : Nat) (x : Slot) : (s.setSlot k x).gauge = s.gauge := rfl
@[simp] theorem State.setSlot_host (s : State) (k : Nat) (x : Slot) : (s.setSlot k x).host = s.host := rfl
@[simp] theorem State.setSlot_sec (s : State) (k : Nat) (x : Slot) : (s.setSlot k x).sec = s.sec := rfl
@[simp] theorem State.setSlot_rst (s : State) (k : Nat) (x : Slot) : (s.setSlot k x).rst = s.rst := rfl
@[simp] theorem State.setSlot_pwr (s : State) (k : Nat) (x : Slot) : (s.setSlot k x).pwr = s.pwr := rfl
@[simp] theorem State.setSlot_fac (s : State) (k : Nat) (x : Slot) : (s.setSlot k x).fac = s.fac := rfl
@[simp] theorem State.setSlot_hubFlitCe (s : State) (k : Nat) (x : Slot) : (s.setSlot k x).hubFlitCe = s.hubFlitCe := rfl
@[simp] theorem State.setSlot_sundial (s : State) (k : Nat) (x : Slot) : (s.setSlot k x).sundial = s.sundial := rfl
@[simp] theorem State.setSlot_logs (s : State) (k : Nat) (x : Slot) : (s.setSlot k x).logs = s.logs := rfl
@[simp] theorem State.setSlot_logLost (s : State) (k : Nat) (x : Slot) : (s.setSlot k x).logLost = s.logLost := rfl
@[simp] theorem State.setSlot_policy (s : State) (k : Nat) (x : Slot) : (s.setSlot k x).policy = s.policy := rfl
@[simp] theorem State.setSlot_msix (s : State) (k : Nat) (x : Slot) : (s.setSlot k x).msix = s.msix := rfl
@[simp] theorem State.setSlot_fresh (s : State) (k : Nat) (x : Slot) : (s.setSlot k x).fresh = s.fresh := rfl
@[simp] theorem State.setSlot_pending (s : State) (k : Nat) (x : Slot) : (s.setSlot k x).pending = s.pending := rfl

/-! ### `State.setTicket` -/

@[simp] theorem State.setTicket_mem (s : State) (k : Nat) (x : Ticket) : (s.setTicket k x).mem = s.mem := rfl
@[simp] theorem State.setTicket_flaws (s : State) (k : Nat) (x : Ticket) : (s.setTicket k x).flaws = s.flaws := rfl
@[simp] theorem State.setTicket_hub (s : State) (k : Nat) (x : Ticket) : (s.setTicket k x).hub = s.hub := rfl
@[simp] theorem State.setTicket_mbx (s : State) (k : Nat) (x : Ticket) : (s.setTicket k x).mbx = s.mbx := rfl
@[simp] theorem State.setTicket_cores (s : State) (k : Nat) (x : Ticket) : (s.setTicket k x).cores = s.cores := rfl
@[simp] theorem State.setTicket_clusters (s : State) (k : Nat) (x : Ticket) : (s.setTicket k x).clusters = s.clusters := rfl
@[simp] theorem State.setTicket_outbox (s : State) (k : Nat) (x : Ticket) : (s.setTicket k x).outbox = s.outbox := rfl
@[simp] theorem State.setTicket_net (s : State) (k : Nat) (x : Ticket) : (s.setTicket k x).net = s.net := rfl
@[simp] theorem State.setTicket_frontTab (s : State) (k : Nat) (x : Ticket) : (s.setTicket k x).frontTab = s.frontTab := rfl
@[simp] theorem State.setTicket_frontQ (s : State) (k : Nat) (x : Ticket) : (s.setTicket k x).frontQ = s.frontQ := rfl
@[simp] theorem State.setTicket_streams (s : State) (k : Nat) (x : Ticket) : (s.setTicket k x).streams = s.streams := rfl
@[simp] theorem State.setTicket_frontHeld (s : State) (k : Nat) (x : Ticket) : (s.setTicket k x).frontHeld = s.frontHeld := rfl
@[simp] theorem State.setTicket_quietG (s : State) (k : Nat) (x : Ticket) : (s.setTicket k x).quietG = s.quietG := rfl
@[simp] theorem State.setTicket_quiescedG (s : State) (k : Nat) (x : Ticket) : (s.setTicket k x).quiescedG = s.quiescedG := rfl
@[simp] theorem State.setTicket_quiesce (s : State) (k : Nat) (x : Ticket) : (s.setTicket k x).quiesce = s.quiesce := rfl
@[simp] theorem State.setTicket_barrier (s : State) (k : Nat) (x : Ticket) : (s.setTicket k x).barrier = s.barrier := rfl
@[simp] theorem State.setTicket_rake (s : State) (k : Nat) (x : Ticket) : (s.setTicket k x).rake = s.rake := rfl
@[simp] theorem State.setTicket_step (s : State) (k : Nat) (x : Ticket) : (s.setTicket k x).step = s.step := rfl
@[simp] theorem State.setTicket_sieve (s : State) (k : Nat) (x : Ticket) : (s.setTicket k x).sieve = s.sieve := rfl
@[simp] theorem State.setTicket_layers (s : State) (k : Nat) (x : Ticket) : (s.setTicket k x).layers = s.layers := rfl
@[simp] theorem State.setTicket_layersNext (s : State) (k : Nat) (x : Ticket) : (s.setTicket k x).layersNext = s.layersNext := rfl
@[simp] theorem State.setTicket_factors (s : State) (k : Nat) (x : Ticket) : (s.setTicket k x).factors = s.factors := rfl
@[simp] theorem State.setTicket_grafters (s : State) (k : Nat) (x : Ticket) : (s.setTicket k x).grafters = s.grafters := rfl
@[simp] theorem State.setTicket_coll (s : State) (k : Nat) (x : Ticket) : (s.setTicket k x).coll = s.coll := rfl
@[simp] theorem State.setTicket_links (s : State) (k : Nat) (x : Ticket) : (s.setTicket k x).links = s.links := rfl
@[simp] theorem State.setTicket_harvest (s : State) (k : Nat) (x : Ticket) : (s.setTicket k x).harvest = s.harvest := rfl
@[simp] theorem State.setTicket_rel (s : State) (k : Nat) (x : Ticket) : (s.setTicket k x).rel = s.rel := rfl
@[simp] theorem State.setTicket_gauge (s : State) (k : Nat) (x : Ticket) : (s.setTicket k x).gauge = s.gauge := rfl
@[simp] theorem State.setTicket_host (s : State) (k : Nat) (x : Ticket) : (s.setTicket k x).host = s.host := rfl
@[simp] theorem State.setTicket_sec (s : State) (k : Nat) (x : Ticket) : (s.setTicket k x).sec = s.sec := rfl
@[simp] theorem State.setTicket_rst (s : State) (k : Nat) (x : Ticket) : (s.setTicket k x).rst = s.rst := rfl
@[simp] theorem State.setTicket_pwr (s : State) (k : Nat) (x : Ticket) : (s.setTicket k x).pwr = s.pwr := rfl
@[simp] theorem State.setTicket_fac (s : State) (k : Nat) (x : Ticket) : (s.setTicket k x).fac = s.fac := rfl
@[simp] theorem State.setTicket_hubFlitCe (s : State) (k : Nat) (x : Ticket) : (s.setTicket k x).hubFlitCe = s.hubFlitCe := rfl
@[simp] theorem State.setTicket_sundial (s : State) (k : Nat) (x : Ticket) : (s.setTicket k x).sundial = s.sundial := rfl
@[simp] theorem State.setTicket_logs (s : State) (k : Nat) (x : Ticket) : (s.setTicket k x).logs = s.logs := rfl
@[simp] theorem State.setTicket_logLost (s : State) (k : Nat) (x : Ticket) : (s.setTicket k x).logLost = s.logLost := rfl
@[simp] theorem State.setTicket_policy (s : State) (k : Nat) (x : Ticket) : (s.setTicket k x).policy = s.policy := rfl
@[simp] theorem State.setTicket_msix (s : State) (k : Nat) (x : Ticket) : (s.setTicket k x).msix = s.msix := rfl
@[simp] theorem State.setTicket_fresh (s : State) (k : Nat) (x : Ticket) : (s.setTicket k x).fresh = s.fresh := rfl
@[simp] theorem State.setTicket_pending (s : State) (k : Nat) (x : Ticket) : (s.setTicket k x).pending = s.pending := rfl

/-! ### `State.setTracker` -/

@[simp] theorem State.setTracker_mem (s : State) (k : Nat) (l : List RowTrack) : (s.setTracker k l).mem = s.mem := rfl
@[simp] theorem State.setTracker_flaws (s : State) (k : Nat) (l : List RowTrack) : (s.setTracker k l).flaws = s.flaws := rfl
@[simp] theorem State.setTracker_hub (s : State) (k : Nat) (l : List RowTrack) : (s.setTracker k l).hub = s.hub := rfl
@[simp] theorem State.setTracker_mbx (s : State) (k : Nat) (l : List RowTrack) : (s.setTracker k l).mbx = s.mbx := rfl
@[simp] theorem State.setTracker_cores (s : State) (k : Nat) (l : List RowTrack) : (s.setTracker k l).cores = s.cores := rfl
@[simp] theorem State.setTracker_clusters (s : State) (k : Nat) (l : List RowTrack) : (s.setTracker k l).clusters = s.clusters := rfl
@[simp] theorem State.setTracker_outbox (s : State) (k : Nat) (l : List RowTrack) : (s.setTracker k l).outbox = s.outbox := rfl
@[simp] theorem State.setTracker_net (s : State) (k : Nat) (l : List RowTrack) : (s.setTracker k l).net = s.net := rfl
@[simp] theorem State.setTracker_frontTab (s : State) (k : Nat) (l : List RowTrack) : (s.setTracker k l).frontTab = s.frontTab := rfl
@[simp] theorem State.setTracker_frontQ (s : State) (k : Nat) (l : List RowTrack) : (s.setTracker k l).frontQ = s.frontQ := rfl
@[simp] theorem State.setTracker_streams (s : State) (k : Nat) (l : List RowTrack) : (s.setTracker k l).streams = s.streams := rfl
@[simp] theorem State.setTracker_frontHeld (s : State) (k : Nat) (l : List RowTrack) : (s.setTracker k l).frontHeld = s.frontHeld := rfl
@[simp] theorem State.setTracker_quietG (s : State) (k : Nat) (l : List RowTrack) : (s.setTracker k l).quietG = s.quietG := rfl
@[simp] theorem State.setTracker_quiescedG (s : State) (k : Nat) (l : List RowTrack) : (s.setTracker k l).quiescedG = s.quiescedG := rfl
@[simp] theorem State.setTracker_quiesce (s : State) (k : Nat) (l : List RowTrack) : (s.setTracker k l).quiesce = s.quiesce := rfl
@[simp] theorem State.setTracker_barrier (s : State) (k : Nat) (l : List RowTrack) : (s.setTracker k l).barrier = s.barrier := rfl
@[simp] theorem State.setTracker_rake (s : State) (k : Nat) (l : List RowTrack) : (s.setTracker k l).rake = s.rake := rfl
@[simp] theorem State.setTracker_step (s : State) (k : Nat) (l : List RowTrack) : (s.setTracker k l).step = s.step := rfl
@[simp] theorem State.setTracker_sieve (s : State) (k : Nat) (l : List RowTrack) : (s.setTracker k l).sieve = s.sieve := rfl
@[simp] theorem State.setTracker_layers (s : State) (k : Nat) (l : List RowTrack) : (s.setTracker k l).layers = s.layers := rfl
@[simp] theorem State.setTracker_layersNext (s : State) (k : Nat) (l : List RowTrack) : (s.setTracker k l).layersNext = s.layersNext := rfl
@[simp] theorem State.setTracker_factors (s : State) (k : Nat) (l : List RowTrack) : (s.setTracker k l).factors = s.factors := rfl
@[simp] theorem State.setTracker_grafters (s : State) (k : Nat) (l : List RowTrack) : (s.setTracker k l).grafters = s.grafters := rfl
@[simp] theorem State.setTracker_coll (s : State) (k : Nat) (l : List RowTrack) : (s.setTracker k l).coll = s.coll := rfl
@[simp] theorem State.setTracker_links (s : State) (k : Nat) (l : List RowTrack) : (s.setTracker k l).links = s.links := rfl
@[simp] theorem State.setTracker_harvest (s : State) (k : Nat) (l : List RowTrack) : (s.setTracker k l).harvest = s.harvest := rfl
@[simp] theorem State.setTracker_gauge (s : State) (k : Nat) (l : List RowTrack) : (s.setTracker k l).gauge = s.gauge := rfl
@[simp] theorem State.setTracker_mb (s : State) (k : Nat) (l : List RowTrack) : (s.setTracker k l).mb = s.mb := rfl
@[simp] theorem State.setTracker_host (s : State) (k : Nat) (l : List RowTrack) : (s.setTracker k l).host = s.host := rfl
@[simp] theorem State.setTracker_sec (s : State) (k : Nat) (l : List RowTrack) : (s.setTracker k l).sec = s.sec := rfl
@[simp] theorem State.setTracker_rst (s : State) (k : Nat) (l : List RowTrack) : (s.setTracker k l).rst = s.rst := rfl
@[simp] theorem State.setTracker_pwr (s : State) (k : Nat) (l : List RowTrack) : (s.setTracker k l).pwr = s.pwr := rfl
@[simp] theorem State.setTracker_fac (s : State) (k : Nat) (l : List RowTrack) : (s.setTracker k l).fac = s.fac := rfl
@[simp] theorem State.setTracker_hubFlitCe (s : State) (k : Nat) (l : List RowTrack) : (s.setTracker k l).hubFlitCe = s.hubFlitCe := rfl
@[simp] theorem State.setTracker_sundial (s : State) (k : Nat) (l : List RowTrack) : (s.setTracker k l).sundial = s.sundial := rfl
@[simp] theorem State.setTracker_logs (s : State) (k : Nat) (l : List RowTrack) : (s.setTracker k l).logs = s.logs := rfl
@[simp] theorem State.setTracker_logLost (s : State) (k : Nat) (l : List RowTrack) : (s.setTracker k l).logLost = s.logLost := rfl
@[simp] theorem State.setTracker_policy (s : State) (k : Nat) (l : List RowTrack) : (s.setTracker k l).policy = s.policy := rfl
@[simp] theorem State.setTracker_msix (s : State) (k : Nat) (l : List RowTrack) : (s.setTracker k l).msix = s.msix := rfl
@[simp] theorem State.setTracker_fresh (s : State) (k : Nat) (l : List RowTrack) : (s.setTracker k l).fresh = s.fresh := rfl
@[simp] theorem State.setTracker_pending (s : State) (k : Nat) (l : List RowTrack) : (s.setTracker k l).pending = s.pending := rfl

/-! ### `State.setPort` -/

@[simp] theorem State.setPort_mem (s : State) (p : Nat) (x : Port) : (s.setPort p x).mem = s.mem := rfl
@[simp] theorem State.setPort_flaws (s : State) (p : Nat) (x : Port) : (s.setPort p x).flaws = s.flaws := rfl
@[simp] theorem State.setPort_hub (s : State) (p : Nat) (x : Port) : (s.setPort p x).hub = s.hub := rfl
@[simp] theorem State.setPort_mbx (s : State) (p : Nat) (x : Port) : (s.setPort p x).mbx = s.mbx := rfl
@[simp] theorem State.setPort_cores (s : State) (p : Nat) (x : Port) : (s.setPort p x).cores = s.cores := rfl
@[simp] theorem State.setPort_clusters (s : State) (p : Nat) (x : Port) : (s.setPort p x).clusters = s.clusters := rfl
@[simp] theorem State.setPort_outbox (s : State) (p : Nat) (x : Port) : (s.setPort p x).outbox = s.outbox := rfl
@[simp] theorem State.setPort_net (s : State) (p : Nat) (x : Port) : (s.setPort p x).net = s.net := rfl
@[simp] theorem State.setPort_frontTab (s : State) (p : Nat) (x : Port) : (s.setPort p x).frontTab = s.frontTab := rfl
@[simp] theorem State.setPort_frontQ (s : State) (p : Nat) (x : Port) : (s.setPort p x).frontQ = s.frontQ := rfl
@[simp] theorem State.setPort_streams (s : State) (p : Nat) (x : Port) : (s.setPort p x).streams = s.streams := rfl
@[simp] theorem State.setPort_frontHeld (s : State) (p : Nat) (x : Port) : (s.setPort p x).frontHeld = s.frontHeld := rfl
@[simp] theorem State.setPort_quietG (s : State) (p : Nat) (x : Port) : (s.setPort p x).quietG = s.quietG := rfl
@[simp] theorem State.setPort_quiescedG (s : State) (p : Nat) (x : Port) : (s.setPort p x).quiescedG = s.quiescedG := rfl
@[simp] theorem State.setPort_quiesce (s : State) (p : Nat) (x : Port) : (s.setPort p x).quiesce = s.quiesce := rfl
@[simp] theorem State.setPort_barrier (s : State) (p : Nat) (x : Port) : (s.setPort p x).barrier = s.barrier := rfl
@[simp] theorem State.setPort_rake (s : State) (p : Nat) (x : Port) : (s.setPort p x).rake = s.rake := rfl
@[simp] theorem State.setPort_step (s : State) (p : Nat) (x : Port) : (s.setPort p x).step = s.step := rfl
@[simp] theorem State.setPort_sieve (s : State) (p : Nat) (x : Port) : (s.setPort p x).sieve = s.sieve := rfl
@[simp] theorem State.setPort_layers (s : State) (p : Nat) (x : Port) : (s.setPort p x).layers = s.layers := rfl
@[simp] theorem State.setPort_layersNext (s : State) (p : Nat) (x : Port) : (s.setPort p x).layersNext = s.layersNext := rfl
@[simp] theorem State.setPort_factors (s : State) (p : Nat) (x : Port) : (s.setPort p x).factors = s.factors := rfl
@[simp] theorem State.setPort_grafters (s : State) (p : Nat) (x : Port) : (s.setPort p x).grafters = s.grafters := rfl
@[simp] theorem State.setPort_coll (s : State) (p : Nat) (x : Port) : (s.setPort p x).coll = s.coll := rfl
@[simp] theorem State.setPort_harvest (s : State) (p : Nat) (x : Port) : (s.setPort p x).harvest = s.harvest := rfl
@[simp] theorem State.setPort_rel (s : State) (p : Nat) (x : Port) : (s.setPort p x).rel = s.rel := rfl
@[simp] theorem State.setPort_gauge (s : State) (p : Nat) (x : Port) : (s.setPort p x).gauge = s.gauge := rfl
@[simp] theorem State.setPort_mb (s : State) (p : Nat) (x : Port) : (s.setPort p x).mb = s.mb := rfl
@[simp] theorem State.setPort_host (s : State) (p : Nat) (x : Port) : (s.setPort p x).host = s.host := rfl
@[simp] theorem State.setPort_sec (s : State) (p : Nat) (x : Port) : (s.setPort p x).sec = s.sec := rfl
@[simp] theorem State.setPort_rst (s : State) (p : Nat) (x : Port) : (s.setPort p x).rst = s.rst := rfl
@[simp] theorem State.setPort_pwr (s : State) (p : Nat) (x : Port) : (s.setPort p x).pwr = s.pwr := rfl
@[simp] theorem State.setPort_fac (s : State) (p : Nat) (x : Port) : (s.setPort p x).fac = s.fac := rfl
@[simp] theorem State.setPort_hubFlitCe (s : State) (p : Nat) (x : Port) : (s.setPort p x).hubFlitCe = s.hubFlitCe := rfl
@[simp] theorem State.setPort_sundial (s : State) (p : Nat) (x : Port) : (s.setPort p x).sundial = s.sundial := rfl
@[simp] theorem State.setPort_logs (s : State) (p : Nat) (x : Port) : (s.setPort p x).logs = s.logs := rfl
@[simp] theorem State.setPort_logLost (s : State) (p : Nat) (x : Port) : (s.setPort p x).logLost = s.logLost := rfl
@[simp] theorem State.setPort_policy (s : State) (p : Nat) (x : Port) : (s.setPort p x).policy = s.policy := rfl
@[simp] theorem State.setPort_msix (s : State) (p : Nat) (x : Port) : (s.setPort p x).msix = s.msix := rfl
@[simp] theorem State.setPort_fresh (s : State) (p : Nat) (x : Port) : (s.setPort p x).fresh = s.fresh := rfl
@[simp] theorem State.setPort_pending (s : State) (p : Nat) (x : Port) : (s.setPort p x).pending = s.pending := rfl

/-! ### `State.setGrafter` -/

@[simp] theorem State.setGrafter_mem (s : State) (k : Nat) (g : Grafter) : (s.setGrafter k g).mem = s.mem := rfl
@[simp] theorem State.setGrafter_flaws (s : State) (k : Nat) (g : Grafter) : (s.setGrafter k g).flaws = s.flaws := rfl
@[simp] theorem State.setGrafter_hub (s : State) (k : Nat) (g : Grafter) : (s.setGrafter k g).hub = s.hub := rfl
@[simp] theorem State.setGrafter_mbx (s : State) (k : Nat) (g : Grafter) : (s.setGrafter k g).mbx = s.mbx := rfl
@[simp] theorem State.setGrafter_cores (s : State) (k : Nat) (g : Grafter) : (s.setGrafter k g).cores = s.cores := rfl
@[simp] theorem State.setGrafter_clusters (s : State) (k : Nat) (g : Grafter) : (s.setGrafter k g).clusters = s.clusters := rfl
@[simp] theorem State.setGrafter_outbox (s : State) (k : Nat) (g : Grafter) : (s.setGrafter k g).outbox = s.outbox := rfl
@[simp] theorem State.setGrafter_net (s : State) (k : Nat) (g : Grafter) : (s.setGrafter k g).net = s.net := rfl
@[simp] theorem State.setGrafter_frontTab (s : State) (k : Nat) (g : Grafter) : (s.setGrafter k g).frontTab = s.frontTab := rfl
@[simp] theorem State.setGrafter_frontQ (s : State) (k : Nat) (g : Grafter) : (s.setGrafter k g).frontQ = s.frontQ := rfl
@[simp] theorem State.setGrafter_streams (s : State) (k : Nat) (g : Grafter) : (s.setGrafter k g).streams = s.streams := rfl
@[simp] theorem State.setGrafter_frontHeld (s : State) (k : Nat) (g : Grafter) : (s.setGrafter k g).frontHeld = s.frontHeld := rfl
@[simp] theorem State.setGrafter_quietG (s : State) (k : Nat) (g : Grafter) : (s.setGrafter k g).quietG = s.quietG := rfl
@[simp] theorem State.setGrafter_quiescedG (s : State) (k : Nat) (g : Grafter) : (s.setGrafter k g).quiescedG = s.quiescedG := rfl
@[simp] theorem State.setGrafter_quiesce (s : State) (k : Nat) (g : Grafter) : (s.setGrafter k g).quiesce = s.quiesce := rfl
@[simp] theorem State.setGrafter_barrier (s : State) (k : Nat) (g : Grafter) : (s.setGrafter k g).barrier = s.barrier := rfl
@[simp] theorem State.setGrafter_rake (s : State) (k : Nat) (g : Grafter) : (s.setGrafter k g).rake = s.rake := rfl
@[simp] theorem State.setGrafter_step (s : State) (k : Nat) (g : Grafter) : (s.setGrafter k g).step = s.step := rfl
@[simp] theorem State.setGrafter_sieve (s : State) (k : Nat) (g : Grafter) : (s.setGrafter k g).sieve = s.sieve := rfl
@[simp] theorem State.setGrafter_layers (s : State) (k : Nat) (g : Grafter) : (s.setGrafter k g).layers = s.layers := rfl
@[simp] theorem State.setGrafter_layersNext (s : State) (k : Nat) (g : Grafter) : (s.setGrafter k g).layersNext = s.layersNext := rfl
@[simp] theorem State.setGrafter_factors (s : State) (k : Nat) (g : Grafter) : (s.setGrafter k g).factors = s.factors := rfl
@[simp] theorem State.setGrafter_coll (s : State) (k : Nat) (g : Grafter) : (s.setGrafter k g).coll = s.coll := rfl
@[simp] theorem State.setGrafter_links (s : State) (k : Nat) (g : Grafter) : (s.setGrafter k g).links = s.links := rfl
@[simp] theorem State.setGrafter_harvest (s : State) (k : Nat) (g : Grafter) : (s.setGrafter k g).harvest = s.harvest := rfl
@[simp] theorem State.setGrafter_rel (s : State) (k : Nat) (g : Grafter) : (s.setGrafter k g).rel = s.rel := rfl
@[simp] theorem State.setGrafter_gauge (s : State) (k : Nat) (g : Grafter) : (s.setGrafter k g).gauge = s.gauge := rfl
@[simp] theorem State.setGrafter_mb (s : State) (k : Nat) (g : Grafter) : (s.setGrafter k g).mb = s.mb := rfl
@[simp] theorem State.setGrafter_host (s : State) (k : Nat) (g : Grafter) : (s.setGrafter k g).host = s.host := rfl
@[simp] theorem State.setGrafter_sec (s : State) (k : Nat) (g : Grafter) : (s.setGrafter k g).sec = s.sec := rfl
@[simp] theorem State.setGrafter_rst (s : State) (k : Nat) (g : Grafter) : (s.setGrafter k g).rst = s.rst := rfl
@[simp] theorem State.setGrafter_pwr (s : State) (k : Nat) (g : Grafter) : (s.setGrafter k g).pwr = s.pwr := rfl
@[simp] theorem State.setGrafter_fac (s : State) (k : Nat) (g : Grafter) : (s.setGrafter k g).fac = s.fac := rfl
@[simp] theorem State.setGrafter_hubFlitCe (s : State) (k : Nat) (g : Grafter) : (s.setGrafter k g).hubFlitCe = s.hubFlitCe := rfl
@[simp] theorem State.setGrafter_sundial (s : State) (k : Nat) (g : Grafter) : (s.setGrafter k g).sundial = s.sundial := rfl
@[simp] theorem State.setGrafter_logs (s : State) (k : Nat) (g : Grafter) : (s.setGrafter k g).logs = s.logs := rfl
@[simp] theorem State.setGrafter_logLost (s : State) (k : Nat) (g : Grafter) : (s.setGrafter k g).logLost = s.logLost := rfl
@[simp] theorem State.setGrafter_policy (s : State) (k : Nat) (g : Grafter) : (s.setGrafter k g).policy = s.policy := rfl
@[simp] theorem State.setGrafter_msix (s : State) (k : Nat) (g : Grafter) : (s.setGrafter k g).msix = s.msix := rfl
@[simp] theorem State.setGrafter_fresh (s : State) (k : Nat) (g : Grafter) : (s.setGrafter k g).fresh = s.fresh := rfl
@[simp] theorem State.setGrafter_pending (s : State) (k : Nat) (g : Grafter) : (s.setGrafter k g).pending = s.pending := rfl

/-! ### `State.beginCommit` -/

@[simp] theorem State.beginCommit_mem (s : State) (key old : Nat) : (s.beginCommit key old).mem = s.mem := rfl
@[simp] theorem State.beginCommit_flaws (s : State) (key old : Nat) : (s.beginCommit key old).flaws = s.flaws := rfl
@[simp] theorem State.beginCommit_hub (s : State) (key old : Nat) : (s.beginCommit key old).hub = s.hub := rfl
@[simp] theorem State.beginCommit_mbx (s : State) (key old : Nat) : (s.beginCommit key old).mbx = s.mbx := rfl
@[simp] theorem State.beginCommit_cores (s : State) (key old : Nat) : (s.beginCommit key old).cores = s.cores := rfl
@[simp] theorem State.beginCommit_clusters (s : State) (key old : Nat) : (s.beginCommit key old).clusters = s.clusters := rfl
@[simp] theorem State.beginCommit_outbox (s : State) (key old : Nat) : (s.beginCommit key old).outbox = s.outbox := rfl
@[simp] theorem State.beginCommit_net (s : State) (key old : Nat) : (s.beginCommit key old).net = s.net := rfl
@[simp] theorem State.beginCommit_frontTab (s : State) (key old : Nat) : (s.beginCommit key old).frontTab = s.frontTab := rfl
@[simp] theorem State.beginCommit_frontQ (s : State) (key old : Nat) : (s.beginCommit key old).frontQ = s.frontQ := rfl
@[simp] theorem State.beginCommit_streams (s : State) (key old : Nat) : (s.beginCommit key old).streams = s.streams := rfl
@[simp] theorem State.beginCommit_frontHeld (s : State) (key old : Nat) : (s.beginCommit key old).frontHeld = s.frontHeld := rfl
@[simp] theorem State.beginCommit_quietG (s : State) (key old : Nat) : (s.beginCommit key old).quietG = s.quietG := rfl
@[simp] theorem State.beginCommit_quiescedG (s : State) (key old : Nat) : (s.beginCommit key old).quiescedG = s.quiescedG := rfl
@[simp] theorem State.beginCommit_quiesce (s : State) (key old : Nat) : (s.beginCommit key old).quiesce = s.quiesce := rfl
@[simp] theorem State.beginCommit_barrier (s : State) (key old : Nat) : (s.beginCommit key old).barrier = s.barrier := rfl
@[simp] theorem State.beginCommit_rake (s : State) (key old : Nat) : (s.beginCommit key old).rake = s.rake := rfl
@[simp] theorem State.beginCommit_step (s : State) (key old : Nat) : (s.beginCommit key old).step = s.step := rfl
@[simp] theorem State.beginCommit_sieve (s : State) (key old : Nat) : (s.beginCommit key old).sieve = s.sieve := rfl
@[simp] theorem State.beginCommit_layers (s : State) (key old : Nat) : (s.beginCommit key old).layers = s.layers := rfl
@[simp] theorem State.beginCommit_layersNext (s : State) (key old : Nat) : (s.beginCommit key old).layersNext = s.layersNext := rfl
@[simp] theorem State.beginCommit_factors (s : State) (key old : Nat) : (s.beginCommit key old).factors = s.factors := rfl
@[simp] theorem State.beginCommit_grafters (s : State) (key old : Nat) : (s.beginCommit key old).grafters = s.grafters := rfl
@[simp] theorem State.beginCommit_coll (s : State) (key old : Nat) : (s.beginCommit key old).coll = s.coll := rfl
@[simp] theorem State.beginCommit_links (s : State) (key old : Nat) : (s.beginCommit key old).links = s.links := rfl
@[simp] theorem State.beginCommit_harvest (s : State) (key old : Nat) : (s.beginCommit key old).harvest = s.harvest := rfl
@[simp] theorem State.beginCommit_rel (s : State) (key old : Nat) : (s.beginCommit key old).rel = s.rel := rfl
@[simp] theorem State.beginCommit_gauge (s : State) (key old : Nat) : (s.beginCommit key old).gauge = s.gauge := rfl
@[simp] theorem State.beginCommit_mb (s : State) (key old : Nat) : (s.beginCommit key old).mb = s.mb := rfl
@[simp] theorem State.beginCommit_host (s : State) (key old : Nat) : (s.beginCommit key old).host = s.host := rfl
@[simp] theorem State.beginCommit_sec (s : State) (key old : Nat) : (s.beginCommit key old).sec = s.sec := rfl
@[simp] theorem State.beginCommit_rst (s : State) (key old : Nat) : (s.beginCommit key old).rst = s.rst := rfl
@[simp] theorem State.beginCommit_fac (s : State) (key old : Nat) : (s.beginCommit key old).fac = s.fac := rfl
@[simp] theorem State.beginCommit_hubFlitCe (s : State) (key old : Nat) : (s.beginCommit key old).hubFlitCe = s.hubFlitCe := rfl
@[simp] theorem State.beginCommit_sundial (s : State) (key old : Nat) : (s.beginCommit key old).sundial = s.sundial := rfl
@[simp] theorem State.beginCommit_logs (s : State) (key old : Nat) : (s.beginCommit key old).logs = s.logs := rfl
@[simp] theorem State.beginCommit_logLost (s : State) (key old : Nat) : (s.beginCommit key old).logLost = s.logLost := rfl
@[simp] theorem State.beginCommit_policy (s : State) (key old : Nat) : (s.beginCommit key old).policy = s.policy := rfl
@[simp] theorem State.beginCommit_msix (s : State) (key old : Nat) : (s.beginCommit key old).msix = s.msix := rfl
@[simp] theorem State.beginCommit_fresh (s : State) (key old : Nat) : (s.beginCommit key old).fresh = s.fresh := rfl
@[simp] theorem State.beginCommit_pending (s : State) (key old : Nat) : (s.beginCommit key old).pending = s.pending := rfl

/-! ### `State.answerFac` -/

@[simp] theorem State.answerFac_mem (s : State) (r : Option (List Byte)) : (s.answerFac r).mem = s.mem := rfl
@[simp] theorem State.answerFac_flaws (s : State) (r : Option (List Byte)) : (s.answerFac r).flaws = s.flaws := rfl
@[simp] theorem State.answerFac_hub (s : State) (r : Option (List Byte)) : (s.answerFac r).hub = s.hub := rfl
@[simp] theorem State.answerFac_mbx (s : State) (r : Option (List Byte)) : (s.answerFac r).mbx = s.mbx := rfl
@[simp] theorem State.answerFac_cores (s : State) (r : Option (List Byte)) : (s.answerFac r).cores = s.cores := rfl
@[simp] theorem State.answerFac_clusters (s : State) (r : Option (List Byte)) : (s.answerFac r).clusters = s.clusters := rfl
@[simp] theorem State.answerFac_outbox (s : State) (r : Option (List Byte)) : (s.answerFac r).outbox = s.outbox := rfl
@[simp] theorem State.answerFac_net (s : State) (r : Option (List Byte)) : (s.answerFac r).net = s.net := rfl
@[simp] theorem State.answerFac_frontTab (s : State) (r : Option (List Byte)) : (s.answerFac r).frontTab = s.frontTab := rfl
@[simp] theorem State.answerFac_frontQ (s : State) (r : Option (List Byte)) : (s.answerFac r).frontQ = s.frontQ := rfl
@[simp] theorem State.answerFac_streams (s : State) (r : Option (List Byte)) : (s.answerFac r).streams = s.streams := rfl
@[simp] theorem State.answerFac_frontHeld (s : State) (r : Option (List Byte)) : (s.answerFac r).frontHeld = s.frontHeld := rfl
@[simp] theorem State.answerFac_quietG (s : State) (r : Option (List Byte)) : (s.answerFac r).quietG = s.quietG := rfl
@[simp] theorem State.answerFac_quiescedG (s : State) (r : Option (List Byte)) : (s.answerFac r).quiescedG = s.quiescedG := rfl
@[simp] theorem State.answerFac_quiesce (s : State) (r : Option (List Byte)) : (s.answerFac r).quiesce = s.quiesce := rfl
@[simp] theorem State.answerFac_barrier (s : State) (r : Option (List Byte)) : (s.answerFac r).barrier = s.barrier := rfl
@[simp] theorem State.answerFac_rake (s : State) (r : Option (List Byte)) : (s.answerFac r).rake = s.rake := rfl
@[simp] theorem State.answerFac_step (s : State) (r : Option (List Byte)) : (s.answerFac r).step = s.step := rfl
@[simp] theorem State.answerFac_sieve (s : State) (r : Option (List Byte)) : (s.answerFac r).sieve = s.sieve := rfl
@[simp] theorem State.answerFac_layers (s : State) (r : Option (List Byte)) : (s.answerFac r).layers = s.layers := rfl
@[simp] theorem State.answerFac_layersNext (s : State) (r : Option (List Byte)) : (s.answerFac r).layersNext = s.layersNext := rfl
@[simp] theorem State.answerFac_factors (s : State) (r : Option (List Byte)) : (s.answerFac r).factors = s.factors := rfl
@[simp] theorem State.answerFac_grafters (s : State) (r : Option (List Byte)) : (s.answerFac r).grafters = s.grafters := rfl
@[simp] theorem State.answerFac_coll (s : State) (r : Option (List Byte)) : (s.answerFac r).coll = s.coll := rfl
@[simp] theorem State.answerFac_links (s : State) (r : Option (List Byte)) : (s.answerFac r).links = s.links := rfl
@[simp] theorem State.answerFac_harvest (s : State) (r : Option (List Byte)) : (s.answerFac r).harvest = s.harvest := rfl
@[simp] theorem State.answerFac_rel (s : State) (r : Option (List Byte)) : (s.answerFac r).rel = s.rel := rfl
@[simp] theorem State.answerFac_gauge (s : State) (r : Option (List Byte)) : (s.answerFac r).gauge = s.gauge := rfl
@[simp] theorem State.answerFac_mb (s : State) (r : Option (List Byte)) : (s.answerFac r).mb = s.mb := rfl
@[simp] theorem State.answerFac_host (s : State) (r : Option (List Byte)) : (s.answerFac r).host = s.host := rfl
@[simp] theorem State.answerFac_sec (s : State) (r : Option (List Byte)) : (s.answerFac r).sec = s.sec := rfl
@[simp] theorem State.answerFac_rst (s : State) (r : Option (List Byte)) : (s.answerFac r).rst = s.rst := rfl
@[simp] theorem State.answerFac_pwr (s : State) (r : Option (List Byte)) : (s.answerFac r).pwr = s.pwr := rfl
@[simp] theorem State.answerFac_hubFlitCe (s : State) (r : Option (List Byte)) : (s.answerFac r).hubFlitCe = s.hubFlitCe := rfl
@[simp] theorem State.answerFac_sundial (s : State) (r : Option (List Byte)) : (s.answerFac r).sundial = s.sundial := rfl
@[simp] theorem State.answerFac_logs (s : State) (r : Option (List Byte)) : (s.answerFac r).logs = s.logs := rfl
@[simp] theorem State.answerFac_logLost (s : State) (r : Option (List Byte)) : (s.answerFac r).logLost = s.logLost := rfl
@[simp] theorem State.answerFac_policy (s : State) (r : Option (List Byte)) : (s.answerFac r).policy = s.policy := rfl
@[simp] theorem State.answerFac_msix (s : State) (r : Option (List Byte)) : (s.answerFac r).msix = s.msix := rfl
@[simp] theorem State.answerFac_fresh (s : State) (r : Option (List Byte)) : (s.answerFac r).fresh = s.fresh := rfl
@[simp] theorem State.answerFac_pending (s : State) (r : Option (List Byte)) : (s.answerFac r).pending = s.pending := rfl

end Sys2Proof.Machine
end

