-- ==== Sys2Proof/Laws/Memory.lean ====
section
/-! SUPPORT. Every operation over memory keeps its canonical form, and memory after reset has it. -/

namespace Sys2Proof.Machine

theorem Memory.wf_nil : Memory.wf [] = true := by decide

theorem reset_memory_wf : Memory.wf State.reset.mem = true := Memory.wf_nil

theorem Memory.wf_mset {m : Mem} (a : Nat) (b : Byte) (h : Memory.wf m = true) : Memory.wf (mset m a b) = true := Sparse.wf_set _ a b h

theorem Memory.wf_msets {m : Mem} (a : Nat) (bs : List Byte) (h : Memory.wf m = true) : Memory.wf (msets m a bs) = true := Sparse.wf_setRun _ a bs h

theorem Memory.wf_filter {m : Mem} (p : Nat × Byte → Bool) (h : Memory.wf m = true) : Memory.wf (m.filter p) = true := Sparse.wf_filter _ p h

/-- A write reads back, byte for byte, and leaves every other byte. -/
theorem mget_msets (m : Mem) (a k : Nat) (bs : List Byte) :
    mget (msets m a bs) k = if a ≤ k ∧ k < a + bs.length then bs.getD (k - a) 0 else mget m k := by
  simp only [mget, msets, Sparse.get_setRun]
  by_cases h : a ≤ k ∧ k - a < bs.length
  · rw [dif_pos h, if_pos ⟨h.1, by omega⟩, List.getD_eq_getElem _ _ h.2]
  · rw [dif_neg h, if_neg (by omega)]

/-- A pending write-back is no memory. -/
@[simp] theorem State.cancelWb_mem (s : State) (a n : Nat) : (s.cancelWb a n).mem = s.mem := by
  unfold State.cancelWb
  split <;> first | rfl | (split <;> rfl)

/-- A write of one place. -/
@[simp] theorem State.wrPlace_mem (s : State) (a : Nat) (bs : List Byte) : (s.wrPlace a bs).mem = msets s.mem a bs := by
  rw [State.wrPlace, State.cancelWb_mem]

/-- A write of mapped memory. -/
theorem State.wr_mem (s : State) (a : Nat) (bs : List Byte) (hm : memRange a bs.length = true) : (s.wr a bs).mem = msets s.mem a bs := by
  unfold State.wr
  cases hb : bs.isEmpty with
  | true => rw [List.isEmpty_iff.mp hb]; rfl
  | false => rw [if_neg (by simp), if_pos hm, State.wrPlace_mem]

theorem foldl_wf {α : Type} (l : List α) (f : State → α → State) (hf : ∀ s x, Memory.wf s.mem = true → Memory.wf (f s x).mem = true) {s : State}
    (h : Memory.wf s.mem = true) : Memory.wf (l.foldl f s).mem = true := by
  induction l generalizing s with
  | nil => exact h
  | cons x r ih => exact ih (hf s x h)

theorem State.wrPlace_wf {s : State} (a : Nat) (bs : List Byte) (h : Memory.wf s.mem = true) : Memory.wf (s.wrPlace a bs).mem = true := by
  rw [State.wrPlace_mem]; exact Memory.wf_msets _ _ h

theorem State.wr_wf {s : State} (a : Nat) (bs : List Byte) (h : Memory.wf s.mem = true) : Memory.wf (s.wr a bs).mem = true := by
  unfold State.wr
  split
  · exact h
  · split
    · exact State.wrPlace_wf _ _ h
    · refine foldl_wf _ _ (fun t g ht => ?_) h
      split
      · exact State.wrPlace_wf _ _ ht
      · exact ht

theorem State.wrN_wf {s : State} (a n v : Nat) (h : Memory.wf s.mem = true) : Memory.wf (s.wrN a n v).mem = true := State.wr_wf _ _ h

/-- Events, tickets and the abandoned snapshot are no memory. -/
@[simp] theorem State.logEvent_mem (s : State) (e : Event) : (s.logEvent e).mem = s.mem := by
  unfold State.logEvent
  split
  · dsimp only
    split <;> split <;> rfl
  · rfl

@[simp] theorem State.event_mem (s : State) (st k i a : Nat) : (s.event st k i a).mem = s.mem := by
  unfold State.event
  split <;> simp

@[simp] theorem State.endTicket_mem (s : State) (n st : Nat) : (s.endTicket n st).mem = s.mem := by
  unfold State.endTicket
  dsimp only
  split <;> rfl

@[simp] theorem State.abandon_mem (s : State) (st : Nat) : (s.abandon st).mem = s.mem := by
  unfold State.abandon
  split
  · dsimp only
    split <;> simp [State.setHf]
  · rfl

theorem State.stageUnit_wf {s : State} (u : Nat) (h : Memory.wf s.mem = true) : Memory.wf (s.stageUnit u).mem = true := by
  have key : (s.stageUnit u).mem = s.mem ∨ ∃ a bs, (s.stageUnit u).mem = (s.wr a bs).mem := by
    unfold State.stageUnit
    split
    · dsimp only
      split
      · exact .inl (State.abandon_mem _ _)
      · refine .inr ⟨4096 * s.hf .HRV_STAGE 0 0 27 + 4096 * s.harvest.staged.length, s.rd (4096 * u) 4096, ?_⟩
        rw [State.setHf_mem]
    · exact .inl rfl
  rcases key with e | ⟨a, bs, e⟩ <;> rw [e]
  · exact h
  · exact State.wr_wf _ _ h

theorem State.stage_wf {s : State} (a n : Nat) (h : Memory.wf s.mem = true) : Memory.wf (s.stage a n).mem = true := by
  unfold State.stage
  split
  · exact foldl_wf _ _ (fun _ _ => State.stageUnit_wf _) h
  · exact h

/-- A write by the Shed, a core, the host, a sweep or a fold. -/
theorem State.wrS_wf {s : State} (a : Nat) (bs : List Byte) (h : Memory.wf s.mem = true) : Memory.wf (s.wrS a bs).mem = true :=
  State.wr_wf _ _ (State.stage_wf _ _ h)

theorem State.completion_wf {s : State} (cdpa st tag n len : Nat) (h : Memory.wf s.mem = true) : Memory.wf (s.completion cdpa st tag n len).mem = true :=
  State.wrS_wf _ _ h

/-- Upsets. -/
theorem strike_wf {m : Mem} (fl : Flaws) (u : Upset) (h : Memory.wf m = true) : Memory.wf (strike m fl u).1 = true := by
  exact Memory.wf_msets _ _ h

/-- Write-backs. -/
theorem writeBack_wf {m : Mem} (fl : Flaws) (w : Nat) (h : Memory.wf m = true) : Memory.wf (writeBack m fl w).1 = true := by
  unfold writeBack
  dsimp only
  split
  · exact Memory.wf_msets _ _ h
  · exact h

theorem State.strikes_wf {s : State} (us : List Upset) (h : Memory.wf s.mem = true) : Memory.wf (s.strikes us).mem = true := by
  unfold State.strikes
  refine foldl_wf _ _ (fun t u ht => ?_) h
  split
  · simp only [apply_ite State.mem, State.modCore_mem, ite_self]
    exact ht
  · split
    · exact strike_wf _ _ ht
    · exact ht

/-- Memory whose contents become open. -/
theorem State.forget_wf {s : State} (p : Nat → Bool) (h : Memory.wf s.mem = true) : Memory.wf (s.forget p).mem = true := by
  unfold State.forget
  have key : ∀ (l : List (Nat × Nat)) (m : Mem), Memory.wf m = true →
      Memory.wf (l.foldl (fun (m : Mem) e => mset m e.1 (BitVec.ofNat 8 e.2)) m) = true := by
    intro l
    induction l with
    | nil => exact fun _ h => h
    | cons x r ih => exact fun m h => ih _ (Memory.wf_mset _ _ h)
  exact key _ _ (Memory.wf_filter _ h)

/-- Memory a reset clears. -/
theorem State.zeroMem_wf {s : State} (p : Nat → Bool) (h : Memory.wf s.mem = true) : Memory.wf (s.zeroMem p).mem = true := Memory.wf_filter _ h

theorem State.clearFabric_wf {s : State} (h : Memory.wf s.mem = true) : Memory.wf s.clearFabric.mem = true := Memory.wf_filter _ h

/-- A core's write of its local memory. -/
theorem CX.writeLocal_wf {x : CX} (a : Nat) (bs : List Byte) (h : Memory.wf x.mem = true) : Memory.wf (x.writeLocal a bs).mem = true := Memory.wf_msets _ _ h

end Sys2Proof.Machine
end

