-- ==== Sys2Proof/Laws/Regs.lean ====
section
/-! SUPPORT. Laws of register files: a register and a field read as what was written to them, and as before where nothing was. -/

namespace Sys2Proof.Machine

theorem rg_lt (f : Regs) (r : Reg) (i : Nat) : rg f r i < 2 ^ 32 := (Sparse.get _ f _).isLt

theorem rg_sg_same (f : Regs) (r : Reg) (i v : Nat) : rg (sg f r i v) r i = v % 2 ^ 32 := by
  simp [rg, sg, BitVec.toNat_ofNat]

/-- Another register, by its offset. -/
theorem rg_sg_other (f : Regs) (r r' : Reg) (i i' v : Nat) (h : r'.offset i' ≠ r.offset i) : rg (sg f r i v) r' i' = rg f r' i' := by
  simp [rg, sg, Sparse.get_set_other _ _ _ _ _ h]

theorem rg_sf_same (f : Regs) (r : Reg) (i lo w x : Nat) (h : lo + w ≤ 32) : rg (sf f r i lo w x) r i = putBits (rg f r i) lo w x := by
  rw [sf, rg_sg_same, Nat.mod_eq_of_lt (putBits_lt _ _ _ _ (rg_lt f r i) h)]

theorem rg_sf_other (f : Regs) (r r' : Reg) (i i' lo w x : Nat) (h : r'.offset i' ≠ r.offset i) : rg (sf f r i lo w x) r' i' = rg f r' i' :=
  rg_sg_other f r r' i i' _ h

/-- A field reads as what was written to it. -/
theorem rf_sf_same (f : Regs) (r : Reg) (i lo w x : Nat) (h : lo + w ≤ 32) : rf (sf f r i lo w x) r i lo w = x % 2 ^ w := by
  rw [rf, rg_sf_same f r i lo w x h, bits_putBits_same]

/-- Another field of the register reads as before. -/
theorem rf_sf_field (f : Regs) (r : Reg) (i lo w x lo' w' : Nat) (h : lo + w ≤ 32) (hd : lo + w ≤ lo' ∨ lo' + w' ≤ lo) :
    rf (sf f r i lo w x) r i lo' w' = rf f r i lo' w' := by
  rw [rf, rg_sf_same f r i lo w x h, bits_putBits_other _ _ _ _ _ _ hd, rf]

theorem rf_sf_other (f : Regs) (r r' : Reg) (i i' lo w x lo' w' : Nat) (h : r'.offset i' ≠ r.offset i) :
    rf (sf f r i lo w x) r' i' lo' w' = rf f r' i' lo' w' := by
  rw [rf, rg_sf_other f r r' i i' lo w x h, rf]

/-! ### The hub windows -/

theorem State.h_setH_same (s : State) (r : Reg) (i v : Nat) : (s.setH r i v).h r i = v % 2 ^ 32 := rg_sg_same s.hub r i v

theorem State.h_setH_other (s : State) (r r' : Reg) (i i' v : Nat) (h : r'.offset i' ≠ r.offset i) : (s.setH r i v).h r' i' = s.h r' i' :=
  rg_sg_other s.hub r r' i i' v h

theorem State.h_setHf_other (s : State) (r r' : Reg) (i i' lo w x : Nat) (h : r'.offset i' ≠ r.offset i) :
    (s.setHf r i lo w x).h r' i' = s.h r' i' := rg_sf_other s.hub r r' i i' lo w x h

theorem State.hf_setHf_same (s : State) (r : Reg) (i lo w x : Nat) (h : lo + w ≤ 32) : (s.setHf r i lo w x).hf r i lo w = x % 2 ^ w :=
  rf_sf_same s.hub r i lo w x h

theorem State.hf_setHf_field (s : State) (r : Reg) (i lo w x lo' w' : Nat) (h : lo + w ≤ 32) (hd : lo + w ≤ lo' ∨ lo' + w' ≤ lo) :
    (s.setHf r i lo w x).hf r i lo' w' = s.hf r i lo' w' := rf_sf_field s.hub r i lo w x lo' w' h hd

theorem State.hf_setHf_other (s : State) (r r' : Reg) (i i' lo w x lo' w' : Nat) (h : r'.offset i' ≠ r.offset i) :
    (s.setHf r i lo w x).hf r' i' lo' w' = s.hf r' i' lo' w' := rf_sf_other s.hub r r' i i' lo w x lo' w' h

theorem State.hf_setH_other (s : State) (r r' : Reg) (i i' v lo w : Nat) (h : r'.offset i' ≠ r.offset i) :
    (s.setH r i v).hf r' i' lo w = s.hf r' i' lo w := by
  simp only [State.hf, rf, State.setH, rg_sg_other s.hub r r' i i' v h]

/-! ### Cores and clusters -/

@[simp] theorem State.core_setCore_same (s : State) (gi : Nat) (c : Core) : (s.setCore gi c).core gi = c := Fam.get_set_same s.cores gi c

theorem State.core_setCore_other (s : State) (gi gj : Nat) (c : Core) (h : gj ≠ gi) : (s.setCore gi c).core gj = s.core gj :=
  Fam.get_set_other s.cores gi gj c h

@[simp] theorem State.core_modCore_same (s : State) (gi : Nat) (f : Core → Core) : (s.modCore gi f).core gi = f (s.core gi) :=
  Fam.get_set_same s.cores gi _

@[simp] theorem State.cluster_setCluster_same (s : State) (ci : Nat) (c : Cluster) : (s.setCluster ci c).cluster ci = c :=
  Fam.get_set_same s.clusters ci c

theorem State.cluster_setCluster_other (s : State) (ci cj : Nat) (c : Cluster) (h : cj ≠ ci) : (s.setCluster ci c).cluster cj = s.cluster cj :=
  Fam.get_set_other s.clusters ci cj c h

@[simp] theorem State.cluster_modCluster_same (s : State) (ci : Nat) (f : Cluster → Cluster) : (s.modCluster ci f).cluster ci = f (s.cluster ci) :=
  Fam.get_set_same s.clusters ci _

end Sys2Proof.Machine
end

