-- ==== Sys2Proof/Tests/Slice0.lean ====
section
/-! SUPPORT. The model's own tests: ill-formed commands refused, results worked by hand from the spec, and for every statement with hypotheses states and
operands that meet them. -/

set_option Elab.async false

namespace Sys2Proof.Tests

open Sys2Proof Sys2Proof.Machine Sys2Proof.Claims

/-- The check refuses every one. -/
def refused (l : List Instr) : Bool := l.all fun i => !i.wf
/-- The check passes every one. -/
def accepted (l : List Instr) : Bool := l.all fun i => i.wf

/-! ### Operands outside what their checks admit, one term a check -/

theorem test_ill_formed_commands_are_refused_1 :
    refused [.registerWrite (.bar2 (2 ^ 28)) 0 0, .registerWrite (.bar0 0) (2 ^ 32) 0, .registerWrite (.bar0 0) 0 16, .loReadLatch (.bar2 (2 ^ 28))] = true ∧
    refused [.coldFrameAccess (.bar2 (2 ^ 28)) none, .coldFrameAccess (.bar0 0) (some (2 ^ 32)), .listEntryFetch nCores [], .listEntryFetch 0 [⟨0, 2 ^ 64⟩]] = true ∧
    refused [.descIssue nCores, .chainBodyLoad nCores [], .chainBodyLoad 0 [⟨0, 2 ^ 64⟩], .descComplete nCores] = true ∧
    refused [.descEngineStop nCores, .nop nCores, .pass nCores [], .pass 0 [⟨0, 2 ^ 64⟩]] = true ∧
    refused [.emul nCores, .eadd nCores, .efma nCores, .chain nCores []] = true ∧
    refused [.chain 0 [⟨0, 2 ^ 64⟩], .fill nCores [], .fill 0 [⟨0, 2 ^ 64⟩], .fillT nCores []] = true ∧
    refused [.fillT 0 [⟨0, 2 ^ 64⟩], .fillIn nCores, .fillComplete nCores, .load nCores] = true ∧
    refused [.store nCores, .send nCores, .sendInject nCores, .post nCores] = true ∧
    refused [.postArm nCores, .rakeSq nCores [] [], .rakeSq 0 [⟨0, 2 ^ 64⟩] [], .rakeSq 0 [] [.corrected (2 ^ 34)]] = true ∧
    refused [.repeatEntry nCores, .resultLand nCores, .lmemEccWriteback nCores, .vnop nCores 0] = true := by decide +kernel

theorem test_ill_formed_commands_are_refused_2 :
    refused [.vnop 0 (2 ^ 64), .vadd nCores 0, .vadd 0 (2 ^ 64), .vsub nCores 0] = true ∧
    refused [.vsub 0 (2 ^ 64), .vmul nCores 0, .vmul 0 (2 ^ 64), .vfma nCores 0] = true ∧
    refused [.vfma 0 (2 ^ 64), .vfnma nCores 0, .vfnma 0 (2 ^ 64), .vmax nCores 0] = true ∧
    refused [.vmax 0 (2 ^ 64), .vmin nCores 0, .vmin 0 (2 ^ 64), .vabs nCores 0] = true ∧
    refused [.vabs 0 (2 ^ 64), .vneg nCores 0, .vneg 0 (2 ^ 64), .vceq nCores 0] = true ∧
    refused [.vceq 0 (2 ^ 64), .vclt nCores 0, .vclt 0 (2 ^ 64), .vcle nCores 0] = true ∧
    refused [.vcle 0 (2 ^ 64), .vclass nCores 0, .vclass 0 (2 ^ 64), .vsel nCores 0] = true ∧
    refused [.vsel 0 (2 ^ 64), .vmov nCores 0, .vmov 0 (2 ^ 64), .vand nCores 0] = true ∧
    refused [.vand 0 (2 ^ 64), .vor nCores 0, .vor 0 (2 ^ 64), .vxor nCores 0] = true ∧
    refused [.vxor 0 (2 ^ 64), .vshl nCores 0, .vshl 0 (2 ^ 64), .vsra nCores 0] = true := by decide +kernel

theorem test_ill_formed_commands_are_refused_3 :
    refused [.vsra 0 (2 ^ 64), .vsrl nCores 0, .vsrl 0 (2 ^ 64), .viadd nCores 0] = true ∧
    refused [.viadd 0 (2 ^ 64), .visub nCores 0, .visub 0 (2 ^ 64), .vdiv nCores 0] = true ∧
    refused [.vdiv 0 (2 ^ 64), .vsqrt nCores 0, .vsqrt 0 (2 ^ 64), .vcvt nCores 0] = true ∧
    refused [.vcvt 0 (2 ^ 64), .vcvtMx nCores 0, .vcvtMx 0 (2 ^ 64), .vcvtwMx nCores 0] = true ∧
    refused [.vcvtwMx 0 (2 ^ 64), .vlsplit nCores 0, .vlsplit 0 (2 ^ 64), .vljoin nCores 0] = true ∧
    refused [.vljoin 0 (2 ^ 64), .vld nCores 0 [], .vld 0 (2 ^ 64) [], .vld 0 0 [⟨0, 2 ^ 64⟩]] = true ∧
    refused [.vst nCores 0 [], .vst 0 (2 ^ 64) [], .vst 0 0 [⟨0, 2 ^ 64⟩], .vlds nCores 0 []] = true ∧
    refused [.vlds 0 (2 ^ 64) [], .vlds 0 0 [⟨0, 2 ^ 64⟩], .vsts nCores 0 [], .vsts 0 (2 ^ 64) []] = true ∧
    refused [.vsts 0 0 [⟨0, 2 ^ 64⟩], .accrd nCores 0, .accrd 0 (2 ^ 64), .vredSum nCores 0] = true ∧
    refused [.vredSum 0 (2 ^ 64), .vredMax nCores 0, .vredMax 0 (2 ^ 64), .vredMin nCores 0] = true := by decide +kernel

theorem test_ill_formed_commands_are_refused_4 :
    refused [.vredMin 0 (2 ^ 64), .vred2Norm nCores 0, .vred2Norm 0 (2 ^ 64), .vred2Smax nCores 0] = true ∧
    refused [.vred2Smax 0 (2 ^ 64), .vexp2 nCores 0, .vexp2 0 (2 ^ 64), .vexp nCores 0] = true ∧
    refused [.vexp 0 (2 ^ 64), .vlog2 nCores 0, .vlog2 0 (2 ^ 64), .vrcp nCores 0] = true ∧
    refused [.vrcp 0 (2 ^ 64), .vrsq nCores 0, .vrsq 0 (2 ^ 64), .vsinpi nCores 0] = true ∧
    refused [.vsinpi 0 (2 ^ 64), .vcospi nCores 0, .vcospi 0 (2 ^ 64), .vtanh nCores 0] = true ∧
    refused [.vtanh 0 (2 ^ 64), .verf nCores 0, .verf 0 (2 ^ 64), .vleaf nCores 0] = true ∧
    refused [.vleaf 0 (2 ^ 64), .tokincWrite nCores 0 0, .tokincWrite 0 32 0, .tokincWrite 0 0 256] = true ∧
    refused [.cluLselWrite nClusters 0, .cluLselWrite 0 4, .patch nCores 0 [], .patch 0 65 []] = true ∧
    refused [.patch 0 0 [2 ^ 32], .listComplete nCores, .rampGroupRelease 8, .auditRepair [] [.corrected (2 ^ 34)]] = true ∧
    refused [.spareCoreSwap [⟨0, 2 ^ 64⟩] ⟨[], []⟩, .spareCoreSwap [] ⟨[], [(8, 0, 0)]⟩, .shardPermuteRun [.corrected (2 ^ 34)], .rollingBistSlice 0 [.port 4]] = true := by decide +kernel

theorem test_ill_formed_commands_are_refused_5 :
    refused [.msg 0 [.header (some nClusters)], .token 0 [.header (some nClusters)], .credit 0 [.header (some nClusters)], .mrd 0 [⟨0, 2 ^ 64⟩] [] []] = true ∧
    refused [.mrd 0 [] [.corrected (2 ^ 34)] [], .mrd 0 [] [] [.header (some nClusters)], .mwr 0 [.header (some nClusters)], .mrsp 0 [.header (some nClusters)]] = true ∧
    refused [.regrd 0 [.header (some nClusters)], .regwr 0 [.header (some nClusters)], .regrsp 0 [.header (some nClusters)], .tc0PoliceAdmit 0 nClusters 0] = true ∧
    refused [.halt (.rect 5 0 4 0 0) 0 [], .halt (.core 0) (2 ^ 64) [], .halt (.core 0) 0 [.header (some nClusters)], .resume (.rect 5 0 4 0 0) []] = true ∧
    refused [.resume (.core 0) [.header (some nClusters)], .quiesceUrgent (.hbm 16) [], .quiesceUrgent (.core 0) [.header (some nClusters)], .barrierArrive nClusters 0 []] = true ∧
    refused [.barrierArrive 0 (2 ^ 64) [], .barrierArrive 0 0 [.header (some nClusters)], .sdlSync 0 [.header (some nClusters)], .errorNotice 0 [.header (some nClusters)]] = true ∧
    refused [.frontgo (.csp nClusters) 0 0, .frontgo .host nClusters 0, .frontgo .host 0 (2 ^ 32), .frontLaunchRequest 0 [.header (some nClusters)]] = true ∧
    refused [.frontStreamStart 16 [], .frontStreamStart 0 [.corrected (2 ^ 34)], .frontMarker 0 [.header (some nClusters)], .frontTile 0 [.header (some nClusters)]] = true ∧
    refused [.cstoreEccWriteback nClusters, .hbmPatrolScrub (2 ^ 34) none false, .hbmPatrolScrub 0 (some (.corrected (2 ^ 34))) false, .mramPatrolScrub 8192 0 none] = true ∧
    refused [.mramPatrolScrub 0 128 none, .mramPatrolScrub 0 0 (some []), .gdoneNotice 0 [.header (some nClusters)], .ddoneNotice 0 [.header (some nClusters)]] = true := by decide +kernel

theorem test_ill_formed_commands_are_refused_6 :
    refused [.factorExchange [.corrected (2 ^ 34)], .factorFoldTile 2048 0 0 0 [], .factorFoldTile 0 2 0 0 [], .factorFoldTile 0 0 8 0 []] = true ∧
    refused [.factorFoldTile 0 0 0 0 [.corrected (2 ^ 34)], .grfSubloWrite (.csp nClusters) 0 0, .grfSubloWrite .host 8 0, .grfSubloWrite .host 0 (2 ^ 32)] = true ∧
    refused [.grfSubmit (.csp nClusters) 0 0, .grfSubmit .host 8 0, .grfSubmit .host 0 (2 ^ 32), .grafterJobStart 8 []] = true ∧
    refused [.grafterJobStart 0 [.corrected (2 ^ 34)], .root 8 0, .root 0 4, .orth 8 0] = true ∧
    refused [.orth 0 4, .chol 8 0, .chol 0 4, .trsv 8 0] = true ∧
    refused [.trsv 0 4, .cg 8 0, .cg 0 4, .grafterIterationComplete 8 0] = true ∧
    refused [.grafterIterationComplete 0 4, .jobDeadline 8 0, .jobDeadline 0 4, .grfAbort 8 0] = true ∧
    refused [.grfAbort 0 (2 ^ 32), .sweepRecord 0 [.corrected (2 ^ 34)], .workingCopyAudit [.corrected (2 ^ 34)], .recoverySweep [.corrected (2 ^ 34)]] = true ∧
    refused [.reduceScatterLayer [.corrected (2 ^ 34)], .collFrame 4 0 ⟨0, 0, 0, 0, 0, 0, .v1msg []⟩ [], .collFrame 0 (2 ^ 16) ⟨0, 0, 0, 0, 0, 0, .v1msg []⟩ [], .collFrame 0 0 ⟨8, 0, 0, 0, 0, 0, .v1msg []⟩ []] = true ∧
    refused [.collFrame 0 0 ⟨0, 0, 0, 0, 0, 0, .v1msg []⟩ [.corrected (2 ^ 34)], .gather [.corrected (2 ^ 34)], .mgmtFrame 4 0 ⟨0, 0, 0, 0, 0, 0, .v1msg []⟩, .mgmtFrame 0 (2 ^ 16) ⟨0, 0, 0, 0, 0, 0, .v1msg []⟩] = true := by decide +kernel

theorem test_ill_formed_commands_are_refused_7 :
    refused [.mgmtFrame 0 0 ⟨8, 0, 0, 0, 0, 0, .v1msg []⟩, .frameForward 4 0 ⟨0, 0, 0, 0, 0, 0, .v1msg []⟩, .frameForward 0 (2 ^ 16) ⟨0, 0, 0, 0, 0, 0, .v1msg []⟩, .frameForward 0 0 ⟨8, 0, 0, 0, 0, 0, .v1msg []⟩] = true ∧
    refused [.ack 4 0, .ack 0 (2 ^ 16), .nak 4 0, .nak 0 (2 ^ 16)] = true ∧
    refused [.portRetrain 4 false, .laneSpare 4 0, .laneSpare 0 3, .laneLoss 4 0] = true ∧
    refused [.laneLoss 0 3, .v1msg 4 0 [], .v1msg 0 (2 ^ 64) [], .v1msg 0 0 (List.replicate 4097 0#8)] = true ∧
    refused [.hello 4 0 ⟨0, 0, 0, 0, 0, 0, 0, 0, []⟩, .hello 0 (2 ^ 16) ⟨0, 0, 0, 0, 0, 0, 0, 0, []⟩, .hello 0 0 ⟨0, 4, 0, 0, 0, 0, 0, 0, []⟩, .discoveryRootAssign [⟨0, [], 0, none, [], []⟩]] = true ∧
    refused [.disc 4 0 .fail, .disc 0 (2 ^ 16) .fail, .disc 0 0 (.table [] 9 1), .portRejoin 4 none] = true ∧
    refused [.portRejoin 0 (some ⟨0, 4, 0, 0, 0, 0, 0, 0, []⟩), .replayReq 4 0 ⟨0, 0, 0, 0, 0, 0, .v1msg []⟩, .replayReq 0 (2 ^ 16) ⟨0, 0, 0, 0, 0, 0, .v1msg []⟩, .replayReq 0 0 ⟨8, 0, 0, 0, 0, 0, .v1msg []⟩] = true ∧
    refused [.sundialSyncTimer 16, .syncReq 4 0 0 0, .syncReq 0 (2 ^ 16) 0 0, .syncReq 0 0 0 16] = true ∧
    refused [.syncResp 4 0 0 0 0 0, .syncResp 0 (2 ^ 16) 0 0 0 0, .resetFrame 4 0 ⟨0, 0, 0, 0, 0, 0, .v1msg []⟩, .resetFrame 0 (2 ^ 16) ⟨0, 0, 0, 0, 0, 0, .v1msg []⟩] = true ∧
    refused [.resetFrame 0 0 ⟨8, 0, 0, 0, 0, 0, .v1msg []⟩, .mailboxDoorbell (2 ^ 16) [], .mailboxDoorbell 0 (List.replicate 8193 0#8), .slotAck 256] = true := by decide +kernel

theorem test_ill_formed_commands_are_refused_8 :
    refused [.ticketAck 256, .copySram [.corrected (2 ^ 34)], .layerWrite [.corrected (2 ^ 34)], .factorWrite [.corrected (2 ^ 34)]] = true ∧
    refused [.jobStart [.corrected (2 ^ 34)], .shardPermute [⟨64, 0, []⟩], .v1Send [.corrected (2 ^ 34)], .harvestDrain 0 [.corrected (2 ^ 34)] false] = true ∧
    refused [.harvestDataReceive 4 0 ⟨0, 0, 0, 0, 0, 0, .v1msg []⟩, .harvestDataReceive 0 (2 ^ 16) ⟨0, 0, 0, 0, 0, 0, .v1msg []⟩, .harvestDataReceive 0 0 ⟨8, 0, 0, 0, 0, 0, .v1msg []⟩, .selftest [.port 4]] = true ∧
    refused [.marginReplan ⟨[], [(8, 0, 0)]⟩, .marginReplanDaily ⟨[], [(8, 0, 0)]⟩, .fwStage [.corrected (2 ^ 34)], .memRead [.corrected (2 ^ 34)]] = true ∧
    refused [.memWrite [.corrected (2 ^ 34)], .debugReset [.grafter 8], .v1FwUpdate [.corrected (2 ^ 34)], .getCertificate 8 0 0] = true ∧
    refused [.challenge 8 (List.replicate 32 0#8), .challenge 0 [1#8], .getMeasurements 256 false [], .keyExchange 8 []] = true ∧
    refused [.finish (2 ^ 32) false, .heartbeat (2 ^ 32), .keyUpdate (2 ^ 32) 0, .keyUpdate 0 4] = true ∧
    refused [.endSession (2 ^ 32), .hdmRead false (2 ^ 39 + 1) 0 [], .hdmRead false 0 0 [.corrected (2 ^ 34)], .hdmWrite false (2 ^ 39 + 1) []] = true ∧
    refused [.pciePowerState 1, .laneWindow 4 0 0 0, .laneWindow 0 3 0 0, .spareEyeCheck 4 false] = true ∧
    refused [.rgaSample 64 0, .rgaSample 0 (2 ^ 32), .resetRequest [.grafter 8], .resetRelease false 3 [0] [none, none, none, none]] = true := by decide +kernel

theorem test_ill_formed_commands_are_refused_9 :
    refused [.resetRelease false 16 [6] [none, none, none, none], .resetRelease false 16 [0] [], .mfrPowerCap (some (2 ^ 16)) false, .mfrIdentify (some (2 ^ 8))] = true ∧
    refused [.mfrEmergArm (2 ^ 8) false, .mfrEmergReset (2 ^ 8) false, .registerRead (.bar2 (2 ^ 28)) 0, .registerRead (.bar0 0) 256] = true ∧
    refused [.cspMemoryAccess nClusters 0 4 none [], .cspMemoryAccess 0 (2 ^ 32) 4 none [], .cspMemoryAccess 0 0 3 none [], .cspMemoryAccess 0 0 4 (some (2 ^ 32)) []] = true ∧
    refused [.cspMemoryAccess 0 0 4 none [⟨0, 2 ^ 64⟩], .badCrcFrame 4 false, .rowErrorWindowExpire 16 0, .pmbusUnsupportedCode 256 false] = true ∧
    refused [.getMeasurements 1 true [], .cspMemoryAccess 0 1 2 none [], .cspMemoryAccess 0 (2 ^ 32) 4 none []] = true := by decide +kernel

/-! ### The same commands in range -/

theorem test_well_formed_commands_pass_1 :
    accepted [.registerWrite (.bar0 0) 0 0, .loReadLatch (.bar0 0), .coldFrameAccess (.bar0 0) none, .listEntryFetch 0 []] = true ∧
    accepted [.descIssue 0, .chainBodyLoad 0 [], .descComplete 0, .descEngineStop 0] = true ∧
    accepted [.nop 0, .pass 0 [], .emul 0, .eadd 0] = true ∧
    accepted [.efma 0, .chain 0 [], .fill 0 [], .fillT 0 []] = true ∧
    accepted [.fillIn 0, .fillComplete 0, .load 0, .store 0] = true ∧
    accepted [.send 0, .sendInject 0, .post 0, .postArm 0] = true ∧
    accepted [.rakeSq 0 [] [], .repeatEntry 0, .resultLand 0, .lmemEccWriteback 0] = true ∧
    accepted [.vnop 0 0, .vadd 0 0, .vsub 0 0, .vmul 0 0] = true ∧
    accepted [.vfma 0 0, .vfnma 0 0, .vmax 0 0, .vmin 0 0] = true ∧
    accepted [.vabs 0 0, .vneg 0 0, .vceq 0 0, .vclt 0 0] = true := by decide +kernel

theorem test_well_formed_commands_pass_2 :
    accepted [.vcle 0 0, .vclass 0 0, .vsel 0 0, .vmov 0 0] = true ∧
    accepted [.vand 0 0, .vor 0 0, .vxor 0 0, .vshl 0 0] = true ∧
    accepted [.vsra 0 0, .vsrl 0 0, .viadd 0 0, .visub 0 0] = true ∧
    accepted [.vdiv 0 0, .vsqrt 0 0, .vcvt 0 0, .vcvtMx 0 0] = true ∧
    accepted [.vcvtwMx 0 0, .vlsplit 0 0, .vljoin 0 0, .vld 0 0 []] = true ∧
    accepted [.vst 0 0 [], .vlds 0 0 [], .vsts 0 0 [], .accrd 0 0] = true ∧
    accepted [.vredSum 0 0, .vredMax 0 0, .vredMin 0 0, .vred2Norm 0 0] = true ∧
    accepted [.vred2Smax 0 0, .vexp2 0 0, .vexp 0 0, .vlog2 0 0] = true ∧
    accepted [.vrcp 0 0, .vrsq 0 0, .vsinpi 0 0, .vcospi 0 0] = true ∧
    accepted [.vtanh 0 0, .verf 0 0, .vleaf 0 0, .tokincWrite 0 0 0] = true := by decide +kernel

theorem test_well_formed_commands_pass_3 :
    accepted [.cluLselWrite 0 0, .patch 0 0 [], .listComplete 0, .rampGroupRelease 0] = true ∧
    accepted [.auditRepair [] [], .spareCoreSwap [] ⟨[], []⟩, .shardPermuteRun [], .rollingBistSlice 0 []] = true ∧
    accepted [.msg 0 [], .token 0 [], .credit 0 [], .mrd 0 [] [] []] = true ∧
    accepted [.mwr 0 [], .mrsp 0 [], .regrd 0 [], .regwr 0 []] = true ∧
    accepted [.regrsp 0 [], .tc0PoliceAdmit 0 0 0, .halt (.core 0) 0 [], .resume (.core 0) []] = true ∧
    accepted [.quiesceUrgent (.core 0) [], .barrierArrive 0 0 [], .sdlSync 0 [], .errorNotice 0 []] = true ∧
    accepted [.frontgo .host 0 0, .frontLaunchRequest 0 [], .frontStreamStart 0 [], .frontMarker 0 []] = true ∧
    accepted [.frontTile 0 [], .cstoreEccWriteback 0, .hbmPatrolScrub 0 none false, .mramPatrolScrub 0 0 none] = true ∧
    accepted [.gdoneNotice 0 [], .ddoneNotice 0 [], .factorExchange [], .factorFoldTile 0 0 0 0 []] = true ∧
    accepted [.grfSubloWrite .host 0 0, .grfSubmit .host 0 0, .grafterJobStart 0 [], .root 0 0] = true := by decide +kernel

theorem test_well_formed_commands_pass_4 :
    accepted [.orth 0 0, .chol 0 0, .trsv 0 0, .cg 0 0] = true ∧
    accepted [.grafterIterationComplete 0 0, .jobDeadline 0 0, .grfAbort 0 0, .sweepRecord 0 []] = true ∧
    accepted [.workingCopyAudit [], .recoverySweep [], .reduceScatterLayer [], .collFrame 0 0 ⟨0, 0, 0, 0, 0, 0, .v1msg []⟩ []] = true ∧
    accepted [.gather [], .mgmtFrame 0 0 ⟨0, 0, 0, 0, 0, 0, .v1msg []⟩, .frameForward 0 0 ⟨0, 0, 0, 0, 0, 0, .v1msg []⟩, .ack 0 0] = true ∧
    accepted [.nak 0 0, .portRetrain 0 false, .laneSpare 0 0, .laneLoss 0 0] = true ∧
    accepted [.v1msg 0 0 [], .hello 0 0 ⟨0, 0, 0, 0, 0, 0, 0, 0, []⟩, .discoveryRootAssign [], .disc 0 0 .fail] = true ∧
    accepted [.portRejoin 0 none, .replayReq 0 0 ⟨0, 0, 0, 0, 0, 0, .v1msg []⟩, .sundialSyncTimer 0, .syncReq 0 0 0 0] = true ∧
    accepted [.syncResp 0 0 0 0 0 0, .resetFrame 0 0 ⟨0, 0, 0, 0, 0, 0, .v1msg []⟩, .mailboxDoorbell 0 [], .slotAck 0] = true ∧
    accepted [.ticketAck 0, .copySram [], .layerWrite [], .factorWrite []] = true ∧
    accepted [.jobStart [], .shardPermute [], .v1Send [], .harvestDrain 0 [] false] = true := by decide +kernel

theorem test_well_formed_commands_pass_5 :
    accepted [.harvestDataReceive 0 0 ⟨0, 0, 0, 0, 0, 0, .v1msg []⟩, .selftest [], .marginReplan ⟨[], []⟩, .marginReplanDaily ⟨[], []⟩] = true ∧
    accepted [.fwStage [], .memRead [], .memWrite [], .debugReset []] = true ∧
    accepted [.v1FwUpdate [], .getCertificate 0 0 0, .challenge 0 (List.replicate 32 0#8), .getMeasurements 0 false []] = true ∧
    accepted [.keyExchange 0 [], .finish 0 false, .heartbeat 0, .keyUpdate 0 0] = true ∧
    accepted [.endSession 0, .hdmRead false 0 0 [], .hdmWrite false 0 [], .pciePowerState 0] = true ∧
    accepted [.laneWindow 0 0 0 0, .spareEyeCheck 0 false, .rgaSample 0 0, .resetRequest []] = true ∧
    accepted [.resetRelease false 16 [0] [none, none, none, none], .mfrPowerCap none false, .mfrIdentify none, .mfrEmergArm 0 false] = true ∧
    accepted [.mfrEmergReset 0 false, .registerRead (.bar0 0) 0, .cspMemoryAccess 0 0 4 none [], .badCrcFrame 0 false] = true ∧
    accepted [.rowErrorWindowExpire 0 0, .pmbusUnsupportedCode 0 false] = true := by decide +kernel

/-! ### Check codes, by their published check values -/

/-- The nine ASCII digits. -/
def digits : List Byte := [0x31#8, 0x32#8, 0x33#8, 0x34#8, 0x35#8, 0x36#8, 0x37#8, 0x38#8, 0x39#8]

theorem test_crc32_check_value : crc32 digits = 0xCBF43926 := by decide +kernel
theorem test_crc32c_check_value : crc32c digits = 0xE3069283 := by decide +kernel
theorem test_crc64_check_value : crc64 digits = 0x6C40DF5F0B497347 := by decide +kernel
theorem test_sha512_abc : beNat (sha512 [0x61#8, 0x62#8, 0x63#8]) =
    0xddaf35a193617abacc417349ae20413112e6fa4e89a97ea20a9eeee64b55d39a2192992a274fc1a836ba3c23a3feebbd454d4423643ce80e2a9ac94fa54ca49f := by decide +kernel

/-! ### Number formats (R28-R60), by hand -/

/-- 0xBF880000 is -1.0625: BF16 drops nothing. -/
theorem test_bf16_keeps_short_values : convert fp32 bf16 .rne 0xBF880000 = (0xBF88, flagNone) := by decide +kernel
/-- 1 + 2^-8 lies halfway: RNE takes the even code 0x3F80, and NX is raised. -/
theorem test_bf16_ties_to_even : convert fp32 bf16 .rne 0x3F808000 = (0x3F80, flagNX) := by decide +kernel
/-- 2^-149 narrows to a zero with the sign of its source (R46). -/
theorem test_underflow_keeps_the_sign : (convert fp32 bf16 .rne 0x80000001).1 = 0x8000 := by decide +kernel
/-- 1.5 + 1.5 = 3, exactly. -/
theorem test_fp32_add : fp32.add .rne 0x3FC00000 0x3FC00000 = (0x40400000, flagNone) := by decide +kernel
/-- 1 / 0 is an infinity with DZ. -/
theorem test_fp32_divide_by_zero : fp32.div .rne 0x3F800000 0 = (0x7F800000, flagDZ) := by decide +kernel
/-- The square root of 2. -/
theorem test_fp32_sqrt : (fp32.sqrt .rne 0x40000000).1 = 0x3FB504F3 := by decide +kernel
/-- The worked example of R60: the kept classes of one product recombine to 2^51 + 2^42 + 4,448. -/
theorem test_wq48_product : limbRecombine (limbClasses 0x400000000081 0x201000000005) = 2 ^ 51 + 2 ^ 42 + 4448 := by decide +kernel
/-- Its rounding to Fc. -/
theorem test_wq48_rounding : rneShift (2 ^ 51 + 2 ^ 42 + 4448) 7 = 0x100800000023 := by decide +kernel

/-! ### Worked examples -/

/-- R365's example: 96.0 °C with LEXP 4 and WQ 1 falls in bin 11. -/
theorem test_gauge_bin : binOf 4 1 false 96 0 = 11 := by decide +kernel
/-- The Sieve's example, step 1002: c = RNE(2.0 / 7.9). -/
theorem test_clip_factor : fDiv 0x40000000 0x40FCCCCD = 0x3E819EC9 := by decide +kernel
/-- R259: k is c times 2^-LS. -/
theorem test_step_factor : stepFactor 0x3F800000 13 = 0x39000000 := by decide +kernel
/-- R260: with a full window of 16 the median is the 8th smallest. -/
theorem test_median_is_the_8th : median ((List.range 16).map fun i => 0x3F800000 + 15 - i) = some 0x3F800007 := by decide +kernel
theorem test_median_needs_16 : median ((List.range 15).map fun i => 0x3F800000 + i) = none := by decide +kernel
/-- The example of the vector chapter: VADD's result is readable 6 cc after it issues, VTANH's 22, VCVT's 6. -/
theorem test_vtanh_latency : (vTiming 0x67 0).2.2 = 22 := by decide +kernel
theorem test_vadd_latency : (vTiming 0x01 0).2.2 = 6 := by decide +kernel
theorem test_vcvt_latency : (vTiming (0x20 + 2 ^ 34) 0).2.2 = 6 := by decide +kernel

/-! ### Single steps on small states -/

/-- What a command leaves of a field. -/
def after (i : Instr) (s : State) (f : State → Nat) : Option Nat :=
  match exec i s with
  | .next t => some (f t)
  | _ => none

theorem test_step_runs_the_front : (match step { State.reset with pending := [.windowClear, .windowClear] } with | .next t => (t.sieve.clear, t.pending.length) | _ => (false, 0)) = (true, 1) := by
  decide +kernel
theorem test_empty_queue_ticks : (match step State.reset with | .next t => t.sundial | _ => 9) = 1 := by decide +kernel
/-- PWR_CAP takes a cap of 5,000 W from the facility side (R427). -/
theorem test_facility_cap : after (.mfrPowerCap (some 5000) true) State.reset (fun t => t.hf .PWR_CAP 0 0 14) = some 5000 := by decide +kernel
/-- ... and not one below 1,200 W. -/
theorem test_facility_cap_below : after (.mfrPowerCap (some 1199) true) State.reset (fun t => t.hf .PWR_CAP 0 0 14) = some 13500 := by decide +kernel
/-- CXL_PERST_N asks for WARM (R376). -/
theorem test_perst_is_warm : after (.cxlPerst true) State.reset (fun t => t.rst.reach.getD 9) = some 4 := by decide +kernel
/-- DBG_SRST_N outside INVASIVE is never latched (R417). -/
theorem test_dbg_srst_needs_invasive : after (.dbgSrst true) State.reset (fun t => t.rst.reach.getD 9) = some 9 := by decide +kernel
/-- A junction at 109.999 °C trips nothing (R376). -/
theorem test_thermal_trip_at_110 : (after (.thermalTrip 109999) State.reset (fun t => t.rst.accepted.length), after (.thermalTrip 110000) State.reset (fun t => t.rst.accepted.length)) = (some 0, some 1) := by
  decide +kernel
/-- A completed WARM release of sources 3 and 1 in the order of R387's example: SRC 3, REACH 4, MULTI, SRCMASK bits 1 and 3. -/
theorem test_reset_cause : after (.resetRelease true 16 [0] [none, none, none, none]) ({ State.reset with rst := { Sampler.init with reach := some 4, accepted := [3, 1], releasing := true } }.setHf .RST_STAT 0 2 4 7)
    (fun t => t.h .RST_CAUSE) = some (3 + 16 * 4 + 128 + 256 * 10) := by decide +kernel
/-- An acknowledged slot is EMPTY (R330). -/
theorem test_slot_ack : after (.slotAck 4) { State.reset with mb := { State.reset.mb with slots := State.reset.mb.slots.set 2 ⟨2, 7, 0, [], false, 0⟩ } } (fun t => (t.slot 2).state) = some 0 := by
  decide +kernel
/-- The idle TAP shifts BYPASS by one bit (R417). -/
theorem test_bypass_shifts : after (.bypass [0x81#8, 0x01#8]) State.reset (fun t => leNat t.sec.tap) = some 0x0302 := by decide +kernel
/-- HDM: the decoder must be 512 GiB, 1 way, at DPA 0 (R326). -/
theorem test_hdm_commit : (after (.hdmCommit (2 ^ 39) 1 0) State.reset (fun t => b2n t.host.hdm), after (.hdmCommit (2 ^ 38) 1 0) State.reset (fun t => b2n t.host.hdm)) = (some 1, some 0) := by decide +kernel
/-- A TOKEN increment adds to the token of its number (R121). -/
theorem test_tokinc : after (.tokincWrite 3 5 7) State.reset (fun t => rg (t.core 3).regs .CORE_TOK 5) = some 7 := by decide +kernel

/-! ### Witnesses -/

theorem witness_StepRunsFrontCommand : { State.reset with pending := [Instr.wakeWave] }.pending = [Instr.wakeWave] := by decide

theorem witness_IdleStepTicksTheSundial : State.reset.pending = [] ∧
    { State.reset with rst := { State.reset.rst with refLost := true } }.rst.refLost = true := by decide

theorem witness_HostRegisterAccess : hostFree State.reset ∧ State.reset.powerState < 3 ∧ (15 : Nat) < 16 := by
  simp only [hostFree]; decide +kernel

theorem witness_RemoteRegisterAccess : (State.reset.resolve (0x20000 % 2 ^ 28 / 4 * 4)).remote = some (.grafter 0, 0) ∧
    (State.reset.resolve (0x20000 % 2 ^ 28 / 4 * 4)).mapped = true ∧ State.reset.dark (State.reset.resolve (0x20000 % 2 ^ 28 / 4 * 4)) = false ∧
    (RegAddr.bar2 0).who = .host ∧ { State.reset with frontHeld := [⟨.host, 3, 0, 0, 0⟩] }.hostHeld = true ∧
    (RegAddr.shed (.hub 0)).who ≠ .host ∧ State.reset.agentUp .shed = true := by decide +kernel

theorem witness_PartialWritesAreDiscarded : (RegPlace.hub 0).isMem = false ∧ State.reset.linkReady = true ∧
    (State.reset.resolve (0 % 2 ^ 28 / 4 * 4)).mapped = true ∧ State.reset.dark (State.reset.resolve (0 % 2 ^ 28 / 4 * 4)) = false ∧
    (State.reset.resolve (0 % 2 ^ 28 / 4 * 4)).isMem = false ∧ rf (State.reset.cluster 0).regs .CSP_CTL 0 0 1 = 0 := by decide +kernel

theorem witness_RefusedHostAccess : State.reset.linkReady = true ∧ (State.reset.resolve (0xF000 % 2 ^ 28 / 4 * 4)).mapped = false ∧
    (State.reset.setHf .PWR_STATE 0 0 3 2).linkReady = true ∧
    ((State.reset.setHf .PWR_STATE 0 0 3 2).resolve (0x20000 % 2 ^ 28 / 4 * 4)).mapped = true ∧
    (State.reset.setHf .PWR_STATE 0 0 3 2).dark ((State.reset.setHf .PWR_STATE 0 0 3 2).resolve (0x20000 % 2 ^ 28 / 4 * 4)) = true ∧
    rf ((State.reset.setCf 0 .CSP_CTL 0 0 1 1).cluster 0).regs .CSP_CTL 0 0 1 = 1 ∧ rf State.reset.mbx .MBX_RWERRHI 0 31 1 = 0 ∧
    rf (sf State.reset.mbx .MBX_RWERRHI 0 31 1 1) .MBX_RWERRHI 0 31 1 = 1 ∧
    (State.reset.logs.filter fun e => e.log == 1).length < 256 := by decide +kernel

theorem witness_CspMemoryAccess : (State.reset.setCf 0 .CSP_CTL 0 0 1 1).agentUp (.csp 0) = true ∧ (State.reset.setCf 0 .CSP_CTL 0 0 1 1).hrv ≠ 2 ∧
    ((State.reset.setCf 0 .CSP_CTL 0 0 1 1).setGrafter 0 { Grafter.init with rgn := [2 ^ 21 + 3 * 2 ^ 6 + 3 * 2 ^ 16, 0, 0, 0] }).agentUp (.csp 0) = true := by decide +kernel

namespace WVec
/-- A legal word of each row: ET 1 for the shifts and integer sums, ET 5 for the split, a defined TF for the converts. -/
def words : List Instr :=
  [.vnop 5 0, .vadd 5 0, .vsub 5 0, .vmul 5 0, .vfma 5 0, .vfnma 5 0, .vmax 5 0, .vmin 5 0, .vabs 5 0, .vneg 5 0, .vceq 5 0, .vclt 5 0,
   .vcle 5 0, .vclass 5 0, .vsel 5 0, .vmov 5 0, .vand 5 0, .vor 5 0, .vxor 5 0] ++
  [.vshl 5 (2 ^ 31), .vsra 5 (2 ^ 31), .vsrl 5 (2 ^ 31), .viadd 5 (2 ^ 31), .visub 5 (2 ^ 31), .vdiv 5 0, .vsqrt 5 0, .vcvt 5 (2 ^ 34),
   .vcvtMx 5 (2 ^ 37), .vcvtwMx 5 (2 ^ 37), .vlsplit 5 (5 * 2 ^ 31), .vljoin 5 0, .accrd 5 0] ++
  [.vredSum 5 0, .vredMax 5 0, .vredMin 5 0, .vred2Norm 5 0, .vred2Smax 5 0, .vexp2 5 0, .vexp 5 0, .vlog2 5 0, .vrcp 5 0, .vrsq 5 0,
   .vsinpi 5 0, .vcospi 5 0, .vtanh 5 0, .verf 5 0]
end WVec
theorem witness_VectorWords : WVec.words.length = 46 ∧ WVec.words.all (fun i => match vectorRow i with
    | some (gi, op, w) => decide (op < 256) && !(State.reset.core gi).halted && (State.reset.vctx gi).vRuns (vword op w) &&
        (((atIssue State.reset gi op w).vSources (vword op w)).all fun r => !(atIssue State.reset gi op w).c.pending r)
    | none => false) = true := by decide +kernel

theorem witness_VectorElements : (1 : Nat) < 8 ∧ 15 < 512 / etBits 1 := by decide

theorem witness_VleafRuns : State.reset.flaws = [] ∧ (State.reset.core 0).halted = false ∧ (State.reset.vctx 0).vLegal (vword 0x70 0) = true ∧ (State.reset.core 0).flights = [] := by
  decide +kernel

theorem witness_VectorLoadsAndStores : State.reset.flaws = [] ∧ [0x30, 0x31, 0x32, 0x33].all (fun op =>
    !(State.reset.core 0).halted && (State.reset.vctx 0).vRuns (vword op 0) &&
      (((atIssue State.reset 0 op 0).vSources (vword op 0)).all fun r => !(atIssue State.reset 0 op 0).c.pending r)) = true := by decide +kernel

namespace WFetch
/-- Core 0 runs a list of 4 entries at the start of its local memory. -/
def s : State := State.reset.modCore 0 fun c => { c with regs := sg (sf c.regs .CORE_DSTAT 0 0 2 1) .CORE_LIST 0 (4 * 2 ^ 16) }
def past : State := s.modCore 0 fun c => { c with fetch := 256 }
/-- Entry 1 is a REPEAT of one entry, three times. -/
def d : Nat := opRepeat + 3 * 2 ^ 64 + 1 * 2 ^ 288
def rep : State := { s.modCore 0 fun c => { c with fetch := 1 } with mem := msets [] (localBase 0 + 64) (toLe 64 d) }
end WFetch
theorem witness_EntriesAreFetched : (WFetch.s.core 0).mayFetch = true ∧ WFetch.s.flaws = [] ∧ listAddr 0 (WFetch.s.core 0).list 0 = some (localBase 0) ∧
    dOp (WFetch.s.rdN (localBase 0) 64) ≠ opRepeat ∧ (WFetch.past.core 0).mayFetch = true ∧ listAddr 0 (WFetch.past.core 0).list 256 = none ∧
    (WFetch.rep.core 0).mayFetch = true ∧ WFetch.rep.rdN (localBase 0 + 64) 64 = WFetch.d ∧ WFetch.rep.entryBad 0 1 WFetch.d = 0 ∧
    dOp WFetch.d = opRepeat := by decide +kernel

namespace WIssue
def base (d : Nat) : State := State.reset.modCore 0 fun c => { c with regs := sg (sf c.regs .CORE_DSTAT 0 0 2 1) .CORE_TOK 2 5, win := [⟨0, d, 0⟩] }
/-- A CHAIN of one word, one iteration, waiting for 3 on token 2. -/
def chain : Nat := opChain + 2 ^ 64 + 2 ^ 80 + 2 ^ 96 + 2 ^ 112 + 2 * 2 ^ 160 + 2 ^ 165 + 3 * 2 ^ 168 + 2 ^ 299
def nop : Nat := opNop
/-- A POST on channel 0 of one flit. -/
def post : Nat := opPost + 2 ^ 56 + 2 ^ 64 + 2 ^ 80 + 2 ^ 96 + 2 ^ 112
def posting : State := (base post).modCore 0 fun c => { c with regs := sg c.regs .CORE_RCTX 0 (2 ^ 26) }
end WIssue
theorem witness_DescriptorsIssue : (WIssue.base WIssue.chain).ready 0 = some ⟨0, WIssue.chain, 0⟩ ∧ (WIssue.base WIssue.chain).issueStatus 0 WIssue.chain = 0 ∧
    ((WIssue.base WIssue.chain).core 0).mayIssue = true ∧ untraced (WIssue.base WIssue.chain) ∧ dWaitEn WIssue.chain 0 = true ∧ dWaitCnt WIssue.chain 0 = 3 ∧
    (WIssue.base WIssue.nop).ready 0 = some ⟨0, WIssue.nop, 0⟩ ∧ (WIssue.base WIssue.nop).issueStatus 0 WIssue.nop = 0 ∧
    WIssue.posting.ready 0 = some ⟨0, WIssue.post, 0⟩ ∧ WIssue.posting.issueStatus 0 WIssue.post = 0 ∧ opCompute (dOp WIssue.post) = false := by decide +kernel

namespace WDone
/-- CHAIN of one word whose S0 adds 7 to token 4. -/
def d : Nat := opChain + 2 ^ 224 + 4 * 2 ^ 228 + 7 * 2 ^ 240 + 2 ^ 299
def run (d : Nat) (chain : Option (List Nat)) (done : Bool) : Run := ⟨0, d, [1, 1, 1, 1], [], false, chain, 0, false, 0, [], done⟩
/-- A CHAIN of one word as it issued. -/
def fresh : Run := { run d none false with got := toLe 8 0x0F }
def load : State := State.reset.modCore 0 fun c => { c with comp := some fresh }
def comp : State := State.reset.modCore 0 fun c => { c with comp := some (run d (some [0]) true) }
def tq : State := State.reset.modCore 0 fun c => { c with tq := [run opLoad none true] }
def idle : State := State.reset.modCore 0 fun c => { c with idle := [run opNop none true] }
end WDone
theorem witness_DescriptorsComplete : (WDone.load.core 0).comp = some WDone.fresh ∧ WDone.fresh.got.length = 8 * dClen WDone.fresh.desc ∧ (WDone.load.core 0).halted = false ∧ WDone.load.flaws = [] ∧
    (WDone.comp.core 0).comp = some (WDone.run WDone.d (some [0]) true) ∧ untraced WDone.comp ∧ (WDone.comp.core 0).stop = 0 ∧ (WDone.comp.core 0).haltReq = false ∧ (WDone.comp.core 0).halted = false ∧
    dSigKind WDone.d 0 = 1 ∧ dSigKind WDone.d 1 = 0 ∧ rf (WDone.comp.core 0).regs .CORE_TOK (dSigTok WDone.d 0) 0 16 + dSigInc WDone.d 0 ≤ 65535 ∧
    (WDone.tq.core 0).tq = [WDone.run opLoad none true] ∧ noSignals opLoad ∧ (WDone.tq.core 0).idle = [] ∧ (WDone.tq.core 0).comp = none ∧
    (WDone.idle.core 0).idle = [WDone.run opNop none true] ∧ noSignals opNop ∧ dOp opNop = opNop ∧ (WDone.idle.core 0).comp = none ∧ untraced WDone.idle := by decide +kernel

namespace WStop
def bad : State := State.reset.modCore 0 fun c => { c with regs := sf c.regs .CORE_DSTAT 0 0 2 1, win := [⟨0, 0xFF, St.DESC_ILLEGAL⟩] }
def past : State := State.reset.modCore 0 fun c => { c with regs := sf c.regs .CORE_DSTAT 0 0 2 1, beyond := true }
def busy : State := bad.modCore 0 fun c => { c with idle := [⟨0, 0, [], [], false, none, 0, false, 0, [], true⟩] }
end WStop
theorem witness_EngineStops : (WStop.bad.core 0).mayIssue = true ∧ (WStop.bad.core 0).win = [⟨0, 0xFF, St.DESC_ILLEGAL⟩] ∧ 0 < St.DESC_ILLEGAL ∧ St.DESC_ILLEGAL < 2 ^ 16 ∧
    (WStop.bad.core 0).quietLanes = true ∧ (WStop.past.core 0).mayIssue = true ∧ (WStop.past.core 0).win = [] ∧ (WStop.past.core 0).beyond = true ∧
    (WStop.busy.core 0).mayIssue = true ∧ (WStop.busy.core 0).quietLanes = false := by decide +kernel

namespace WLane
def run (d : Nat) (words : List Nat) : Run := ⟨0, d, [1, 1, 1, 1], [], false, some words, 0, false, 0, [], false⟩
/-- A CHAIN whose body is one VMOV. -/
def chain : State := State.reset.modCore 0 fun c => { c with comp := some (run (opChain + 2 ^ 299) [0x0F]) }
/-- A PASS of one row and one FP8 element. -/
def dPass : Nat := opPass + 4 * 2 ^ 313 + 4 * 2 ^ 317 + 2 ^ 326 + 2 ^ 339 + 2 ^ 349
def pass : State := State.reset.modCore 0 fun c => { c with comp := some (run dPass []) }
end WLane
theorem witness_ComputeLaneRuns : (WLane.chain.core 0).compReady opChain = some (WLane.run (opChain + 2 ^ 299) [0x0F]) ∧
    ((WLane.chain.cx 0 (WLane.run (opChain + 2 ^ 299) [0x0F])).runChain (WLane.run (opChain + 2 ^ 299) [0x0F])).c.halted = false ∧
    ((WLane.chain.cx 0 (WLane.run (opChain + 2 ^ 299) [0x0F])).runChain (WLane.run (opChain + 2 ^ 299) [0x0F])).faults = [] ∧
    ((WLane.pass.cx 0 (WLane.run WLane.dPass [])).runPass (WLane.run WLane.dPass [])).faults = [] ∧
    (WLane.pass.core 0).compReady opPass = some (WLane.run WLane.dPass []) ∧
    ((WLane.pass.cx 0 (WLane.run WLane.dPass [])).runPass (WLane.run WLane.dPass [])).c.halted = false := by decide +kernel

theorem witness_ComputeLaneIsQuiet : WLane.pass.flaws = [] ∧ (WLane.pass.core 0).slotFlaws = [] ∧ (WLane.pass.core 0).flights = [] ∧
    (WLane.pass.core 0).pendSlot ((WLane.pass.core 0).passSlot WLane.dPass) = false ∧ (WLane.run WLane.dPass []).chain = some [] ∧
    (WLane.run (opChain + 2 ^ 299) [0x0F]).total = 1 ∧ (WLane.run (opChain + 2 ^ 299) [0x0F]).chain = some [0x0F] := by decide +kernel

namespace WElem
/-- ELEM with EOP e into A0, both operands parameter 0. -/
def run (e : Nat) : Run := ⟨0, opElem + e * 2 ^ 288 + 2 ^ 294, [1, 1, 1, 1], [], false, some [], 0, false, 0, [], false⟩
def s (e : Nat) : State := State.reset.modCore 0 fun c => { c with comp := some (run e) }
end WElem
theorem witness_ElementModeComputes : [1, 2, 3].all (fun e => decide (((WElem.s e).core 0).compReady opElem = some (WElem.run e)) && decide (dEop (WElem.run e).desc = e) &&
    !dEfmt64 (WElem.run e).desc && dEosrc (WElem.run e).desc && decide (((WElem.s e).core 0).flights = []) &&
    decide (((WElem.s e).core 0).landedSeq (32 + dEacc (WElem.run e).desc) ≤ ((WElem.s e).core 0).seq)) = true := by decide +kernel

namespace WFill
def run (op : Nat) (chain : Option (List Nat)) (wait : Bool) (got : List Byte) : Run :=
  ⟨0, op + 4 * 2 ^ 290 + 2 ^ 294, [1, 1, 1, 1], [], false, chain, 0, wait, 0, got, false⟩
def comp (op : Nat) (wait : Bool) : State := State.reset.modCore 0 fun c => { c with comp := some (run op (some []) wait []) }
def taking : State := State.reset.modCore 0 fun c => { c with tq := [run opFillIn none false []], front := some (1, 1) }
def taken : State := State.reset.modCore 0 fun c => { c with tq := [run opFillIn none true (List.replicate 16 0#8)] }
end WFill
theorem witness_SlotsFill : ((WFill.comp opFill false).core 0).compReady opFill = some (WFill.run opFill (some []) false []) ∧
    ((WFill.comp opFillT false).core 0).compReady opFillT = some (WFill.run opFillT (some []) false []) ∧ (WFill.comp opFill false).flaws = [] ∧
    ((WFill.comp opFill true).core 0).comp = some (WFill.run opFill (some []) true []) ∧ dOp (WFill.run opFill none true []).desc = opFill ∧
    (WFill.taking.core 0).tqReady opFillIn = some (WFill.run opFillIn none false []) ∧ (WFill.taking.core 0).front = some (1, 1) ∧
    (WFill.taking.core 0).passReads 0 = false ∧ fillSize 0 4 1 ≤ 32 * 1 ∧
    (WFill.taken.core 0).tqReady opFillIn = some (WFill.run opFillIn none true (List.replicate 16 0#8)) ∧ (WFill.taken.core 0).take = none ∧
    (WFill.taken.core 0).comp = none ∧ fillSize (hget [] 0) 4 1 ≤ 16 := by decide +kernel

namespace WXfer
/-- One flit between handle 1, in the outer space at 0x40, and handle 2, local at 0x100. -/
def hs : Handles := [(1, 0x40 + 2 ^ 103), (2, 0x100), (3, 0x200)]
def run (op a b : Nat) : Run := ⟨0, op + a * 2 ^ 32 + b * 2 ^ 38, [1, 1, 1, 1], hs, false, none, 0, false, 0, [], false⟩
def s (op a b : Nat) : State := State.reset.modCore 0 fun c => { c with tq := [run op a b] }
end WXfer
theorem witness_TransfersMoveBytes : [(opLoad, 1, 2), (opLoad, 2, 3), (opStore, 2, 3), (opStore, 2, 1)].all (fun e =>
      decide (((WXfer.s e.1 e.2.1 e.2.2).core 0).tqReady e.1 = some (WXfer.run e.1 e.2.1 e.2.2))) = true ∧
    hSpace (hget WXfer.hs 1) = true ∧ hSpace (hget WXfer.hs 2) = false ∧ hSpace (hget WXfer.hs 3) = false ∧ (WXfer.s opLoad 1 2).mayInject 0 = true ∧
    memRange (localBase 0 + (WXfer.run opLoad 2 3).localAt 1) (dLen (WXfer.run opLoad 2 3).desc) = true ∧ (WXfer.s opLoad 2 3).flaws = [] ∧
    ((WXfer.s opLoad 2 3).core 0).halted = false ∧ dH (WXfer.run opStore 2 1).desc 1 = 1 := by decide +kernel

namespace WChanX
def run (op : Nat) (wait : Bool) : Run := ⟨0, op + 1 * 2 ^ 295, [1, 1, 1, 1], [], false, none, 0, wait, 0, [], false⟩
def s (op : Nat) (wait : Bool) : State := State.reset.modCore 0 fun c => { c.setSend 1 ⟨2, 7, 0, 0⟩ with tq := [run op wait] }
def full : State := (s opPost false).modCore 0 fun c => c.setRecv 1 { RecvCtx.init with armed := List.replicate 8 (0, 32) }
end WChanX
theorem witness_ChannelTransfers : ((WChanX.s opSend false).core 0).tqReady opSend = some (WChanX.run opSend false) ∧ dCh (WChanX.run opSend false).desc = 1 ∧
    ((WChanX.s opSend true).core 0).tqReady opSend = some (WChanX.run opSend true) ∧ 1 ≤ (((WChanX.s opSend true).core 0).sendCtx 1).credit ∧
    1 < ((WChanX.s opSend true).core 0).send.length ∧ (WChanX.s opSend true).mayInject 0 = true ∧ ((WChanX.s opSend true).core 0).halted = false ∧
    ((WChanX.s opPost false).core 0).tqReady opPost = some (WChanX.run opPost false) ∧ ((WChanX.s opPost true).core 0).tqReady opPost = some (WChanX.run opPost true) ∧
    (((WChanX.s opPost true).core 0).recvCtx 1).armed.length < 8 ∧ 1 < ((WChanX.s opPost true).core 0).recv.length ∧ (WChanX.s opSend true).flaws = [] ∧
    (WChanX.full.core 0).tqReady opPost = some (WChanX.run opPost false) ∧ 8 ≤ ((WChanX.full.core 0).recvCtx 1).armed.length := by decide +kernel

namespace WRake
def run : Run := ⟨0, opRakeSq + 1 * 2 ^ 32 + 3 * 2 ^ 295, [1, 1, 1, 1], [(1, 0x40)], false, none, 0, false, 0, [], false⟩
def s : State := { State.reset.modCore 0 fun c => { c with tq := [run] } with layers := [(3, (List.range 512).foldl (fun a b => if lValid (2 ^ b) then a + 2 ^ b else a) 0)] }
def fly (q : Nat) : State := State.reset.modCore 0 fun c => { c with flights := [⟨3, 6, 0, 5, none⟩], landed := [(3, q)] }
def wb : State := (State.reset.modCore 0 fun c => { c with wb := [localBase 0 / 8] }).modCluster 0 fun c => { c with wb := [storeBase 0 / 8] }
end WRake
theorem witness_RakeAndCoreRegisters : (WRake.s.core 0).tqReady opRakeSq = some WRake.run ∧ lValid (WRake.s.layer 3) = true ∧ lFrozen (WRake.s.layer 3) = false ∧
    dLayer WRake.run.desc = 3 ∧ memRange (localBase 0 + WRake.run.localAt 0) (dLen WRake.run.desc) = true ∧ hSpace (hget WRake.run.hs (dH WRake.run.desc 0)) = false ∧
    ((WRake.fly 0).core 0).landedSeq 3 ≤ 0 ∧ 0 < ((WRake.fly 1).core 0).landedSeq 3 ∧ (WRake.wb.core 0).wb = [localBase 0 / 8] ∧
    (WRake.wb.cluster 0).wb = [storeBase 0 / 8] ∧ rf (State.reset.core 0).regs .CORE_TOK 31 0 16 + 255 ≤ 65535 ∧ 48 + 16 ≤ 64 ∧ WRake.s.flaws = [] ∧
    (WRake.s.core 0).halted = false := by decide +kernel

namespace WEcc
def x (f : Flaw) : CX :=
  let y := State.reset.vctx 0
  { y with flaws := [(localBase 0 / 8, some f)], c := { y.c with slotFlaws := [(544 * 1 + 34 * 15 + 31, some f)] } }
end WEcc
theorem witness_ErrorsAreCorrectedOrHaltTheCore : (WEcc.x (.single 1)).flaws = [(localBase 0 / 8, some (.single 1))] ∧ (WEcc.x (.double 3)).flaws = [(localBase 0 / 8, some (.double 3))] ∧
    (WEcc.x (.single 1)).c.wb = [] ∧ (localBase 0 + 0) / 8 ≤ localBase 0 / 8 ∧ localBase 0 / 8 ≤ (localBase 0 + 0 + 64 - 1) / 8 ∧ (WEcc.x (.single 1)).gi = 0 ∧
    (WEcc.x (.double 3)).c.slotFlaws = [(544 * 1 + 34 * 15 + 31, some (.double 3))] ∧ onebit 1 = true ∧ onebit 3 = false ∧ onebit (2 ^ 63) = true ∧
    flawOf State.reset.flaws 5 = none := by decide +kernel

namespace WMem
def rd : State := { State.reset with net := [⟨.core 0, .hbm 0, .tc2q, 0, .mrd 0x40 2 0⟩] }
def wr : State := { State.reset with net := [⟨.hub, .hbm 0, .tc2q, 0, .mwr 0x40 [1#8, 2#8]⟩] }
def run : Run := ⟨0, putBits 0 0 4 opLoad, [1, 1, 1, 1], [], false, none, 0, true, 0, [], false⟩
def rsp : State := { (State.reset.modCore 0 fun c => { c with tq := [run] }) with net := [⟨.hbm 0, .core 0, .tc2r, 0, .mrsp 0 [1#8, 2#8]⟩] }
end WMem
theorem witness_MemoryPackets_read : (WMem.rd.takePacket 0).map (fun e => e.1.body) = some (.mrd 0x40 2 0) ∧ WMem.rd.flaws = [] := by decide +kernel
theorem witness_MemoryPackets_write : (WMem.wr.takePacket 0).map (fun e => e.1.body) = some (.mwr 0x40 [1#8, 2#8]) ∧
    memRange 0x40 2 = true ∧ WMem.wr.hrv ≠ 2 := by decide +kernel
theorem witness_MemoryPackets_response : (WMem.rsp.takePacket 0).map (fun e => e.1.dst) = some (.core 0) ∧
    ((WMem.rsp.core 0).awaiting (dOp WMem.run.desc)).isSome = true := by decide +kernel

namespace WChan
def msg : State := { (State.reset.modCore 0 fun c => c.setRecv 0 { RecvCtx.init with armed := [(64, 32)] }) with
  net := [⟨.core 8, .core 0, .tc2q, 0, .msg 0 0 [1#8, 2#8]⟩] }
def tok : State := { State.reset with net := [⟨.core 8, .core 0, .tc1, 0, .token 0 0 3⟩] }
def cre : State := { State.reset with net := [⟨.core 8, .core 0, .tc1, 0, .credit 1 1⟩] }
end WChan
theorem witness_ChannelPackets_msg : (WChan.msg.takePacket 0).map (fun e => e.1.body) = some (.msg 0 0 [1#8, 2#8]) ∧
    (((WChan.msg.core 0).recvCtx 0).see 0).armed = [(64, 32)] ∧ ((WChan.msg.core 0).recvCtx 0).held = [] ∧ (WChan.msg.core 0).recv.length = 4 ∧
    ((WChan.msg.core 0).recvCtx 0).next = 0 ∧ memRange (localBase 0 + 64) 2 = true ∧ (WChan.msg.core 0).eject = [] ∧
    rf (WChan.msg.core 0).regs .CORE_TOK (rf (WChan.msg.core 0).regs .CORE_RCTX 0 21 5) 0 16 < 65535 := by decide +kernel
theorem witness_ChannelPackets_token : (WChan.tok.takePacket 0).map (fun e => e.1.body) = some (.token 0 0 3) ∧
    tokenDue (((WChan.tok.core 0).recvCtx 0).see 0).next 0 = true ∧
    rf (WChan.tok.core 0).regs .CORE_TOK (rf (WChan.tok.core 0).regs .CORE_RCTX 0 21 5) 0 16 + 3 ≤ 65535 := by decide +kernel
theorem witness_HeaderErrors : (∃ f ∈ [FlitErr.header (some 0)], WChan.msg.metBy ⟨.core 8, .core 0, .tc2q, 0, .msg 0 0 [1#8, 2#8]⟩ f = true ∧ f.isHeader = true) := by
  refine ⟨_, List.mem_singleton.mpr rfl, ?_, ?_⟩ <;> decide +kernel
theorem witness_ChannelPackets_credit : (WChan.cre.takePacket 0).map (fun e => e.1.body) = some (.credit 1 1) ∧ (WChan.cre.core 0).eject = [] ∧
    1 < (WChan.cre.core 0).send.length := by decide +kernel

namespace WReg
def rd : State := { State.reset with net := [⟨.hub, .cluster 0, .tc1, 0, .regRd 0⟩] }
def rdc : State := { State.reset with net := [⟨.hub, .core 0, .tc1, 0, .regRd 0⟩] }
def wr : State := { State.reset with net := [⟨.hub, .cluster 0, .tc1, 0, .regWr 0 1 15⟩] }
def rsp : State := { State.reset with net := [⟨.cluster 0, .hub, .tc1, 0, .regRsp 5⟩], host := { State.reset.host with reads := [(.cluster 0, 0, 15, 0)] } }
def late : State := { rsp with sundial := 250000 }
end WReg
theorem witness_RegisterPackets : (WReg.rd.takePacket 0).map (fun e => e.1.body) = some (.regRd 0) ∧ WReg.rd.dark (windowOf (.cluster 0) 0) = false ∧
    (WReg.rdc.takePacket 0).map (fun e => e.1.dst) = some (.core 0) ∧ WReg.rdc.diesOff = false ∧ (WReg.rdc.core 0).eject = [] ∧
    (WReg.wr.takePacket 0).map (fun e => e.1.body) = some (.regWr 0 1 15) ∧ (WReg.rsp.takePacket 0).map (fun e => e.1.body) = some (.regRsp 5) ∧
    (({ WReg.rsp with host := HostSide.init } : State).takePacket 0).map (fun (e : Packet × State) => e.1.dst) = some Endpoint.hub ∧
    WReg.late.host.reads = [(.cluster 0, 0, 15, 0)] ∧ 0 + 250000 ≤ WReg.late.sundial := by decide +kernel

namespace WUrg
def q : State := { State.reset with quiesce := some ⟨1, 0, false, false⟩, sundial := 2 ^ 30 }
def quiet : State := { q with clusters := ⟨{ Cluster.init with quiet := true, quiesced := true }, []⟩,
                              quiescedG := (List.range 8).map Endpoint.grafter ++ (List.range 16).map Endpoint.hbm }
def pkt (dst : Endpoint) (c : Nat) : State := { State.reset with net := [⟨.hub, dst, .tc0, 0, .urg c 5⟩] }
def halted : State := State.reset.modCore 3 Core.debugHalt
end WUrg
theorem witness_UrgentTraffic_halt : (State.reset.core 3).halted = false ∧ (State.reset.core 3).quietLanes = true ∧ (WUrg.halted.core 3).debugHalted = true ∧ 3 ∈ (UrgTarget.cluster 0).cores ∧
    coreOf 129 5 ∈ (UrgTarget.rect 0 0 1 1 32).cores ∧ coreOf 129 5 < nCores := by decide +kernel
theorem witness_UrgentTraffic_quiesce : (WUrg.q.cluster 0).quiet = false ∧ (WUrg.quiet.cluster 0).quiet = true ∧ WUrg.quiet.drained (.cluster 0) = true ∧
    WUrg.quiet.allQuiesced = true ∧ WUrg.quiet.trellisEmpty = true ∧ (Endpoint.hbm 15).quiesces = true ∧ WUrg.q.quietG.contains (.hbm 15) = false ∧
    WUrg.quiet.drained (.grafter 7) = true ∧ 0 + 250 * WUrg.q.hf .TRL_QCFG 0 0 16 ≤ WUrg.q.sundial := by decide +kernel
theorem witness_UrgentTraffic_rest : { State.reset with barrier := some 1 }.barrier = some 1 ∧ ((WUrg.pkt (.grafter 2) 8).takePacket 0).isSome = true ∧
    2 < (WUrg.pkt (.grafter 2) 8).grafters.length ∧ (WUrg.pkt (.grafter 2) 8).net[0]?.isSome = true ∧ (WUrg.pkt .hub 10).net[0]?.isSome = true := by decide +kernel

namespace WFront
def entry : Nat := 2 ^ 85 + 1 * 2 ^ 48 + 1 * 2 ^ 56
def full : State := { State.reset with frontQ := (List.range 64).map fun i => (0, i, 0) }
def held : State := { State.reset with frontHeld := [⟨.host, 0, 0, 0, 0⟩], sundial := 250000 }
def req : State := { State.reset with net := [⟨.cluster 0, .hbm 0, .tc1, 0, .frontReq 0 0⟩] }
def start : State := { State.reset with frontQ := [(0, 0, 0)], frontTab := [(0, entry)] }
def mark : State := { State.reset with net := [⟨.hbm 0, .core 0, .tc2q, 0, .frontMark 1 2⟩] }
def tile : State := { (State.reset.modCore 0 fun c => { c with take := some ⟨1, 2, 0⟩, frontSrc := some (.hbm 0) }) with
  net := [⟨.hbm 0, .core 0, .tc2q, 0, .frontTile 1 2 [1#8]⟩] }
end WFront
theorem witness_Fronts : State.reset.frontLoad 0 < 64 ∧ goReach .host 0 = true ∧ State.reset.agentUp .host = true ∧ State.reset.hostHeld = false ∧
    State.reset.host.behind = [] ∧ State.reset.frontHeld = [] ∧ (State.reset.cluster 0).quiet = false ∧ 64 ≤ WFront.full.frontLoad 0 ∧
    WFront.held.frontHeld = [⟨.host, 0, 0, 0, 0⟩] ∧ 0 + 250000 ≤ WFront.held.sundial ∧ (WFront.req.takePacket 0).isSome = true ∧
    frontOk (Sparse.get (fun _ => 0) WFront.start.frontTab 0) = true ∧ (WFront.mark.takePacket 0).isSome = true ∧ (WFront.mark.core 0).tq = [] ∧
    (WFront.tile.takePacket 0).isSome = true ∧ (WFront.tile.core 0).take = some ⟨1, 2, 0⟩ ∧ 0 + 1 < 32 * 1 * 2 := by decide +kernel

namespace WPhase
def job : State := { State.reset with step := { StepState.init with job := true, phase := .boundary 1, patches := [⟨none, 3, [7]⟩] } }
def rect : State := { job with step := { job.step with patches := [⟨some (0, 0, 1, 1, 1), 3, [7]⟩] } }
def switch : State := job.setHf .STEP_CFG 0 1 1 1
def launch : State := (job.setH .SDL_LAUNCHHI 0 (2 ^ 31)).setH .SDL_LAUNCHLO 0 0
def halt : State := State.reset.setHf .SIV_STAT 0 4 1 1
end WPhase
theorem witness_PatchesAndPhases : WPhase.job.step.patches = [⟨none, 3, [7]⟩] ∧ WPhase.rect.step.patches = [⟨some (0, 0, 1, 1, 1), 3, [7]⟩] ∧
    5 ∉ rectCores 0 0 1 1 2 ∧ coreOf 129 1 ∈ rectCores 0 0 1 1 2 ∧ State.reset.step.patches = [] ∧ 2 * (State.reset.sundial - State.reset.step.ramp) < 625 * 7 ∧ WPhase.switch.atAction 5 = true ∧ WPhase.launch.hf .SDL_LAUNCHHI 0 31 1 = 1 ∧ WPhase.launch.atAction 6 = true ∧
    WPhase.launch.launchTime ≤ WPhase.launch.sundial ∧ 625 * 0 ≤ 2 * (WPhase.job.sundial - WPhase.job.step.ramp) ∧ (8 % 128 + 8 / 128) % 8 = 0 ∧
    WPhase.halt.hf .SIV_STAT 0 4 1 = 1 := by decide +kernel

namespace WReplay
def s : State := { State.reset with step := { StepState.init with job := true, starting := true, phase := .boundary 1 } }
/-- A trained layer whose set has a NaN step size. -/
def layer : Nat := (List.range 512).foldl (fun a b => if lValid (2 ^ b) then a + 2 ^ b else a) 0
def req : State := { s with coll := { s.coll with reqs := [(s.nextStep, 0, 7)] } }
def bad : State := { s.setH .UPD_HPS 0 0x7FC00000 with layers := [(0, layer)] }
end WReplay
theorem witness_ReplayApplies : WReplay.s.mayReplay = true ∧ WReplay.s.badHyper = none ∧ WReplay.s.nextStep < 2 ^ 64 ∧ WReplay.s.regionClusters = [] ∧ WReplay.s.coll.held = [] ∧
    WReplay.s.coll.reqs = [] ∧ WReplay.req.mayReplay = true ∧ WReplay.req.badHyper = none ∧ WReplay.req.coll.reqs = [(WReplay.req.nextStep, 0, 7)] ∧
    WReplay.bad.mayReplay = true ∧ WReplay.bad.badHyper = some 0 := by decide +kernel

namespace WStepReplay
def s : State := { State.reset with step := { StepState.init with job := true, phase := .running, faulted := true }, quiesce := some ⟨0, 0, true, false⟩ }
end WStepReplay
theorem witness_StepReplayRestarts : WStepReplay.s.step.faulted = true ∧ WStepReplay.s.quiesce = some ⟨0, 0, true, false⟩ ∧ WStepReplay.s.regionClusters = [] ∧
    WStepReplay.s.coll.held = [] ∧ WStepReplay.s.coll.reqs = [] := by
  decide +kernel

namespace WRakeClose
def idle : State := State.reset.modCore 0 fun c => { c with regs := sf c.regs .CORE_DSTAT 0 0 2 1, fetchEnd := true }
def lists : State := { State.reset with
  step := { StepState.init with job := true, phase := .running }
  clusters := State.reset.clusters.map fun c => { c with regs := sf c.regs .CLU_STAT 0 0 7 64 } }
def closed : State := { lists with step := { lists.step with closed := true } }
def last : State := ({ lists with cores := idle.cores }.setHf .STEP_CFG 0 2 1 1).setCf 0 .CLU_STAT 0 0 7 63
def voted : State := { closed with step := { closed.step with votes := some [3], voted := true } }
end WRakeClose
theorem witness_ListsAndRakeClose : (WRakeClose.idle.core 0).listDone = true ∧ WRakeClose.idle.step.phase ≠ .running ∧ (WRakeClose.last.core 0).listDone = true ∧
    WRakeClose.last.listsDone = false ∧ (WRakeClose.last.setCf 0 .CLU_STAT 0 0 7 64).listsDone = true ∧ WRakeClose.last.generate = true ∧ WRakeClose.lists.listsDone = true ∧
    WRakeClose.lists.generate = false ∧ WRakeClose.closed.coll.normOn = false ∧ WRakeClose.voted.ring false = 1 ∧ WRakeClose.voted.ring true = 1 ∧
    WRakeClose.voted.step.votes = some [3] ∧ WRakeClose.closed.step.group = none ∧ WRakeClose.closed.step.due = none ∧ WRakeClose.closed.step.exch = none ∧ WRakeClose.closed.coll.held = [] := by decide +kernel

namespace WSieve
def s (nf : Nat) : State := { State.reset with step := { StepState.init with job := true, phase := .running, group := some { Norm.zero with nf := nf, sq := 2 ^ 160 } }
                                               sieve := { Sieve.init with cfg := 0 } }
end WSieve
theorem witness_SieveDecides : (WSieve.s 1).step.group = some { Norm.zero with nf := 1, sq := 2 ^ 160 } ∧
    ((WSieve.s 1).sieveTest { Norm.zero with nf := 1, sq := 2 ^ 160 }).2 = false ∧ bit (WSieve.s 1).sieve.cfg 2 = false ∧ (WSieve.s 1).sieve.nfDone = false ∧ (WSieve.s 1).replays < 2 ∧
    bit 4 2 = true ∧
    ((WSieve.s 0).sieveTest { Norm.zero with nf := 0, sq := 2 ^ 160 }).2 = true ∧ (WSieve.s 0).step.stopping = false ∧ (WSieve.s 0).step.held = 0 ∧ (WSieve.s 0).coll.held = [] := by decide +kernel

namespace WSweep
def layer : Nat := WReplay.layer + 2 ^ 144 + 2 ^ 160
/-- Two records of one row and one column. -/
def s : State := { (State.reset.setHf .UPD_STBASE 0 0 27 1).setH .UPD_STCNT 0 2 with
  layers := [(0, layer)], mem := msets [] 4096 (toLe 16 0x100000 ++ toLe 16 0x200000)
  step := { StepState.init with job := true, phase := .running, decided := true, commit := true } }
def gather : State := { s with step := { s.step with sweepWait := [0], swept := [0, 1] } }
def recover : State := { s with step := { s.step with recover := true } }
def audit : State := { s with step := { s.step with audit := some 0, final := [0] } }
def repair : State := { s with step := { s.step with phase := .boundary 1, repairs := [(0, 0)] } }
end WSweep
theorem witness_RecordsAreSwept : WSweep.s.shardCount = 2 ∧ lTrained (WSweep.s.layer (WSweep.s.shard 0).2) = true ∧ lTrained (WSweep.s.layer (WSweep.s.shard 1).2) = true ∧
    lDirected (WSweep.s.layer (WSweep.s.shard 0).2) = false ∧ WSweep.s.stackTurn 0 = true ∧ WSweep.s.hrv ≠ 2 ∧ memRange (WSweep.s.shard 0).1 32 = true ∧
    WSweep.gather.sharded = false ∧ WSweep.gather.gatherTurn = some 0 ∧ WSweep.gather.coll.held = [] ∧ WSweep.recover.step.recover = true ∧
    Sparse.get (fun _ => 0) WSweep.audit.coll.sent (4 * 0 + 3) = 0 ∧ WSweep.repair.atAction 1 = true := by decide +kernel

namespace WNotices
def layer : Nat := WReplay.layer + 2 ^ 192 + 6 * 2 ^ 320 + 2 ^ 328
def s (r : Reg) : State := { State.reset with
  layers := [(3, layer)], step := { StepState.init with job := true, phase := .running }
  net := [⟨.cluster 0, .hub, .tc2q, 0, .mwr (0x030000000000 + Reg.offset r 0) (toLe 32 3)⟩] }
end WNotices
theorem witness_NoticesCount : ((WNotices.s .STEP_GDONE).takeNotice 0 .STEP_GDONE []).map (fun (e : Option Nat × State) => e.1) = some (some 3) ∧
    lTrained ((WNotices.s .STEP_GDONE).layer 3) = true ∧ (WNotices.s .STEP_GDONE).gradReady 3 = false ∧ (WNotices.s .STEP_GDONE).coll.held = [] ∧
    (WNotices.s .STEP_GDONE).generate = false ∧ { WNotices.s .STEP_GDONE with step := StepState.init }.step.phase ≠ .running ∧
    ((WNotices.s .UPD_DDONE).takeNotice 0 .UPD_DDONE []).map (fun (e : Option Nat × State) => e.1) = some (some 3) ∧ lDirected ((WNotices.s .UPD_DDONE).layer 3) = true ∧
    (WNotices.s .UPD_DDONE).dirReady 3 = false := by decide +kernel

namespace WNotice
def s : State := { State.reset with net := [⟨.cluster 0, .hub, .tc0, 0, .urg 9 St.HAZARD⟩] }
def ue : State := { State.reset with net := [⟨.hbm 3, .hub, .tc0, 0, .urg 9 St.HBM_UNCORRECTABLE⟩], rel := { State.reset.rel with ues := [(3, 9, true)] } }
end WNotice
theorem witness_ErrorNotice : (WNotice.s.takePacket 0).isSome = true ∧ bits St.HAZARD 0 16 ≠ St.HBM_UNCORRECTABLE ∧ WNotice.s.step.decided = false ∧
    { WNotice.s with step := { WNotice.s.step with decided := true } }.step.decided = true ∧
    (WNotice.ue.takePacket 0).map (fun e => e.1.src) = some (.hbm 3) ∧ (WNotice.ue.rel.ues.find? fun e => e.1 == 3) = some (3, 9, true) := by decide +kernel

namespace WFold
def base : State := (State.reset.setH .UPD_STEPLO 0 9)
def none_ : State := { base with step := { StepState.init with job := true, phase := .running, due := some 3 } }
def layer : Nat := WReplay.layer + 2 ^ 144 + 2 ^ 160 + 2 ^ 256
def some_ : State := { none_.setH .LNK_GRID 0 (2 + 2 ^ 7) with layers := [(0, layer)] }
def x : Exchange := ⟨3, 0, 0, [], some [⟨0, 0, 0, [0], false⟩], [(0, 0, 0, 0, List.replicate 4 0)], [], [], none⟩
def fold : State := { base with layers := [(0, layer)], step := { StepState.init with job := true, exch := some x } }
def tgt : Nat := (List.range 1024).foldl (fun a b => if gTgt (2 ^ b) then a + 2 ^ b else a) 0
def drop : State := { base with
  layers := [(0, layer)], step := { StepState.init with job := true, exch := some { x with dropped := [(0, 0, 0)] } }
  grafters := [{ Grafter.init with slots := [some (GJob.new ⟨0, .host⟩ tgt 1), none, none, none] }] }
end WFold
theorem witness_FactorsAreExchanged : WFold.none_.gatherDone = true ∧ 3 < WFold.none_.stepNo ∧ WFold.none_.exchBlocks = [] ∧ WFold.none_.coll.held = [] ∧ WFold.some_.coll.held = [] ∧ WFold.some_.gatherDone = true ∧
    WFold.some_.exchBlocks ≠ [] ∧ 1 < WFold.some_.ring false ∧ WFold.fold.privLayer 0 = some (0, WFold.layer) ∧ WFold.fold.foldBlocked 0 0 = false ∧
    (0, 0, 0, 0) ∉ WFold.x.done ∧ (0, 0, 0) ∉ WFold.x.dropped ∧ WFold.drop.foldBlocked 0 0 = true ∧ WFold.none_.step.folded = none ∧ 0 < (upperTiles [0].length).length := by decide +kernel

namespace WMail
/-- Reset with one command waiting. -/
def sent (op : Nat) (body : List Byte) : State := { State.reset with mb := { State.reset.mb with cmds := [⟨op, 7, 2, body⟩] } }
def cmd (op : Nat) (body : List Byte) : Cmd := ⟨op, 7, 2, body⟩
def running (op : Nat) (abort : Bool) : State :=
  { sent 0xD090 [0#8] with mb := { (sent 0xD090 [0#8]).mb with turn := some 0, tickets := ⟨true, false, 9, St.IN_PROGRESS, 0, op, [], abort⟩ :: List.replicate 7 Ticket.init } }
def cxl (op : Nat) (input : List Byte) : State := { State.reset with mb := { State.reset.mb with cxl := some (op, input) } }
end WMail
theorem witness_MailboxAccepts : State.reset.mailboxUp = true ∧ State.reset.recovering = false ∧ State.reset.mb.cxl = none ∧ State.reset.mb.slots.length = 8 ∧
    State.reset.ngumalRet 0xD000 (toLe 8 0x30005) = retOk ∧ (WMail.running 0xD021 false).mailboxUp = true ∧
    (WMail.running 0xD021 false).mb.cmds.head? = some (WMail.cmd 0xD090 [0#8]) ∧ (WMail.running 0xD021 false).mb.slots.length = 8 ∧
    (WMail.cmd 0xD090 [0#8]).field 0 1 = 0 ∧ ((WMail.running 0xD021 false).ticket 0).active = true ∧ ((WMail.running 0xD021 false).ticket 0).done = false ∧
    (WMail.running 0xD021 false).unabortable ((WMail.running 0xD021 false).ticket 0) = false ∧ (WMail.running 0xD021 false).mb.tickets.length = 8 ∧
    (WMail.running 0xD021 true).mb.turn = some 0 ∧ (WMail.running 0xD021 true).slicing 0 = true ∧ ((WMail.running 0xD021 true).ticket 0).abort = true ∧
    ((WMail.running 0xD021 true).ticket 0).opcode ∉ [0xD012, 0xD030, 0xD031, 0xD043, 0xD050, 0xD052] ∧ ((WMail.running 0xD021 false).ticket 0).abort = false := by decide +kernel

theorem witness_CxlCommandsAnswer : (WMail.cxl 0x0100 (toLe 1 3)).mb.cxl = some (0x0100, toLe 1 3) ∧
    (WMail.cxl 0x0101 (toLe 1 3 ++ toLe 1 1 ++ toLe 4 0)).mb.cxl = some (0x0101, toLe 1 3 ++ toLe 1 1 ++ toLe 4 0) ∧
    1 ≤ ((State.event (WMail.cxl 0x0101 (toLe 1 1 ++ toLe 1 0 ++ toLe 1 1 ++ toLe 3 0 ++ toLe 2 1)) St.HBM_UNCORRECTABLE 0 0 0).logOf 1).length ∧
    (State.event (WMail.cxl 0x0101 (toLe 1 1 ++ toLe 1 0 ++ toLe 1 1 ++ toLe 3 0 ++ toLe 2 1)) St.HBM_UNCORRECTABLE 0 0 0).mb.cxl =
      some (0x0101, toLe 1 1 ++ toLe 1 0 ++ toLe 1 1 ++ toLe 3 0 ++ toLe 2 1) ∧
    (WMail.cxl 0x0102 []).mb.cxl = some (0x0102, []) ∧ (∀ v ∈ [0, 3, 4, 3], v = 0 ∨ v = 3 ∨ v = 4) ∧
    (WMail.cxl 0x0103 (([0, 3, 4, 3].map fun v => toLe 1 (if v = 0 then 0 else 1 + 16 * v)).flatten)).mb.cxl =
      some (0x0103, ([0, 3, 4, 3].map fun v => toLe 1 (if v = 0 then 0 else 1 + 16 * v)).flatten) ∧
    4 + 4 ≤ celBytes.length ∧ (WMail.cxl 0x0401 (celUuid ++ toLe 4 4 ++ toLe 4 4)).mb.cxl = some (0x0401, celUuid ++ toLe 4 4 ++ toLe 4 4) := by decide +kernel

namespace WReport
def st (op : Nat) (b : List Byte) : Bool := (WMail.sent op b).mailboxUp && decide ((WMail.sent op b).mb.cmds.head? = some (WMail.cmd op b)) && decide ((WMail.sent op b).mb.slots.length = 8)
end WReport
theorem witness_ReportsAnswer : ([0xD000, 0xC000, 0xD001, 0xC001, 0xC004, 0xD003].all fun op => WReport.st op []) = true ∧ WReport.st 0xD002 (toLe 8 255) = true ∧
    (WMail.cmd 0xD002 (toLe 8 255)).field 0 8 < 2 ^ 56 ∧ 2 ^ 56 ≤ (WMail.cmd 0xD002 (toLe 8 (2 ^ 60))).field 0 8 ∧ (WMail.sent 0xD003 []).step.job = false ∧
    { WMail.sent 0xD003 [] with step := { StepState.init with job := true } }.step.job = true := by decide +kernel

namespace WShort
def grid : List Byte := [2#8, 1#8, 64#8, 65#8] ++ List.replicate 62 0#8
def table : State := { WMail.sent 0xD046 (1#8 :: 0#8 :: List.replicate 141 3#8) with links := { Links.init with table := [⟨9, 1, 0, [], 0, [], none, 1⟩] } }
end WShort
theorem witness_ShortCommandsAct : WReport.st 0xD013 (toLe 4 5000) = true ∧ WReport.st 0xC003 (toLe 4 5000) = true ∧ (WMail.cmd 0xD013 (toLe 4 5000)).field 0 4 = 5000 ∧
    State.reset.frozen (hubKey .PWR_CAP 0) = false ∧ (patchOf (WMail.cmd 0xD020 ([3#8, 1#8] ++ toLe 18 0))).isSome = true ∧
    patchOf (WMail.cmd 0xD020 (toLe 20 0)) = none ∧ WReport.st 0xD042 WShort.grid = true ∧ (WMail.sent 0xD042 WShort.grid).resourceBusy 0xD042 = false ∧
    (WMail.cmd 0xD042 WShort.grid).field 0 1 = 2 ∧ (WMail.cmd 0xD042 WShort.grid).field 1 1 = 1 ∧
    ((List.range 2).all fun r => bit ((WMail.cmd 0xD042 WShort.grid).field (2 + r) 1) 6) = true ∧
    (WMail.cmd 0xD042 WShort.grid).field 2 1 % 64 ≠ (WMail.cmd 0xD042 WShort.grid).field 3 1 % 64 ∧
    ((List.range 64).all fun r => !State.reset.frozen (hubKey .LNK_MMAP r)) = true ∧ State.reset.frozen (hubKey .LNK_GRID 0) = false ∧
    WReport.st 0xD010 [2#8, 7#8, 0#8, 0#8, 0#8] = true ∧ targetOk ((WMail.cmd 0xD010 [2#8, 7#8, 0#8, 0#8, 0#8]).field 0 1) 7 = true ∧
    (WMail.sent 0xD010 [2#8, 7#8, 0#8, 0#8, 0#8]).step.job = false ∧ WReport.st 0xC002 [] = true ∧
    WShort.table.mailboxUp = true ∧ WShort.table.discAt 1 0 = some ⟨9, 1, 0, [], 0, [], none, 1⟩ ∧ WReport.st 0xD061 [] = true ∧
    (WMail.sent 0xD061 []).resourceBusy 0xD061 = false := by decide +kernel

namespace WTick
def ready (s : State) (op : Nat) (b : List Byte) : Bool :=
  s.mailboxUp && decide (s.mb.cmds.head? = some (WMail.cmd op b)) && decide (s.mb.slots.length = 8) && !s.resourceBusy op && decide (s.freeTicket = some 0)
    && decide (s.mb.tickets.length = 8) && decide (s.hrv ≠ 2)
def at_ (op : Nat) (b : List Byte) : Bool := ready (WMail.sent op b) op b
def v1 (b : List Byte) : State :=
  { WMail.sent 0xD045 b with links := { Links.init with ports := List.replicate 4 { Port.init with v1 := true } } }.setPstate 0 2
def full (op : Nat) (b : List Byte) : State :=
  { WMail.sent op b with mb := { (WMail.sent op b).mb with tickets := List.replicate 8 ⟨true, true, 0, 0, 100, 0, [], false⟩ } }
end WTick
theorem witness_TablesAreCopied : WTick.at_ 0xD023 (toLe 20 0x10000) = true ∧ (WMail.cmd 0xD023 (toLe 20 0x10000)).field 2 2 = 1 ∧
    (WMail.cmd 0xD023 (toLe 20 0x10000)).field 0 2 + 1 ≤ 1024 ∧ WTick.at_ 0xD025 (toLe 20 0x10000) = true ∧ WTick.at_ 0xD041 (toLe 16 0x1000) = true ∧
    WTick.at_ 0xD044 (toLe 16 0x1000) = true ∧ WTick.at_ 0xD054 (toLe 16 0x1000) = true ∧ WTick.at_ 0xD060 (toLe 20 0x10000) = true ∧
    WTick.at_ 0xD060 (toLe 20 0x18007) = true ∧ (WMail.cmd 0xD060 (toLe 20 0x18007)).field 0 2 = 0x8007 ∧ WTick.at_ 0xD021 (toLe 20 (2 ^ 64)) = true ∧
    (WMail.cmd 0xD021 (toLe 20 (2 ^ 64))).field 8 4 = 1 ∧ WTick.at_ 0xD022 (toLe 12 0x10000) = true ∧
    (WMail.sent 0xD022 (toLe 12 0x10000)).layerRefusal (WMail.cmd 0xD022 (toLe 12 0x10000)) = none ∧ WTick.at_ 0xD024 (toLe 12 0x10000) = true ∧
    WTick.ready (WTick.v1 (toLe 16 (2 ^ 32))) 0xD045 (toLe 16 (2 ^ 32)) = true ∧ ((WTick.v1 (toLe 16 (2 ^ 32))).port 0).v1 = true ∧
    (WTick.v1 (toLe 16 (2 ^ 32))).pstate 0 = 2 ∧ (WMail.cmd 0xD045 (toLe 16 (2 ^ 32))).field 4 4 = 1 ∧ (WTick.v1 (toLe 16 (2 ^ 32))).links.ports.length = 4 ∧
    (WTick.full 0xD054 (toLe 16 0)).freeTicket = none ∧ (WTick.full 0xD054 (toLe 16 0)).resourceBusy 0xD054 = false := by decide +kernel

namespace WJob
def held (k : Nat) (inStep : Bool) : State :=
  { WMail.sent 0xD032 (toLe 1 k) with step := { StepState.init with job := true, held := 0x0500, phase := if inStep then .running else .boundary 1 } }
def st (s : State) (op : Nat) (b : List Byte) : Bool :=
  s.mailboxUp && decide (s.mb.cmds.head? = some (WMail.cmd op b)) && decide (s.mb.slots.length = 8)
def at_ (p : Phase) : State := { WMail.sent 0xD031 [] with step := { StepState.init with job := true, phase := p } }
end WJob
theorem witness_JobsStartAndStop : WTick.at_ 0xD030 (toLe 16 4096) = true ∧ (WMail.sent 0xD030 (toLe 16 4096)).step.job = false ∧ (WMail.sent 0xD030 (toLe 16 4096)).solo = true ∧
    (WMail.sent 0xD030 (toLe 16 4096)).ranks ≤ 1 ∧ WTick.at_ 0xD031 [] = true ∧ WTick.ready (WJob.at_ .running) 0xD031 [] = true ∧
    (WJob.at_ .running).step.phase = .running ∧ WTick.ready (WJob.at_ (.boundary 1)) 0xD031 [] = true ∧ (WJob.at_ (.boundary 1)).coll.perm = none ∧
    WJob.st (WJob.held 0 true) 0xD032 (toLe 1 0) = true ∧ (WJob.held 0 true).held = true ∧ (WJob.held 0 true).heldInStep = true ∧
    WJob.st (WJob.held 1 false) 0xD032 (toLe 1 1) = true ∧ (WJob.held 1 false).held = true ∧ (WJob.held 1 false).heldInStep = false ∧
    (WMail.cmd 0xD032 (toLe 1 1)).field 0 1 = 1 ∧ (WJob.held 1 true).heldInStep = true ∧ WJob.st (WJob.held 2 true) 0xD032 (toLe 1 2) = true ∧
    (WMail.sent 0xD032 (toLe 1 2)).held = false ∧ WTick.at_ 0xD040 [] = true := by decide +kernel

namespace WPower
def in_ (p tgt flags : Nat) : State := (State.reset.setHf .PWR_STATE 0 0 3 p).setHf .PWR_STATE 0 3 5 (tgt + 8 * flags)
def hold : State := { in_ 0 1 2 with step := { StepState.init with job := true, phase := .boundary 1, starting := false } }.setHf .PWR_STATE 0 7 1 1
def due : State := { State.reset with sundial := 10 ^ 9 }
def nearly : State := { State.reset with pwr := { Power.init with commits := [(5, 0)], wear := [(5, 999999)] } }
end WPower
theorem witness_PowerStatesChange : WTick.at_ 0xD012 [2#8] = true ∧ WTick.at_ 0xD012 [0#8] = true ∧ (WMail.cmd 0xD012 [2#8]).field 0 1 = 2 ∧
    (WMail.sent 0xD012 [2#8]).inTransition = false ∧ (WMail.sent 0xD012 [2#8]).powerState = 0 ∧ (WPower.in_ 0 2 1).inTransition = true ∧
    WPower.hold.hf .PWR_STATE 0 7 1 = 1 ∧ WPower.hold.atAction 6 = true ∧ WPower.hold.pwr.queue = [] ∧ (WPower.in_ 0 2 1).hf .PWR_STATE 0 6 2 = 1 ∧
    (WPower.in_ 0 2 1).hf .PWR_STATE 0 3 3 = 2 ∧ (WPower.in_ 2 0 1).hf .PWR_STATE 0 6 2 = 1 ∧ (WPower.in_ 2 0 1).hf .PWR_STATE 0 3 3 = 0 ∧
    (WPower.in_ 2 0 1).pwr.wave = 20 ∧ State.reset.host.dstate = 0 ∧ State.reset.step.job = false ∧ State.reset.hrv = 0 ∧
    State.reset.hf .PWR_STATE 0 6 2 = 0 ∧ State.reset.powerState < 3 ∧ { State.reset with pwr := { Power.init with wave := 3 } }.pwr.wave < 20 ∧
    WPower.due.pwr.throttleDue ≤ WPower.due.sundial ∧ WPower.due.rst.ready = true ∧ WPower.nearly.pwr.commits = [(5, 0)] ∧
    WPower.nearly.wearOf 5 + 1 = 1000000 := by decide +kernel

namespace WLink
/-- Port 0 up, the module at (0, 0) of a 2 × 1 group. -/
def up : State := ((State.reset.setPstate 0 2).setHf .LNK_COORD 0 6 3 1).setHf .LNK_COORD 0 13 1 1
def table : State := { up with links := { Links.init with table := [⟨1, 0, 0, [], 0, [0, 1], none, 0⟩, ⟨2, 1, 0, [], 0, [0, 1], some 1, 1⟩] } }
def frame : Frame := ⟨0, 0, 1, 0, 0, 1, .v1msg []⟩
def unacked (n : Nat) : State := { up with links := { Links.init with ports := { Port.init with retry := [⟨0, frame, n⟩], tx := 1 } :: List.replicate 3 Port.init } }
def eye : State := { up with links := { Links.init with ports := { Port.init with spareOk := false } :: List.replicate 3 Port.init } }
def v1 : State := { up with links := { Links.init with ports := { Port.init with v1 := true } :: List.replicate 3 Port.init } }
def bad : State := { up with links := { Links.init with ports := { Port.init with windows := [2, 0, 0] } :: List.replicate 3 Port.init } }
def gone : State := { up with links := { Links.init with ports := { Port.init with spareOk := false, lost := [0] } :: List.replicate 3 Port.init } }
def held : State := up.wrS (up.v1Base + 4156) [1#8]
def tagged : State := up.setHf .LNK_JOBTAG 0 0 16 5
end WLink
theorem witness_LinksCarryFrames : WLink.table.portUp 0 = true ∧ 0 % 2 ^ 16 = (WLink.table.port 0).rx ∧ 1 % 2 ^ 16 ≠ (WLink.table.port 0).rx ∧
    WLink.table.links.ports.length = 4 ∧ WLink.table.delivers WLink.frame = false ∧ WLink.frame.tag = WLink.table.jobTag ∧
    WLink.table.routeAt WLink.table.myX WLink.table.myY WLink.frame = some (some 0) ∧
    ((WLink.unacked 1).port 0).retry.findIdx? (fun u => u.lseq == 0 % 2 ^ 16) = some 0 ∧ (WLink.unacked 8).portUp 0 = true ∧
    (((WLink.unacked 8).port 0).retry.any fun u => decide (8 ≤ u.replays)) = true ∧ WLink.up.laneActive 0 1 = true ∧ (WLink.up.port 0).spareOk = true ∧
    (WLink.up.port 0).v1 = false ∧ spareLane (WLink.up.h .LNK_LANEMAP 0) = some 2 ∧ WLink.up.frozen (hubKey .LNK_LANEMAP 0) = false ∧
    WLink.eye.laneActive 0 0 = true ∧ (WLink.eye.port 0).spareOk = false ∧ WLink.eye.spares 0 = false ∧ 0 ∉ (WLink.eye.port 0).lost ∧ WLink.eye.pstate 0 = 2 ∧ 2 ≤ (WLink.bad.port 0).windows.getD 0 0 ∧ WLink.bad.laneActive 0 0 = true ∧
    (WLink.gone.port 0).lost = [0] ∧ WLink.gone.laneActive 0 0 = true ∧ WLink.gone.spares 0 = false ∧ WLink.up.delivers ⟨0, 0, 0, 0, 0, 0, .v1msg []⟩ = true ∧
    WLink.held.rdN (WLink.held.v1Base + 4160 * (WLink.held.links.v1Write % WLink.held.v1Entries) + 4156) 4 ≠ 0 ∧
    WLink.tagged.delivers ⟨0, 0, 0, 0, 5, 0, .urg 9 []⟩ = true ∧ (FrameBody.urg 9 []).type = 4 ∧ (FrameBody.urg 9 []).ucode = 9 ∧ WLink.tagged.portUp 0 = true ∧
    (WLink.up.port 0).windows.getD 1 0 < 2 ∧ (WLink.v1.port 0).v1 = true ∧ WLink.v1.pstate 0 = 2 ∧ WLink.v1.hrv ≠ 2 ∧
    WLink.v1.rdN (WLink.v1.v1Base + 4160 * (WLink.v1.links.v1Write % WLink.v1.v1Entries) + 4156) 4 = 0 := by decide +kernel

namespace WDisc
def run : State := { WLink.up with sundial := tenMs, links := { Links.init with running := true, rootSer := State.reset.serial } }
def peer : HelloMsg := { serial := State.reset.serial + 1, port := 1, lcs := 1, depth := 3, groupId := 0, jobTag := 0, coord := 0, rootSer := 9, attest := [] }
def child : State := { WLink.up with links := { Links.init with parent := some 0, running := false } }
def alone (n : Node) : List Node := [n]
def self : Node := { serial := State.reset.serial, attest := [], tag := 0, ovr := some (0, 0), peers := [none, none, none, none], skip := [] }
def lost : State := { child with links := { child.links with ports := { Port.init with peer := some { peer with depth := 0xFFFF } } :: List.replicate 3 Port.init } }
def near : State := { child with links := { child.links with parent := some 1, ports := { Port.init with peer := some peer } :: List.replicate 3 Port.init } }
def stale : State := { child with sundial := tenMs, links := { child.links with depth := 1 } }
def member : State := { (WLink.up.setHf .LNK_JOBTAG 0 0 16 1).setHf .LNK_GRID 0 0 14 129 with step := { StepState.init with job := true, phase := .running } }.setHf .LNK_MMAP 0 0 7 64
def elected : State := { stale with links := { stale.links with excluded := some 3, rootSer := State.reset.serial } }
end WDisc
theorem witness_DiscoveryAndSundial : WDisc.run.portUp 0 = true ∧ 0 % 2 ^ 16 = (WDisc.run.port 0).rx ∧ WDisc.run.links.ports.length = 4 ∧
    WDisc.peer.port = 0 ^^^ 1 ∧ WDisc.run.eligible WDisc.peer = true ∧ (2 : Nat) ≠ 0 ^^^ 1 ∧
    WDisc.run.eligible { WDisc.peer with groupId := 5 } = false ∧ (WDisc.run.setPstate 0 3).pstate 0 = 3 ∧ WDisc.run.links.running = true ∧
    WDisc.run.links.rootTick + tenMs ≤ WDisc.run.sundial ∧
    (assign [WDisc.self] WDisc.run.serial WDisc.run.sizeX WDisc.run.sizeY).isSome = true ∧ assign [] WDisc.run.serial WDisc.run.sizeX WDisc.run.sizeY = none ∧
    WDisc.child.links.running = false ∧ WDisc.child.hf .LNK_PCFG 0 0 1 = 1 ∧ (WDisc.child.setPstate 0 0).pstate 0 ≠ 2 ∧ WDisc.child.links.parent = some 0 ∧
    WDisc.child.portUp 0 = true ∧ WDisc.child.sundialRuns = true ∧ WDisc.child.step.job = false ∧ WDisc.lost.parentLost = true ∧
    WDisc.lost.bestNeighbour = none ∧ WDisc.near.parentLost = true ∧ WDisc.near.bestNeighbour = some (0, 3) ∧ WDisc.stale.hf .SDL_STAT 0 2 1 = 0 ∧
    WDisc.stale.links.excluded = none ∧ WDisc.stale.links.stampTick + tenMs ≤ WDisc.stale.sundial ∧ WDisc.stale.links.depth ≠ 0xFFFF ∧
    WDisc.elected.links.excluded = some 3 ∧
    WDisc.member.delivers ⟨0, 0, 0, 0, 1, 0, .urg 1 [0, 0, 5]⟩ = true ∧ (WDisc.member.rankOf 0 0).isSome = true ∧ WDisc.member.stepNo = 0 ∧ WDisc.member.step.job = true ∧
    WDisc.member.delivers ⟨0, 0, 0, 0, 1, 0, .urg 1 [1, 0, 5]⟩ = true ∧
    WDisc.member.replays = 0 ∧ WDisc.member.step.phase = .running ∧ WDisc.member.portUp 0 = true := by decide +kernel
theorem witness_DiscoveryAndSundial_serial : WDisc.peer.serial ≠ WDisc.run.serial ∧ WDisc.run.links.rootSer = WDisc.run.serial ∧
    WDisc.elected.links.rootSer = WDisc.elected.serial :=
  ⟨by show Config.serial % 2 ^ 64 + 1 ≠ Config.serial % 2 ^ 64; omega, by with_unfolding_all rfl, by with_unfolding_all rfl⟩

namespace WColl
def grid : State := ((WLink.up.setHf .LNK_JOBTAG 0 0 16 1).setHf .LNK_GRID 0 0 14 129).setHf .LNK_MMAP 0 0 7 64
def s : State := { grid with step := { StepState.init with job := true, phase := .running } }
def msg (k : CollKind) (e : Nat) : CollMsg :=
  { kind := k, step := 0, replays := 0, epoch := e, layer := 0, quarter := 0, run := 0, phase := 1, off := 0, dpa := 4096, data := [7], scales := [] }
def frame (k : CollKind) (e : Nat) : Frame := ⟨0, 0, 0, 0, 1, 2, .coll (msg k e)⟩
def perm : State := { s with coll := { Coll.init with perm := some ⟨[], ⟨1, 1, [0], 0, 0, 0⟩, 0, 4, [], [], [], [], 0, false⟩ } }
def trained : State := { s with layers := [(0, WReplay.layer)], coll := { Coll.init with owners := ownerMap [(0, WReplay.layer)] } }
def sent : State := { trained with step := { trained.step with rsSent := [0] } }
def later : State := s.setStepNo 7
end WColl
theorem witness_CollectivesLand : WColl.s.portUp 0 = true ∧ 0 % 2 ^ 16 = (WColl.s.port 0).rx ∧ WColl.s.links.ports.length = 4 ∧
    WColl.s.delivers (WColl.frame .reduce 0) = true ∧ WColl.s.collFrom (WColl.frame .reduce 0) .reduce = true ∧ WColl.s.collFresh (WColl.msg .reduce 0) = true ∧
    WColl.s.collFresh (WColl.msg .reduce 9) = false ∧ WColl.s.collAhead (WColl.msg .reduce 9) = false ∧
    WColl.s.collFresh (WColl.msg .gather 0) = true ∧ WColl.later.collFresh { WColl.msg .gather 0 with step := 7 } = false ∧ WColl.later.collAhead { WColl.msg .gather 0 with step := 7 } = true ∧ WColl.s.coll.was = none ∧ WColl.s.collFrom { WColl.frame .reduce 0 with sx := 1 } .reduce = false ∧
    WColl.perm.collFresh (WColl.msg .move 0) = true ∧ WColl.perm.collFrom (WColl.frame .move 0) .move = true ∧ WColl.perm.coll.held = [] ∧ WColl.perm.hrv ≠ 2 ∧
    WColl.trained.rsNext = some 0 ∧ WColl.trained.generate = false ∧ WColl.trained.gradReady 0 = true ∧
    (before WColl.trained.rsLayers 0).all WColl.trained.rsAllSent = true ∧ (WColl.sent.rsLayers.find? fun j => !WColl.sent.step.landed.contains j) = some 0 ∧
    WColl.sent.rsDone 0 = true ∧ WColl.sent.sharded = false := by decide +kernel

namespace WPerm
/-- A body that keeps a group of one. -/
def body : List Byte := [1#8, 1#8] ++ toLe 6 0 ++ [64#8] ++ List.replicate 575 0#8
def send : State :=
  { WColl.s with mb := (WMail.sent 0xD043 body).mb, links := { Links.init with table := [⟨1, 0, 0, [], 1, [], none, 0⟩] }, step := { StepState.init with job := true, phase := .boundary 1 } }
def at_ (k : Nat) : State := { send with coll := { Coll.init with perm := some ⟨body, ⟨1, 1, [0], 0, 0, 0⟩, 0, k, [], [], [], [0], 0, false⟩ } }
end WPerm
theorem witness_PermutationsRun : WTick.ready WPerm.send 0xD043 WPerm.body = true ∧ WPerm.send.permRefusal WPerm.body [] = none ∧
    { WPerm.send with step := StepState.init }.step.job = false ∧ (WPerm.at_ 1).permTurn = true ∧
    newGrid WPerm.body ⟨1, 1, [0], 0, 0, 0⟩ = some ⟨1, 1, [0], 1, 0, 0⟩ ∧ (WPerm.at_ 1).code = 0 ∧ (WPerm.at_ 4).boundBytes ⟨1, 1, [0], 0, 0, 0⟩ ⟨1, 1, [0], 1, 0, 0⟩ ≤ 0 ∧
    (WPerm.at_ 6).onNew ⟨1, 1, [0], 1, 0, 0⟩ = false ∧ (WPerm.at_ 6).coll.held = [] ∧ (WPerm.at_ 5).coll.held = [] ∧ (WPerm.at_ 6).frozen (hubKey .LNK_GRID 0) = false ∧
    ((([0] : List Nat) ++ [0]).all fun c => ([0] : List Nat).contains c) = true ∧ (WPerm.at_ 5).delivers ⟨0, 0, 0, 0, 1, 1, .mgmt .commit⟩ = true ∧
    ((WPerm.at_ 5).setPstate 0 2).portUp 0 = true ∧ WPerm.send.coll.perm = none := by decide +kernel

namespace WHarv
def start : List Byte := toLe 16 0 ++ toLe 8 0x10000 ++ toLe 8 0x100000
def armed : State := { State.reset with harvest := { Harvest.init with ticket := 0, body := start } }.setHf .HRV_STAT 0 0 3 1
def item : HItem := { kind := 0, side := 0, blk := 0, idx := 0, rows := 0, off := 8192, len := 8, src := 0, pieces := [(0, 8)], vers := [] }
def open_ : State :=
  { State.reset with harvest := { Harvest.init with ticket := 0, body := start, items := [item], draining := true, drained := 1, total := 9 } }.setHf .HRV_STAT 0 0 3 2
def manifest : State := { open_ with harvest := { open_.harvest with items := [] } }.setHf .HRV_STAT 0 0 3 3
def buddy : State := (WColl.s.setHf .HRV_CFG 0 14 1 1).setHf .HRV_RSV 0 27 5 0
def frame : Frame := ⟨0, 0, 0, 0, 1, 2, .harvest 0 [1#8]⟩
end WHarv
theorem witness_SnapshotsRun : WTick.at_ 0xD050 WHarv.start = true ∧ (WMail.cmd 0xD050 WHarv.start).field 0 1 ≤ 1 ∧
    (WMail.cmd 0xD050 WHarv.start).field 16 8 % 4096 = 0 ∧ (WMail.cmd 0xD050 WHarv.start).field 8 8 = 0 ∧ WHarv.armed.hrv = 1 ∧ WHarv.armed.step.job = false ∧
    WHarv.open_.hrv = 2 ∧ WHarv.open_.harvest.field 0 1 = 0 ∧ WHarv.open_.hvBudget = none ∧ WHarv.open_.flaws = [] ∧ memRange 0 4 = true ∧
    (placeItems (WHarv.armed.toggled ((0 + 2 ^ 64 - 1) % 2 ^ 64 + 1)).snapItems).2 ≤ WHarv.armed.harvest.field 24 8 ∧ WHarv.manifest.hrv = 3 ∧
    WHarv.manifest.harvest.draining = true ∧ WHarv.manifest.harvest.items = [] ∧ WHarv.buddy.delivers WHarv.frame = true ∧ WHarv.buddy.portUp 0 = true ∧
    WHarv.buddy.hf .HRV_CFG 0 14 1 = 1 ∧ WHarv.buddy.hf .HRV_CFG 0 8 3 = 0 ∧ WHarv.buddy.hf .HRV_CFG 0 11 3 = 0 ∧ WHarv.buddy.hrv ≠ 2 ∧
    WColl.s.hf .HRV_CFG 0 14 1 = 0 ∧ WTick.at_ 0xD051 WHarv.start = true ∧ hvBodyBad (WMail.cmd 0xD051 WHarv.start) = false ∧
    (WMail.sent 0xD051 WHarv.start).imageFits [] 0 = false ∧ (WMail.sent 0xD051 WHarv.start).sharded = false := by decide +kernel
namespace WHarv
def s : State := WMail.sent 0xD051 start
/-- A snapshot of a module with no layers, whose hashes are this module's. -/
def img : List Byte := toLe 72 1 ++ (s.gridBytes.take 3 ++ toLe 53 0) ++ s.snapHashes
theorem snap_length : s.snapHashes.length = 192 := by simp [State.snapHashes, State.tableHashes]
theorem fits : s.imageFits (img.take ((WMail.cmd 0xD051 start).field 24 8)) ((WMail.cmd 0xD051 start).field 8 8 % 2 ^ 48) = true := by
  have hn : (WMail.cmd 0xD051 start).field 24 8 = 0x100000 := by decide +kernel
  have hp : (toLe 72 1 ++ (s.gridBytes.take 3 ++ toLe 53 0)).length = 128 := by decide +kernel
  have hl : img.length = 320 := by rw [img, List.length_append, hp, snap_length]
  rw [hn, List.take_of_length_le (by rw [hl]; omega)]
  have hd : ∀ off n, off + n ≤ 128 → nat img off n = nat (toLe 72 1 ++ (s.gridBytes.take 3 ++ toLe 53 0)) off n := by
    intro off n h
    unfold nat img
    rw [List.drop_append_of_le_length (by rw [hp]; omega), List.take_append_of_le_length (by rw [List.length_drop, hp]; omega)]
  have hc : imageCount img = 0 := by rw [imageCount, hd _ _ (by omega)]; decide +kernel
  have h1 : (img.drop 0x48).take 3 = s.gridBytes.take 3 := by
    unfold img
    rw [List.drop_append_of_le_length (by rw [hp]; omega), List.take_append_of_le_length (by rw [List.length_drop, hp]; omega)]
    decide +kernel
  have h2 : (img.drop 0x80).take 192 = s.snapHashes := by
    unfold img
    rw [List.drop_left' hp, List.take_of_length_le (by rw [snap_length])]
  have h3 : s.planRecords ((WMail.cmd 0xD051 start).field 8 8 % 2 ^ 48) = [] := by decide +kernel
  have h0 : nat img 0 8 = 1 := by rw [hd _ _ (by omega)]; decide +kernel
  have h4 : nat img 0x4C 1 = b2n s.sharded := by rw [hd _ _ (by omega)]; decide +kernel
  unfold State.imageFits
  rw [h3]
  simp [imageEntries, hc, h0, h1, h2, h4]
end WHarv
theorem witness_SnapshotsRun_restored : WHarv.s.imageFits (WHarv.img.take ((WMail.cmd 0xD051 WHarv.start).field 24 8))
      ((WMail.cmd 0xD051 WHarv.start).field 8 8 % 2 ^ 48) = true ∧ WHarv.s.sharded = false := ⟨WHarv.fits, by decide +kernel⟩

namespace WGrf
/-- A TRSV of size 1 with one right-hand side in slot 1, its region valid. -/
def trsv : Nat := gTrsv + 1 * 2 ^ 4 + 1 * 2 ^ 10 + 1 * 2 ^ 32 + 1 * 2 ^ 46 + 1 * 2 ^ 176 + (2 ^ 16) * 2 ^ 384 + (2 ^ 64 - 1) * 2 ^ 448
def queued (d : Nat) : State :=
  ({ State.reset with mem := msets [] 4096 (toLe 128 d) } : State).setGrafter 0 { Grafter.init with queue := [⟨4096, .host⟩], rgn := [0, 2 ^ 21, 0, 0] }
def mat : Mat := ⟨[[2 ^ 46]], 1⟩
/-- A job in a slot; its numbers are 1. -/
def job (d : Nat) : GJob :=
  { GJob.new ⟨0, .host⟩ d 0 with raw := mat, a := mat, x := mat, m := mat, q := 1, lam := ⟨1, 0⟩, tsum := ⟨1, 0⟩, xs := [⟨[0], 0⟩], rs := [⟨[2 ^ 46], 1⟩], ps := [⟨[2 ^ 46], 1⟩], bs := [⟨[2 ^ 46], 1⟩] }
def desc (ty : Nat) : Nat := ty + 1 * 2 ^ 32 + (if ty = gOrth ∨ ty = gTrsv ∨ ty = gCg then 2 ^ 46 else 0) + 10 * 2 ^ 86
def run (j : GJob) : State := State.reset.setGrafter 0 { Grafter.init with slots := [some j, none, none, none] }
def vote : GJob := job (gRoot + 2 ^ 9 + 5 * 2 ^ 448)
end WGrf
theorem witness_JobsAreSubmitted : (0 : Nat) < nClusters ∧ dieOf 0 = 0 ∧ dieOf 32 ≠ 0 ∧ (WGrf.queued 0).computing = true ∧
    ((WGrf.queued 0).grafter 0).queue.length < 16 ∧
    (((WGrf.queued 0).grafter 0).queue.zipIdx.find? fun e => ((((WGrf.queued 0).grafter 0).slots.getD (gSlot ((WGrf.queued 0).rdN e.1.addr 128)) none).isNone)) = some (⟨4096, .host⟩, 0) ∧
    (WGrf.queued 0).grfLegal 0 ((WGrf.queued 0).rdN 4096 128) = false ∧
    (((WGrf.queued WGrf.trsv).grafter 0).queue.zipIdx.find? fun e => ((((WGrf.queued WGrf.trsv).grafter 0).slots.getD (gSlot ((WGrf.queued WGrf.trsv).rdN e.1.addr 128)) none).isNone)) = some (⟨4096, .host⟩, 0) ∧
    (WGrf.queued WGrf.trsv).grfLegal 0 ((WGrf.queued WGrf.trsv).rdN 4096 128) = true ∧ gType ((WGrf.queued WGrf.trsv).rdN 4096 128) = gTrsv ∧
    ((WGrf.queued WGrf.trsv).setGrafter 0 (((WGrf.queued WGrf.trsv).grafter 0).dequeue 0)).grfConflict 0 ((WGrf.queued WGrf.trsv).rdN 4096 128) = false ∧
    (WGrf.run WGrf.vote).grafters.length = 8 ∧ ((WGrf.run WGrf.vote).grafter 0).slots.length = 4 ∧ (WGrf.run WGrf.vote).job 0 0 = some WGrf.vote ∧
    gVote WGrf.vote.desc = true ∧ gDeadline WGrf.vote.desc = 5 ∧ 5 ≤ { WGrf.run WGrf.vote with sundial := 5 }.copyOf 0 ∧
    gVote (WGrf.job (WGrf.desc gRoot)).desc = false ∧ (WGrf.run (WGrf.job (WGrf.desc gRoot))).job 0 0 = some (WGrf.job (WGrf.desc gRoot)) ∧
    (WGrf.run { WGrf.vote with done := true }).job 0 0 = some { WGrf.vote with done := true } ∧ WGrf.vote.group = none := by decide +kernel

theorem witness_JobsIterate : (WGrf.run (WGrf.job (WGrf.desc gRoot))).running 0 0 gRoot = some (WGrf.job (WGrf.desc gRoot)) ∧
    (rootStep 1 1 0 1 ⟨1, 0⟩ WGrf.mat WGrf.mat).2.2 = (false, false) ∧ (WGrf.run (WGrf.job (WGrf.desc gOrth))).running 0 0 gOrth = some (WGrf.job (WGrf.desc gOrth)) ∧
    (orthStep 1 1 WGrf.mat WGrf.mat).2 = (false, false) ∧ (gram (orthStep 1 1 WGrf.mat WGrf.mat).1).2 = false ∧
    (WGrf.run (WGrf.job (WGrf.desc gChol))).running 0 0 gChol = some (WGrf.job (WGrf.desc gChol)) ∧
    (match cholesky 1 WGrf.mat 1 (WGrf.job (WGrf.desc gChol)).low with | .ok _ => true | _ => false) = true ∧
    (match cholesky 1 ⟨[[-1]], 1⟩ 1 (WGrf.job (WGrf.desc gChol)).low with | .pivot => true | _ => false) = true ∧
    (WGrf.run (WGrf.job (WGrf.desc gTrsv))).running 0 0 gTrsv = some (WGrf.job (WGrf.desc gTrsv)) ∧ (WGrf.run (WGrf.job (WGrf.desc gTrsv))).hrv ≠ 2 ∧
    (WGrf.run (WGrf.job (WGrf.desc gCg))).running 0 0 gCg = some (WGrf.job (WGrf.desc gCg)) ∧ gPfe (WGrf.desc gCg) = 10 ∧
    (cgStep ⟨[[2 ^ 46]], 1⟩ (((pow2 (-10)).mul ⟨1, 0⟩).div (Dy.ofInt 1)) ⟨[0], 0⟩ ⟨[2 ^ 46], 1⟩ ⟨[2 ^ 46], 1⟩).isSome = true ∧
    { WGrf.job (WGrf.desc gRoot) with tested := false }.resid.le (pow2 (-(gTole (WGrf.desc gRoot) : Int))) = true ∧
    { WGrf.job (WGrf.desc gRoot) with resid := ⟨2, 0⟩ }.resid.le (pow2 (-(gTole (WGrf.desc gRoot) : Int))) = false ∧ 0 < gMaxit (WGrf.desc gRoot) ∧
    { WGrf.job (WGrf.desc gCg) with rs := [⟨[2 ^ 47], 1⟩] }.cgMet = false ∧ (WGrf.run (WGrf.job (WGrf.desc gRoot))).computing = true := by decide +kernel

namespace WRel
def row : State := { State.reset with rel := { Rel.init with repairQ := [35, 7] } }
def scrub : State := State.reset.setHf .TRL_SCRUB 0 8 1 1
def rec : List Byte := List.replicate 64 1#8
def ring : State := { State.reset with gauge := State.reset.gauge.setSlot 5 (List.replicate 8192 0#8) }
def due : State := { State.reset with sundial := 2 * dayTicks }
end WRel
theorem witness_MemoryIsMaintained : WRel.row.rel.repairQ = [35, 7] ∧ WRel.scrub.hf .TRL_SCRUB 0 8 1 = 1 ∧ (WRel.scrub.setHf .TRL_SCRUB 0 8 1 0).hf .TRL_SCRUB 0 8 1 = 0 ∧
    WRel.rec.length = 64 ∧ recordOk WRel.rec = false ∧ (WRel.ring.gauge.slot (5 % 8192)).length = 8192 ∧ WRel.due.rel.bucketDue ≤ WRel.due.sundial ∧
    WRel.due.rel.monitorDue ≤ WRel.due.sundial ∧ WRel.due.rel.buckets = [] := by decide +kernel

namespace WSpare
def job : StepState := { StepState.init with job := true, phase := .boundary 1 }
def swap : State := { State.reset with step := job, rel := { Rel.init with retire := [3] } }
def test (set now : Nat) : List Byte := toLe 1 set ++ toLe 1 now ++ toLe 22 0
def busy (op : Nat) (b : List Byte) : State := { WMail.sent op b with step := job }
def bist (k : Nat) : State :=
  { busy 0xD052 [] with rel := { Rel.init with bist := some ⟨0, k, [], 80 * k, 3, 0, 0, false⟩ }, mb := { (busy 0xD052 []).mb with tickets := ⟨true, false, 9, St.IN_PROGRESS, 0, 0xD052, [], false⟩ :: List.replicate 7 Ticket.init } }
theorem not_busy (k ci : Nat) : (bist k).regionBusy ci = false := by
  have h : ∀ d, (bist k).grafter d = Grafter.init := by
    intro d
    show (List.replicate 8 Grafter.init).getD d Grafter.init = Grafter.init
    rcases d with _ | _ | _ | _ | _ | _ | _ | _ | d <;> rfl
  unfold State.regionBusy State.regionSlot
  simp only [h]
  split
  · rename_i i _
    show ((Grafter.init.slots.getD i none).isSome) = false
    rcases i with _ | _ | _ | _ | i <;> rfl
  · rfl
end WSpare
theorem witness_CoresAreSparedAndTested : WSpare.swap.atAction 2 = true ∧ WSpare.swap.swaps = [3] ∧ WSpare.swap.spareOf (coreCi 3) = some 0 ∧
    WSpare.swap.rel.divider = [] ∧ WSpare.swap.frozen (cluKey (coreCi 3) .CLU_SPMAP 0) = false ∧ WTick.at_ 0xD053 [] = true ∧
    WRel.due.rel.replanDue ≤ WRel.due.sundial ∧ WTick.at_ 0xD052 (WSpare.test 3 0) = true ∧ (WMail.cmd 0xD052 (WSpare.test 3 0)).field 0 1 = 3 ∧
    (WMail.sent 0xD052 (WSpare.test 3 0)).rel.bist = none ∧ WTick.ready (WSpare.busy 0xD052 (WSpare.test 3 1)) 0xD052 (WSpare.test 3 1) = true ∧
    (WMail.cmd 0xD052 (WSpare.test 3 1)).field 1 1 = 1 ∧ (WSpare.busy 0xD052 (WSpare.test 3 1)).step.job = true ∧
    (WMail.cmd 0xD052 (WSpare.test 3 1)).field 8 8 % 4096 = 0 ∧ (WSpare.bist 5).rel.bist = some ⟨0, 5, [], 400, 3, 0, 0, false⟩ ∧
    (WSpare.bist 5).atAction 4 = true ∧ 400 + 80 < nClusters ∧ (WSpare.bist 63).atAction 4 = true ∧ 80 * 63 + 80 = nClusters ∧
    ((WSpare.bist 63).ticket 0).active = true ∧ ((WSpare.bist 63).ticket 0).done = false ∧ (WSpare.bist 63).hrv ≠ 2 := by decide +kernel

theorem witness_FacilityReads : State.reset.facUp = true := by decide

theorem witness_FacilityMeasurements : State.reset.facUp = true ∧ State.reset.hf .PWR_STATE 0 0 3 ≠ 4 ∧
    (State.reset.setHf .PWR_STATE 0 0 3 4).facUp = true ∧ (State.reset.setHf .PWR_STATE 0 0 3 4).hf .PWR_STATE 0 0 3 = 4 := by decide +kernel

theorem witness_FacilityWrites : State.reset.facUp = true ∧ State.reset.rst.refLost = false ∧ State.reset.frozen (hubKey .PWR_CAP 0) = false ∧
    { State.reset with rst := { State.reset.rst with refLost := true } }.facUp = true ∧
    { State.reset with rst := { State.reset.rst with refLost := true } }.rst.refLost = true ∧
    { State.reset with fac := { State.reset.fac with held := some 1200 } }.fac.held = some 1200 ∧
    { State.reset with fac := { State.reset.fac with held := some 1200 } }.frozen (hubKey .PWR_CAP 0) = false ∧
    { State.reset with fac := { State.reset.fac with armed := some 0 } }.fac.armed = some 0 ∧
    { State.reset with fac := { State.reset.fac with armed := some 0 } }.facUp = true ∧
    { State.reset with fac := { State.reset.fac with armed := some 0 } }.sundial < 0 + 25000000 := by decide +kernel

theorem witness_FacilityRefusals : State.reset.facUp = true ∧ (0x04 : Nat) ∉ [0x03, 0x19, 0x79, 0x88] ∧ State.reset.isArmed = false ∧
    { State.reset with rst := { State.reset.rst with asserted := [0] } }.facUp = false := by decide

theorem witness_FacilityFaultBits : State.reset.facUp = true ∧ State.reset.hf .FAC_STAT 0 8 1 = 0 ∧
    (State.reset.setHf .FAC_STAT 0 8 1 1).hf .FAC_STAT 0 8 1 = 1 ∧ State.reset.hf .FAC_STAT 0 7 1 = 0 ∧
    (State.reset.setHf .FAC_STAT 0 7 1 1).hf .FAC_STAT 0 7 1 = 1 ∧ (State.reset.setHf .FAC_STAT 0 7 1 1).facUp = true ∧
    ({ State.reset with fac := { State.reset.fac with coolTick := some 0 }, sundial := 2 ^ 40 }.setHf .FAC_CFG 0 8 1 0).hf .FAC_CFG 0 8 1 = 0 ∧
    ({ State.reset with fac := { State.reset.fac with coolTick := some 0 }, sundial := 2 ^ 40 }.setHf .FAC_CFG 0 8 1 1).hf .FAC_CFG 0 8 1 = 1 ∧
    State.reset.powerState < 3 ∧ State.reset.hf .PWR_STATE 0 6 2 = 0 ∧ State.reset.step.job = false ∧ State.reset.hrv = 0 ∧ State.reset.alerting = false ∧
    0 + 250000000 * { State.reset with sundial := 2 ^ 40 }.hf .FAC_CFG 0 0 8 ≤ 2 ^ 40 ∧
    { State.reset with fac := { State.reset.fac with armed := some 0 } }.fac.armed = some 0 ∧
    State.reset.rst.refLost = false ∧ State.reset.pwr.coolForce = false ∧ (State.reset.setHf .FAC_STAT 0 5 1 1).alerting = true := by decide +kernel

namespace WSec
/-- Reset in a lifecycle state, with a command waiting. -/
def at_ (fuse op : Nat) (b : List Byte) : State := { WMail.sent op b with sec := { Security.init with fuse := fuse, nonce := some (toLe 16 5, 3) } }
/-- A DEBUG_UNLOCK body: a level, and a token of a kind that carries the nonce. -/
def body (level kind : Nat) : List Byte := toLe 1 level ++ toLe 8 kind ++ toLe 64 0 ++ toLe 16 5 ++ toLe 132 0
def ready (fuse op : Nat) (b : List Byte) : Bool := (at_ fuse op b).mailboxUp && decide ((at_ fuse op b).mb.cmds.head? = some (WMail.cmd op b)) &&
  decide ((at_ fuse op b).mb.slots.length = 8) && !(at_ fuse op b).resourceBusy op && decide ((at_ fuse op b).lcs = fuse)
def level (s : State) (l : Nat) : State := s.setHf .DBG_STAT 0 0 2 l
def late (s : State) : State := { s with sundial := 15000000003 }
def granted : State := { State.reset with rst := { State.reset.rst with grant := some (4, 0), reach := none } }
end WSec
theorem witness_NoncesAreFreshAndSpent : WSec.ready 1 0xD080 [] = true ∧ ([1, 2, 3, 5].all fun l => WSec.ready 1 0xD081 (WSec.body l l)) = true ∧
    ([1, 2, 3, 5].all fun l => (WMail.cmd 0xD081 (WSec.body l l)).field 0 1 == l) = true ∧ (WSec.at_ 1 0xD081 (WSec.body 1 1)).level = 0 ∧ (WSec.body 1 1).length = 221 ∧
    leNat (((WSec.body 1 1).drop 1).take 2) = 1 ∧ leNat (((WSec.body 1 1).drop 3).take 6) = 0 ∧ ((WSec.body 1 1).drop 73).take 16 = toLe 16 5 ∧
    (WSec.late (WSec.at_ 1 0xD081 (WSec.body 1 1))).sec.nonce = some (toLe 16 5, 3) ∧ 3 + 15000000000 ≤ (WSec.late State.reset).sundial ∧
    State.reset.sundial < 3 + 15000000000 ∧ WSec.granted.rst.grant = some (4, 0) ∧ WSec.granted.rst.refLost = false ∧ WSec.granted.rst.reach = none := by decide +kernel

theorem witness_DebugSessionsOpenAndEnd : ([0, 1, 2, 9].all fun l => WSec.ready 2 0xD081 (WSec.body l l) || WSec.ready 3 0xD081 (WSec.body l l)) = true ∧
    WSec.ready 1 0xD081 (WSec.body 1 2) = true ∧ (WSec.at_ 1 0xD081 (WSec.body 1 2)).tokenBad 1 ((WSec.body 1 2).drop 1) = some St.INVALID_PAYLOAD ∧
    (WSec.at_ 3 0xD081 (WSec.body 2 2)).level = 0 ∧ (WSec.level (WSec.at_ 3 0xD081 (WSec.body 2 2)) 1).level = 1 ∧
    (WSec.level (WSec.at_ 3 0xD081 (WSec.body 2 2)) 1).hf .DBG_STAT 0 2 1 = 0 ∧ (WSec.level (WSec.at_ 3 0xD081 (WSec.body 2 2)) 1).lcs = 3 ∧
    (WSec.level (WSec.at_ 3 0xD081 (WSec.body 2 2)) 1).mailboxUp = true ∧ WSec.ready 1 0xD081 [1#8] = true ∧ (WMail.cmd 0xD081 [1#8]).field 0 1 = 1 ∧
    WSec.ready 1 0xD083 [] = true ∧ State.reset.mailboxUp = true ∧ State.reset.level = 0 ∧ State.reset.lcs ≠ 1 ∧ (WSec.level State.reset 2).level = 2 := by decide +kernel

namespace WFw
def body : List Byte := toLe 8 0 ++ toLe 4 64
def staged : State := { WMail.sent 0xD071 [] with sec := { Security.init with staged := some [1#8] } }
def key : State := (List.range 33).foldl (fun (t : State) i => t.setH .SEC_SKEY i (i + 1)) State.reset
def recovery : State := ({ WMail.sent 0xD070 body with rst := { State.reset.rst with ready := false } }.setHf .SEC_STAT 0 10 1 1).setHf .RST_STAT 0 2 4 3
end WFw
theorem witness_LifecycleAndFirmware : (WSec.ready 1 0xD081 (WSec.body 3 3) && WSec.ready 1 0xD081 (WSec.body 5 5) && WSec.ready 1 0xD081 (WSec.body 4 4)) = true ∧
    (WSec.at_ 1 0xD081 (WSec.body 4 4)).lcs ∉ [2] ∧ WSec.ready 1 0xD081 [3#8] = true ∧
    (WSec.at_ 1 0xD081 (WSec.body 3 4)).tokenBad 3 ((WSec.body 3 4).drop 1) = some St.INVALID_PAYLOAD ∧ (WSec.at_ 1 0xD081 (WSec.body 3 3)).frozen (hubKey .SEC_LCDBG 0) = false ∧
    WFw.key.lcs = 0 ∧ leNat WFw.key.stagedKey ≠ 0 ∧ WFw.key.step.job = false ∧ WTick.at_ 0xD070 WFw.body = true ∧ (WMail.cmd 0xD070 WFw.body).field 8 4 = 64 ∧
    (WMail.sent 0xD070 WFw.body).recovering = false ∧ (WMail.sent 0xD070 WFw.body).imageBad (List.replicate 64 0#8) = some St.SIGNATURE_INVALID ∧
    WTick.ready WFw.staged 0xD071 [] = true ∧ WFw.staged.sec.staged = some [1#8] ∧ WTick.at_ 0xD071 [] = true ∧ WReport.st 0xC005 WFw.body = true ∧
    WFw.body.length = 12 ∧ WTick.ready WFw.recovery 0xD070 WFw.body = true ∧ WFw.recovery.recovering = true ∧
    WFw.recovery.imageBad [] = some St.SIGNATURE_INVALID := by decide +kernel

namespace WKey
/-- A key whose private scalar is 1, so that anyone can sign. -/
def keyNumber : Nat := 3301411923148224049740905775400221525852272153131155755346064628196269839686896095278165447418537990293341909393557197926510193250479088941795142978691278611434146973866718768445109064770950273603299985490814739756224975188798001110572219230475953320010804749702946030782263076741383476753604922615027126410290773350
def key : List Byte := toLe 132 keyNumber
def ident : List Byte := toLe 64 7138022911417985701068665126884621372310774524545588213430929030924841179362208854380775358670596148165097772809277599730579662846920010563489552574219639
def token : List Byte := toLe 8 3 ++ ident ++ toLe 16 5 ++ toLe 132 2344456776301466968481616192069346155450312897791850284784061653954933673477376761425960272377714967058742062966030847820188592412595166231078207262489815205939854166546808151507716704199943123386414463529767261283988718180761511146238144828543113903563273664312247023930898942318291297291910416692371436018417909094
def state : State := { State.reset with sec := { Security.init with fuse := 1, skey := key, nonce := some (toLe 16 5, 3) } }
/-- An image: a header of version 1 and an empty body. -/
def fwHead : List Byte := toLe 80 1120153533398387817577131513408514701235378412278364415716778588520738391227067780493925237161292573810472648788296474287014456884819707696533850500348995096431336263623940439269204116303720774
def fwImg : List Byte := fwHead ++ toLe 132 2350590209602636185872381587680568223546482485911029443864078478668192561769866189146648839069637056158486932095249576572100328923749588732787820261685501033456596178247618168275526153371231132805971083495591245766789548444582781271730454178123424395707972073336007112721495883020652961473235081411388122016344554854 ++ List.replicate (4096 - 212) 0#8
end WKey
theorem sigGood : p521Verify WKey.key ((WKey.token.drop 88).take 132) (sha512 (WKey.token.take 88)) = true := by decide +kernel
theorem identIs : sha512 (toLe 66 1 ++ toLe 66 2) = WKey.ident := by decide +kernel
theorem witness_GoodToken (h0 : Config.idKey 0 = 1) (h1 : Config.idKey 1 = 2) : WKey.state.tokenBad 3 WKey.token = none := by
  have hi : WKey.state.identity = WKey.ident := by rw [← identIs, State.identity, h0, h1]
  have e1 : leNat (WKey.token.take 2) = 3 ∧ leNat ((WKey.token.drop 2).take 6) = 0 := by decide +kernel
  have e2 : (WKey.token.drop 72).take 16 = toLe 16 5 ∧ (WKey.token.drop 8).take 64 = WKey.ident := by decide +kernel
  have e3 : ¬ (3 + nonceTicks ≤ WKey.state.sundial) := by decide +kernel
  unfold State.tokenBad
  rw [if_neg (by rw [e1.1, e1.2]; simp), hi]
  have hn : WKey.state.sec.nonce = some (toLe 16 5, 3) := rfl
  have hk : WKey.state.sec.skey = WKey.key := rfl
  simp only [hn, hk]
  rw [if_neg (by rw [e2.1]; simp [e3]), if_neg (by rw [e2.2, sigGood]; simp)]
theorem fwSigGood : p521Verify WKey.key ((WKey.fwImg.drop 0x50).take 132) (sha512 (WKey.fwImg.take 0x50)) = true := by decide +kernel
theorem witness_GoodImage (h : Config.fwKey = WKey.keyNumber) : State.reset.imageBad WKey.fwImg = none := by
  have e1 : leNat (WKey.fwImg.take 4) = 0x53573146 ∧ leNat ((WKey.fwImg.drop 4).take 4) = 4096 ∧ leNat ((WKey.fwImg.drop 8).take 1) = 1 ∧ WKey.fwImg.length = 4096 := by decide +kernel
  have e2 : sha512 ((WKey.fwImg.take 4096).drop 4096) = (WKey.fwImg.drop 0x10).take 64 := by decide +kernel
  have e3 : ¬ (1 < State.reset.sec.svn) := by decide +kernel
  unfold State.imageBad
  simp only [e1.1, e1.2.1, e1.2.2.1, e1.2.2.2, h]
  rw [if_neg (by decide), if_neg (by rw [e2]; simpa [WKey.key] using fwSigGood), if_neg (by simp [e3])]

namespace WSpdm
def at_ (n fuse : Nat) (l : List Session) : State := { State.reset with sec := { Security.init with negotiated := n, fuse := fuse, sessions := l } }
end WSpdm
theorem witness_SpdmAnswers : (WSpdm.at_ 0 1 []).mailboxUp = true ∧ (WSpdm.at_ 0 1 []).sec.negotiated = 0 ∧ (WSpdm.at_ 3 1 []).sec.negotiated = 3 ∧ (WSpdm.at_ 3 1 []).lcs ≠ 3 ∧
    (WSpdm.at_ 3 3 []).lcs = 3 ∧ bit 256 8 = true ∧ bit 4 2 = true ∧ (WSpdm.at_ 3 1 []).sec.sessions.length < 2 ∧
    2 ≤ (WSpdm.at_ 3 1 [⟨1, true, 0⟩, ⟨2, false, 0⟩]).sec.sessions.length ∧
    (WSpdm.at_ 3 1 [⟨1, true, 0⟩, ⟨2, false, 0⟩]).sec.sessions.find? (fun x => x.id == 2) = some ⟨2, false, 0⟩ ∧
    (WSpdm.at_ 3 1 [⟨1, true, 0⟩, ⟨2, false, 0⟩]).sec.sessions.find? (fun x => x.id == 1) = some ⟨1, true, 0⟩ := by decide +kernel

namespace WDbg
/-- A DEBUG_OP body: OP, SPACE, scope, index, ADDR, BUF, LEN, CDPA. -/
def body (op space scope idx addr buf len : Nat) : List Byte :=
  toLe 1 op ++ toLe 1 space ++ toLe 2 scope ++ toLe 4 idx ++ toLe 8 addr ++ toLe 8 buf ++ toLe 8 len ++ toLe 8 128
def s (op space scope idx addr buf len : Nat) : State :=
  (WMail.sent 0xD082 (body op space scope idx addr buf len)).setHf .DBG_STAT 0 0 4 2
def cmd (op space scope idx addr buf len : Nat) : Cmd := WMail.cmd 0xD082 (body op space scope idx addr buf len)
def ready (op space scope idx addr buf len : Nat) : Bool :=
  WTick.ready (s op space scope idx addr buf len) 0xD082 (body op space scope idx addr buf len) && !(s op space scope idx addr buf len).dbgDenied 2 true
def halted (op addr buf len : Nat) : State := (s op 1 0 5 addr buf len).modCore 5 Core.debugHalt
end WDbg
theorem witness_DebugOpsAct : (WDbg.ready 0x01 0 0 0 0 4096 0 && WDbg.ready 0x10 0 0 5 0 0 0 && WDbg.ready 0x11 0 3 0 0 0 0 && WDbg.ready 0x12 0 0 0 8192 4096 8 &&
      WDbg.ready 0x13 0 0 0 8192 4096 8 && WDbg.ready 0x13 2 0 0 8192 4096 8 && WDbg.ready 0x12 2 0 0 8192 4096 8 && WDbg.ready 0x14 0 0 5 0 0 0) = true ∧
    placeOf (128 / 64 * 64) = .hbm 128 ∧ (WDbg.cmd 0x12 0 0 0 8192 4096 8).dbgCdpa = 128 ∧ (WDbg.cmd 0x12 0 0 0 8192 4096 8).dbgAddr = 8192 ∧
    (WDbg.cmd 0x10 0 0 5 0 0 0).dbgIdx = 5 ∧ (WDbg.cmd 0x10 0 1 5 0 0 0).dbgScope = 1 ∧
    (WDbg.cmd 0x13 0 0 0 8192 4096 8).dbgBuf = 4096 ∧ (WDbg.cmd 0x13 0 0 0 8192 4096 8).dbgLen = 8 ∧ memRange 8192 8 = true ∧ memRange 4096 8 = true ∧ inRegs 8192 8 = false ∧
    scopeOk 0 5 = true ∧ scopeOk 4 5 = false ∧ targetOk 0 5 = true ∧ (WDbg.s 0x11 0 3 0 0 0 0).otherHalt 3 0 = false ∧
    State.memRefuse (WDbg.cmd 0x12 0 0 0 8192 4096 8) (WDbg.s 0x12 0 0 0 8192 4096 8) = none ∧ State.memRefuse (WDbg.cmd 0x12 1 0 5 64 4096 8) (WDbg.halted 0x12 64 4096 8) = none ∧
    WTick.ready (WDbg.halted 0x12 64 4096 8) 0xD082 (WDbg.body 0x12 1 0 5 64 4096 8) = true ∧
    ((WDbg.halted 0x12 64 4096 8).core 5).debugHalted = true ∧ ((WDbg.s 0x13 1 0 5 64 4096 8).core 5).debugHalted = false ∧ privOk 64 8 = true ∧
    (WDbg.s 0x14 0 0 5 0 0 0).rst.refLost = false ∧ (WDbg.s 0x14 0 0 5 0 0 0).diesOff = false ∧ (WDbg.s 0x14 0 0 5 0 0 0).rst.reach = none ∧
    (WMail.sent 0xD082 (WDbg.body 0x10 0 0 5 0 0 0)).level < 1 ∧ 0x55 ∉ dbgOps ∧ WDbg.ready 0x55 0 0 0 0 0 0 = true := by decide +kernel

namespace WHdm
def s (mode : Nat) (away : Nat) : State := { State.reset with host := { State.reset.host with mode := mode, hdm := true } }.setHf .PWR_STATE 0 0 3 away
end WHdm
theorem witness_HostMemoryAccess : (WHdm.s 0 0).linkReady = true ∧ (WHdm.s 0 0).cxlMode = true ∧ (WHdm.s 3 0).cxlMode = false ∧ (WHdm.s 0 0).host.hdm = true ∧
    (WHdm.s 0 0).hbmAway = false ∧ (WHdm.s 0 3).hbmAway = true ∧ (WHdm.s 3 3).linkReady = true ∧ (WHdm.s 0 0).hrv ≠ 2 ∧ State.reset.host.hdm = false ∧
    2 ^ 36 * rf (WHdm.s 3 0).mbx .MBX_HWIN 0 0 3 + 64 = 64 ∧ 64 / 32 ≤ 2 ∧ 2 ≤ (64 + 8 - 1) / 32 := by decide +kernel

namespace WRst
def granted (r i : Nat) : State := { State.reset with rst := { Sampler.init with grant := some (r, i) } }
def late : State := { State.reset with sundial := 2 ^ 40 }
def lost : State := { State.reset with rst := { Sampler.init with refLost := true } }
def off : State := { State.reset with rst := { Sampler.init with asserted := [0] } }
def gkey : State := { (List.range 33).foldl (fun (t : State) i => t.setH .SEC_GKEY i (WKey.keyNumber / 2 ^ (32 * i) % 2 ^ 32)) State.reset with sundial := 9 }
def frame : Frame := ⟨1, 0, 0, 0, 0, 0, .reset []⟩
end WRst
theorem witness_ResetsClearTheirReach : State.reset.rst.refLost = false ∧ State.reset.rst.reach = none ∧ State.reset.rst.releasing = false ∧ State.reset.pwr.commits = [] ∧
    (WRst.granted 4 0).rst.grant = some (4, 0) ∧ (WRst.granted 0 7).rst.grant = some (0, 7) ∧ (WRst.granted 0 7).diesOff = false ∧ (WSec.level State.reset 2).level = 2 ∧
    WRst.late.rst.kick + 250000 * WRst.late.hf .RST_WDOG 0 0 16 ≤ WRst.late.sundial ∧ State.reset.sundial < State.reset.rst.kick + 250000 * State.reset.hf .RST_WDOG 0 0 16 ∧
    State.reset.rst.ready = true ∧ State.reset.rst.asserted.contains 0 = false ∧ WRst.off.rst.asserted.contains 0 = true ∧ WRst.lost.rst.refLost = true ∧
    State.reset.level ≠ 2 ∧ State.reset.coll.perm = none ∧ State.reset.frozen (hubKey .PWR_RAILEV 0) = false ∧ State.reset.rst.grant = none ∧ WLink.up.portUp 0 = true ∧
    0 % 2 ^ 16 = (WLink.up.port 0).rx ∧ WLink.up.links.ports.length = 4 ∧ WLink.up.delivers WRst.frame = true ∧ WLink.up.resetOk [] = false ∧
    WLink.up.rst.reach = none := by decide +kernel
/-- A frame payload for the module of serial number 1, signed with the key whose scalar is 1. -/
def WRst.payload : List Byte := toLe 156 14748711358614362776976328041787917557318784623828876116424634842191258975401936126828055580571123971592931800380080200223156255195119633716521220643803098432171644198872666022534699386315902340014050934026992745964770474860768056183227961650883715730788704222109458341858040168935721949860672808085331018953203193861959870816789723956556445542063897823578976362535741030401
theorem resetSigGood : p521Verify WRst.gkey.gkey (WRst.payload.drop 24) (sha512 (WRst.payload.take 24)) = true := by decide +kernel
theorem witness_GoodResetFrame (h : Config.serial = 1) : WRst.gkey.resetOk WRst.payload = true := by
  have e : WRst.payload.length = 156 ∧ leNat (WRst.payload.take 8) = 1 ∧ leNat ((WRst.payload.drop 8).take 1) = 4 ∧ leNat ((WRst.payload.drop 16).take 8) = 5 ∧
      WRst.gkey.h .RST_GRTICKLO + 2 ^ 32 * WRst.gkey.h .RST_GRTICKHI = 0 ∧ WRst.gkey.sundial = 9 := by decide +kernel
  have hs : WRst.gkey.serial = 1 := by simp [State.serial, h]
  unfold State.resetOk
  simp only [e.1, e.2.1, e.2.2.1, e.2.2.2.1, e.2.2.2.2.1, e.2.2.2.2.2, hs, resetSigGood]
  decide

namespace WRel2
def s (r : Nat) (rel : Bool) (step wave : Nat) : State :=
  { State.reset with rst := { Sampler.init with reach := some r, accepted := [3, 5], releasing := rel }, pwr := { Power.init with wave := wave } }.setHf .RST_STAT 0 2 4 step
end WRel2
theorem witness_ReleaseRunsInOrder : (WRel2.s 4 true 7 20).rst.reach = some 4 ∧ (WRel2.s 4 true 7 20).rst.asserted = [] ∧ (WRel2.s 4 true 7 20).rst.refLost = false ∧
    (WRel2.s 4 true 7 20).rst.accepted = [3, 5] ∧ (WRel2.s 4 true 7 20).hf .RST_STAT 0 2 4 = 7 ∧ (WRel2.s 4 true 7 20).pwr.wave = 20 ∧ (WRel2.s 2 false 0 20).diesOff = false ∧
    (WRel2.s 3 false 0 20).rst.releasing = false ∧ (WRel2.s 3 true 0 4).pwr.wave < 20 ∧ ((List.range 8).all fun k => (WRel2.s 5 true k 20).hf .RST_STAT 0 2 4 == k) = true ∧
    ((WRel2.s 5 true 2 20).flashGood .erased = false ∧ { (WRel2.s 5 true 2 20) with sec := { Security.init with flash := .image [] } }.flashGood (.image []) = false) ∧
    (WRel2.s 5 true 3 20).rst.ready = true ∧ 6 ∉ (WRel2.s 5 true 4 20).rst.accepted ∧ 6 ∈ [3, 6] ∧ (WRst.off.rst.asserted ≠ []) := by decide +kernel

namespace WGauge
def hourly : State := { (State.reset.setHf .RGA_CFG 0 0 1 1) with sundial := 900000000000 }
def writing : State := { State.reset with gauge := { State.reset.gauge with writing := some (3, [7#8]), queued := none } }
def waiting : State := { State.reset with gauge := { State.reset.gauge with writing := some (3, [7#8]), queued := some (4, [8#8]) } }
end WGauge
theorem witness_RainGaugeRecords : chanTimed 17 = true ∧ State.reset.rst.ready = true ∧ (fp32.decode 0x42280000 = .fin false 11010048 (-18)) ∧ (∀ neg m e, fp32.decode 0x7FC00000 ≠ .fin neg m e) ∧
    chanTimed 63 = false ∧ chanMin 17 = false ∧ Sparse.get (fun _ => (none : Option Extreme)) State.reset.gauge.win.ext 17 = none ∧
    WGauge.hourly.rst.ready = true ∧ WGauge.hourly.hf .RGA_CFG 0 0 1 = 1 ∧ WGauge.hourly.gauge.due ≤ WGauge.hourly.sundial ∧
    (WGauge.hourly.gauge.writing = none ∧ WGauge.hourly.gauge.queued = none) ∧ WGauge.writing.gauge.writing = some (3, [7#8]) ∧
    WGauge.waiting.gauge.queued = some (4, [8#8]) ∧ WSec.ready 1 0xD062 [] = true ∧ WSec.ready 2 0xD062 [6#8] = true ∧ WSec.ready 1 0xD062 [6#8] = true ∧
    (WSec.at_ 1 0xD062 [5#8]).tokenBad 6 [5#8] = some St.INVALID_PAYLOAD ∧ State.reset.gauge.clearLog.length < 1024 := by
  refine ⟨by decide +kernel, by decide +kernel, by decide +kernel, fun _ _ _ h => ?_, by decide +kernel⟩
  have : fp32.decode 0x7FC00000 = .nan false := by decide +kernel
  rw [this] at h; cases h

theorem witness_FabricFrames : (∀ p ∈ touches (.vadd 3 0), p ∈ fabricParts) ∧ (∀ p ∈ touches (.vsts 3 0 []), p ∈ fabricParts) ∧
    exec (.vnop 3 0) State.reset = .next (State.reset.vword 3 0 0) := ⟨by decide, by decide, rfl⟩

theorem witness_HubFrames : ¬ (∀ p ∈ touches (.slotAck 3), p ∈ fabricParts) ∧ (∃ t, exec (.slotAck 3) State.reset = .next t) := ⟨by decide, _, rfl⟩

theorem witness_ResetMeetsTheInvariant : State.reset.shaped = true := by decide

theorem witness_EveryCommandCompletes : ∃ t, exec (.slotAck 3) State.reset = .next t := ⟨_, rfl⟩

theorem witness_StepKeepsInv : State.reset.Inv ∧ ∃ t, step State.reset = .next t := ⟨⟨by decide +kernel, by decide +kernel, by decide +kernel⟩, _, rfl⟩

end Sys2Proof.Tests
end

section
/-! What every command leaves unchanged (O57), and that every command answers a state (O59): one lemma per operation of the
model, that a part outside the parts it may change is the same after it. -/

namespace Sys2Proof.Machine

/-- Command or operation answer `o` is a next state that agrees with `s` on part `p`. -/
def Part.kept (p : Part) (s : State) (o : Out) : Prop := ∃ t, o = .next t ∧ p.same s t

/-- The state `o` holds, if any, agrees with `s` on part `p`. -/
def Part.sameOf (p : Part) (s : State) (o : Option State) : Prop := ∀ u, o = some u → p.same s u

/-- `p` is none of the parts listed. -/
def Part.outside (p : Part) (ps : List Part) : Prop := p ∉ ps

/-- What raising an event may change (R339, R367, R428). -/
def eventParts : List Part := [.hub, .gauge, .logs, .logLost, .msix]

/-- What a store of Shed or host may change (R163, R364). -/
def storeParts : List Part := [.mem, .flaws, .hub, .cores, .clusters, .harvest, .gauge, .mb, .logs, .logLost, .msix]

/-- What a register write may change. -/
def registerParts : List Part :=
  [.mem, .flaws, .hub, .mbx, .cores, .clusters, .net, .frontTab, .frontHeld, .step, .sieve, .factors, .grafters, .coll, .links, .harvest, .gauge, .mb,
    .sec, .rst, .pwr, .logs, .logLost, .msix]

/-- `q` where the condition `c` holds and `r` elsewhere; `simp` works on `q` and `r` alone. -/
def Choice (c q r : Prop) : Prop := (c → q) ∧ (¬ c → r)

@[congr] theorem Choice.congr {c q r q' r' : Prop} (hq : q = q') (hr : r = r') : Choice c q r = Choice c q' r' := by rw [hq, hr]

@[simp] theorem Choice.self {c q : Prop} : Choice c q q ↔ q := by unfold Choice; by_cases c <;> simp_all

/-- Two values of field `q` agree if `q` is the part spoken of. -/
def Part.agree {α : Type} (p q : Part) (a b : α) : Prop := p = q → a = b

@[simp ↓ 1100] theorem Part.agree_self {α : Type} {p q : Part} {a : α} : p.agree q a a ↔ True := by simp [Part.agree]

@[simp ↓] theorem Part.agree_of_ne {α : Type} {p q : Part} {a b : α} (h : p ≠ q) : p.agree q a b ↔ True := by simp [Part.agree, h]

section
variable {p : Part} {s t : State}

theorem Part.same_refl (p : Part) (s : State) : p.same s s := by cases p <;> rfl
theorem Part.same_congr {u : State} (h : p.same t u) : p.same s u ↔ p.same s t := by
  cases p <;> simp_all [Part.same]
@[simp ↓] theorem Part.same_self_iff (p : Part) (s : State) : p.same s s ↔ True := by simp [Part.same_refl]
@[simp ↓] theorem Part.same_ite {u : State} {c : Prop} [Decidable c] :
    p.same s (if c then t else u) ↔ Choice c (p.same s t) (p.same s u) := by unfold Choice; split <;> simp_all
@[simp ↓] theorem Part.same_foldl {α : Type} {l : List α} {f : State → α → State} (h : ∀ u x, p.same u (f u x)) :
    p.same s (l.foldl f t) ↔ p.same s t := by
  induction l generalizing t with
  | nil => rfl
  | cons x l ih => rw [List.foldl_cons, ih, Part.same_congr (h t x)]
theorem Part.foldl_same {α : Type} {l : List α} {f : State → α → State} (h : ∀ u x, p.same u (f u x)) : p.same t (l.foldl f t) :=
  (Part.same_foldl h).2 (Part.same_refl p t)
@[simp ↓] theorem Part.same_ite_snd {β : Type} {a b : β × State} {c : Prop} [Decidable c] :
    p.same s (if c then a else b).2 ↔ Choice c (p.same s a.2) (p.same s b.2) := by unfold Choice; split <;> simp_all
theorem Part.same_pair {β : Type} {x : β} : p.same s (x, t).2 ↔ p.same s t := Iff.rfl
@[simp ↓] theorem Part.same_foldl_snd {α β : Type} {l : List α} {f : β × State → α → β × State} {x : β} (h : ∀ u a, p.same u.2 (f u a).2) :
    p.same s (l.foldl f (x, t)).2 ↔ p.same s t := by
  suffices hs : ∀ y : β × State, p.same s (l.foldl f y).2 ↔ p.same s y.2 from hs (x, t)
  induction l with
  | nil => exact fun _ => Iff.rfl
  | cons a l ih => intro y; rw [List.foldl_cons, ih, Part.same_congr (h y a)]
@[simp ↓] theorem Part.same_foldl_fst {α β : Type} {l : List α} {f : State × β → α → State × β} {x : β} (h : ∀ u a, p.same u.1 (f u a).1) :
    p.same s (l.foldl f (t, x)).1 ↔ p.same s t := by
  suffices hs : ∀ y : State × β, p.same s (l.foldl f y).1 ↔ p.same s y.1 from hs (t, x)
  induction l with
  | nil => exact fun _ => Iff.rfl
  | cons a l ih => intro y; rw [List.foldl_cons, ih, Part.same_congr (h y a)]
@[simp ↓] theorem Part.sameOf_none : p.sameOf s none ↔ True := by simp [Part.sameOf]
@[simp ↓] theorem Part.sameOf_some : p.sameOf s (some t) ↔ p.same s t := by simp [Part.sameOf]
@[simp ↓] theorem Part.sameOf_ite {o o' : Option State} {c : Prop} [Decidable c] :
    p.sameOf s (if c then o else o') ↔ Choice c (p.sameOf s o) (p.sameOf s o') := by unfold Choice; split <;> simp_all
@[simp ↓] theorem Part.sameOf_map {α : Type} {o : Option α} {f : α → State} (h : ∀ a, p.same s (f a)) :
    p.sameOf s (o.map f) ↔ True := by cases o <;> simp_all [Part.sameOf]
theorem Part.same_getD {o : Option State} (h : p.sameOf t o) : p.same s (o.getD t) ↔ p.same s t := by
  cases o with
  | none => rfl
  | some u => exact Part.same_congr (h u rfl)
@[simp ↓] theorem Part.kept_next : p.kept s (.next t) ↔ p.same s t := by simp [Part.kept]
@[simp ↓] theorem Part.kept_ite {o o' : Out} {c : Prop} [Decidable c] :
    p.kept s (if c then o else o') ↔ Choice c (p.kept s o) (p.kept s o') := by unfold Choice; split <;> simp_all
@[simp] theorem Part.outside_nil : p.outside [] ↔ True := by simp [Part.outside]
@[simp] theorem Part.outside_cons {q : Part} {ps : List Part} : p.outside (q :: ps) ↔ p ≠ q ∧ p.outside ps := by simp [Part.outside]
@[simp] theorem Part.outside_eventParts : p.outside eventParts ↔
    p ≠ .hub ∧ p ≠ .gauge ∧ p ≠ .logs ∧ p ≠ .logLost ∧ p ≠ .msix := by
  simp [Part.outside, eventParts]
@[simp] theorem Part.outside_storeParts : p.outside storeParts ↔
    p ≠ .mem ∧ p ≠ .flaws ∧ p ≠ .hub ∧ p ≠ .cores ∧ p ≠ .clusters ∧ p ≠ .harvest ∧ p ≠ .gauge ∧ p ≠ .mb ∧ p ≠ .logs ∧ p ≠ .logLost ∧ p ≠ .msix := by
  simp [Part.outside, storeParts]
@[simp] theorem Part.outside_registerParts : p.outside registerParts ↔
    p ≠ .mem ∧ p ≠ .flaws ∧ p ≠ .hub ∧ p ≠ .mbx ∧ p ≠ .cores ∧ p ≠ .clusters ∧ p ≠ .net ∧ p ≠ .frontTab ∧ p ≠ .frontHeld ∧ p ≠ .step ∧ p ≠
    .sieve ∧ p ≠ .factors ∧ p ≠ .grafters ∧ p ≠ .coll ∧ p ≠ .links ∧ p ≠ .harvest ∧ p ≠ .gauge ∧ p ≠ .mb ∧ p ≠ .sec ∧ p ≠ .rst ∧ p ≠ .pwr ∧ p ≠
    .logs ∧ p ≠ .logLost ∧ p ≠ .msix := by
  simp [Part.outside, registerParts]
@[simp ↓] theorem Part.same_mk {x0 x1 x2 x3 x4 x5 x6 x7 x8 x9 x10 x11 x12 x13 x14 x15 x16 x17 x18 x19 x20 x21 x22 x23 x24 x25 x26 x27 x28 x29 x30 x31 x32
    x33 x34 x35 x36 x37 x38 x39 x40}
    (h0 : p.agree .mem x0 t.mem) (h1 : p.agree .flaws x1 t.flaws) (h2 : p.agree .hub x2 t.hub) (h3 : p.agree .mbx x3 t.mbx) (h4 : p.agree .cores x4 t.cores)
    (h5 : p.agree .clusters x5 t.clusters) (h6 : p.agree .outbox x6 t.outbox) (h7 : p.agree .net x7 t.net) (h8 : p.agree .frontTab x8 t.frontTab)
      (h9 : p.agree .frontQ x9 t.frontQ)
    (h10 : p.agree .streams x10 t.streams) (h11 : p.agree .frontHeld x11 t.frontHeld) (h12 : p.agree .quietG x12 t.quietG)
      (h13 : p.agree .quiescedG x13 t.quiescedG) (h14 : p.agree .quiesce x14 t.quiesce)
    (h15 : p.agree .barrier x15 t.barrier) (h16 : p.agree .rake x16 t.rake) (h17 : p.agree .step x17 t.step) (h18 : p.agree .sieve x18 t.sieve)
      (h19 : p.agree .layers x19 t.layers)
    (h20 : p.agree .layersNext x20 t.layersNext) (h21 : p.agree .factors x21 t.factors) (h22 : p.agree .grafters x22 t.grafters)
      (h23 : p.agree .coll x23 t.coll) (h24 : p.agree .links x24 t.links)
    (h25 : p.agree .harvest x25 t.harvest) (h26 : p.agree .rel x26 t.rel) (h27 : p.agree .gauge x27 t.gauge) (h28 : p.agree .mb x28 t.mb)
      (h29 : p.agree .host x29 t.host)
    (h30 : p.agree .sec x30 t.sec) (h31 : p.agree .rst x31 t.rst) (h32 : p.agree .pwr x32 t.pwr) (h33 : p.agree .fac x33 t.fac)
      (h34 : p.agree .hubFlitCe x34 t.hubFlitCe)
    (h35 : p.agree .sundial x35 t.sundial) (h36 : p.agree .logs x36 t.logs) (h37 : p.agree .logLost x37 t.logLost) (h38 : p.agree .policy x38 t.policy)
      (h39 : p.agree .msix x39 t.msix)
    (h40 : p.agree .fresh x40 t.fresh) :
    p.same s ⟨x0, x1, x2, x3, x4, x5, x6, x7, x8, x9, x10, x11, x12, x13, x14, x15, x16, x17, x18, x19, x20, x21, x22, x23, x24, x25, x26, x27, x28, x29,
      x30, x31, x32, x33, x34, x35, x36, x37, x38, x39, x40,
      t.pending⟩ ↔ p.same s t := by
  cases p <;> simp_all [Part.same, Part.agree]

/-! ### Operations of `Flags` -/

@[simp ↓] theorem same_setH {r : Reg} {i v : Nat} (h : p.outside [.hub]) :
    p.same s (t.setH r i v) ↔ p.same s t := by
  simp_all [State.setH]

@[simp ↓] theorem same_setHf {r : Reg} {i lo w v : Nat} (h : p.outside [.hub]) :
    p.same s (t.setHf r i lo w v) ↔ p.same s t := by
  simp_all [State.setHf]

@[simp ↓] theorem same_satH {r : Reg} {i lo w n : Nat} (h : p.outside [.hub]) :
    p.same s (t.satH r i lo w n) ↔ p.same s t := by
  simp_all [State.satH]

@[simp ↓] theorem same_setCore {gi : Nat} {c : Core} (h : p.outside [.cores]) :
    p.same s (t.setCore gi c) ↔ p.same s t := by
  simp_all [State.setCore]

@[simp ↓] theorem same_modCore {gi : Nat} {f : Core → Core} (h : p.outside [.cores]) :
    p.same s (t.modCore gi f) ↔ p.same s t := by
  simp_all [State.modCore]

@[simp ↓] theorem same_setCluster {ci : Nat} {c : Cluster} (h : p.outside [.clusters]) :
    p.same s (t.setCluster ci c) ↔ p.same s t := by
  simp_all [State.setCluster]

@[simp ↓] theorem same_modCluster {ci : Nat} {f : Cluster → Cluster} (h : p.outside [.clusters]) :
    p.same s (t.modCluster ci f) ↔ p.same s t := by
  simp_all [State.modCluster]

@[simp ↓] theorem same_satC {ci : Nat} {r : Reg} {i lo w n : Nat} (h : p.outside [.clusters]) :
    p.same s (t.satC ci r i lo w n) ↔ p.same s t := by
  simp_all [State.satC]

@[simp ↓] theorem same_setCf {ci : Nat} {r : Reg} {i lo w v : Nat} (h : p.outside [.clusters]) :
    p.same s (t.setCf ci r i lo w v) ↔ p.same s t := by
  simp_all [State.setCf]

@[simp ↓] theorem same_setStepNo {n : Nat} (h : p.outside [.hub]) :
    p.same s (t.setStepNo n) ↔ p.same s t := by
  simp_all [State.setStepNo]

@[simp ↓] theorem same_draw {w : Nat} (h : p.outside [.fresh]) :
    p.same s (t.draw w).2 ↔ p.same s t := by
  simp_all [State.draw]

/-! ### Operations of `Operands` -/

@[simp ↓] theorem same_cancelWb {a n : Nat} (h : p.outside [.cores, .clusters]) :
    p.same s (t.cancelWb a n) ↔ p.same s t := by
  simp only [State.cancelWb]
  split <;> simp_all

@[simp ↓] theorem same_wrPlace {a : Nat} {bs : List Byte} (h : p.outside [.mem, .flaws, .cores, .clusters]) :
    p.same s (t.wrPlace a bs) ↔ p.same s t := by
  simp_all [State.wrPlace]

@[simp ↓] theorem same_wr {a : Nat} {bs : List Byte} (h : p.outside [.mem, .flaws, .cores, .clusters]) :
    p.same s (t.wr a bs) ↔ p.same s t := by
  simp only [State.wr]
  split <;> simp_all

@[simp ↓] theorem same_strikes {us : List Upset} (h : p.outside [.mem, .flaws, .cores]) :
    p.same s (t.strikes us) ↔ p.same s t := by
  simp only [State.strikes]
  refine Part.same_foldl fun u x => ?_
  (repeat' split) <;> simp_all

/-! ### Operations of `Ops` -/

@[simp ↓] theorem same_raiseMsix {v : Nat} (h : p.outside [.msix]) :
    p.same s (t.raiseMsix v) ↔ p.same s t := by
  simp_all [State.raiseMsix]

@[simp ↓] theorem same_logEvent {e : Event} (h : p.outside [.hub, .logs, .logLost, .msix]) :
    p.same s (t.logEvent e) ↔ p.same s t := by
  simp at h
  simp [State.logEvent, h]

@[simp ↓] theorem same_event {status kind idx arg : Nat} (h : p.outside eventParts) :
    p.same s (t.event status kind idx arg) ↔ p.same s t := by
  simp only [State.event]
  split <;> simp_all

@[simp ↓] theorem same_sample {ch x kind idx : Nat} (h : p.outside [.gauge]) :
    p.same s (t.sample ch x kind idx) ↔ p.same s t := by
  simp_all [State.sample]

@[simp ↓] theorem same_sampleN {ch n : Nat} (h : p.outside [.gauge]) :
    p.same s (t.sampleN ch n) ↔ p.same s t := by
  simp_all [State.sampleN]

@[simp ↓] theorem same_sampleUs {ch n : Nat} (h : p.outside [.gauge]) :
    p.same s (t.sampleUs ch n) ↔ p.same s t := by
  simp_all [State.sampleUs]

@[simp ↓] theorem same_closeWindow {cause : Nat} (h : p.outside [.gauge]) :
    p.same s (t.closeWindow cause) ↔ p.same s t := by
  simp_all [State.closeWindow]

@[simp ↓] theorem same_notable {bs : List Byte} (h : p.outside [.gauge]) :
    p.same s (t.notable bs) ↔ p.same s t := by
  simp_all [State.notable]

@[simp ↓] theorem same_inject {src dst : Endpoint} {cls : TClass} {body : Payload} (h : p.outside [.net]) :
    p.same s (t.inject src dst cls body) ↔ p.same s t := by
  simp_all [State.inject]

@[simp ↓] theorem same_offer {gi : Nat} {dst : Endpoint} {cls : TClass} {body : Payload} (h : p.outside [.outbox, .net]) :
    p.same s (t.offer gi dst cls body) ↔ p.same s t := by
  simp_all [State.offer]

/-- The state a taken packet leaves. -/
theorem takePacket_same {n : Nat} {q : Packet} {u : State} (h : p.outside [.net]) (e : t.takePacket n = some (q, u)) :
    p.same s u ↔ p.same s t := by
  unfold State.takePacket at e
  split at e <;> simp_all
  obtain ⟨x, -, rfl, rfl⟩ := e
  simp_all

@[simp ↓] theorem same_notice {src : Endpoint} {status detail extra : Nat} (h : p.outside [.net]) :
    p.same s (t.notice src status detail extra) ↔ p.same s t := by
  simp_all [State.notice]

@[simp ↓] theorem same_irq {ci : Nat} (h : p.outside [.clusters]) :
    p.same s (t.irq ci) ↔ p.same s t := by
  simp_all [State.irq]

@[simp ↓] theorem same_cspEvent {ci e n : Nat} (h : p.outside [.clusters]) :
    p.same s (t.cspEvent ci e n) ↔ p.same s t := by
  simp_all [State.cspEvent]

@[simp ↓] theorem same_allCsp {e n : Nat} (h : p.outside [.clusters]) :
    p.same s (t.allCsp e n) ↔ p.same s t := by
  simp_all [State.allCsp]

@[simp ↓] theorem same_coreFault {gi kind stop : Nat} (h : p.outside [.clusters, .net]) :
    p.same s (t.coreFault gi kind stop) ↔ p.same s t := by
  simp_all [State.coreFault]

@[simp ↓] theorem same_settleStop {gi : Nat} (h : p.outside [.cores, .clusters, .net]) :
    p.same s (t.settleStop gi) ↔ p.same s t := by
  simp_all [State.settleStop]

@[simp ↓] theorem same_stopEngine {gi status : Nat} (h : p.outside [.cores, .clusters, .net]) :
    p.same s (t.stopEngine gi status) ↔ p.same s t := by
  simp_all [State.stopEngine]

@[simp ↓] theorem same_addToken {gi t' n : Nat} (h : p.outside [.cores, .clusters, .net]) :
    p.same s (t.addToken gi t' n) ↔ p.same s t := by
  simp only [State.addToken]
  split <;> simp_all

@[simp ↓] theorem same_traceAt {gi kind idx : Nat} (h : p.outside [.sec]) :
    p.same s (t.traceAt gi kind idx) ↔ p.same s t := by
  simp only [State.traceAt]
  split <;> simp_all

@[simp ↓] theorem same_uncx {x : CX} (h : p.outside [.mem, .flaws, .cores, .clusters, .net]) :
    p.same s (t.uncx x) ↔ p.same s t := by
  simp_all [State.uncx]

@[simp ↓] theorem same_unvctx {x : CX} (h : p.outside [.mem, .flaws, .cores, .clusters, .net]) :
    p.same s (t.unvctx x) ↔ p.same s t := by
  simp_all [State.unvctx]

@[simp ↓] theorem same_runComp {gi : Nat} {ups : List Upset} {r : Run} {f : CX → CX} (h : p.outside [.mem, .flaws, .cores, .clusters, .net]) :
    p.same s (t.runComp gi ups r f) ↔ p.same s t := by
  simp_all [State.runComp]

@[simp ↓] theorem same_lmemUe {gi : Nat} (h : p.outside [.cores, .clusters, .net]) :
    p.same s (t.lmemUe gi) ↔ p.same s t := by
  simp_all [State.lmemUe]

@[simp ↓] theorem same_extRead {gi a n : Nat} (h : p.outside [.cores, .clusters, .net]) :
    p.same s (t.extRead gi a n).2 ↔ p.same s t := by
  simp_all [State.extRead]

@[simp ↓] theorem same_storeRead {ci a n : Nat} (h : p.outside [.clusters, .net]) :
    p.same s (t.storeRead ci a n).2 ↔ p.same s t := by
  simp_all [State.storeRead]

/-! ### Operations of `Shed` -/

@[simp ↓] theorem same_rwErr {addr kind : Nat} {write : Bool} (h : p.outside (.mbx :: eventParts)) :
    p.same s (t.rwErr addr kind write) ↔ p.same s t := by
  simp_all [State.rwErr]

@[simp ↓] theorem same_beginCommit {key old : Nat} (h : p.outside [.pwr]) :
    p.same s (t.beginCommit key old) ↔ p.same s t := by
  simp_all [State.beginCommit]

@[simp ↓] theorem same_rwpH {r : Reg} {i v : Nat} (h : p.outside (.pwr :: eventParts)) :
    p.same s (t.rwpH r i v) ↔ p.same s t := by
  simp_all [State.rwpH]

@[simp ↓] theorem same_rwpHf {r : Reg} {i lo w v : Nat} (h : p.outside (.pwr :: eventParts)) :
    p.same s (t.rwpHf r i lo w v) ↔ p.same s t := by
  simp_all [State.rwpHf]

@[simp ↓] theorem same_rwpC {ci : Nat} {r : Reg} {v : Nat} (h : p.outside (.clusters :: .pwr :: eventParts)) :
    p.same s (t.rwpC ci r v) ↔ p.same s t := by
  simp_all [State.rwpC]

@[simp ↓] theorem same_setSlot {k : Nat} {x : Slot} (h : p.outside [.mb]) :
    p.same s (t.setSlot k x) ↔ p.same s t := by
  simp_all [State.setSlot]

@[simp ↓] theorem same_setTicket {n : Nat} {x : Ticket} (h : p.outside [.mb]) :
    p.same s (t.setTicket n x) ↔ p.same s t := by
  simp_all [State.setTicket]

@[simp ↓] theorem same_answer {k tag status : Nat} {data : List Byte} (h : p.outside [.gauge, .mb, .msix]) :
    p.same s (t.answer k tag status data) ↔ p.same s t := by
  simp_all [State.answer]

@[simp ↓] theorem same_endTicket {n status : Nat} (h : p.outside [.mb, .msix]) :
    p.same s (t.endTicket n status) ↔ p.same s t := by
  simp_all [State.endTicket]

@[simp ↓] theorem same_endOp {opcode status : Nat} (h : p.outside [.mb, .msix]) :
    p.same s (t.endOp opcode status) ↔ p.same s t := by
  simp_all [State.endOp]

@[simp ↓] theorem same_abandon {status : Nat} (h : p.outside (.harvest :: .mb :: eventParts)) :
    p.same s (t.abandon status) ↔ p.same s t := by
  simp only [State.abandon]
  split <;> simp_all

@[simp ↓] theorem same_stageUnit {u : Nat} (h : p.outside storeParts) :
    p.same s (t.stageUnit u) ↔ p.same s t := by
  simp at h
  simp only [State.stageUnit]
  split <;> simp [h]

@[simp ↓] theorem same_stage {a n : Nat} (h : p.outside storeParts) :
    p.same s (t.stage a n) ↔ p.same s t := by
  simp only [State.stage]
  split <;> simp_all

@[simp ↓] theorem same_wrS {a : Nat} {bs : List Byte} (h : p.outside storeParts) :
    p.same s (t.wrS a bs) ↔ p.same s t := by
  simp_all [State.wrS]

@[simp ↓] theorem same_completion {cdpa status tag ticket len : Nat} (h : p.outside storeParts) :
    p.same s (t.completion cdpa status tag ticket len) ↔ p.same s t := by
  simp_all [State.completion]

/-! ### Operations of `Engine` -/

@[simp ↓] theorem same_stopIssue {gi status : Nat} (h : p.outside [.hub, .cores, .clusters, .net]) :
    p.same s (t.stopIssue gi status) ↔ p.same s t := by
  simp_all [State.stopIssue]

@[simp ↓] theorem same_signal {gi d j : Nat} (h : p.outside [.cores, .clusters, .outbox, .net]) :
    p.same s (t.signal gi d j) ↔ p.same s t := by
  simp only [State.signal]
  split <;> simp_all

@[simp ↓] theorem same_complete {gi : Nat} {r : Run} (h : p.outside [.cores, .clusters, .outbox, .net, .sec]) :
    p.same s (t.complete gi r) ↔ p.same s t := by
  simp_all [State.complete]

@[simp ↓] theorem same_completeIdle {gi : Nat} (h : p.outside [.cores, .clusters, .outbox, .net, .sec]) :
    p.same s (t.completeIdle gi) ↔ p.same s t := by
  simp only [State.completeIdle]
  split <;> simp_all

@[simp ↓] theorem same_completeTq {gi : Nat} (h : p.outside [.cores, .clusters, .outbox, .net, .sec]) :
    p.same s (t.completeTq gi) ↔ p.same s t := by
  simp only [State.completeTq]
  split <;> simp_all

@[simp ↓] theorem same_elem {gi eop : Nat} (h : p.outside [.mem, .flaws, .cores, .clusters, .net]) :
    p.same s (t.elem gi eop) ↔ p.same s t := by
  simp only [State.elem]
  split <;> simp_all

@[simp ↓] theorem same_slotHazard {gi slot idx : Nat} (h : p.outside [.cores, .clusters, .net]) :
    p.same s (t.slotHazard gi slot idx) ↔ p.same s t := by
  simp_all [State.slotHazard]

@[simp ↓] theorem same_fill {gi : Nat} {ups : List Upset} {op : Nat} (h : p.outside [.mem, .flaws, .cores, .clusters, .net]) :
    p.same s (t.fill gi ups op) ↔ p.same s t := by
  simp only [State.fill]
  split <;> simp_all

@[simp ↓] theorem same_fillInDone {gi : Nat} (h : p.outside [.cores]) :
    p.same s (t.fillInDone gi) ↔ p.same s t := by
  simp only [State.fillInDone]
  split <;> simp_all

@[simp ↓] theorem same_goOn {gi : Nat} {r : Run} (h : p.outside [.cores]) :
    p.same s (t.goOn gi r) ↔ p.same s t := by
  simp_all [State.goOn]

@[simp ↓] theorem same_arm {gi : Nat} {r : Run} (h : p.outside [.cores, .net]) :
    p.same s (t.arm gi r) ↔ p.same s t := by
  simp_all [State.arm]

/-! ### Operations of `CoreReg` -/

@[simp ↓] theorem same_writeCoreReg {gi off v : Nat} (h : p.outside [.cores, .clusters, .net]) :
    p.same s (t.writeCoreReg gi off v) ↔ p.same s t := by
  simp at h
  simp only [State.writeCoreReg]
  (repeat' split) <;> simp [h]

@[simp ↓] theorem same_readCoreReg {gi off : Nat} (h : p.outside [.cores]) :
    p.same s (t.readCoreReg gi off).2 ↔ p.same s t := by
  simp only [State.readCoreReg]
  (repeat' split) <;> simp_all

/-! ### Operations of `Trellis` -/

@[simp ↓] theorem same_flitAt {f : FlitErr} (h : p.outside [.clusters, .net, .hubFlitCe]) :
    p.same s (t.flitAt f) ↔ p.same s t := by
  simp only [State.flitAt]
  (repeat' split) <;> simp_all

@[simp ↓] theorem same_flits {q : Packet} {fs : List FlitErr} (h : p.outside [.clusters, .net, .hubFlitCe]) :
    p.same s (t.flits q fs).1 ↔ p.same s t := by
  simp_all [State.flits]

@[simp ↓] theorem same_chFault {gi b k : Nat} (h : p.outside [.cores, .net]) :
    p.same s (t.chFault gi b k) ↔ p.same s t := by
  simp_all [State.chFault]

@[simp ↓] theorem same_landMsg {gi k seq stag : Nat} {data : List Byte} (h : p.outside [.mem, .flaws, .cores, .clusters, .net]) :
    p.same s (t.landMsg gi k seq stag data) ↔ p.same s t := by
  simp only [State.landMsg]
  split <;> simp_all

@[simp ↓] theorem sameOf_landToken {gi k tseq inc stag : Nat} (h : p.outside [.cores, .clusters, .net]) (hs : p.same s t) :
    p.sameOf s (t.landToken gi k tseq inc stag) ↔ True := by
  simp_all [State.landToken]

@[simp ↓] theorem same_landCredit {gi k n : Nat} (h : p.outside [.cores]) :
    p.same s (t.landCredit gi k n) ↔ p.same s t := by
  simp_all [State.landCredit]

@[simp ↓] theorem sameOf_deliver1 {gi : Nat} {q : Packet} (h : p.outside [.mem, .flaws, .cores, .clusters, .net]) (hs : p.same s t) :
    p.sameOf s (t.deliver1 gi q) ↔ True := by
  unfold State.deliver1; split <;> simp_all

@[simp ↓] theorem same_drainEject {gi n : Nat} (h : p.outside [.mem, .flaws, .cores, .clusters, .net]) :
    p.same s (t.drainEject gi n) ↔ p.same s t := by
  induction n generalizing t with
  | zero => rfl
  | succ n ih =>
    unfold State.drainEject
    split
    · rfl
    · next q rest _ =>
      have hd : p.sameOf t (t.deliver1 gi q) := by simp_all
      split
      · rfl
      · next u e => simp_all [Part.same_congr (hd u e)]

@[simp ↓] theorem same_arrive1 {gi : Nat} {q : Packet} (h : p.outside [.mem, .flaws, .cores, .clusters, .net]) :
    p.same s (t.arrive1 gi q) ↔ p.same s t := by
  have hd : p.sameOf t (t.deliver1 gi q) := by simp_all
  unfold State.arrive1
  split
  · split
    · next u e => exact Part.same_congr (hd u e)
    · simp_all
  · simp_all

@[simp ↓] theorem kept_arriveAt {u : State} {gi : Nat} {q : Packet} {flits : List FlitErr} (h : p.outside [.mem, .flaws, .cores, .clusters, .net, .hubFlitCe]) :
    p.kept s (u.arriveAt t gi q flits) ↔ p.same s t := by
  simp only [State.arriveAt]
  split
  · simp_all
  · simp only [Part.kept_next]
    split <;> simp_all

/-- The state an urgent packet's delivery leaves. -/
theorem takeUrgent_same {n code : Nat} {flits : List FlitErr} {q : Packet} {a : Option Nat} {u : State} (h : p.outside [.clusters, .net, .hubFlitCe])
    (e : t.takeUrgent n code flits = some (q, a, u)) : p.same s u ↔ p.same s t := by
  unfold State.takeUrgent at e
  split at e
  · cases e
  · next hq =>
    have := takePacket_same (s := s) (p := p) (by simp_all) hq
    split at e
    · split at e
      · simp only [Option.some.injEq, Prod.mk.injEq] at e
        obtain ⟨-, -, rfl⟩ := e
        simp_all
      · cases e
    · cases e

@[simp ↓] theorem same_multicast {u : UrgTarget} {code arg : Nat} {flits : List FlitErr} {f : Core → Core}
    (h : p.outside [.cores, .clusters, .net, .hubFlitCe]) :
    p.same s (t.multicast u code arg flits f) ↔ p.same s t := by
  simp_all [State.multicast]

@[simp ↓] theorem same_frontSend {ci k entry : Nat} (h : p.outside [.net]) :
    p.same s (t.frontSend ci k entry) ↔ p.same s t := by
  simp_all [State.frontSend]

@[simp ↓] theorem same_frontRelease {k : Nat} (h : p.outside [.net, .frontHeld]) :
    p.same s (t.frontRelease k) ↔ p.same s t := by
  simp at h
  simp only [State.frontRelease]
  split <;> simp [h]

@[simp ↓] theorem same_releaseAll {n : Nat} (h : p.outside [.net, .frontHeld]) :
    p.same s (t.releaseAll n) ↔ p.same s t := by
  induction n generalizing t with
  | zero => rfl
  | succ n ih => unfold State.releaseAll; split <;> simp_all

@[simp ↓] theorem same_startQuiesce {id : Nat} (h : p.outside [.clusters, .quietG, .quiescedG, .quiesce]) :
    p.same s (t.startQuiesce id) ↔ p.same s t := by
  simp_all [State.startQuiesce]

@[simp ↓] theorem same_endQuiesce (h : p.outside [.clusters, .outbox, .net, .frontHeld, .quietG, .quiescedG, .quiesce]) :
    p.same s t.endQuiesce ↔ p.same s t := by
  simp_all [State.endQuiesce]

@[simp ↓] theorem same_hush {e : Endpoint} (h : p.outside [.clusters, .quietG]) :
    p.same s (t.hush e) ↔ p.same s t := by
  simp only [State.hush]
  split <;> simp_all

@[simp ↓] theorem same_reported {e : Endpoint} (h : p.outside [.clusters, .quiescedG]) :
    p.same s (t.reported e) ↔ p.same s t := by
  simp only [State.reported]
  split <;> simp_all

/-! ### Operations of `Links` -/

@[simp ↓] theorem same_setPort {q : Nat} {x : Port} (h : p.outside [.links]) :
    p.same s (t.setPort q x) ↔ p.same s t := by
  simp_all [State.setPort]

@[simp ↓] theorem same_setPstate {q v : Nat} (h : p.outside [.hub]) :
    p.same s (t.setPstate q v) ↔ p.same s t := by
  simp_all [State.setPstate]

@[simp ↓] theorem same_transmit {q : Nat} {f : Frame} (h : p.outside [.links]) :
    p.same s (t.transmit q f) ↔ p.same s t := by
  simp_all [State.transmit]

@[simp ↓] theorem same_route {f : Frame} (h : p.outside (.links :: eventParts)) :
    p.same s (t.route f) ↔ p.same s t := by
  simp only [State.route]
  split <;> simp_all

@[simp ↓] theorem same_sendTo {x y tag vc : Nat} {b : FrameBody} (h : p.outside (.links :: eventParts)) :
    p.same s (t.sendTo x y tag vc b) ↔ p.same s t := by
  simp_all [State.sendTo]

@[simp ↓] theorem same_nakFrame {q : Nat} (h : p.outside [.links]) :
    p.same s (t.nakFrame q) ↔ p.same s t := by
  simp_all [State.nakFrame]

@[simp ↓] theorem same_takeFrame {k lseq : Nat} {hello : Bool} {go : State → State} (h : p.outside [.links])
    (hgo : ∀ u, p.same u (go u)) : p.same s (t.takeFrame k lseq hello go) ↔ p.same s t := by
  simp_all [State.takeFrame, Part.same_congr (hgo _)]

@[simp ↓] theorem same_replayFrom {q i : Nat} (h : p.outside [.hub, .links]) :
    p.same s (t.replayFrom q i) ↔ p.same s t := by
  simp_all [State.replayFrom]

@[simp ↓] theorem same_laneSwap {q lane : Nat} (h : p.outside (.links :: .pwr :: eventParts)) :
    p.same s (t.laneSwap q lane) ↔ p.same s t := by
  simp only [State.laneSwap]
  split <;> simp_all

@[simp ↓] theorem same_laneLost {q lane : Nat} (h : p.outside (.links :: eventParts)) :
    p.same s (t.laneLost q lane) ↔ p.same s t := by
  simp at h
  simp [State.laneLost, h]

/-! ### Operations of `Discovery` -/

@[simp ↓] theorem same_updateRoot (h : p.outside [.links]) :
    p.same s t.updateRoot ↔ p.same s t := by
  simp_all [State.updateRoot]

@[simp ↓] theorem same_learnTag {h' : HelloMsg} (h : p.outside [.links]) :
    p.same s (t.learnTag h') ↔ p.same s t := by
  simp_all [State.learnTag]

@[simp ↓] theorem same_setCoord {x y xs ys : Nat} (h : p.outside (.pwr :: eventParts)) :
    p.same s (t.setCoord x y xs ys) ↔ p.same s t := by
  simp only [State.setCoord]
  split <;> simp_all

@[simp ↓] theorem same_spread {but : Option Nat} {d : DiscMsg} (h : p.outside [.links]) :
    p.same s (t.spread but d) ↔ p.same s t := by
  simp_all [State.spread]

@[simp ↓] theorem same_discFail (h : p.outside (.links :: .mb :: eventParts)) :
    p.same s t.discFail ↔ p.same s t := by
  simp_all [State.discFail]

@[simp ↓] theorem same_discDone {t' : List DiscEntry} {xs ys : Nat} (h : p.outside (.links :: .mb :: .pwr :: eventParts)) :
    p.same s (t.discDone t' xs ys) ↔ p.same s t := by
  simp at h
  simp only [State.discDone]
  split <;> simp [h]

@[simp ↓] theorem same_trained {q : Nat} {v1 : Bool} (h : p.outside (.links :: eventParts)) :
    p.same s (t.trained q v1) ↔ p.same s t := by
  simp_all [State.trained]

@[simp ↓] theorem same_trainPorts {offers : List (Option Bool)} (h : p.outside (.links :: eventParts)) :
    p.same s (t.trainPorts offers) ↔ p.same s t := by
  simp only [State.trainPorts]
  refine Part.same_foldl fun u x => ?_
  (repeat' split) <;> simp_all

@[simp ↓] theorem same_discipline {off : Int} (h : p.outside [.hub, .grafters, .links, .gauge, .sundial, .fresh]) :
    p.same s (t.discipline off) ↔ p.same s t := by
  simp at h
  simp only [State.discipline]
  split <;> simp [h]

@[simp ↓] theorem same_setGrafter {k : Nat} {g : Grafter} (h : p.outside [.grafters]) :
    p.same s (t.setGrafter k g) ↔ p.same s t := by
  simp_all [State.setGrafter]

/-! ### Operations of `Owner` -/

@[simp ↓] theorem same_putShards {rs : List (Nat × Nat × RowRun)} (h : p.outside storeParts) :
    p.same s (t.putShards rs) ↔ p.same s t := by
  simp only [State.putShards]
  simp_all

@[simp ↓] theorem same_buildShards {area : Nat} (h : p.outside (.coll :: storeParts)) :
    p.same s (t.buildShards area) ↔ p.same s t := by
  simp_all [State.buildShards]

@[simp ↓] theorem same_putWeight {l e code : Nat} (h : p.outside storeParts) :
    p.same s (t.putWeight l e code) ↔ p.same s t := by
  simp_all [State.putWeight]

@[simp ↓] theorem same_putWeights {l e : Nat} {codes : List Nat} (h : p.outside storeParts) :
    p.same s (t.putWeights l e codes) ↔ p.same s t := by
  simp_all [State.putWeights]

@[simp ↓] theorem same_padXpose {l : Nat} (h : p.outside storeParts) :
    p.same s (t.padXpose l) ↔ p.same s t := by
  simp only [State.padXpose]
  split
  · refine (Part.same_foldl fun u r => ?_).trans (Part.same_foldl fun u r => ?_) <;> simp_all
  · rfl

@[simp ↓] theorem same_putFloats {a : Nat} {xs : List Nat} (h : p.outside storeParts) :
    p.same s (t.putFloats a xs) ↔ p.same s t := by
  simp_all [State.putFloats]

@[simp ↓] theorem same_scramble {a n : Nat} (h : p.outside [.mem, .flaws, .cores, .clusters, .fresh]) :
    p.same s (t.scramble a n) ↔ p.same s t := by
  simp_all [State.scramble]

@[simp ↓] theorem same_forget {q : Nat → Bool} (h : p.outside [.mem, .flaws, .fresh]) :
    p.same s (t.forget q) ↔ p.same s t := by
  simp_all [State.forget]

@[simp ↓] theorem same_forgetHbm (h : p.outside [.mem, .flaws, .fresh]) :
    p.same s t.forgetHbm ↔ p.same s t := by
  simp_all [State.forgetHbm]

/-! ### Operations of `FactorTab` -/

@[simp ↓] theorem same_setFactor {i v : Nat} (h : p.outside [.factors]) :
    p.same s (t.setFactor i v) ↔ p.same s t := by
  simp_all [State.setFactor]

@[simp ↓] theorem same_setFactorField {i lo w v : Nat} (h : p.outside [.factors]) :
    p.same s (t.setFactorField i lo w v) ↔ p.same s t := by
  simp_all [State.setFactorField]

@[simp ↓] theorem same_writeTile {mat exps t' : Nat} {v : List Int} {e : Int} (h : p.outside storeParts) :
    p.same s (t.writeTile mat exps t' v e) ↔ p.same s t := by
  simp_all [State.writeTile]

@[simp ↓] theorem same_writeWq {mat exps : Nat} {m : Mat} {n c : Nat} (h : p.outside storeParts) :
    p.same s (t.writeWq mat exps m n c) ↔ p.same s t := by
  simp_all [State.writeWq]

/-! ### Operations of `Memory` -/

@[simp ↓] theorem same_setTracker {k : Nat} {l : List RowTrack} (h : p.outside [.rel]) :
    p.same s (t.setTracker k l) ↔ p.same s t := by
  simp_all [State.setTracker]

@[simp ↓] theorem same_queueRow {row : Nat} (h : p.outside [.rel]) :
    p.same s (t.queueRow row) ↔ p.same s t := by
  simp_all [State.queueRow]

@[simp ↓] theorem same_hbmCe {unit : Nat} (h : p.outside [.hub, .rel]) :
    p.same s (t.hbmCe unit) ↔ p.same s t := by
  simp at h
  simp only [State.hbmCe]
  split <;> simp [h]

@[simp ↓] theorem same_hbmUe {unit : Nat} (h : p.outside [.hub]) :
    p.same s (t.hbmUe unit) ↔ p.same s t := by
  simp_all [State.hbmUe]

@[simp ↓] theorem same_hbmLoss {unit : Nat} (h : p.outside (.rel :: eventParts)) :
    p.same s (t.hbmLoss unit) ↔ p.same s t := by
  simp_all [State.hbmLoss]

@[simp ↓] theorem same_hbmMeets {e : HbmErr} (h : p.outside [.mem, .hub, .net, .rel]) :
    p.same s (t.hbmMeets e) ↔ p.same s t := by
  simp only [State.hbmMeets]
  split <;> simp_all

@[simp ↓] theorem kept_hbmRun {es : List HbmErr} {go : State → Out} (h : p.outside [.mem, .hub, .net, .rel]) (hgo : ∀ u, p.kept u (go u)) :
    p.kept s (t.hbmRun es go) ↔ p.same s t := by
  simp only [State.hbmRun]
  split
  · obtain ⟨u, e, hu⟩ := hgo t
    rw [e, Part.kept_next, Part.same_congr hu]
  · obtain ⟨u, e, hu⟩ := hgo (es.foldl State.hbmMeets t)
    rw [e]
    simp_all [Part.same_congr hu]

@[simp ↓] theorem same_readHbm {a n : Nat} {es : List HbmErr} (h : p.outside [.mem, .hub, .net, .rel]) :
    p.same s (t.readHbm a n es).2 ↔ p.same s t := by
  simp_all [State.readHbm]

@[simp ↓] theorem same_readPlaceAt {a n : Nat} {es : List HbmErr} (h : p.outside [.mem, .hub, .cores, .clusters, .net, .rel]) :
    p.same s (t.readPlaceAt a n es).2 ↔ p.same s t := by
  simp at h
  simp only [State.readPlaceAt]
  split <;> simp [h]

@[simp ↓] theorem same_readAt {a n : Nat} {es : List HbmErr} (h : p.outside [.mem, .hub, .cores, .clusters, .net, .rel]) :
    p.same s (t.readAt a n es).2 ↔ p.same s t := by
  unfold State.readAt
  split
  · simp_all
  · refine Part.same_foldl_snd fun u g => ?_
    split <;> simp_all

@[simp ↓] theorem same_served {gi op : Nat} (h : p.outside [.cores]) :
    p.same s (t.served gi op) ↔ p.same s t := by
  simp only [State.served]
  split <;> simp_all

/-! ### Operations of `Grafter` -/

@[simp ↓] theorem same_subLo {who : Agent} {k v : Nat} (h : p.outside [.clusters, .grafters]) :
    p.same s (t.subLo who k v) ↔ p.same s t := by
  simp only [State.subLo]
  (repeat' split) <;> simp_all

@[simp ↓] theorem same_submit {who : Agent} {k v : Nat} (h : p.outside [.grafters]) :
    p.same s (t.submit who k v) ↔ p.same s t := by
  simp only [State.submit]
  split <;> simp_all

@[simp ↓] theorem same_grfRecord {j : GJob} {status lrank : Nat} {w : Option (Nat × Mat × Dy)} (h : p.outside storeParts) :
    p.same s (t.grfRecord j status lrank w) ↔ p.same s t := by
  simp only [State.grfRecord]
  split <;> simp_all

@[simp ↓] theorem same_grfOut {d : Nat} {m : Mat} {n c : Nat} (h : p.outside storeParts) :
    p.same s (t.grfOut d m n c) ↔ p.same s t := by
  simp only [State.grfOut]
  split <;> simp_all

@[simp ↓] theorem same_putRoot {j : GJob} {w : Nat × Mat × Dy} (h : p.outside storeParts) :
    p.same s (t.putRoot j w) ↔ p.same s t := by
  simp only [State.putRoot]
  split <;> simp_all

@[simp ↓] theorem same_setJob {k i : Nat} {j : Option GJob} (h : p.outside [.grafters]) :
    p.same s (t.setJob k i j) ↔ p.same s t := by
  simp_all [State.setJob]

@[simp ↓] theorem same_grfCount {k : Nat} {r : Reg} {lo : Nat} (h : p.outside [.grafters]) :
    p.same s (t.grfCount k r lo) ↔ p.same s t := by
  simp_all [State.grfCount]

@[simp ↓] theorem same_vecOut {d : Nat} {cols : List WVec} (h : p.outside storeParts) :
    p.same s (t.vecOut d cols) ↔ p.same s t := by
  simp_all [State.vecOut]

@[simp ↓] theorem same_settleJob {k i : Nat} {j : GJob} (h : p.outside (.grafters :: storeParts)) :
    p.same s (t.settleJob k i j) ↔ p.same s t := by
  simp at h
  simp only [State.settleJob]
  (repeat' split) <;> simp [h]

@[simp ↓] theorem same_stopJob {k i : Nat} {j : GJob} {why : Nat} (h : p.outside (.grafters :: storeParts)) :
    p.same s (t.stopJob k i j why) ↔ p.same s t := by
  simp_all [State.stopJob]

@[simp ↓] theorem same_grfWork {k i d : Nat} (h : p.outside [.mem, .flaws, .cores, .fresh]) :
    p.same s (t.grfWork k i d) ↔ p.same s t := by
  simp_all [State.grfWork]

@[simp ↓] theorem same_limbSat {k i : Nat} (h : p.outside [.cores, .fresh]) :
    p.same s (t.limbSat k i) ↔ p.same s t := by
  simp only [State.limbSat]
  split <;> simp_all

@[simp ↓] theorem same_beginJob {k i : Nat} {b : Begin} {again : GJob → Begin} (h : p.outside (.grafters :: storeParts)) :
    p.same s (t.beginJob k i b again) ↔ p.same s t := by
  simp at h
  simp only [State.beginJob]
  (repeat' split) <;> simp [h]

@[simp ↓] theorem same_rangeJob {k i : Nat} {joined : Bool} {j : GJob} (h : p.outside (.grafters :: .fresh :: storeParts)) :
    p.same s (t.rangeJob k i joined j) ↔ p.same s t := by
  simp_all [State.rangeJob]

@[simp ↓] theorem same_warmRoot {k i : Nat} {j : GJob} (h : p.outside (.grafters :: .fresh :: storeParts)) :
    p.same s (t.warmRoot k i j) ↔ p.same s t := by
  simp at h
  simp only [State.warmRoot]
  split <;> simp [h]

@[simp ↓] theorem same_startJob {k i : Nat} {sub : Submitted} {d : Nat} (h : p.outside (.grafters :: .fresh :: storeParts)) :
    p.same s (t.startJob k i sub d) ↔ p.same s t := by
  simp at h
  simp only [State.startJob]
  (repeat' split) <;> simp [h]

@[simp ↓] theorem same_overrun {k i : Nat} {j : GJob} (h : p.outside (.grafters :: storeParts)) :
    p.same s (t.overrun k i j) ↔ p.same s t := by
  simp_all [State.overrun]

@[simp ↓] theorem same_grfAbort {k v : Nat} (h : p.outside (.grafters :: storeParts)) :
    p.same s (t.grfAbort k v) ↔ p.same s t := by
  simp at h
  simp only [State.grfAbort]
  (repeat' split) <;> simp [h]

@[simp ↓] theorem same_voteQueue {k : Nat} (h : p.outside (.grafters :: storeParts)) :
    p.same s (t.voteQueue k) ↔ p.same s t := by
  simp only [State.voteQueue]
  simp_all

@[simp ↓] theorem same_voteStop (h : p.outside (.grafters :: storeParts)) :
    p.same s t.voteStop ↔ p.same s t := by
  simp only [State.voteStop]
  refine Part.same_foldl fun u x => ?_
  rw [same_voteQueue (by simp_all)]
  refine Part.foldl_same fun v i => ?_
  split <;> simp_all

@[simp ↓] theorem same_takeVote (h : p.outside (.step :: .grafters :: storeParts)) :
    p.same s t.takeVote ↔ p.same s t := by
  simp only [State.takeVote]
  split <;> simp_all

@[simp ↓] theorem same_staleCount {k d : Nat} (h : p.outside [.factors, .grafters]) :
    p.same s (t.staleCount k d) ↔ p.same s t := by
  simp_all [State.staleCount]

@[simp ↓] theorem same_actVote {k g : Nat} {j : GJob} (h : p.outside (.step :: .factors :: .grafters :: storeParts)) :
    p.same s (t.actVote k g j) ↔ p.same s t := by
  simp at h
  simp only [State.actVote]
  split <;> simp [h]

@[simp ↓] theorem same_combineVote {mn mx : Nat} (h : p.outside (.step :: .factors :: .grafters :: storeParts)) :
    p.same s (t.combineVote mn mx) ↔ p.same s t := by
  simp only [State.combineVote]
  split
  · rfl
  · refine (Part.same_foldl fun u f => ?_).trans (by simp_all)
    refine (Part.same_foldl fun v j => ?_).2 ?_
    · simp_all
    · split <;> simp_all

@[simp ↓] theorem same_voteRecord {j : GJob} {g : Nat} (h : p.outside storeParts) :
    p.same s (t.voteRecord j g) ↔ p.same s t := by
  simp_all [State.voteRecord]

@[simp ↓] theorem same_publishRoots (h : p.outside (.step :: .factors :: .grafters :: storeParts)) :
    p.same s t.publishRoots ↔ p.same s t := by
  simp only [State.publishRoots]
  refine (Part.same_foldl fun u k => ?_).trans (by simp_all)
  refine (Part.same_foldl fun v j => ?_).2 ?_
  · simp_all
  · rw [same_setGrafter (by simp_all)]
    refine Part.foldl_same fun v i => ?_
    repeat' split
    all_goals simp_all

@[simp ↓] theorem same_endVotes (h : p.outside (.factors :: .grafters :: storeParts)) :
    p.same s t.endVotes ↔ p.same s t := by
  simp only [State.endVotes]
  refine Part.same_foldl fun u k => ?_
  refine (Part.same_foldl fun v i => ?_).2 (Part.foldl_same fun v sub => ?_)
  · split <;> simp_all
  · simp_all

/-! ### Operations of `Ring` -/

@[simp ↓] theorem same_sendNext {axis plus : Bool} {c : CollMsg} (h : p.outside (.links :: eventParts)) :
    p.same s (t.sendNext axis plus c) ↔ p.same s t := by
  simp at h
  simp only [State.sendNext]
  split <;> simp [h]

@[simp ↓] theorem same_addGot {i k n : Nat} (h : p.outside [.coll]) :
    p.same s (t.addGot i k n) ↔ p.same s t := by
  simp_all [State.addGot]

@[simp ↓] theorem same_addSent {i n : Nat} (h : p.outside [.coll]) :
    p.same s (t.addSent i n) ↔ p.same s t := by
  simp_all [State.addSent]

@[simp ↓] theorem same_addFinal {ls : List Nat} (h : p.outside [.clusters, .step]) :
    p.same s (t.addFinal ls) ↔ p.same s t := by
  simp only [State.addFinal]
  simp_all

@[simp ↓] theorem same_gatherSend {c : CollMsg} (h : p.outside (.links :: eventParts)) :
    p.same s (t.gatherSend c) ↔ p.same s t := by
  simp_all [State.gatherSend]

@[simp ↓] theorem same_gatherOn {c : CollMsg} (h : p.outside (.links :: eventParts)) :
    p.same s (t.gatherOn c) ↔ p.same s t := by
  simp at h
  simp [State.gatherOn, h]

@[simp ↓] theorem same_gatherLand {i off : Nat} {codes : List (Nat × Nat)} (h : p.outside (.step :: .coll :: storeParts)) :
    p.same s (t.gatherLand i off codes) ↔ p.same s t := by
  simp_all [State.gatherLand]

@[simp ↓] theorem same_gatherRun {i : Nat} {r : RowRun} {xs : List Nat} (h : p.outside (.step :: .coll :: .links :: storeParts)) :
    p.same s (t.gatherRun i r xs) ↔ p.same s t := by
  simp only [State.gatherRun]
  simp_all

@[simp ↓] theorem same_rsLand {i q j off : Nat} {vals : List Nat} (h : p.outside (.coll :: .links :: storeParts)) :
    p.same s (t.rsLand i q j off vals) ↔ p.same s t := by
  simp_all [State.rsLand]

@[simp ↓] theorem same_dropPartials {i off n : Nat} (h : p.outside [.coll]) :
    p.same s (t.dropPartials i off n) ↔ p.same s t := by
  simp_all [State.dropPartials]

@[simp ↓] theorem same_rsSecond {i q j off : Nat} {vals : List Nat} (h : p.outside (.coll :: .links :: storeParts)) :
    p.same s (t.rsSecond i q j off vals) ↔ p.same s t := by
  simp at h
  simp [State.rsSecond, h]

@[simp ↓] theorem sameOf_rsFrame {c : CollMsg} (h : p.outside (.coll :: .links :: storeParts)) (hs : p.same s t) :
    p.sameOf s (t.rsFrame c) ↔ True := by
  simp only [State.rsFrame]
  split
  · simp_all
  · split <;> simp_all

@[simp ↓] theorem same_rsStart {i q : Nat} {r : RowRun} (h : p.outside (.coll :: .links :: storeParts)) :
    p.same s (t.rsStart i q r) ↔ p.same s t := by
  simp at h
  simp [State.rsStart, h]

@[simp ↓] theorem same_smallSend {c : CollMsg} {r : Machine.Small} (h : p.outside (.links :: eventParts)) :
    p.same s (t.smallSend c r) ↔ p.same s t := by
  simp_all [State.smallSend]

@[simp ↓] theorem same_normDone {g : Machine.Norm} (h : p.outside (.step :: .factors :: .grafters :: .coll :: storeParts)) :
    p.same s (t.normDone g) ↔ p.same s t := by
  simp only [State.normDone]
  simp_all

@[simp ↓] theorem same_normStep {r : Machine.Small} (h : p.outside (.step :: .factors :: .grafters :: .coll :: .links :: storeParts)) :
    p.same s (t.normStep r) ↔ p.same s t := by
  simp at h
  simp only [State.normStep]
  (repeat' split) <;> simp [h]

@[simp ↓] theorem sameOf_normFrame {c : CollMsg} (h : p.outside (.step :: .factors :: .grafters :: .coll :: .links :: storeParts)) (hs : p.same s t) :
    p.sameOf s (t.normFrame c) ↔ True := by
  simp_all [State.normFrame]

/-! ### Operations of `Factor` -/

@[simp ↓] theorem same_tileArrive {id : TileId} {v : List Int} (h : p.outside [.step]) :
    p.same s (t.tileArrive id v) ↔ p.same s t := by
  simp only [State.tileArrive]
  split <;> simp_all

@[simp ↓] theorem same_tileLand {x : Exchange} {layer q j : Nat} {id : TileId} {v : List Int} (h : p.outside (.step :: .links :: eventParts)) :
    p.same s (t.tileLand x layer q j id v) ↔ p.same s t := by
  simp_all [State.tileLand]

@[simp ↓] theorem same_tileSecond {x : Exchange} {layer q j : Nat} {id : TileId} {v : List Int} (h : p.outside (.step :: .coll :: .links :: eventParts)) :
    p.same s (t.tileSecond x layer q j id v) ↔ p.same s t := by
  simp at h
  simp [State.tileSecond, h]

@[simp ↓] theorem same_tileStart {x : Exchange} {layer q j : Nat} {id : TileId} {v : List Int} (h : p.outside (.step :: .coll :: .links :: eventParts)) :
    p.same s (t.tileStart x layer q j id v) ↔ p.same s t := by
  simp_all [State.tileStart]

@[simp ↓] theorem same_discarded {n : Nat} (h : p.outside [.hub, .gauge]) :
    p.same s (t.discarded n) ↔ p.same s t := by
  simp_all [State.discarded]

@[simp ↓] theorem same_exchScanned {x : Exchange} {g : List Scan} (h : p.outside (.step :: .coll :: .links :: eventParts)) :
    p.same s (t.exchScanned x g) ↔ p.same s t := by
  simp only [State.exchScanned]
  refine (Part.same_foldl fun u c => ?_).trans (by simp_all)
  exact Part.foldl_same fun v k => by simp_all

@[simp ↓] theorem same_scanStep {x : Exchange} {r : Machine.Small} (h : p.outside (.step :: .coll :: .links :: eventParts)) :
    p.same s (t.scanStep x r) ↔ p.same s t := by
  simp at h
  simp only [State.scanStep]
  (repeat' split) <;> simp [h]

@[simp ↓] theorem sameOf_scanFrame {c : CollMsg} (h : p.outside (.step :: .coll :: .links :: eventParts)) (hs : p.same s t) :
    p.sameOf s (t.scanFrame c) ↔ True := by
  unfold State.scanFrame; split <;> simp_all

@[simp ↓] theorem sameOf_tileFrame {c : CollMsg} (h : p.outside (.step :: .coll :: .links :: eventParts)) (hs : p.same s t) :
    p.sameOf s (t.tileFrame c) ↔ True := by
  simp only [State.tileFrame]
  split
  · simp_all
  · split <;> simp_all

@[simp ↓] theorem sameOf_tileGatherFrame {c : CollMsg} (h : p.outside (.step :: .links :: eventParts)) (hs : p.same s t) :
    p.sameOf s (t.tileGatherFrame c) ↔ True := by
  simp_all [State.tileGatherFrame]

@[simp ↓] theorem same_foldDone {x : Exchange} (h : p.outside [.hub, .step]) :
    p.same s (t.foldDone x) ↔ p.same s t := by
  simp_all [State.foldDone]

@[simp ↓] theorem same_exchBegin {m : Nat} (h : p.outside (.step :: .coll :: .links :: eventParts)) :
    p.same s (t.exchBegin m) ↔ p.same s t := by
  simp at h
  simp [State.exchBegin, h]

@[simp ↓] theorem same_copyBlock {fidx side blk l : Nat} (h : p.outside storeParts) :
    p.same s (t.copyBlock fidx side blk l) ↔ p.same s t := by
  simp_all [State.copyBlock]

@[simp ↓] theorem same_foldWait {x : Exchange} (h : p.outside [.hub]) :
    p.same s (t.foldWait x).1 ↔ p.same s t := by
  simp only [State.foldWait]
  split <;> simp_all

@[simp ↓] theorem same_keepFactors {x : Exchange} (h : p.outside storeParts) :
    p.same s (t.keepFactors x) ↔ p.same s t := by
  simp only [State.keepFactors]
  refine Part.same_foldl fun u x => ?_
  simp_all

@[simp ↓] theorem same_publishFactors (h : p.outside (.step :: .factors :: storeParts)) :
    p.same s t.publishFactors ↔ p.same s t := by
  simp only [State.publishFactors]
  split <;> simp_all

@[simp ↓] theorem same_setStatK {k : Nat} (h : p.outside [.hub, .step]) :
    p.same s (t.setStatK k) ↔ p.same s t := by
  simp_all [State.setStatK]

/-! ### Operations of `Boundary` -/

@[simp ↓] theorem same_addPatch {first : Nat} {vals : List Nat} (h : p.outside [.step]) :
    p.same s (t.addPatch first vals) ↔ p.same s t := by
  simp_all [State.addPatch]

@[simp ↓] theorem same_statPatch {gen : Bool} (h : p.outside [.step]) :
    p.same s (t.statPatch gen) ↔ p.same s t := by
  simp_all [State.statPatch]

@[simp ↓] theorem same_boundaryPatches (h : p.outside [.step]) :
    p.same s t.boundaryPatches ↔ p.same s t := by
  simp at h
  simp [State.boundaryPatches, h]

@[simp ↓] theorem same_staleCheck (h : p.outside (.step :: eventParts)) :
    p.same s t.staleCheck ↔ p.same s t := by
  simp only [State.staleCheck]
  refine Part.same_foldl fun u x => ?_
  split <;> simp_all

@[simp ↓] theorem same_auditBegin (h : p.outside [.step, .coll]) :
    p.same s t.auditBegin ↔ p.same s t := by
  simp at h
  simp [State.auditBegin, h]

@[simp ↓] theorem same_mergeLayers (h : p.outside [.layers, .layersNext, .coll]) :
    p.same s t.mergeLayers ↔ p.same s t := by
  simp_all [State.mergeLayers]

@[simp ↓] theorem same_windowClear (h : p.outside [.hub, .sieve]) :
    p.same s t.windowClear ↔ p.same s t := by
  simp_all [State.windowClear]

@[simp ↓] theorem same_endJob (h : p.outside [.hub, .step, .mb, .msix]) :
    p.same s t.endJob ↔ p.same s t := by
  simp_all [State.endJob]

@[simp ↓] theorem same_openBoundary (h : p.outside (.step :: .sieve :: .layers :: .layersNext :: .grafters :: .coll :: eventParts)) :
    p.same s t.openBoundary ↔ p.same s t := by
  simp_all [State.openBoundary]

@[simp ↓] theorem same_beginBoundary (h : p.outside (.step :: .sieve :: .layers :: .layersNext :: .grafters :: .coll :: .mb :: eventParts)) :
    p.same s t.beginBoundary ↔ p.same s t := by
  simp_all [State.beginBoundary]

@[simp ↓] theorem same_afterAction {k : Nat} (h : p.outside [.step]) :
    p.same s (t.afterAction k) ↔ p.same s t := by
  simp_all [State.afterAction]

@[simp ↓] theorem same_replayAll {step : Bool} {f : Core → Core} (h : p.outside [.cores, .clusters]) :
    p.same s (t.replayAll step f) ↔ p.same s t := by
  simp_all [State.replayAll]

@[simp ↓] theorem same_latchSieve (h : p.outside [.sieve]) :
    p.same s t.latchSieve ↔ p.same s t := by
  simp_all [State.latchSieve]

@[simp ↓] theorem same_applyReplay
    (h : p.outside (.outbox :: .net :: .frontHeld :: .quietG :: .quiescedG :: .quiesce :: .rake :: .step :: .sieve :: .factors :: .grafters :: .coll
      :: storeParts)) :
    p.same s t.applyReplay ↔ p.same s t := by
  simp at h
  simp [State.applyReplay, h]

/-! ### Operations of `Fronts` -/

@[simp ↓] theorem same_frontGoAt {who : Agent} {ci k entry tick : Nat} (h : p.outside [.net, .frontHeld]) :
    p.same s (t.frontGoAt who ci k entry tick) ↔ p.same s t := by
  simp at h
  simp only [State.frontGoAt]
  split <;> simp [h]

@[simp ↓] theorem same_frontGo {who : Agent} {ci k entry : Nat} (h : p.outside [.net, .frontHeld]) :
    p.same s (t.frontGo who ci k entry) ↔ p.same s t := by
  simp_all [State.frontGo]

@[simp ↓] theorem same_startStream {k : Nat} {hbm : List HbmErr} (h : p.outside [.mem, .hub, .cores, .clusters, .net, .frontQ, .streams, .frontHeld, .rel]) :
    p.same s (t.startStream k hbm) ↔ p.same s t := by
  simp at h
  simp only [State.startStream]
  split <;> simp [h]

@[simp ↓] theorem same_streamed {q : Packet} (h : p.outside [.streams]) :
    p.same s (t.streamed q) ↔ p.same s t := by
  simp at h
  simp only [State.streamed]
  (repeat' split) <;> simp [h]

@[simp ↓] theorem same_frontFault {gi : Nat} (h : p.outside [.cores, .net]) :
    p.same s (t.frontFault gi) ↔ p.same s t := by
  simp_all [State.frontFault]

@[simp ↓] theorem same_frontSender {gi : Nat} {src : Endpoint} (h : p.outside [.cores, .net]) :
    p.same s (t.frontSender gi src).1 ↔ p.same s t := by
  simp only [State.frontSender]
  (repeat' split) <;> simp_all

@[simp ↓] theorem same_takeMarker {gi : Nat} (h : p.outside [.cores, .clusters, .outbox, .net]) :
    p.same s (t.takeMarker gi) ↔ p.same s t := by
  simp only [State.takeMarker]
  (repeat' split) <;> simp_all

@[simp ↓] theorem same_fillTile {gi : Nat} {r : Run} (h : p.outside [.cores, .clusters, .net]) :
    p.same s (t.fillTile gi r) ↔ p.same s t := by
  simp_all [State.fillTile]

@[simp ↓] theorem same_frontData {gi left : Nat} {data : List Byte} (h : p.outside [.cores, .clusters, .outbox, .net]) :
    p.same s (t.frontData gi left data) ↔ p.same s t := by
  simp at h
  simp only [State.frontData]
  (repeat' split) <;> simp [h]

/-! ### Operations of `Sieve` -/

@[simp ↓] theorem same_retireCore {gi : Nat} (h : p.outside (.rel :: eventParts)) :
    p.same s (t.retireCore gi) ↔ p.same s t := by
  simp at h
  simp [State.retireCore, h]

@[simp ↓] theorem same_chargeCore {gi n : Nat} (h : p.outside (.rel :: eventParts)) :
    p.same s (t.chargeCore gi n) ↔ p.same s t := by
  simp_all [State.chargeCore]

@[simp ↓] theorem same_closeReports (h : p.outside (.cores :: .clusters :: .rel :: .hubFlitCe :: eventParts)) :
    p.same s t.closeReports ↔ p.same s t := by
  simp only [State.closeReports]
  simp_all

@[simp ↓] theorem same_openFactors (h : p.outside [.step, .sieve, .fresh]) :
    p.same s t.openFactors ↔ p.same s t := by
  simp_all [State.openFactors]

@[simp ↓] theorem same_putJournal {outcome : Nat} (h : p.outside storeParts) :
    p.same s (t.putJournal outcome) ↔ p.same s t := by
  simp only [State.putJournal]
  simp_all

@[simp ↓] theorem same_putJdone {n : Nat} (h : p.outside storeParts) :
    p.same s (t.putJdone n) ↔ p.same s t := by
  simp_all [State.putJdone]

@[simp ↓] theorem same_hold {status arg : Nat} (h : p.outside (.step :: .mb :: eventParts)) :
    p.same s (t.hold status arg) ↔ p.same s t := by
  simp at h
  simp [State.hold, h]

@[simp ↓] theorem same_endGenerate
    (h : p.outside (.rake :: .step :: .sieve :: .layers :: .layersNext :: .grafters :: .coll :: .rel :: .hubFlitCe :: .fresh :: storeParts)) :
    p.same s t.endGenerate ↔ p.same s t := by
  simp_all [State.endGenerate]

@[simp ↓] theorem same_settleLists
    (h : p.outside (.rake :: .step :: .sieve :: .layers :: .layersNext :: .grafters :: .coll :: .rel :: .hubFlitCe :: .fresh :: storeParts)) :
    p.same s t.settleLists ↔ p.same s t := by
  simp at h
  simp only [State.settleLists]
  (repeat' split) <;> simp [h]

@[simp ↓] theorem same_normBegin (h : p.outside (.step :: .factors :: .grafters :: .coll :: .links :: storeParts)) :
    p.same s t.normBegin ↔ p.same s t := by
  simp_all [State.normBegin]

@[simp ↓] theorem same_sendReplayReq {cause : Nat} (h : p.outside (.links :: eventParts)) :
    p.same s (t.sendReplayReq cause) ↔ p.same s t := by
  simp only [State.sendReplayReq]
  refine Part.same_foldl fun u x => ?_
  split <;> simp_all

@[simp ↓] theorem same_replayDue {cause : Nat} (h : p.outside (.clusters :: .quietG :: .quiescedG :: .quiesce :: .step :: .sieve :: .mb :: eventParts)) :
    p.same s (t.replayDue cause) ↔ p.same s t := by
  simp only [State.replayDue]
  split <;> simp_all

@[simp ↓] theorem same_decideReplay {cause : Nat}
    (h : p.outside (.clusters :: .quietG :: .quiescedG :: .quiesce :: .step :: .sieve :: .links :: .mb :: eventParts)) :
    p.same s (t.decideReplay cause) ↔ p.same s t := by
  simp at h
  simp [State.decideReplay, h]

@[simp ↓] theorem same_settleSweep (h : p.outside (.step :: .sieve :: .layers :: .layersNext :: .grafters :: .coll :: storeParts)) :
    p.same s t.settleSweep ↔ p.same s t := by
  simp at h
  simp only [State.settleSweep]
  split <;> simp [h]

@[simp ↓] theorem same_commitStep {gn c out : Nat} (h : p.outside (.step :: .sieve :: .layers :: .layersNext :: .grafters :: .coll :: storeParts)) :
    p.same s (t.commitStep gn c out) ↔ p.same s t := by
  simp at h
  simp only [State.commitStep]
  split <;> simp [h]

@[simp ↓] theorem same_skipWith {code : Nat} {nf : Bool}
    (h : p.outside (.step :: .sieve :: .layers :: .layersNext :: .grafters :: .coll :: .fresh :: storeParts)) :
    p.same s (t.skipWith code nf) ↔ p.same s t := by
  simp at h
  simp only [State.skipWith]
  split <;> simp [h]

@[simp ↓] theorem same_skipStep {out : Nat} (h : p.outside (.step :: .sieve :: .layers :: .layersNext :: .grafters :: .coll :: .fresh :: storeParts)) :
    p.same s (t.skipStep out) ↔ p.same s t := by
  simp_all [State.skipStep]

@[simp ↓] theorem same_sieveDecision {g : Machine.Norm}
    (h : p.outside (.quietG :: .quiescedG :: .quiesce :: .step :: .sieve :: .layers :: .layersNext :: .grafters :: .coll :: .links :: .fresh :: storeParts)) :
    p.same s (t.sieveDecision g) ↔ p.same s t := by
  simp at h
  simp only [State.sieveDecision]
  (repeat' split) <;> simp [h]

/-! ### Operations of `Sweep` -/

@[simp ↓] theorem same_putState {d : Decision} {r : Rec} {g : List Nat} (h : p.outside storeParts) :
    p.same s (t.putState d r g) ↔ p.same s t := by
  simp_all [State.putState]

@[simp ↓] theorem same_putMaster {d : Decision} {r : Rec} {g : List Nat} (h : p.outside storeParts) :
    p.same s (t.putMaster d r g) ↔ p.same s t := by
  simp_all [State.putMaster]

@[simp ↓] theorem same_putStepWord {d : Decision} {r : Rec} (h : p.outside storeParts) :
    p.same s (t.putStepWord d r) ↔ p.same s t := by
  simp_all [State.putStepWord]

@[simp ↓] theorem same_sweepRec {d : Decision} {r : Rec} {e : List HbmErr} (h : p.outside (.net :: .rel :: storeParts)) :
    p.same s (t.sweepRec d r e) ↔ p.same s t := by
  simp_all [State.sweepRec]

@[simp ↓] theorem same_auditAbandon {i : Nat} (h : p.outside [.step, .coll]) :
    p.same s (t.auditAbandon i) ↔ p.same s t := by
  simp_all [State.auditAbandon]

@[simp ↓] theorem same_rederive {i off : Nat} {xs : List Nat} (h : p.outside storeParts) :
    p.same s (t.rederive i off xs) ↔ p.same s t := by
  simp_all [State.rederive]

@[simp ↓] theorem same_gatherStat {i : Nat} (h : p.outside [.hub]) :
    p.same s (t.gatherStat i) ↔ p.same s t := by
  simp_all [State.gatherStat]

@[simp ↓] theorem same_gatherTake {k : Nat} (h : p.outside (.step :: .coll :: .links :: storeParts)) :
    p.same s (t.gatherTake k) ↔ p.same s t := by
  simp at h
  simp [State.gatherTake, h]

@[simp ↓] theorem same_recoverRec {d : Decision} {i : Nat} (h : p.outside (.net :: .rel :: storeParts)) :
    p.same s (t.recoverRec d i) ↔ p.same s t := by
  simp at h
  simp [State.recoverRec, h]

@[simp ↓] theorem same_recoverAll (h : p.outside (.net :: .step :: .rel :: storeParts)) :
    p.same s t.recoverAll ↔ p.same s t := by
  simp_all [State.recoverAll]

@[simp ↓] theorem same_auditRun {i off n : Nat} {crcs : List Nat} (h : p.outside [.hub, .step, .coll]) :
    p.same s (t.auditRun i off n crcs) ↔ p.same s t := by
  simp at h
  simp [State.auditRun, h]

@[simp ↓] theorem sameOf_crcFrame {c : CollMsg} (h : p.outside (.step :: .coll :: .links :: eventParts)) (hs : p.same s t) :
    p.sameOf s (t.crcFrame c) ↔ True := by
  simp_all [State.crcFrame]

/-! ### Operations of `Collectives` -/

@[simp ↓] theorem same_gradGatherFrame {c : CollMsg} (h : p.outside (.coll :: .links :: storeParts)) :
    p.same s (t.gradGatherFrame c) ↔ p.same s t := by
  simp_all [State.gradGatherFrame]

@[simp ↓] theorem sameOf_takeColl {c : CollMsg} (h : p.outside (.step :: .factors :: .grafters :: .coll :: .links :: storeParts)) (hs : p.same s t) :
    p.sameOf s (t.takeColl c) ↔ True := by
  unfold State.takeColl; split <;> simp_all

@[simp ↓] theorem same_retryHeld {n : Nat} (h : p.outside (.step :: .factors :: .grafters :: .coll :: .links :: storeParts)) :
    p.same s (State.retryHeld n t) ↔ p.same s t := by
  induction n generalizing t with
  | zero => rfl
  | succ n ih =>
    unfold State.retryHeld
    split
    · rfl
    · simp only [ih]
      rw [Part.same_getD (by simp_all)]
      simp_all

@[simp ↓] theorem same_settleColl (h : p.outside (.step :: .factors :: .grafters :: .coll :: .links :: storeParts)) :
    p.same s t.settleColl ↔ p.same s t := by
  simp_all [State.settleColl]

@[simp ↓] theorem same_splitCheck {c : CollMsg} (h : p.outside (.mb :: eventParts)) :
    p.same s (t.splitCheck c) ↔ p.same s t := by
  simp_all [State.splitCheck]

@[simp ↓] theorem same_collArrive {c : CollMsg} (h : p.outside (.step :: .factors :: .grafters :: .coll :: .links :: storeParts)) :
    p.same s (t.collArrive c) ↔ p.same s t := by
  have hd : p.sameOf t (t.takeColl c) := by simp_all
  unfold State.collArrive
  split
  · split
    · next u e => simp_all [Part.same_congr (hd u e)]
    · simp_all
  · simp_all

@[simp ↓] theorem same_takeReq {cause : Nat} (h : p.outside (.clusters :: .quietG :: .quiescedG :: .quiesce :: .step :: .sieve :: .mb :: eventParts)) :
    p.same s (t.takeReq cause) ↔ p.same s t := by
  simp_all [State.takeReq]

@[simp ↓] theorem same_settleReq (h : p.outside (.clusters :: .quietG :: .quiescedG :: .quiesce :: .step :: .sieve :: .coll :: .mb :: eventParts)) :
    p.same s t.settleReq ↔ p.same s t := by
  simp at h
  simp only [State.settleReq]
  split <;> simp [h]

@[simp ↓] theorem same_scrambleRest {i : Nat} (h : p.outside [.mem, .flaws, .cores, .clusters, .fresh]) :
    p.same s (t.scrambleRest i) ↔ p.same s t := by
  simp_all [State.scrambleRest]

/-- The state a notice's delivery leaves. -/
theorem takeNotice_same {n : Nat} {r : Reg} {flits : List FlitErr} {a : Option Nat} {u : State} (h : p.outside [.cores, .clusters, .net, .hubFlitCe])
    (e : t.takeNotice n r flits = some (a, u)) : p.same s u ↔ p.same s t := by
  unfold State.takeNotice at e
  split at e
  · cases e
  · next hq =>
    have := takePacket_same (s := s) (p := p) (by simp_all) hq
    split at e
    · split at e
      · simp only [Option.some.injEq, Prod.mk.injEq] at e
        obtain ⟨-, rfl⟩ := e
        split <;> simp_all
      · cases e
    · cases e

@[simp ↓] theorem same_gradNotice {i : Nat} (h : p.outside (.step :: .factors :: .grafters :: .coll :: .links :: storeParts)) :
    p.same s (t.gradNotice i) ↔ p.same s t := by
  simp at h
  simp [State.gradNotice, h]

@[simp ↓] theorem same_dirNotice {i : Nat} (h : p.outside [.step]) :
    p.same s (t.dirNotice i) ↔ p.same s t := by
  simp_all [State.dirNotice]

@[simp ↓] theorem same_mgmtAll {q : Permute} {m : MgmtMsg} (h : p.outside (.links :: eventParts)) :
    p.same s (t.mgmtAll q m) ↔ p.same s t := by
  simp_all [State.mgmtAll]

@[simp ↓] theorem same_permLog {q : Permute} {status : Nat} (h : p.outside [.gauge]) :
    p.same s (t.permLog q status) ↔ p.same s t := by
  simp_all [State.permLog]

@[simp ↓] theorem same_permOver {q : Permute} (h : p.outside [.hub, .step, .coll, .mb, .msix]) :
    p.same s (t.permOver q) ↔ p.same s t := by
  simp at h
  simp only [State.permOver]
  split <;> simp [h]

@[simp ↓] theorem same_permEnd {status : Nat} (h : p.outside (.step :: .coll :: .links :: .mb :: eventParts)) :
    p.same s (t.permEnd status) ↔ p.same s t := by
  simp only [State.permEnd]
  split <;> simp_all

@[simp ↓] theorem same_permFault (h : p.outside (.step :: .coll :: .links :: .mb :: eventParts)) :
    p.same s t.permFault ↔ p.same s t := by
  simp only [State.permFault]
  split <;> simp_all

@[simp ↓] theorem same_lateFault (h : p.outside (.step :: .coll :: .links :: .mb :: eventParts)) :
    p.same s t.lateFault ↔ p.same s t := by
  simp at h
  simp [State.lateFault, h]

@[simp ↓] theorem same_noticeEvent {src : Endpoint} {st detail extra : Nat} (h : p.outside eventParts) :
    p.same s (t.noticeEvent src st detail extra) ↔ p.same s t := by
  simp only [State.noticeEvent]
  split <;> simp_all

@[simp ↓] theorem same_chargeUe {src : Endpoint} {st detail : Nat} (h : p.outside (.rel :: eventParts)) :
    p.same s (t.chargeUe src st detail) ↔ p.same s t := by
  simp only [State.chargeUe]
  split <;> simp_all

@[simp ↓] theorem same_ueOf {k : Nat} (h : p.outside [.rel]) :
    p.same s (t.ueOf k).2 ↔ p.same s t := by
  simp at h
  simp only [State.ueOf]
  split <;> simp [h]

@[simp ↓] theorem same_hbmNotice {k : Nat}
    (h : p.outside (.clusters :: .quietG :: .quiescedG :: .quiesce :: .step :: .sieve :: .coll :: .links :: .rel :: .mb :: eventParts)) :
    p.same s (t.hbmNotice k) ↔ p.same s t := by
  simp at h
  simp only [State.hbmNotice]
  split <;> simp [h]

@[simp ↓] theorem same_restart (h : p.outside [.cores, .clusters, .outbox, .net, .frontHeld, .quietG, .quiescedG, .quiesce, .rake, .step, .coll]) :
    p.same s t.restart ↔ p.same s t := by
  simp_all [State.restart]

/-! ### Operations of `Mailbox` -/

/-- The state a command taken from the queue leaves. -/
theorem takeCmd_same {op : Nat} {c : Cmd} {u : State} (h : p.outside [.mb]) (e : t.takeCmd op = some (c, u)) :
    p.same s u ↔ p.same s t := by
  unfold State.takeCmd at e
  split at e
  · split at e
    · simp only [Option.some.injEq, Prod.mk.injEq] at e
      obtain ⟨-, rfl⟩ := e
      simp_all
    · cases e
  · cases e

@[simp ↓] theorem same_reply {c : Cmd} {status : Nat} {data : List Byte} (h : p.outside (.mb :: eventParts)) :
    p.same s (t.reply c status data) ↔ p.same s t := by
  simp_all [State.reply]

@[simp ↓] theorem same_failTicket {n status : Nat} (h : p.outside (.mb :: eventParts)) :
    p.same s (t.failTicket n status) ↔ p.same s t := by
  simp_all [State.failTicket]

@[simp ↓] theorem kept_short {op : Nat} {go : Cmd → State → State} (h : p.outside [.mb]) (hgo : ∀ c u, p.same u (go c u)) :
    p.kept s (t.short op go) ↔ p.same s t := by
  unfold State.short
  split
  · next c u e => rw [Part.kept_next, Part.same_congr (hgo c u), takeCmd_same h e]
  · simp

@[simp ↓] theorem same_openTicket {n : Nat} {c : Cmd} (h : p.outside (.mb :: eventParts)) :
    p.same s (t.openTicket n c) ↔ p.same s t := by
  simp_all [State.openTicket]

@[simp ↓] theorem kept_long {op : Nat} {refuse : Cmd → State → Option Nat} {go : Cmd → Nat → State → State} (h : p.outside (.mb :: eventParts))
    (hgo : ∀ c n u, p.same u (go c n u)) : p.kept s (t.long op refuse go) ↔ p.same s t := by
  unfold State.long
  split
  · simp
  · next c u e =>
    have hu := takeCmd_same (s := s) (p := p) (by simp_all) e
    repeat' split
    all_goals simp_all [Part.same_congr (hgo _ _ _)]

@[simp ↓] theorem same_finish {n : Nat} {c : Cmd} {cdpa status len : Nat} (h : p.outside storeParts) :
    p.same s (t.finish n c cdpa status len) ↔ p.same s t := by
  simp_all [State.finish]

@[simp ↓] theorem kept_cxlRun {op : Nat} {go : List Byte → State → Nat × List Byte × State} (h : p.outside [.mb, .msix])
    (hgo : ∀ b u, p.same u (go b u).2.2) : p.kept s (t.cxlRun op go) ↔ p.same s t := by
  unfold State.cxlRun
  split <;> simp_all [Part.same_congr (hgo _ _)]

@[simp ↓] theorem same_sensed (h : p.outside [.fresh]) :
    p.same s t.sensed ↔ p.same s t := by
  simp_all [State.sensed]

@[simp ↓] theorem same_setCap {c : Cmd} (h : p.outside (.mb :: .pwr :: eventParts)) :
    p.same s (t.setCap c) ↔ p.same s t := by
  simp_all [State.setCap]

/-! ### Operations of `Tables` -/

@[simp ↓] theorem same_tableRead {c : Cmd} {n : Nat} {entry : Nat → Nat} (h : p.outside storeParts) :
    p.same s (t.tableRead c n entry) ↔ p.same s t := by
  simp_all [State.tableRead]

/-! ### Operations of `Job` -/

@[simp ↓] theorem same_unstage (h : p.outside [.sec]) :
    p.same s t.unstage ↔ p.same s t := by
  simp_all [State.unstage]

@[simp ↓] theorem same_jobStart {area launch : Nat} (h : p.outside (.step :: .sieve :: .layers :: .layersNext :: .grafters :: .coll :: .sec :: storeParts)) :
    p.same s (t.jobStart area launch) ↔ p.same s t := by
  simp at h
  simp [State.jobStart, h]

/-- The state a JOB_RESUME taken from the queue leaves. -/
theorem takeResume_same {k a : Nat} {c : Cmd} {u : State} (h : p.outside [.mb]) (e : t.takeResume k = some (a, c, u)) :
    p.same s u ↔ p.same s t := by
  unfold State.takeResume at e
  split at e
  · next hc =>
    have := takeCmd_same (s := s) h hc
    simp_all
  · cases e

@[simp ↓] theorem same_unhold (h : p.outside [.step]) :
    p.same s t.unhold ↔ p.same s t := by
  simp_all [State.unhold]

@[simp ↓] theorem same_startDiscovery (h : p.outside [.hub, .links]) :
    p.same s t.startDiscovery ↔ p.same s t := by
  simp_all [State.startDiscovery]

/-! ### Operations of `Permute` -/

@[simp ↓] theorem same_putMap {bank : Nat} {map : List Nat} (h : p.outside (.pwr :: eventParts)) :
    p.same s (t.putMap bank map) ↔ p.same s t := by
  simp only [State.putMap]
  simp_all

@[simp ↓] theorem same_putGrid {xl yl bank epoch : Nat} (h : p.outside (.pwr :: eventParts)) :
    p.same s (t.putGrid xl yl bank epoch) ↔ p.same s t := by
  simp_all [State.putGrid]

@[simp ↓] theorem same_sendMove {pm : Permute} {code dpa : Nat} {bs : List Byte} (h : p.outside (.links :: eventParts)) :
    p.same s (t.sendMove pm code dpa bs) ↔ p.same s t := by
  simp_all [State.sendMove]

@[simp ↓] theorem same_makePiece {pm : Permute} {new : Grid} {q : Piece} (h : p.outside (.links :: storeParts)) :
    p.same s (t.makePiece pm new q) ↔ p.same s t := by
  simp at h
  simp only [State.makePiece]
  split <;> simp [h]

@[simp ↓] theorem same_takeFactors {v : List Nat} (h : p.outside [.factors]) :
    p.same s (State.takeFactors v t) ↔ p.same s t := by
  fun_induction State.takeFactors v t <;> simp_all

@[simp ↓] theorem same_takeShared {v : List Nat} (h : p.outside [.hub, .step, .sieve, .factors, .coll]) :
    p.same s (t.takeShared v) ↔ p.same s t := by
  simp only [State.takeShared]
  split <;> simp_all

@[simp ↓] theorem same_makeCopies {pm : Permute} {old new : Grid} {code : Nat} (h : p.outside (.links :: eventParts)) :
    p.same s (t.makeCopies pm old new code) ↔ p.same s t := by
  simp only [State.makeCopies]
  split <;> simp_all

@[simp ↓] theorem same_planVote {code : Nat} {h' : List Byte} (h : p.outside (.step :: .coll :: .links :: .mb :: eventParts)) :
    p.same s (t.planVote code h') ↔ p.same s t := by
  simp at h
  simp only [State.planVote]
  split <;> simp [h]

@[simp ↓] theorem same_mgmtArrive {from_ : Nat} {m : MgmtMsg} (h : p.outside (.step :: .sieve :: .factors :: .coll :: .links :: .mb :: eventParts)) :
    p.same s (t.mgmtArrive from_ m) ↔ p.same s t := by
  simp at h
  simp only [State.mgmtArrive]
  split <;> simp [h]

@[simp ↓] theorem same_takeGrid {q : Permute} {new : Grid} (h : p.outside (.coll :: .pwr :: storeParts)) :
    p.same s (t.takeGrid q new) ↔ p.same s t := by
  simp only [State.takeGrid]
  simp_all

@[simp ↓] theorem same_dropStat (h : p.outside [.hub, .step]) :
    p.same s t.dropStat ↔ p.same s t := by
  simp at h
  simp [State.dropStat, h]

@[simp ↓] theorem same_permEffects {replays : Nat} (h : p.outside (.step :: .factors :: .grafters :: .coll :: storeParts)) :
    p.same s (t.permEffects replays) ↔ p.same s t := by
  simp at h
  simp [State.permEffects, h]

@[simp ↓] theorem same_permCommit {q : Permute} {new : Grid} (h : p.outside (.step :: .factors :: .grafters :: .coll :: .pwr :: storeParts)) :
    p.same s (t.permCommit q new) ↔ p.same s t := by
  simp at h
  simp [State.permCommit, h]

/-! ### Operations of `Spares` -/

@[simp ↓] theorem same_swapInto {gi j : Nat} (h : p.outside (.flaws :: .cores :: .clusters :: .rel :: .pwr :: .fresh :: eventParts)) :
    p.same s (t.swapInto gi j).2 ↔ p.same s t := by
  simp_all [State.swapInto]

@[simp ↓] theorem same_swapCore {gi : Nat} (h : p.outside (.flaws :: .cores :: .clusters :: .step :: .rel :: .pwr :: .fresh :: eventParts)) :
    p.same s (t.swapCore gi) ↔ p.same s t := by
  simp at h
  simp only [State.swapCore]
  split <;> simp [h]

@[simp ↓] theorem same_killSpare {ci j : Nat} (h : p.outside (.clusters :: .pwr :: eventParts)) :
    p.same s (t.killSpare ci j) ↔ p.same s t := by
  simp_all [State.killSpare]

@[simp ↓] theorem same_retirePhys {e : Nat × Nat} (h : p.outside (.clusters :: .rel :: .pwr :: eventParts)) :
    p.same s (t.retirePhys e) ↔ p.same s t := by
  simp only [State.retirePhys]
  split <;> simp_all

@[simp ↓] theorem same_setPlan {die vstep div exh : Nat} (h : p.outside (.pwr :: eventParts)) :
    p.same s (t.setPlan die vstep div exh) ↔ p.same s t := by
  simp_all [State.setPlan]

@[simp ↓] theorem same_planPass {m : Margin} {die : Nat} {again : State → State} (h : p.outside (.clusters :: .rel :: .pwr :: eventParts))
    (hgo : ∀ u, p.same u (again u)) : p.same s (t.planPass m die again) ↔ p.same s t := by
  simp_all [State.planPass, Part.same_congr (hgo _)]

@[simp ↓] theorem same_planGen {die old : Nat} (h : p.outside (.pwr :: eventParts)) :
    p.same s (t.planGen die old) ↔ p.same s t := by
  simp only [State.planGen]
  split <;> simp_all

@[simp ↓] theorem same_slowDie {m : Margin} {die : Nat} (h : p.outside (.clusters :: .rel :: .pwr :: eventParts)) :
    p.same s (t.slowDie m die) ↔ p.same s t := by
  simp_all [State.slowDie]

@[simp ↓] theorem same_replanDie {m : Margin} {die : Nat} (h : p.outside (.clusters :: .rel :: .pwr :: eventParts)) :
    p.same s (t.replanDie m die) ↔ p.same s t := by
  simp only [State.replanDie]
  split
  · rfl
  · rw [same_planGen (by simp_all), same_planPass (by simp_all) fun u => by split <;> simp_all]

@[simp ↓] theorem same_replan {m : Margin} (h : p.outside (.clusters :: .rel :: .pwr :: eventParts)) :
    p.same s (t.replan m) ↔ p.same s t := by
  simp_all [State.replan]

@[simp ↓] theorem same_divide {m : Margin} (h : p.outside (.clusters :: .rel :: .pwr :: eventParts)) :
    p.same s (t.divide m) ↔ p.same s t := by
  simp_all [State.divide]

@[simp ↓] theorem same_bistFail {u : TestUnit} (h : p.outside eventParts) :
    p.same s (t.bistFail u) ↔ p.same s t := by
  simp_all [State.bistFail]

@[simp ↓] theorem same_testFail {u : TestUnit} (h : p.outside (.clusters :: .rel :: .pwr :: eventParts)) :
    p.same s (t.testFail u) ↔ p.same s t := by
  simp only [State.testFail]
  split <;> simp_all

@[simp ↓] theorem same_saved {save : Nat} (h : p.outside [.mem, .flaws, .fresh]) :
    p.same s (t.saved save) ↔ p.same s t := by
  simp_all [State.saved]

@[simp ↓] theorem same_portsDown (h : p.outside [.hub, .links]) :
    p.same s t.portsDown ↔ p.same s t := by
  simp_all [State.portsDown]

@[simp ↓] theorem same_testAll {set : Nat} {fails : List TestUnit}
    (h : p.outside (.mem :: .flaws :: .clusters :: .links :: .rel :: .pwr :: .fresh :: eventParts)) :
    p.same s (t.testAll set fails) ↔ p.same s t := by
  simp_all [State.testAll]

@[simp ↓] theorem same_bistUnit {u : TestUnit} (h : p.outside (.flaws :: .cores :: .clusters :: .step :: .rel :: .pwr :: .fresh :: eventParts)) :
    p.same s (t.bistUnit u).2 ↔ p.same s t := by
  simp at h
  simp only [State.bistUnit]
  (repeat' split) <;> simp [h]

/-! ### Operations of `Harvest` -/

@[simp ↓] theorem same_openSnap {n : Nat} (h : p.outside (.step :: .factors :: .grafters :: storeParts)) :
    p.same s (t.openSnap n) ↔ p.same s t := by
  simp_all [State.openSnap]

@[simp ↓] theorem same_hvPut {off : Nat} {bs : List Byte} (h : p.outside (.links :: .harvest :: eventParts)) :
    p.same s (t.hvPut off bs) ↔ p.same s t := by
  simp_all [State.hvPut]

@[simp ↓] theorem same_hvRead {a n : Nat} {e : List HbmErr} (h : p.outside [.mem, .hub, .cores, .clusters, .net, .rel]) :
    p.same s (t.hvRead a n e).2 ↔ p.same s t := by
  simp_all [State.hvRead]

@[simp ↓] theorem same_hvItemDone {i : HItem} {rest : List HItem} {part : List Byte} (h : p.outside [.hub, .harvest]) :
    p.same s (t.hvItemDone i rest part) ↔ p.same s t := by
  simp_all [State.hvItemDone]

@[simp ↓] theorem same_hvDrain {i : HItem} {rest : List HItem} {n : Nat} {e : List HbmErr}
    (h : p.outside (.mem :: .cores :: .clusters :: .net :: .links :: .harvest :: .rel :: eventParts)) :
    p.same s (t.hvDrain i rest n e) ↔ p.same s t := by
  simp at h
  simp only [State.hvDrain]
  split <;> simp [h]

@[simp ↓] theorem same_hvFinish (h : p.outside (.links :: .harvest :: .mb :: eventParts)) :
    p.same s t.hvFinish ↔ p.same s t := by
  simp only [State.hvFinish]
  split <;> simp_all

@[simp ↓] theorem same_putRecord {a layer rows : Nat} {data : List Byte} (h : p.outside storeParts) :
    p.same s (t.putRecord a layer rows data) ↔ p.same s t := by
  simp_all [State.putRecord]

@[simp ↓] theorem same_putBlock {b : HBlock} (h : p.outside (.factors :: storeParts)) :
    p.same s (t.putBlock b) ↔ p.same s t := by
  simp only [State.putBlock]
  split
  · rfl
  · simp_all [Part.same_foldl_fst]

@[simp ↓] theorem same_toMembers {m : MgmtMsg} (h : p.outside (.links :: eventParts)) :
    p.same s (t.toMembers m) ↔ p.same s t := by
  simp only [State.toMembers]
  refine Part.same_foldl fun u x => ?_
  split <;> simp_all

@[simp ↓] theorem same_putEntry {plan : List (Nat × Nat × RowRun)} {img : List Byte} {k : Nat} {en : List Byte}
    (h : p.outside (.factors :: .links :: storeParts)) :
    p.same s (t.putEntry plan img k en) ↔ p.same s t := by
  simp at h
  simp only [State.putEntry]
  (repeat' split) <;> simp [h]

@[simp ↓] theorem same_takeJournal {j : List Byte} (h : p.outside [.hub, .sieve]) :
    p.same s (t.takeJournal j) ↔ p.same s t := by
  simp_all [State.takeJournal]

@[simp ↓] theorem same_regather (h : p.outside (.step :: .coll :: .links :: storeParts)) :
    p.same s t.regather ↔ p.same s t := by
  simp_all [State.regather]

@[simp ↓] theorem same_restoreDone (h : p.outside (.step :: .sieve :: .coll :: .links :: storeParts)) :
    p.same s t.restoreDone ↔ p.same s t := by
  simp only [State.restoreDone]
  simp_all

@[simp ↓] theorem same_settleRestore (h : p.outside (.step :: .sieve :: .factors :: .coll :: .links :: storeParts)) :
    p.same s t.settleRestore ↔ p.same s t := by
  simp at h
  rw [State.settleRestore]
  (repeat' split) <;> simp [h]

@[simp ↓] theorem same_forgetTargets {plan : List (Nat × Nat × RowRun)} (h : p.outside [.mem, .flaws, .fresh]) :
    p.same s (t.forgetTargets plan) ↔ p.same s t := by
  simp only [State.forgetTargets]
  simp_all

@[simp ↓] theorem same_restoreEntries {plan : List (Nat × Nat × RowRun)} {img : List Byte} {n : Nat}
    (h : p.outside (.step :: .sieve :: .factors :: .coll :: .links :: .fresh :: storeParts)) :
    p.same s (t.restoreEntries plan img n) ↔ p.same s t := by
  simp at h
  simp [State.restoreEntries, h]

/-! ### Operations of `Reset` -/

@[simp ↓] theorem same_zeroMem {q : Nat → Bool} (h : p.outside [.mem, .flaws]) :
    p.same s (t.zeroMem q) ↔ p.same s t := by
  simp_all [State.zeroMem]

@[simp ↓] theorem same_abortOps {ops : List Nat} (h : p.outside (.mb :: eventParts)) :
    p.same s (t.abortOps ops) ↔ p.same s t := by
  simp_all [State.abortOps]

@[simp ↓] theorem same_clearCore {gi : Nat} (h : p.outside [.mem, .flaws, .cores]) :
    p.same s (t.clearCore gi) ↔ p.same s t := by
  simp_all [State.clearCore]

@[simp ↓] theorem same_clearClusters {q : Nat → Bool} {f : Bool → Cluster → Cluster} (h : p.outside [.mem, .flaws, .cores, .clusters]) :
    p.same s (t.clearClusters q f) ↔ p.same s t := by
  simp_all [State.clearClusters]

@[simp ↓] theorem same_noBist (h : p.outside [.rel]) :
    p.same s t.noBist ↔ p.same s t := by
  simp_all [State.noBist]

@[simp ↓] theorem same_clearNarrow {dies clusters cores : List Nat} {cut : List Endpoint}
    (h : p.outside (.mem :: .flaws :: .cores :: .clusters :: .outbox :: .step :: .grafters :: .coll :: .links :: .rel :: .mb :: .host :: .sec :: .rst
      :: eventParts)) :
    p.same s (t.clearNarrow dies clusters cores cut) ↔ p.same s t := by
  simp at h
  simp [State.clearNarrow, h]

@[simp ↓] theorem same_rebase (h : p.outside [.rel, .rst]) :
    p.same s t.rebase ↔ p.same s t := by
  simp only [State.rebase]
  simp_all

@[simp ↓] theorem same_clearFabric
    (h : p.outside [.mem, .flaws, .cores, .clusters, .outbox, .net, .frontTab, .frontQ, .streams, .frontHeld, .quietG, .quiescedG, .quiesce, .barrier,
      .rake, .step, .sieve, .grafters, .coll, .links, .rel, .host, .sec, .rst, .pwr, .fac, .hubFlitCe, .sundial]) :
    p.same s t.clearFabric ↔ p.same s t := by
  simp_all [State.clearFabric]

@[simp ↓] theorem same_clearReach3
    (h : p.outside (.outbox :: .net :: .frontTab :: .frontQ :: .streams :: .frontHeld :: .quietG :: .quiescedG :: .quiesce :: .barrier :: .rake :: .step
      :: .sieve :: .grafters :: .coll :: .links :: .rel :: .host :: .sec :: .rst :: .pwr :: .fac :: .hubFlitCe :: .sundial :: storeParts)) :
    p.same s t.clearReach3 ↔ p.same s t := by
  simp_all [State.clearReach3]

@[simp ↓] theorem same_gaugeReset {reach : Nat} (h : p.outside [.hub, .gauge]) :
    p.same s (t.gaugeReset reach) ↔ p.same s t := by
  simp_all [State.gaugeReset]

@[simp ↓] theorem same_clearWide {reach : Nat}
    (h : p.outside [.mem, .flaws, .hub, .mbx, .cores, .clusters, .outbox, .net, .frontTab, .frontQ, .streams, .frontHeld, .quietG, .quiescedG, .quiesce,
      .barrier, .rake, .step, .sieve, .layers, .layersNext, .factors, .grafters, .coll, .links, .harvest, .rel, .gauge, .mb, .host, .sec, .rst, .pwr, .fac,
      .hubFlitCe, .sundial, .logs, .logLost, .policy, .fresh]) :
    p.same s (t.clearWide reach) ↔ p.same s t := by
  simp at h
  simp [State.clearWide, h]

@[simp ↓] theorem same_request {src reach : Nat} {dies clusters cores : List Nat} {cut : List Endpoint}
    (h : p.outside (.outbox :: .frontQ :: .streams :: .quietG :: .quiescedG :: .quiesce :: .barrier :: .rake :: .layers :: .layersNext :: .rel :: .host
      :: .fac :: .hubFlitCe :: .sundial :: .policy :: .fresh :: registerParts)) :
    p.same s (t.request src reach dies clusters cores cut) ↔ p.same s t := by
  simp at h
  simp [State.request, h]

@[simp ↓] theorem same_hold_ {src : Nat} (h : p.outside [.rst]) :
    p.same s (t.hold_ src) ↔ p.same s t := by
  simp_all [State.hold_]

@[simp ↓] theorem same_drop_ {src : Nat} (h : p.outside [.rst]) :
    p.same s (t.drop_ src) ↔ p.same s t := by
  simp_all [State.drop_]

@[simp ↓] theorem same_grantReset {c : Cmd} {reach idx : Nat} (h : p.outside (.mb :: .rst :: eventParts)) :
    p.same s (t.grantReset c reach idx) ↔ p.same s t := by
  simp only [State.grantReset]
  split <;> simp_all

@[simp ↓] theorem same_setKey {key v : Nat} (h : p.outside [.hub, .clusters]) :
    p.same s (t.setKey key v) ↔ p.same s t := by
  simp only [State.setKey]
  (repeat' split) <;> simp_all

@[simp ↓] theorem same_loseCommits (h : p.outside [.hub, .clusters, .pwr, .fresh]) :
    p.same s t.loseCommits ↔ p.same s t := by
  simp_all [State.loseCommits]

@[simp ↓] theorem same_wearUp {key : Nat} (h : p.outside [.pwr]) :
    p.same s (t.wearUp key) ↔ p.same s t := by
  simp_all [State.wearUp]

@[simp ↓] theorem same_boot (h : p.outside (.sec :: .rst :: .pwr :: eventParts)) :
    p.same s t.boot ↔ p.same s t := by
  simp at h
  simp only [State.boot]
  split <;> simp [h]

@[simp ↓] theorem same_released (h : p.outside (.rst :: eventParts)) :
    p.same s t.released ↔ p.same s t := by
  simp only [State.released]
  simp_all

@[simp ↓] theorem same_phyUp (h : p.outside [.mem, .flaws, .hub, .fresh]) :
    p.same s t.phyUp ↔ p.same s t := by
  simp_all [State.phyUp]

@[simp ↓] theorem same_computeUp (h : p.outside [.hub, .host, .rst]) :
    p.same s t.computeUp ↔ p.same s t := by
  simp_all [State.computeUp]

@[simp ↓] theorem same_wake {dies : List Nat} (h : p.outside [.pwr]) :
    p.same s (t.wake dies) ↔ p.same s t := by
  simp_all [State.wake]

@[simp ↓] theorem same_recoverStep (h : p.outside (.net :: .step :: .sieve :: .coll :: .rel :: storeParts)) :
    p.same s t.recoverStep ↔ p.same s t := by
  simp at h
  simp only [State.recoverStep]
  split <;> simp [h]

@[simp ↓] theorem same_fabricUp
    (h : p.outside (.net :: .step :: .sieve :: .layers :: .layersNext :: .grafters :: .coll :: .links :: .rel :: .host :: .rst :: storeParts)) :
    p.same s t.fabricUp ↔ p.same s t := by
  simp_all [State.fabricUp]

/-! ### Operations of `Power` -/

@[simp ↓] theorem same_dropJob
    (h : p.outside (.clusters :: .outbox :: .net :: .frontHeld :: .quietG :: .quiescedG :: .quiesce :: .step :: .coll :: .links :: .mb :: eventParts)) :
    p.same s t.dropJob ↔ p.same s t := by
  simp_all [State.dropJob]

@[simp ↓] theorem same_enterNap
    (h : p.outside [.cores, .clusters, .outbox, .net, .frontQ, .streams, .frontHeld, .quietG, .quiescedG, .quiesce, .barrier, .grafters, .host]) :
    p.same s t.enterNap ↔ p.same s t := by
  simp_all [State.enterNap]

@[simp ↓] theorem same_enterDark
    (h : p.outside (.outbox :: .net :: .frontTab :: .frontQ :: .streams :: .frontHeld :: .quietG :: .quiescedG :: .quiesce :: .barrier :: .rake :: .step
      :: .sieve :: .grafters :: .coll :: .links :: .rel :: .host :: .sec :: .rst :: .pwr :: .fac :: .hubFlitCe :: .sundial :: .fresh :: storeParts)) :
    p.same s t.enterDark ↔ p.same s t := by
  simp at h
  simp [State.enterDark, h]

@[simp ↓] theorem same_enterOff
    (h : p.outside [.mem, .flaws, .hub, .mbx, .cores, .clusters, .outbox, .net, .frontTab, .frontQ, .streams, .frontHeld, .quietG, .quiescedG, .quiesce,
      .barrier, .rake, .step, .sieve, .layers, .layersNext, .factors, .grafters, .coll, .links, .harvest, .rel, .gauge, .mb, .host, .sec, .rst, .pwr, .fac,
      .hubFlitCe, .sundial, .logs, .logLost, .policy, .fresh]) :
    p.same s t.enterOff ↔ p.same s t := by
  simp_all [State.enterOff]

@[simp ↓] theorem same_powerBegin {target ticket : Nat} (h : p.outside [.mem, .flaws, .hub, .clusters, .quietG, .quiescedG, .quiesce, .pwr, .fresh]) :
    p.same s (t.powerBegin target ticket) ↔ p.same s t := by
  simp at h
  simp [State.powerBegin, h]

@[simp ↓] theorem same_powerGo {q : List (Nat × Nat)} (h : p.outside [.mem, .flaws, .hub, .clusters, .quietG, .quiescedG, .quiesce, .mb, .pwr, .msix, .fresh]) :
    p.same s (State.powerGo q t) ↔ p.same s t := by
  induction q generalizing t with
  | nil => simp_all [State.powerGo]
  | cons x rest ih => simp_all [State.powerGo]

@[simp ↓] theorem same_powerAsk {target ticket : Nat} (h : p.outside [.mem, .flaws, .hub, .clusters, .quietG, .quiescedG, .quiesce, .mb, .pwr, .msix, .fresh]) :
    p.same s (t.powerAsk target ticket) ↔ p.same s t := by
  simp_all [State.powerAsk]

@[simp ↓] theorem same_powerDone {target : Nat}
    (h : p.outside [.mem, .flaws, .hub, .clusters, .quietG, .quiescedG, .quiesce, .mb, .host, .rst, .pwr, .msix, .fresh]) :
    p.same s (t.powerDone target) ↔ p.same s t := by
  simp at h
  simp [State.powerDone, h]

@[simp ↓] theorem same_goDark
    (h : p.outside (.mem :: .flaws :: .clusters :: .outbox :: .net :: .frontHeld :: .quietG :: .quiescedG :: .quiesce :: .step :: .coll :: .links :: .mb
      :: .pwr :: .fresh :: eventParts)) :
    p.same s t.goDark ↔ p.same s t := by
  simp at h
  simp [State.goDark, h]

@[simp ↓] theorem same_levelEff {d : Nat} (h : p.outside [.hub]) :
    p.same s (t.levelEff d) ↔ p.same s t := by
  simp only [State.levelEff]
  split <;> simp_all

@[simp ↓] theorem same_throttleDie {q d t' : Nat} (h : p.outside eventParts) :
    p.same s (t.throttleDie q d t') ↔ p.same s t := by
  simp at h
  simp [State.throttleDie, h]

/-! ### Operations of `Secure` -/

@[simp ↓] theorem kept_guarded {op : Nat} {q : Cmd → Bool} {go : Cmd → State → State} (h : p.outside (.mb :: eventParts))
    (hgo : ∀ c u, p.same u (go c u)) : p.kept s (t.guarded op q go) ↔ p.same s t := by
  unfold State.guarded
  split
  · next c u e =>
    have hu := takeCmd_same (s := s) (p := p) (by simp_all) e
    simp_all [Part.same_congr (hgo _ _)]
  · simp

@[simp ↓] theorem same_endSession (h : p.outside [.hub, .cores]) :
    p.same s t.endSession ↔ p.same s t := by
  simp_all [State.endSession]

@[simp ↓] theorem same_newNonce (h : p.outside [.hub, .sec, .fresh]) :
    p.same s t.newNonce.2 ↔ p.same s t := by
  simp_all [State.newNonce]

@[simp ↓] theorem same_dropNonce (h : p.outside [.hub, .sec]) :
    p.same s t.dropNonce ↔ p.same s t := by
  simp_all [State.dropNonce]

@[simp ↓] theorem same_verify {kind : Nat} {tok : List Byte} (h : p.outside [.hub, .sec]) :
    p.same s (t.verify kind tok).2 ↔ p.same s t := by
  simp_all [State.verify]

@[simp ↓] theorem same_openSession {level path : Nat} (h : p.outside eventParts) :
    p.same s (t.openSession level path) ↔ p.same s t := by
  simp_all [State.openSession]

@[simp ↓] theorem same_unlock {path level : Nat} {tok : List Byte} (h : p.outside (.sec :: eventParts)) :
    p.same s (t.unlock path level tok).2 ↔ p.same s t := by
  have hv : p.same s (t.verify level tok).2 ↔ p.same s t := same_verify (by simp_all)
  simp only [State.unlock]
  generalize t.verify level tok = v at hv ⊢
  obtain ⟨_ | st, u⟩ := v <;> simp_all

@[simp ↓] theorem same_lifecycle {c : Cmd} {allowed : List Nat} {go : State → State} (h : p.outside (.cores :: .mb :: .sec :: eventParts))
    (hgo : ∀ u, p.same u (go u)) : p.same s (t.lifecycle c allowed go) ↔ p.same s t := by
  have hv : p.same s (t.verify (c.field 0 1) (c.body.drop 1)).2 ↔ p.same s t := same_verify (by simp_all)
  simp only [State.lifecycle]
  generalize t.verify (c.field 0 1) (c.body.drop 1) = v at hv ⊢
  obtain ⟨_ | st, u⟩ := v <;> simp_all [Part.same_congr (hgo _)]

@[simp ↓] theorem same_forgetRwp (h : p.outside (.clusters :: .pwr :: eventParts)) :
    p.same s t.forgetRwp ↔ p.same s t := by
  simp only [State.forgetRwp]
  refine (Part.same_foldl fun u ci => ?_).trans (Part.same_foldl fun u r => ?_)
  · simp_all
  · split
    · exact Part.foldl_same fun v i => by simp_all
    · exact Part.same_refl p u

@[simp ↓] theorem same_toReturned (h : p.outside (.clusters :: .sec :: .rst :: .pwr :: eventParts)) :
    p.same s t.toReturned ↔ p.same s t := by
  simp_all [State.toReturned]

@[simp ↓] theorem same_provision (h : p.outside (.cores :: .sec :: eventParts)) :
    p.same s t.provision ↔ p.same s t := by
  simp_all [State.provision]

@[simp ↓] theorem same_copyToC0 (h : p.outside [.mem, .flaws, .fresh]) :
    p.same s t.copyToC0 ↔ p.same s t := by
  simp_all [State.copyToC0]

@[simp ↓] theorem same_stageImage {src len : Nat} (h : p.outside [.mem, .flaws, .sec, .fresh]) :
    p.same s (t.stageImage src len).2 ↔ p.same s t := by
  simp only [State.stageImage]
  split <;> simp_all

@[simp ↓] theorem same_commitImage {img : List Byte} (h : p.outside [.sec]) :
    p.same s (t.commitImage img) ↔ p.same s t := by
  simp_all [State.commitImage]

@[simp ↓] theorem kept_spdm {go : State → SpdmRsp × State} (h : p.outside [.sec]) (hgo : ∀ u, p.same u (go u).2) :
    p.kept s (t.spdm go) ↔ p.same s t := by
  simp_all [State.spdm, Part.same_congr (hgo _)]

@[simp ↓] theorem same_negotiate {n : Nat} (h : p.outside [.sec]) :
    p.same s (t.negotiate n) ↔ p.same s t := by
  simp_all [State.negotiate]

@[simp ↓] theorem same_signed {bs : List Byte} (h : p.outside [.fresh]) :
    p.same s (t.signed bs).2 ↔ p.same s t := by
  simp_all [State.signed]

@[simp ↓] theorem same_setSession {id : Nat} {x : Option Session} (h : p.outside [.sec]) :
    p.same s (t.setSession id x) ↔ p.same s t := by
  simp_all [State.setSession]

@[simp ↓] theorem kept_inSession {id : Nat} {go : Session → State → SpdmRsp × State} (h : p.outside [.sec]) (hgo : ∀ e u, p.same u (go e u).2) :
    p.kept s (t.inSession id go) ↔ p.same s t := by
  refine kept_spdm h fun u => ?_
  repeat' split
  all_goals simp_all

@[simp ↓] theorem same_tdo {bs : List Byte} (h : p.outside [.sec]) :
    p.same s (t.tdo bs) ↔ p.same s t := by
  simp_all [State.tdo]

@[simp ↓] theorem same_tapIdle (h : p.outside [.sec]) :
    p.same s t.tapIdle ↔ p.same s t := by
  simp_all [State.tapIdle]

/-! ### Operations of `Recorder` -/

@[simp ↓] theorem same_clearGauge {token : List Byte} (h : p.outside eventParts) :
    p.same s (t.clearGauge token) ↔ p.same s t := by
  simp_all [State.clearGauge]

/-! ### Operations of `Facility` -/

@[simp ↓] theorem same_answerFac {r : Option (List Byte)} (h : p.outside [.fac]) :
    p.same s (t.answerFac r) ↔ p.same s t := by
  simp_all [State.answerFac]

@[simp ↓] theorem kept_message {go : State → State} (h : p.outside [.fac]) (hgo : ∀ u, p.same u (go u)) :
    p.kept s (t.message go) ↔ p.same s t := by
  simp_all [State.message, Part.same_congr (hgo _)]

@[simp ↓] theorem same_cml (h : p.outside [.hub, .fac]) :
    p.same s t.cml ↔ p.same s t := by
  simp_all [State.cml]

@[simp ↓] theorem same_readSensor {i : Nat} {on : Bool} (h : p.outside [.fac, .fresh]) :
    p.same s (t.readSensor i on) ↔ p.same s t := by
  simp_all [State.readSensor]

@[simp ↓] theorem same_disarm (h : p.outside [.hub, .fac]) :
    p.same s t.disarm ↔ p.same s t := by
  simp_all [State.disarm]

@[simp ↓] theorem same_levelsEff (h : p.outside [.hub]) :
    p.same s t.levelsEff ↔ p.same s t := by
  simp_all [State.levelsEff]

/-! ### Operations of `Regio` -/

@[simp ↓] theorem same_readPair {who : Agent} {pair v : Nat} {hi : Bool} (h : p.outside [.host]) :
    p.same s (t.readPair who pair v hi).2 ↔ p.same s t := by
  simp only [State.readPair]
  split <;> simp_all

@[simp ↓] theorem same_coldNext (h : p.outside [.hub]) :
    p.same s t.coldNext ↔ p.same s t := by
  simp_all [State.coldNext]

@[simp ↓] theorem same_coldRead (h : p.outside [.hub]) :
    p.same s t.coldRead.2 ↔ p.same s t := by
  simp_all [State.coldRead]

@[simp ↓] theorem same_coldWrite {v : Nat} (h : p.outside [.hub, .rst]) :
    p.same s (t.coldWrite v) ↔ p.same s t := by
  simp_all [State.coldWrite]

@[simp ↓] theorem same_readHub {who : Agent} {r : Reg} {i : Nat} (h : p.outside [.hub, .host]) :
    p.same s (t.readHub who r i).2 ↔ p.same s t := by
  simp at h
  simp only [State.readHub]
  split <;> simp [h]

@[simp ↓] theorem same_readGrafter {who : Agent} {k off : Nat} (h : p.outside [.grafters, .host]) :
    p.same s (t.readGrafter who k off).2 ↔ p.same s t := by
  simp at h
  rw [State.readGrafter]
  (repeat' split) <;> simp [h]

@[simp ↓] theorem same_readCluster {ci off : Nat} (h : p.outside [.clusters]) :
    p.same s (t.readCluster ci off).2 ↔ p.same s t := by
  simp only [State.readCluster]
  (repeat' split) <;> simp_all

@[simp ↓] theorem same_readShdr {i : Nat} (h : p.outside [.mb]) :
    p.same s (t.readShdr i).2 ↔ p.same s t := by
  simp only [State.readShdr]
  (repeat' split) <;> simp_all

@[simp ↓] theorem same_readBar0 {off : Nat} (h : p.outside [.mb]) :
    p.same s (t.readBar0 off).2 ↔ p.same s t := by
  simp at h
  simp only [State.readBar0]
  (repeat' split) <;> simp [h]

@[simp ↓] theorem same_readPlace {who : Agent} {q : RegPlace} (h : p.outside [.hub, .cores, .clusters, .grafters, .mb, .host]) :
    p.same s (t.readPlace who q).2 ↔ p.same s t := by
  simp at h
  simp only [State.readPlace]
  (repeat' split) <;> simp [h]

@[simp ↓] theorem same_writeHub {r : Reg} {i v : Nat}
    (h : p.outside (.step :: .sieve :: .factors :: .grafters :: .coll :: .links :: .sec :: .rst :: .pwr :: storeParts)) :
    p.same s (t.writeHub r i v) ↔ p.same s t := by
  simp at h
  simp only [State.writeHub]
  (repeat' split) <;> simp [h]

@[simp ↓] theorem same_writeGrafter {who : Agent} {k off v : Nat} (h : p.outside (.grafters :: storeParts)) :
    p.same s (t.writeGrafter who k off v) ↔ p.same s t := by
  simp at h
  rw [State.writeGrafter]
  (repeat' split) <;> simp [h]

@[simp ↓] theorem same_writeCluster {who : Agent} {ci off v be : Nat}
    (h : p.outside (.mbx :: .cores :: .clusters :: .net :: .frontHeld :: .pwr :: eventParts)) :
    p.same s (t.writeCluster who ci off v be) ↔ p.same s t := by
  simp at h
  simp only [State.writeCluster]
  (repeat' split) <;> simp [h]

@[simp ↓] theorem same_writeCore {who : Agent} {gi off v : Nat} (h : p.outside [.cores, .clusters, .net]) :
    p.same s (t.writeCore who gi off v) ↔ p.same s t := by
  simp_all [State.writeCore]

@[simp ↓] theorem same_writeBar0 {off v : Nat} (h : p.outside [.mbx, .mb]) :
    p.same s (t.writeBar0 off v) ↔ p.same s t := by
  simp at h
  rw [State.writeBar0]
  (repeat' split) <;> simp [h]

@[simp ↓] theorem same_writeFront {off v : Nat} (h : p.outside [.frontTab]) :
    p.same s (t.writeFront off v) ↔ p.same s t := by
  simp_all [State.writeFront]

@[simp ↓] theorem same_writePlace {who : Agent} {q : RegPlace} {v be : Nat} (h : p.outside registerParts) :
    p.same s (t.writePlace who q v be) ↔ p.same s t := by
  simp at h
  simp only [State.writePlace]
  (repeat' split) <;> simp [h]

/-! ### Operations of `RegAccess` -/

@[simp ↓] theorem same_gave {who : Agent} {v : Nat} (h : p.outside [.clusters, .host]) :
    p.same s (t.gave who v) ↔ p.same s t := by
  simp only [State.gave]
  split <;> simp_all

@[simp ↓] theorem same_readNow {who : Agent} {q : RegPlace} {be : Nat} (h : p.outside [.hub, .cores, .clusters, .grafters, .mb, .host]) :
    p.same s (t.readNow who q be) ↔ p.same s t := by
  simp_all [State.readNow]

@[simp ↓] theorem same_hostRead {a : RegAddr} {q : RegPlace} {be : Nat}
    (h : p.outside (.mbx :: .cores :: .clusters :: .net :: .grafters :: .mb :: .host :: eventParts)) :
    p.same s (t.hostRead a q be) ↔ p.same s t := by
  simp at h
  simp only [State.hostRead]
  (repeat' split) <;> simp [h]

@[simp ↓] theorem same_bar0Read {off be : Nat} (h : p.outside [.clusters, .mb, .host]) :
    p.same s (t.bar0Read off be) ↔ p.same s t := by
  simp only [State.bar0Read]
  split <;> simp_all

@[simp ↓] theorem same_regRead {a : RegAddr} {be : Nat} (h : p.outside (.mbx :: .cores :: .clusters :: .net :: .grafters :: .mb :: .host :: eventParts)) :
    p.same s (t.regRead a be) ↔ p.same s t := by
  simp at h
  simp only [State.regRead]
  split <;> simp [h]

@[simp ↓] theorem same_hostWrite {a : RegAddr} {q : RegPlace} {v be : Nat} (h : p.outside registerParts) :
    p.same s (t.hostWrite a q v be) ↔ p.same s t := by
  simp at h
  simp only [State.hostWrite]
  (repeat' split) <;> simp [h]

@[simp ↓] theorem same_regWrite {a : RegAddr} {v be : Nat} (h : p.outside registerParts) :
    p.same s (t.regWrite a v be) ↔ p.same s t := by
  simp at h
  simp only [State.regWrite]
  split <;> simp [h]

@[simp ↓] theorem same_drainHost {n : Nat} (h : p.outside (.host :: registerParts)) :
    p.same s (t.drainHost n) ↔ p.same s t := by
  induction n generalizing t with
  | zero => rfl
  | succ n ih =>
    unfold State.drainHost
    split
    · rfl
    · split
      · rfl
      · simp only [ih]
        split <;> simp_all

@[simp ↓] theorem same_hostDrained (h : p.outside (.host :: registerParts)) :
    p.same s t.hostDrained ↔ p.same s t := by
  simp_all [State.hostDrained]

@[simp ↓] theorem same_access {who : Agent} {x : HostAcc} {go : State → State} (h : p.outside (.host :: registerParts))
    (hgo : ∀ u, p.same u (go u)) : p.same s (t.access who x go) ↔ p.same s t := by
  simp_all [State.access, Part.same_congr (hgo _)]

/-! ### Operations of `Debug` -/

@[simp ↓] theorem kept_debugOp {q : Nat → Bool} {refuse : Cmd → State → Option Nat} {go : Cmd → Nat → State → State}
    (h : p.outside (.mb :: eventParts)) (hgo : ∀ c n u, p.same u (go c n u)) : p.kept s (t.debugOp q refuse go) ↔ p.same s t := by
  unfold State.debugOp
  split <;> simp_all

@[simp ↓] theorem same_scoped {scope idx : Nat} {f : Core → Core} (h : p.outside [.cores]) :
    p.same s (t.scoped scope idx f) ↔ p.same s t := by
  simp only [State.scoped]
  split <;> simp_all

@[simp ↓] theorem same_regWords {w n : Nat} (h : p.outside [.hub, .cores, .clusters, .grafters, .mb, .host]) :
    p.same s (t.regWords w n).2 ↔ p.same s t := by
  induction n generalizing t w with
  | zero => rfl
  | succ n ih => simp_all [State.regWords]

@[simp ↓] theorem same_putWords {a : Nat} {bs : List Byte} {ps : List (Nat × RegPlace)} (h : p.outside registerParts) :
    p.same s (t.putWords a bs ps) ↔ p.same s t := by
  simp only [State.putWords]
  simp_all

@[simp ↓] theorem same_memRead {c : Cmd} {e : List HbmErr} (h : p.outside [.mem, .hub, .cores, .clusters, .net, .grafters, .rel, .mb, .host]) :
    p.same s (t.memRead c e).2 ↔ p.same s t := by
  rw [State.memRead]
  split
  · split
    · exact Part.same_pair
    · split
      · exact Part.same_pair.trans (same_regWords (by simp_all))
      · exact same_readAt (by simp_all)
  · exact Part.same_pair
  · exact Part.same_pair

@[simp ↓] theorem same_memWrite {c : Cmd} {bs : List Byte} (h : p.outside registerParts) :
    p.same s (t.memWrite c bs) ↔ p.same s t := by
  simp at h
  simp only [State.memWrite]
  split <;> simp [h]

/-! ### Operations of `HostMem` -/

@[simp ↓] theorem same_unavailable (h : p.outside (.host :: eventParts)) :
    p.same s t.unavailable ↔ p.same s t := by
  simp_all [State.unavailable]

@[simp ↓] theorem same_hostMeets {e : HbmErr} (h : p.outside (.mem :: .rel :: eventParts)) :
    p.same s (t.hostMeets e) ↔ p.same s t := by
  simp only [State.hostMeets]
  split <;> simp_all

@[simp ↓] theorem same_hostBytes {a n : Nat} {es : List HbmErr} (h : p.outside (.mem :: .rel :: eventParts)) :
    p.same s (t.hostBytes a n es).2 ↔ p.same s t := by
  simp only [State.hostBytes]
  simp_all

/-! ### Operations of `Slice` -/

@[simp ↓] theorem same_dropTransition {n : Nat} (h : p.outside [.mem, .flaws, .hub, .clusters, .quietG, .quiescedG, .quiesce, .mb, .pwr, .msix, .fresh]) :
    p.same s (t.dropTransition n) ↔ p.same s t := by
  simp at h
  simp [State.dropTransition, h]

@[simp ↓] theorem same_abortTicket {n : Nat}
    (h : p.outside (.mem :: .flaws :: .clusters :: .quietG :: .quiescedG :: .quiesce :: .step :: .coll :: .links :: .harvest :: .rel :: .mb :: .pwr
      :: .fresh :: eventParts)) :
    p.same s (t.abortTicket n) ↔ p.same s t := by
  simp at h
  simp only [State.abortTicket]
  split <;> simp [h]

/-! ### Operations of `Vector` -/

@[simp ↓] theorem same_vword {gi op w : Nat} (h : p.outside [.mem, .flaws, .cores, .clusters, .net]) :
    p.same s (t.vword gi op w) ↔ p.same s t := by
  simp_all [State.vword]

/-! ### Commands of `Engine` -/

theorem listEntryFetch_kept {gi : Nat} {ups : List Upset} (h : p.outside [.mem, .flaws, .cores, .clusters, .net]) :
    p.kept s (execListEntryFetch gi ups s) := by
  simp at h
  simp only [execListEntryFetch]
  (repeat' split) <;> simp [h]

theorem repeatEntry_kept {gi : Nat} (h : p.outside [.cores]) :
    p.kept s (execRepeatEntry gi s) := by
  simp at h
  rw [execRepeatEntry]
  (repeat' split) <;> simp [h]

theorem descIssue_kept {gi : Nat} (h : p.outside [.hub, .cores, .clusters, .net, .sec]) :
    p.kept s (execDescIssue gi s) := by
  simp at h
  simp only [execDescIssue]
  (repeat' split) <;> simp [h]

theorem descEngineStop_kept {gi : Nat} (h : p.outside [.hub, .cores, .clusters, .net]) :
    p.kept s (execDescEngineStop gi s) := by
  simp at h
  simp only [execDescEngineStop]
  (repeat' split) <;> simp [h]

theorem chainBodyLoad_kept {gi : Nat} {ups : List Upset} (h : p.outside [.mem, .flaws, .cores, .clusters, .net]) :
    p.kept s (execChainBodyLoad gi ups s) := by
  simp only [execChainBodyLoad]
  split <;> simp_all

theorem descComplete_kept {gi : Nat} (h : p.outside [.cores, .clusters, .outbox, .net, .sec]) :
    p.kept s (execDescComplete gi s) := by
  simp at h
  simp only [execDescComplete]
  (repeat' split) <;> simp [h]

theorem nop_kept {gi : Nat} (h : p.outside [.cores, .clusters, .outbox, .net, .sec]) :
    p.kept s (execNop gi s) := by
  simp only [execNop]
  split <;> simp_all

theorem pass_kept {gi : Nat} {ups : List Upset} (h : p.outside [.mem, .flaws, .cores, .clusters, .net]) :
    p.kept s (execPass gi ups s) := by
  simp only [execPass]
  split <;> simp_all

theorem chain_kept {gi : Nat} {ups : List Upset} (h : p.outside [.mem, .flaws, .cores, .clusters, .net]) :
    p.kept s (execChain gi ups s) := by
  simp only [execChain]
  split <;> simp_all

theorem emul_kept {gi : Nat} (h : p.outside [.mem, .flaws, .cores, .clusters, .net]) :
    p.kept s (execEmul gi s) := by
  simp_all [execEmul]

theorem eadd_kept {gi : Nat} (h : p.outside [.mem, .flaws, .cores, .clusters, .net]) :
    p.kept s (execEadd gi s) := by
  simp_all [execEadd]

theorem efma_kept {gi : Nat} (h : p.outside [.mem, .flaws, .cores, .clusters, .net]) :
    p.kept s (execEfma gi s) := by
  simp_all [execEfma]

theorem fill_kept {gi : Nat} {ups : List Upset} (h : p.outside [.mem, .flaws, .cores, .clusters, .net]) :
    p.kept s (execFill gi ups s) := by
  simp_all [execFill]

theorem fillT_kept {gi : Nat} {ups : List Upset} (h : p.outside [.mem, .flaws, .cores, .clusters, .net]) :
    p.kept s (execFillT gi ups s) := by
  simp_all [execFillT]

theorem fillComplete_kept {gi : Nat} (h : p.outside [.cores]) :
    p.kept s (execFillComplete gi s) := by
  simp only [execFillComplete]
  split <;> simp_all

theorem load_kept {gi : Nat} (h : p.outside [.mem, .flaws, .cores, .clusters, .net]) :
    p.kept s (execLoad gi s) := by
  simp only [execLoad]
  split <;> simp_all

theorem store_kept {gi : Nat} (h : p.outside [.mem, .flaws, .cores, .clusters, .net]) :
    p.kept s (execStore gi s) := by
  simp only [execStore]
  split <;> simp_all

theorem send_kept {gi : Nat} (h : p.outside [.cores]) :
    p.kept s (execSend gi s) := by
  simp only [execSend]
  split <;> simp_all

theorem sendInject_kept {gi : Nat} (h : p.outside [.cores, .clusters, .net]) :
    p.kept s (execSendInject gi s) := by
  simp only [execSendInject]
  split <;> simp_all

theorem post_kept {gi : Nat} (h : p.outside [.cores, .net]) :
    p.kept s (execPost gi s) := by
  simp only [execPost]
  split <;> simp_all

theorem postArm_kept {gi : Nat} (h : p.outside [.cores, .net]) :
    p.kept s (execPostArm gi s) := by
  simp only [execPostArm]
  split <;> simp_all

theorem lmemEccWriteback_kept {gi : Nat} (h : p.outside [.mem, .flaws, .cores]) :
    p.kept s (execLmemEccWriteback gi s) := by
  simp only [execLmemEccWriteback]
  split <;> simp_all

theorem resultLand_kept {gi : Nat} (h : p.outside [.cores]) :
    p.kept s (execResultLand gi s) := by
  simp only [execResultLand]
  split <;> simp_all

theorem tokincWrite_kept {gi tok inc : Nat} (h : p.outside [.cores, .clusters, .net]) :
    p.kept s (execTokincWrite gi tok inc s) := by
  simp_all [execTokincWrite]

theorem cluLselWrite_kept {ci sel : Nat} (h : p.outside [.cores]) :
    p.kept s (execCluLselWrite ci sel s) := by
  simp_all [execCluLselWrite]

theorem patch_kept {gi first : Nat} {vals : List Nat} (h : p.outside [.cores]) :
    p.kept s (execPatch gi first vals s) := by
  simp at h
  simp [execPatch, h]

/-! ### Commands of `Trellis` -/

theorem msg_kept {n : Nat} {flits : List FlitErr} (h : p.outside [.mem, .flaws, .cores, .clusters, .net, .hubFlitCe]) :
    p.kept s (execMsg n flits s) := by
  unfold execMsg
  split
  · simp
  · next q u e =>
    have hu := takePacket_same (s := s) (p := p) (by simp_all) e
    split <;> simp_all

theorem token_kept {n : Nat} {flits : List FlitErr} (h : p.outside [.mem, .flaws, .cores, .clusters, .net, .hubFlitCe]) :
    p.kept s (execToken n flits s) := by
  unfold execToken
  split
  · simp
  · next q u e =>
    have hu := takePacket_same (s := s) (p := p) (by simp_all) e
    split <;> simp_all

theorem credit_kept {n : Nat} {flits : List FlitErr} (h : p.outside [.mem, .flaws, .cores, .clusters, .net, .hubFlitCe]) :
    p.kept s (execCredit n flits s) := by
  unfold execCredit
  split
  · simp
  · next q u e =>
    have hu := takePacket_same (s := s) (p := p) (by simp_all) e
    split <;> simp_all

theorem tc0PoliceAdmit_kept {n ci cycles : Nat} (h : p.outside [.clusters, .net]) :
    p.kept s (execTc0PoliceAdmit n ci cycles s) := by
  simp at h
  simp only [execTc0PoliceAdmit]
  (repeat' split) <;> simp [h]

theorem halt_kept {to_ : UrgTarget} {reason : Nat} {flits : List FlitErr} (h : p.outside [.cores, .clusters, .net, .hubFlitCe]) :
    p.kept s (execHalt to_ reason flits s) := by
  simp_all [execHalt]

theorem resume_kept {to_ : UrgTarget} {flits : List FlitErr} (h : p.outside [.cores, .clusters, .net, .hubFlitCe]) :
    p.kept s (execResume to_ flits s) := by
  simp_all [execResume]

theorem quiesceUrgent_kept {e : Endpoint} {flits : List FlitErr} (h : p.outside [.clusters, .net, .quietG, .quiescedG, .hubFlitCe]) :
    p.kept s (execQuiesceUrgent e flits s) := by
  simp only [execQuiesceUrgent]
  split <;> simp_all

theorem barrierArrive_kept {ci id : Nat} {flits : List FlitErr} (h : p.outside [.clusters, .net, .barrier, .hubFlitCe]) :
    p.kept s (execBarrierArrive ci id flits s) := by
  simp at h
  simp [execBarrierArrive, h]

theorem barrierRelease_kept (h : p.outside [.clusters, .barrier]) :
    p.kept s (execBarrierRelease s) := by
  simp only [execBarrierRelease]
  split <;> simp_all

/-! ### Commands of `Links` -/

theorem frameForward_kept {k lseq : Nat} {f : Frame} (h : p.outside (.links :: eventParts)) :
    p.kept s (execFrameForward k lseq f s) := by
  simp at h
  simp only [execFrameForward]
  split <;> simp [h]

theorem ack_kept {k lseq : Nat} (h : p.outside [.links]) :
    p.kept s (execAck k lseq s) := by
  simp at h
  simp only [execAck]
  split <;> simp [h]

theorem nak_kept {k lseq : Nat} (h : p.outside [.hub, .links]) :
    p.kept s (execNak k lseq s) := by
  simp at h
  simp only [execNak]
  split <;> simp [h]

theorem badCrcFrame_kept {k : Nat} {crc : Bool} (h : p.outside [.hub, .links]) :
    p.kept s (execBadCrcFrame k crc s) := by
  simp_all [execBadCrcFrame]

theorem portRetrain_kept {k : Nat} {ok : Bool} (h : p.outside (.links :: eventParts)) :
    p.kept s (execPortRetrain k ok s) := by
  simp at h
  simp only [execPortRetrain]
  split <;> simp [h]

theorem laneSpare_kept {k lane : Nat} (h : p.outside (.links :: .pwr :: eventParts)) :
    p.kept s (execLaneSpare k lane s) := by
  simp_all [execLaneSpare]

theorem laneLoss_kept {k lane : Nat} (h : p.outside (.links :: eventParts)) :
    p.kept s (execLaneLoss k lane s) := by
  simp_all [execLaneLoss]

theorem laneWindow_kept {k lane symbols received : Nat} (h : p.outside (.links :: .pwr :: eventParts)) :
    p.kept s (execLaneWindow k lane symbols received s) := by
  simp at h
  simp [execLaneWindow, h]

theorem spareEyeCheck_kept {k : Nat} {ok : Bool} (h : p.outside (.links :: eventParts)) :
    p.kept s (execSpareEyeCheck k ok s) := by
  simp_all [execSpareEyeCheck]

theorem v1msg_kept {k peer : Nat} {data : List Byte} (h : p.outside (.links :: storeParts)) :
    p.kept s (execV1msg k peer data s) := by
  simp at h
  simp [execV1msg, h]

/-! ### Commands of `Discovery` -/

theorem helloSend_kept (h : p.outside [.links]) :
    p.kept s (execHelloSend s) := by
  simp_all [execHelloSend]

theorem hello_kept {k lseq : Nat} {h' : HelloMsg} (h : p.outside (.links :: eventParts)) :
    p.kept s (execHello k lseq h' s) := by
  simp only [execHello]
  simp_all

theorem discoveryRootAssign_kept {ns : List Node} (h : p.outside (.links :: .mb :: .pwr :: eventParts)) :
    p.kept s (execDiscoveryRootAssign ns s) := by
  simp at h
  simp only [execDiscoveryRootAssign]
  (repeat' split) <;> simp [h]

theorem disc_kept {k lseq : Nat} {d : DiscMsg} (h : p.outside (.links :: .mb :: .pwr :: eventParts)) :
    p.kept s (execDisc k lseq d s) := by
  simp only [execDisc]
  split <;> simp_all

theorem portRejoin_kept {k : Nat} {h' : Option HelloMsg} (h : p.outside (.links :: eventParts)) :
    p.kept s (execPortRejoin k h' s) := by
  simp at h
  simp only [execPortRejoin]
  (repeat' split) <;> simp [h]

theorem sundialSyncTimer_kept {ph : Nat} (h : p.outside [.links]) :
    p.kept s (execSundialSyncTimer ph s) := by
  simp only [execSundialSyncTimer]
  split <;> simp_all

theorem syncReq_kept {k lseq t2 ph : Nat} (h : p.outside [.links]) :
    p.kept s (execSyncReq k lseq t2 ph s) := by
  simp_all [execSyncReq]

theorem syncResp_kept {k lseq t2 t3 t4 stamp : Nat} (h : p.outside [.hub, .grafters, .links, .gauge, .sundial, .fresh]) :
    p.kept s (execSyncResp k lseq t2 t3 t4 stamp s) := by
  refine Part.kept_next.2 ((same_takeFrame (by simp_all) fun u => ?_).2 (Part.same_refl p s))
  simp_all

theorem parentLost_kept (h : p.outside (.links :: eventParts)) :
    p.kept s (execParentLost s) := by
  simp at h
  simp only [execParentLost]
  (repeat' split) <;> simp [h]

theorem rootLost_kept (h : p.outside (.links :: eventParts)) :
    p.kept s (execRootLost s) := by
  simp at h
  simp [execRootLost, h]

theorem sdlSyncSend_kept (h : p.outside [.net]) :
    p.kept s (execSdlSyncSend s) := by
  simp_all [execSdlSyncSend]

theorem sdlSync_kept {n : Nat} {flits : List FlitErr} (h : p.outside [.clusters, .net, .grafters, .hubFlitCe]) :
    p.kept s (execSdlSync n flits s) := by
  unfold execSdlSync
  split
  · simp
  · next q u e =>
    have hu := takeUrgent_same (s := s) (p := p) (by simp_all) e
    simp_all
  · next q a u e =>
    have hu := takeUrgent_same (s := s) (p := p) (by simp_all) e
    split <;> simp_all

/-! ### Commands of `Memory` -/

theorem mrd_kept {n : Nat} {ups : List Upset} {hbm : List HbmErr} {flits : List FlitErr}
    (h : p.outside [.mem, .flaws, .hub, .cores, .clusters, .net, .rel, .hubFlitCe]) :
    p.kept s (execMrd n ups hbm flits s) := by
  unfold execMrd
  split
  · simp
  · next q u e =>
    have hu := takePacket_same (s := s) (p := p) (by simp_all) e
    split <;> simp_all

theorem mwr_kept {n : Nat} {flits : List FlitErr} (h : p.outside (.net :: .hubFlitCe :: storeParts)) :
    p.kept s (execMwr n flits s) := by
  unfold execMwr
  split
  · simp
  · next q u e =>
    have hu := takePacket_same (s := s) (p := p) (by simp_all) e
    (repeat' split) <;> simp_all

theorem mrsp_kept {n : Nat} {flits : List FlitErr} (h : p.outside [.mem, .flaws, .cores, .clusters, .net, .hubFlitCe]) :
    p.kept s (execMrsp n flits s) := by
  unfold execMrsp
  split
  · simp
  · next q u e =>
    have hu := takePacket_same (s := s) (p := p) (by simp_all) e
    split
    · simp only []
      (repeat' split) <;> simp_all
    · simpa using hu
    · simp

theorem quiesced_kept (h : p.outside [.quiesce, .gauge, .mb, .msix]) :
    p.kept s (execQuiesced s) := by
  simp only [execQuiesced]
  split <;> simp_all

theorem quiesceTimeout_kept (h : p.outside (.quiesce :: .mb :: eventParts)) :
    p.kept s (execQuiesceTimeout s) := by
  simp only [execQuiesceTimeout]
  split <;> simp_all

theorem cstoreEccWriteback_kept {ci : Nat} (h : p.outside [.mem, .flaws, .clusters]) :
    p.kept s (execCstoreEccWriteback ci s) := by
  simp only [execCstoreEccWriteback]
  split <;> simp_all

theorem rowRepair_kept {spare : Bool} (h : p.outside (.rel :: eventParts)) :
    p.kept s (execRowRepair spare s) := by
  simp only [execRowRepair]
  split <;> simp_all

theorem hbmPatrolScrub_kept {unit : Nat} {e : Option HbmErr} {last : Bool} (h : p.outside (.mem :: .rel :: eventParts)) :
    p.kept s (execHbmPatrolScrub unit e last s) := by
  simp at h
  simp only [execHbmPatrolScrub]
  (repeat' split) <;> simp [h]

theorem mramPatrolScrub_kept {slot rec : Nat} {bad : Option (List Byte)} (h : p.outside eventParts) :
    p.kept s (execMramPatrolScrub slot rec bad s) := by
  simp only [execMramPatrolScrub]
  split <;> simp_all

theorem rowErrorWindowExpire_kept {k row : Nat} (h : p.outside [.rel]) :
    p.kept s (execRowErrorWindowExpire k row s) := by
  simp_all [execRowErrorWindowExpire]

/-! ### Commands of `Grafter` -/

theorem grfSubloWrite_kept {who : Agent} {k v : Nat} (h : p.outside [.clusters, .grafters]) :
    p.kept s (execGrfSubloWrite who k v s) := by
  simp_all [execGrfSubloWrite]

theorem grfSubmit_kept {who : Agent} {k v : Nat} (h : p.outside [.grafters]) :
    p.kept s (execGrfSubmit who k v s) := by
  simp_all [execGrfSubmit]

theorem grafterJobStart_kept {k : Nat} {hbm : List HbmErr} (h : p.outside (.net :: .grafters :: .rel :: .fresh :: storeParts)) :
    p.kept s (execGrafterJobStart k hbm s) := by
  simp at h
  refine (kept_hbmRun (by simp [h]) fun u => ?_).2 (Part.same_refl p s)
  simp only []
  split
  · simp
  · split <;> simp [h]

theorem root_kept {k i : Nat} (h : p.outside (.grafters :: .fresh :: storeParts)) :
    p.kept s (execRoot k i s) := by
  simp at h
  simp only [execRoot]
  split <;> simp [h]

theorem orth_kept {k i : Nat} (h : p.outside (.grafters :: .fresh :: storeParts)) :
    p.kept s (execOrth k i s) := by
  simp at h
  simp only [execOrth]
  split <;> simp [h]

theorem chol_kept {k i : Nat} (h : p.outside (.grafters :: .fresh :: storeParts)) :
    p.kept s (execChol k i s) := by
  simp at h
  simp only [execChol]
  (repeat' split) <;> simp [h]

theorem trsv_kept {k i : Nat} (h : p.outside (.grafters :: .fresh :: storeParts)) :
    p.kept s (execTrsv k i s) := by
  simp at h
  simp only [execTrsv]
  split <;> simp [h]

theorem cg_kept {k i : Nat} (h : p.outside (.grafters :: .fresh :: storeParts)) :
    p.kept s (execCg k i s) := by
  simp at h
  simp only [execCg]
  (repeat' split) <;> simp [h]

theorem grafterIterationComplete_kept {k i : Nat} (h : p.outside (.grafters :: storeParts)) :
    p.kept s (execGrafterIterationComplete k i s) := by
  simp only [execGrafterIterationComplete]
  split <;> simp_all

theorem jobDeadline_kept {k i : Nat} (h : p.outside (.grafters :: storeParts)) :
    p.kept s (execJobDeadline k i s) := by
  simp only [execJobDeadline]
  split <;> simp_all

theorem grfAbort_kept {k v : Nat} (h : p.outside (.grafters :: storeParts)) :
    p.kept s (execGrfAbort k v s) := by
  simp_all [execGrfAbort]

/-! ### Commands of `Factor` -/

theorem factorFoldTile_kept {fidx side blk x : Nat} {hbm : List HbmErr} (h : p.outside (.net :: .step :: .rel :: storeParts)) :
    p.kept s (execFactorFoldTile fidx side blk x hbm s) := by
  simp at h
  refine (kept_hbmRun (by simp [h]) fun u => ?_).2 (Part.same_refl p s)
  split
  · simp
  · simp only []
    split
    · split <;> simp [h]
    · simp

/-! ### Commands of `Boundary` -/

theorem broadcastPatchLand_kept (h : p.outside [.cores, .step]) :
    p.kept s (execBroadcastPatchLand s) := by
  simp only [execBroadcastPatchLand]
  split <;> simp_all

theorem rampGroupRelease_kept {g : Nat} (h : p.outside [.clusters]) :
    p.kept s (execRampGroupRelease g s) := by
  simp at h
  simp [execRampGroupRelease, h]

theorem launchTime_kept (h : p.outside [.hub]) :
    p.kept s (execLaunchTime s) := by
  simp_all [execLaunchTime]

theorem phaseSwitch_kept (h : p.outside [.hub, .cores, .step]) :
    p.kept s (execPhaseSwitch s) := by
  simp at h
  simp [execPhaseSwitch, h]

theorem sieveResume_kept (h : p.outside [.hub]) :
    p.kept s (execSieveResume s) := by
  simp_all [execSieveResume]

theorem windowClear_kept (h : p.outside [.sieve]) :
    p.kept s (execWindowClear s) := by
  simp_all [execWindowClear]

/-! ### Commands of `Fronts` -/

theorem frontLaunchRequest_kept {n : Nat} {flits : List FlitErr} (h : p.outside [.clusters, .net, .frontQ, .hubFlitCe]) :
    p.kept s (execFrontLaunchRequest n flits s) := by
  unfold execFrontLaunchRequest
  split
  · simp
  · next q u e =>
    have hu := takePacket_same (s := s) (p := p) (by simp_all) e
    split <;> simp_all

theorem fillIn_kept {gi : Nat} (h : p.outside [.cores, .clusters, .outbox, .net]) :
    p.kept s (execFillIn gi s) := by
  simp_all [execFillIn]

theorem frontMarker_kept {n : Nat} {flits : List FlitErr} (h : p.outside [.cores, .clusters, .outbox, .net, .streams, .hubFlitCe]) :
    p.kept s (execFrontMarker n flits s) := by
  unfold execFrontMarker
  split
  · simp
  · next q u e =>
    have hu := takePacket_same (s := s) (p := p) (by simp_all) e
    (repeat' split) <;> simp_all

theorem frontTile_kept {n : Nat} {flits : List FlitErr} (h : p.outside [.cores, .clusters, .outbox, .net, .streams, .hubFlitCe]) :
    p.kept s (execFrontTile n flits s) := by
  unfold execFrontTile
  split
  · simp
  · next q u e =>
    have hu := takePacket_same (s := s) (p := p) (by simp_all) e
    (repeat' split) <;> simp_all

theorem rakeSq_kept {gi : Nat} {ups : List Upset} {hbm : List HbmErr} (h : p.outside [.mem, .flaws, .hub, .cores, .clusters, .net, .rake, .rel]) :
    p.kept s (execRakeSq gi ups hbm s) := by
  simp at h
  simp only [execRakeSq]
  split <;> simp [h]

/-! ### Commands of `Sieve` -/

theorem listComplete_kept {gi : Nat}
    (h : p.outside (.rake :: .step :: .sieve :: .layers :: .layersNext :: .grafters :: .coll :: .rel :: .hubFlitCe :: .fresh :: storeParts)) :
    p.kept s (execListComplete gi s) := by
  simp at h
  simp only [execListComplete]
  split <;> simp [h]

theorem rakeClose_kept (h : p.outside (.cores :: .clusters :: .rake :: .step :: .rel :: .hubFlitCe :: eventParts)) :
    p.kept s (execRakeClose s) := by
  simp at h
  simp only [execRakeClose]
  split <;> simp [h]

/-! ### Commands of `Sweep` -/

theorem sweepRecord_kept {i : Nat} {hbm : List HbmErr}
    (h : p.outside (.net :: .step :: .sieve :: .layers :: .layersNext :: .grafters :: .coll :: .rel :: storeParts)) :
    p.kept s (execSweepRecord i hbm s) := by
  simp at h
  simp only [execSweepRecord]
  split <;> simp [h]

theorem recoverySweep_kept {hbm : List HbmErr} (h : p.outside (.net :: .step :: .sieve :: .layers :: .layersNext :: .grafters :: .coll :: .rel :: storeParts)) :
    p.kept s (execRecoverySweep hbm s) := by
  simp at h
  refine (kept_hbmRun (by simp [h]) fun u => ?_).2 (Part.same_refl p s)
  simp [h]

theorem workingCopyAudit_kept {hbm : List HbmErr} (h : p.outside (.mem :: .net :: .step :: .coll :: .links :: .rel :: eventParts)) :
    p.kept s (execWorkingCopyAudit hbm s) := by
  refine (kept_hbmRun (by simp_all) fun u => ?_).2 (Part.same_refl p s)
  split
  · simp
  · simp only []
    split
    · refine Part.kept_next.2 ((Part.same_foldl fun v e => ?_).2 ?_) <;> simp_all
    · simp

theorem auditRepair_kept {codes : List (Nat × Nat)} {hbm : List HbmErr} (h : p.outside (.net :: .step :: .rel :: storeParts)) :
    p.kept s (execAuditRepair codes hbm s) := by
  simp at h
  refine (kept_hbmRun (by simp [h]) fun u => ?_).2 (Part.same_refl p s)
  split
  · simp only []
    split <;> split <;> simp [h]
  · simp

/-! ### Commands of `Collectives` -/

theorem collFrame_kept {k lseq : Nat} {f : Frame} {hbm : List HbmErr}
    (h : p.outside (.net :: .step :: .factors :: .grafters :: .coll :: .links :: .rel :: storeParts)) :
    p.kept s (execCollFrame k lseq f hbm s) := by
  refine (kept_hbmRun (by simp_all) fun u => ?_).2 (Part.same_refl p s)
  split
  · split
    · refine Part.kept_next.2 ((same_takeFrame (by simp_all) fun v => ?_).2 (Part.same_refl p u))
      simp_all
    · simp
  · simp

theorem normAllreduce_kept (h : p.outside (.step :: .factors :: .grafters :: .coll :: .links :: storeParts)) :
    p.kept s (execNormAllreduce s) := by
  simp_all [execNormAllreduce]

theorem sieveDecide_kept
    (h : p.outside (.quietG :: .quiescedG :: .quiesce :: .step :: .sieve :: .layers :: .layersNext :: .factors :: .grafters :: .coll :: .links :: .fresh
      :: storeParts)) :
    p.kept s (execSieveDecide s) := by
  simp at h
  simp only [execSieveDecide]
  split <;> simp [h]

theorem factorExchange_kept {hbm : List HbmErr} (h : p.outside (.net :: .step :: .factors :: .grafters :: .coll :: .links :: .rel :: storeParts)) :
    p.kept s (execFactorExchange hbm s) := by
  refine (kept_hbmRun (by simp_all) fun u => ?_).2 (Part.same_refl p s)
  (repeat' split) <;> simp_all

theorem gather_kept {hbm : List HbmErr} (h : p.outside (.net :: .step :: .factors :: .grafters :: .coll :: .links :: .rel :: storeParts)) :
    p.kept s (execGather hbm s) := by
  refine (kept_hbmRun (by simp_all) fun u => ?_).2 (Part.same_refl p s)
  (repeat' split) <;> simp_all

theorem replay_kept
    (h : p.outside (.outbox :: .net :: .frontHeld :: .quietG :: .quiescedG :: .quiesce :: .rake :: .step :: .sieve :: .factors :: .grafters :: .coll
      :: .links :: storeParts)) :
    p.kept s (execReplay s) := by
  simp at h
  simp only [execReplay]
  (repeat' split) <;> simp [h]

theorem reduceScatterLayer_kept {hbm : List HbmErr} (h : p.outside (.net :: .step :: .factors :: .grafters :: .coll :: .links :: .rel :: storeParts)) :
    p.kept s (execReduceScatterLayer hbm s) := by
  refine (kept_hbmRun (by simp_all) fun u => ?_).2 (Part.same_refl p s)
  split
  · simp
  · simp only []
    split
    · rw [Part.kept_next, same_settleColl (by simp_all)]
      refine (Part.same_foldl fun v r => Part.foldl_same fun w q => ?_).2 ?_ <;> simp_all
    · simp

theorem rsLanded_kept (h : p.outside [.mem, .flaws, .hub, .cores, .clusters, .step, .fresh]) :
    p.kept s (execRsLanded s) := by
  simp at h
  simp only [execRsLanded]
  split <;> simp [h]

theorem gdoneNotice_kept {n : Nat} {flits : List FlitErr}
    (h : p.outside (.net :: .step :: .factors :: .grafters :: .coll :: .links :: .hubFlitCe :: storeParts)) :
    p.kept s (execGdoneNotice n flits s) := by
  unfold execGdoneNotice
  split
  · simp
  · next u e =>
    have hu := takeNotice_same (s := s) (p := p) (by simp_all) e
    simp_all
  · next i u e =>
    have hu := takeNotice_same (s := s) (p := p) (by simp_all) e
    simp_all

theorem ddoneNotice_kept {n : Nat} {flits : List FlitErr} (h : p.outside [.cores, .clusters, .net, .step, .hubFlitCe]) :
    p.kept s (execDdoneNotice n flits s) := by
  unfold execDdoneNotice
  split
  · simp
  · next u e =>
    have hu := takeNotice_same (s := s) (p := p) (by simp_all) e
    simp_all
  · next i u e =>
    have hu := takeNotice_same (s := s) (p := p) (by simp_all) e
    simp_all

theorem errorNotice_kept {n : Nat} {flits : List FlitErr}
    (h : p.outside (.clusters :: .net :: .quietG :: .quiescedG :: .quiesce :: .step :: .sieve :: .coll :: .links :: .rel :: .mb :: .hubFlitCe :: eventParts)) :
    p.kept s (execErrorNotice n flits s) := by
  unfold execErrorNotice
  split
  · simp
  · next q u e =>
    have hu := takeUrgent_same (s := s) (p := p) (by simp_all) e
    simp_all
  · next q a u e =>
    have hu := takeUrgent_same (s := s) (p := p) (by simp_all) e
    simp only []
    (repeat' split) <;> simp_all

theorem replayReq_kept {k lseq : Nat} {f : Frame}
    (h : p.outside (.clusters :: .quietG :: .quiescedG :: .quiesce :: .step :: .sieve :: .coll :: .links :: .mb :: eventParts)) :
    p.kept s (execReplayReq k lseq f s) := by
  unfold execReplayReq
  split
  · split
    · refine Part.kept_next.2 ((same_takeFrame (by simp_all) fun v => ?_).2 (Part.same_refl p s))
      simp_all
    · simp
  · simp

theorem stepReplay_kept
    (h : p.outside (.outbox :: .net :: .frontHeld :: .quietG :: .quiescedG :: .quiesce :: .rake :: .step :: .sieve :: .factors :: .grafters :: .coll
      :: .links :: storeParts)) :
    p.kept s (execStepReplay s) := by
  simp at h
  simp [execStepReplay, h]

/-! ### Commands of `Mailbox` -/

theorem mailboxDoorbell_kept {op : Nat} {payload : List Byte} (h : p.outside (.mb :: eventParts)) :
    p.kept s (execMailboxDoorbell op payload s) := by
  simp at h
  simp [execMailboxDoorbell, h]

theorem slotAck_kept {mask : Nat} (h : p.outside [.mb]) :
    p.kept s (execSlotAck mask s) := by
  simp_all [execSlotAck]

theorem ticketAck_kept {mask : Nat} (h : p.outside [.mb]) :
    p.kept s (execTicketAck mask s) := by
  simp_all [execTicketAck]

theorem getEventRecords_kept (h : p.outside [.mb, .msix]) :
    p.kept s (execGetEventRecords s) := by
  refine (kept_cxlRun (by simp_all) fun b u => ?_).2 (Part.same_refl p s)
  simp only []
  (repeat' split) <;> simp_all

theorem clearEventRecords_kept (h : p.outside [.mb, .logs, .logLost, .msix]) :
    p.kept s (execClearEventRecords s) := by
  refine (kept_cxlRun (by simp_all) fun b u => ?_).2 (Part.same_refl p s)
  simp only []
  (repeat' split) <;> simp_all

theorem getEventInterruptPolicy_kept (h : p.outside [.mb, .msix]) :
    p.kept s (execGetEventInterruptPolicy s) := by
  refine (kept_cxlRun (by simp_all) fun b u => ?_).2 (Part.same_refl p s)
  (repeat' split) <;> simp_all

theorem setEventInterruptPolicy_kept (h : p.outside [.mb, .policy, .msix]) :
    p.kept s (execSetEventInterruptPolicy s) := by
  refine (kept_cxlRun (by simp_all) fun b u => ?_).2 (Part.same_refl p s)
  simp only []
  (repeat' split) <;> simp_all

theorem getFwInfo_kept (h : p.outside [.mb, .msix]) :
    p.kept s (execGetFwInfo s) := by
  refine (kept_cxlRun (by simp_all) fun b u => ?_).2 (Part.same_refl p s)
  (repeat' split) <;> simp_all

theorem getSupportedLogs_kept (h : p.outside [.mb, .msix]) :
    p.kept s (execGetSupportedLogs s) := by
  refine (kept_cxlRun (by simp_all) fun b u => ?_).2 (Part.same_refl p s)
  (repeat' split) <;> simp_all

theorem getLog_kept (h : p.outside [.mb, .msix]) :
    p.kept s (execGetLog s) := by
  refine (kept_cxlRun (by simp_all) fun b u => ?_).2 (Part.same_refl p s)
  simp only []
  (repeat' split) <;> simp_all

theorem getInfo_kept (h : p.outside (.mb :: eventParts)) :
    p.kept s (execGetInfo s) := by
  simp_all [execGetInfo]

theorem getStatus_kept (h : p.outside (.mb :: eventParts)) :
    p.kept s (execGetStatus s) := by
  simp_all [execGetStatus]

theorem getTelemetry_kept (h : p.outside (.mb :: .fresh :: eventParts)) :
    p.kept s (execGetTelemetry s) := by
  simp only [execGetTelemetry]
  simp_all

theorem fpflagReduce_kept (h : p.outside (.mb :: eventParts)) :
    p.kept s (execFpflagReduce s) := by
  simp_all [execFpflagReduce]

theorem v1Identify_kept (h : p.outside (.mb :: eventParts)) :
    p.kept s (execV1Identify s) := by
  simp_all [execV1Identify]

theorem v1Health_kept (h : p.outside (.mb :: .fresh :: eventParts)) :
    p.kept s (execV1Health s) := by
  simp_all [execV1Health]

theorem v1GetLog_kept (h : p.outside (.mb :: eventParts)) :
    p.kept s (execV1GetLog s) := by
  simp_all [execV1GetLog]

theorem setPowerCap_kept (h : p.outside (.mb :: .pwr :: eventParts)) :
    p.kept s (execSetPowerCap s) := by
  simp_all [execSetPowerCap]

theorem v1SetPcap_kept (h : p.outside (.mb :: .pwr :: eventParts)) :
    p.kept s (execV1SetPcap s) := by
  simp_all [execV1SetPcap]

theorem quiesce_kept (h : p.outside (.clusters :: .quietG :: .quiescedG :: .quiesce :: .mb :: eventParts)) :
    p.kept s (execQuiesce s) := by
  simp_all [execQuiesce]

theorem broadcastPatch_kept (h : p.outside (.step :: .mb :: eventParts)) :
    p.kept s (execBroadcastPatch s) := by
  refine (kept_short (by simp_all) fun c u => ?_).2 (Part.same_refl p s)
  split <;> simp_all

theorem copySram_kept {hbm : List HbmErr} (h : p.outside (.net :: .rel :: storeParts)) :
    p.kept s (execCopySram hbm s) := by
  refine (kept_hbmRun (by simp_all) fun u => ?_).2 (Part.same_refl p s)
  refine (kept_long (by simp_all) fun c n v => ?_).2 (Part.same_refl p u)
  rw [same_finish (by simp_all)]
  refine (Part.same_foldl_fst fun w i => ?_).2 (Part.same_refl p v)
  simp_all

theorem v1Send_kept {hbm : List HbmErr} (h : p.outside (.mem :: .net :: .links :: .rel :: .mb :: eventParts)) :
    p.kept s (execV1Send hbm s) := by
  refine (kept_hbmRun (by simp_all) fun u => ?_).2 (Part.same_refl p s)
  refine (kept_long (by simp_all) fun c n v => ?_).2 (Part.same_refl p u)
  simp_all

theorem ticketAbort_kept (h : p.outside (.mb :: eventParts)) :
    p.kept s (execTicketAbort s) := by
  simp only [execTicketAbort]
  simp_all

/-! ### Commands of `Tables` -/

theorem layerWrite_kept {hbm : List HbmErr} (h : p.outside (.mem :: .net :: .layers :: .layersNext :: .rel :: .mb :: eventParts)) :
    p.kept s (execLayerWrite hbm s) := by
  refine (kept_hbmRun (by simp_all) fun u => ?_).2 (Part.same_refl p s)
  refine (kept_long (by simp_all) fun c n v => ?_).2 (Part.same_refl p u)
  simp_all

theorem layerRead_kept (h : p.outside storeParts) :
    p.kept s (execLayerRead s) := by
  simp_all [execLayerRead]

theorem factorWrite_kept {hbm : List HbmErr} (h : p.outside (.mem :: .net :: .factors :: .rel :: .mb :: eventParts)) :
    p.kept s (execFactorWrite hbm s) := by
  refine (kept_hbmRun (by simp_all) fun u => ?_).2 (Part.same_refl p s)
  refine (kept_long (by simp_all) fun c n v => ?_).2 (Part.same_refl p u)
  simp_all

theorem factorRead_kept (h : p.outside storeParts) :
    p.kept s (execFactorRead s) := by
  simp_all [execFactorRead]

/-! ### Commands of `Job` -/

theorem jobStart_kept {hbm : List HbmErr}
    (h : p.outside (.net :: .step :: .sieve :: .layers :: .layersNext :: .grafters :: .coll :: .rel :: .sec :: storeParts)) :
    p.kept s (execJobStart hbm s) := by
  refine (kept_hbmRun (by simp_all) fun u => ?_).2 (Part.same_refl p s)
  refine (kept_long (by simp_all) fun c n v => ?_).2 (Part.same_refl p u)
  simp_all

theorem jobStop_kept (h : p.outside (.step :: .mb :: eventParts)) :
    p.kept s (execJobStop s) := by
  refine (kept_long (by simp_all) fun c n u => ?_).2 (Part.same_refl p s)
  simp_all

theorem replayStep_kept (h : p.outside (.clusters :: .quietG :: .quiescedG :: .quiesce :: .step :: .mb :: eventParts)) :
    p.kept s (execReplayStep s) := by
  unfold execReplayStep
  split
  · simp
  · next e =>
    have hu := takeResume_same (s := s) (p := p) (by simp_all) e
    simp_all

theorem skipStep_kept
    (h : p.outside (.outbox :: .net :: .frontHeld :: .quietG :: .quiescedG :: .quiesce :: .rake :: .step :: .sieve :: .layers :: .layersNext
      :: .grafters :: .coll :: .rel :: .hubFlitCe :: .fresh :: storeParts)) :
    p.kept s (execSkipStep s) := by
  unfold execSkipStep
  split
  · simp
  · next e =>
    have hu := takeResume_same (s := s) (p := p) (by simp_all) e
    simp_all

theorem jobResumeStop_kept (h : p.outside (.step :: .mb :: eventParts)) :
    p.kept s (execJobResumeStop s) := by
  unfold execJobResumeStop
  split
  · simp
  · next e =>
    have hu := takeResume_same (s := s) (p := p) (by simp_all) e
    simp_all

theorem discover_kept (h : p.outside (.links :: .mb :: eventParts)) :
    p.kept s (execDiscover s) := by
  simp_all [execDiscover]

theorem discoveryRead_kept (h : p.outside storeParts) :
    p.kept s (execDiscoveryRead s) := by
  simp_all [execDiscoveryRead]

/-! ### Commands of `Permute` -/

theorem setGrid_kept (h : p.outside (.mb :: .pwr :: eventParts)) :
    p.kept s (execSetGrid s) := by
  simp only [execSetGrid]
  simp_all

theorem shardPermute_kept {peers : List Peer} (h : p.outside (.coll :: .mb :: eventParts)) :
    p.kept s (execShardPermute peers s) := by
  refine (kept_long (by simp_all) fun c n u => ?_).2 (Part.same_refl p s)
  simp_all

theorem shardPermuteRun_kept {hbm : List HbmErr} (h : p.outside (.net :: .step :: .coll :: .links :: .rel :: storeParts)) :
    p.kept s (execShardPermuteRun hbm s) := by
  refine (kept_hbmRun (by simp_all) fun u => ?_).2 (Part.same_refl p s)
  split
  · simp
  · simp only []
    split
    · split
      · simp_all
      · split
        · rw [Part.kept_next]
          refine (Part.same_foldl fun v c => ?_).2 ((Part.same_foldl fun v x => ?_).2 ?_) <;> simp_all
        · simp
    · simp

theorem permuteAck_kept (h : p.outside (.coll :: .links :: eventParts)) :
    p.kept s (execPermuteAck s) := by
  unfold execPermuteAck
  split
  · simp
  · split <;> simp_all

theorem permuteCommit_kept (h : p.outside (.step :: .factors :: .grafters :: .coll :: .links :: .pwr :: storeParts)) :
    p.kept s (execPermuteCommit s) := by
  simp at h
  simp only [execPermuteCommit]
  (repeat' split) <;> simp [h]

theorem planRead_kept (h : p.outside storeParts) :
    p.kept s (execPlanRead s) := by
  simp_all [execPlanRead]

/-! ### Commands of `Spares` -/

theorem spareCoreSwap_kept {ups : List Upset} {m : Margin}
    (h : p.outside (.mem :: .flaws :: .cores :: .clusters :: .step :: .rel :: .pwr :: .fresh :: eventParts)) :
    p.kept s (execSpareCoreSwap ups m s) := by
  simp_all [execSpareCoreSwap]

theorem marginReplan_kept {m : Margin} (h : p.outside (.clusters :: .rel :: .mb :: .pwr :: eventParts)) :
    p.kept s (execMarginReplan m s) := by
  simp only [execMarginReplan]
  simp_all

theorem marginReplanDaily_kept {m : Margin} (h : p.outside (.clusters :: .rel :: .pwr :: eventParts)) :
    p.kept s (execMarginReplanDaily m s) := by
  simp_all [execMarginReplanDaily]

theorem monitorReading_kept {slack : List Nat} (h : p.outside [.rel, .gauge]) :
    p.kept s (execMonitorReading slack s) := by
  simp only [execMonitorReading]
  split <;> simp_all

theorem eccBucketRoll_kept (h : p.outside (.rel :: eventParts)) :
    p.kept s (execEccBucketRoll s) := by
  simp only [execEccBucketRoll]
  split <;> simp_all

theorem selftest_kept {fails : List TestUnit} (h : p.outside (.links :: .rel :: .pwr :: .fresh :: storeParts)) :
    p.kept s (execSelftest fails s) := by
  refine (kept_long (by simp_all) fun c n u => ?_).2 (Part.same_refl p s)
  simp_all

theorem rollingBistSlice_kept {extra : Nat} {fails : List TestUnit} (h : p.outside (.step :: .rel :: .pwr :: .fresh :: storeParts)) :
    p.kept s (execRollingBistSlice extra fails s) := by
  simp only [execRollingBistSlice]
  split
  · simp
  · simp_all

theorem spareRead_kept (h : p.outside storeParts) :
    p.kept s (execSpareRead s) := by
  simp_all [execSpareRead]

/-! ### Commands of `Harvest` -/

theorem harvestStart_kept (h : p.outside (.harvest :: .mb :: eventParts)) :
    p.kept s (execHarvestStart s) := by
  refine (kept_long (by simp_all) fun c n u => ?_).2 (Part.same_refl p s)
  simp_all

theorem snapshotOpen_kept (h : p.outside (.step :: .factors :: .grafters :: storeParts)) :
    p.kept s (execSnapshotOpen s) := by
  simp at h
  simp only [execSnapshotOpen]
  split <;> simp [h]

theorem harvestDrain_kept {n : Nat} {hbm : List HbmErr} {refused : Bool}
    (h : p.outside (.mem :: .cores :: .clusters :: .net :: .links :: .harvest :: .rel :: .mb :: eventParts)) :
    p.kept s (execHarvestDrain n hbm refused s) := by
  simp at h
  simp only [execHarvestDrain]
  (repeat' split) <;> simp [h]

theorem harvestDataReceive_kept {k lseq : Nat} {f : Frame} (h : p.outside (.links :: storeParts)) :
    p.kept s (execHarvestDataReceive k lseq f s) := by
  simp at h
  simp only [execHarvestDataReceive]
  split <;> simp [h]

theorem harvestRestore_kept {img : List Byte} (h : p.outside (.step :: .sieve :: .factors :: .coll :: .links :: .fresh :: storeParts)) :
    p.kept s (execHarvestRestore img s) := by
  refine (kept_long (by simp_all) fun c n u => ?_).2 (Part.same_refl p s)
  simp_all

theorem mgmtFrame_kept {k lseq : Nat} {f : Frame} (h : p.outside (.step :: .sieve :: .factors :: .coll :: .links :: storeParts)) :
    p.kept s (execMgmtFrame k lseq f s) := by
  unfold execMgmtFrame
  split
  · split
    · refine Part.kept_next.2 ((same_takeFrame (by simp_all) fun v => ?_).2 (Part.same_refl p s))
      split <;> simp_all
    · simp
  · simp

/-! ### Commands of `Reset` -/

theorem reset_kept (h : p.outside (.mb :: .rst :: eventParts)) :
    p.kept s (execReset s) := by
  simp_all [execReset]

theorem v1Reset_kept (h : p.outside (.mb :: .rst :: eventParts)) :
    p.kept s (execV1Reset s) := by
  simp_all [execV1Reset]

theorem resetRequest_kept {cut : List Endpoint}
    (h : p.outside (.outbox :: .frontQ :: .streams :: .quietG :: .quiescedG :: .quiesce :: .barrier :: .rake :: .layers :: .layersNext :: .rel :: .host
      :: .fac :: .hubFlitCe :: .sundial :: .policy :: .fresh :: registerParts)) :
    p.kept s (execResetRequest cut s) := by
  simp at h
  simp only [execResetRequest]
  split <;> simp [h]

theorem groupReset_kept (h : p.outside (.links :: .mb :: eventParts)) :
    p.kept s (execGroupReset s) := by
  refine (kept_short (by simp_all) fun c u => ?_).2 (Part.same_refl p s)
  simp only []
  (repeat' split) <;> simp_all

theorem resetFrame_kept {k lseq : Nat} {f : Frame}
    (h : p.outside (.outbox :: .frontQ :: .streams :: .quietG :: .quiescedG :: .quiesce :: .barrier :: .rake :: .layers :: .layersNext :: .rel :: .host
      :: .fac :: .hubFlitCe :: .sundial :: .policy :: .fresh :: registerParts)) :
    p.kept s (execResetFrame k lseq f s) := by
  simp at h
  simp only [execResetFrame]
  split <;> simp [h]

theorem functionLevelReset_kept
    (h : p.outside (.outbox :: .frontQ :: .streams :: .quietG :: .quiescedG :: .quiesce :: .barrier :: .rake :: .layers :: .layersNext :: .rel :: .host
      :: .fac :: .hubFlitCe :: .sundial :: .policy :: .fresh :: registerParts)) :
    p.kept s (execFunctionLevelReset s) := by
  simp_all [execFunctionLevelReset]

theorem cxlPerst_kept {on : Bool}
    (h : p.outside (.outbox :: .frontQ :: .streams :: .quietG :: .quiescedG :: .quiesce :: .barrier :: .rake :: .layers :: .layersNext :: .rel :: .host
      :: .fac :: .hubFlitCe :: .sundial :: .policy :: .fresh :: registerParts)) :
    p.kept s (execCxlPerst on s) := by
  simp_all [execCxlPerst]

theorem dbgSrst_kept {on : Bool}
    (h : p.outside (.outbox :: .frontQ :: .streams :: .quietG :: .quiescedG :: .quiesce :: .barrier :: .rake :: .layers :: .layersNext :: .rel :: .host
      :: .fac :: .hubFlitCe :: .sundial :: .policy :: .fresh :: registerParts)) :
    p.kept s (execDbgSrst on s) := by
  simp_all [execDbgSrst]

theorem watchdogKick_kept (h : p.outside [.rst]) :
    p.kept s (execWatchdogKick s) := by
  simp_all [execWatchdogKick]

theorem watchdogTimeout_kept
    (h : p.outside (.outbox :: .frontQ :: .streams :: .quietG :: .quiescedG :: .quiesce :: .barrier :: .rake :: .layers :: .layersNext :: .rel :: .host
      :: .fac :: .hubFlitCe :: .sundial :: .policy :: .fresh :: registerParts)) :
    p.kept s (execWatchdogTimeout s) := by
  simp_all [execWatchdogTimeout]

theorem thermalTrip_kept {x : Nat}
    (h : p.outside (.outbox :: .frontQ :: .streams :: .quietG :: .quiescedG :: .quiesce :: .barrier :: .rake :: .layers :: .layersNext :: .rel :: .host
      :: .fac :: .hubFlitCe :: .sundial :: .policy :: .fresh :: registerParts)) :
    p.kept s (execThermalTrip x s) := by
  simp_all [execThermalTrip]

theorem supplyTrip_kept {cause : Nat}
    (h : p.outside (.outbox :: .frontQ :: .streams :: .quietG :: .quiescedG :: .quiesce :: .barrier :: .rake :: .layers :: .layersNext :: .rel :: .host
      :: .fac :: .hubFlitCe :: .sundial :: .policy :: .fresh :: registerParts)) :
    p.kept s (execSupplyTrip cause s) := by
  simp_all [execSupplyTrip]

theorem powerOn_kept
    (h : p.outside (.outbox :: .frontQ :: .streams :: .quietG :: .quiescedG :: .quiesce :: .barrier :: .rake :: .layers :: .layersNext :: .rel :: .host
      :: .fac :: .hubFlitCe :: .sundial :: .policy :: .fresh :: registerParts)) :
    p.kept s (execPowerOn s) := by
  simp_all [execPowerOn]

theorem refclkLoss_kept (h : p.outside [.hub, .rst]) :
    p.kept s (execRefclkLoss s) := by
  simp_all [execRefclkLoss]

theorem refclkReturn_kept
    (h : p.outside (.outbox :: .frontQ :: .streams :: .quietG :: .quiescedG :: .quiesce :: .barrier :: .rake :: .layers :: .layersNext :: .rel :: .host
      :: .fac :: .hubFlitCe :: .sundial :: .policy :: .fresh :: registerParts)) :
    p.kept s (execRefclkReturn s) := by
  simp_all [execRefclkReturn]

theorem resetRelease_kept {cool : Bool} {width : Nat} {modes : List Nat} {offers : List (Option Bool)}
    (h : p.outside (.net :: .step :: .sieve :: .layers :: .layersNext :: .grafters :: .coll :: .links :: .rel :: .host :: .sec :: .rst :: .pwr :: .fresh
      :: storeParts)) :
    p.kept s (execResetRelease cool width modes offers s) := by
  simp at h
  unfold execResetRelease
  split
  · simp
  · split
    · simp
    · split
      · simp [h]
      · split
        · simp [h]
        · simp only []
          split
          · simp [h]
          · split <;> simp [h]

/-! ### Commands of `Power` -/

theorem setPowerState_kept (h : p.outside (.mem :: .flaws :: .clusters :: .quietG :: .quiescedG :: .quiesce :: .mb :: .pwr :: .fresh :: eventParts)) :
    p.kept s (execSetPowerState s) := by
  simp_all [execSetPowerState]

theorem powerTransitionComplete_kept
    (h : p.outside (.outbox :: .net :: .frontTab :: .frontQ :: .streams :: .frontHeld :: .quietG :: .quiescedG :: .quiesce :: .barrier :: .rake :: .step
      :: .sieve :: .grafters :: .coll :: .links :: .rel :: .host :: .sec :: .rst :: .pwr :: .fac :: .hubFlitCe :: .sundial :: .fresh :: storeParts)) :
    p.kept s (execPowerTransitionComplete s) := by
  simp at h
  simp [execPowerTransitionComplete, h]

theorem pciePowerState_kept {d : Nat}
    (h : p.outside (.outbox :: .frontQ :: .streams :: .quietG :: .quiescedG :: .quiesce :: .barrier :: .rake :: .layers :: .layersNext :: .rel :: .host
      :: .fac :: .hubFlitCe :: .sundial :: .policy :: .fresh :: registerParts)) :
    p.kept s (execPciePowerState d s) := by
  simp at h
  simp [execPciePowerState, h]

theorem wakeWave_kept (h : p.outside [.pwr]) :
    p.kept s (execWakeWave s) := by
  simp_all [execWakeWave]

theorem throttleUpdate_kept {power : Nat} {temps : List Nat} (h : p.outside (.pwr :: eventParts)) :
    p.kept s (execThrottleUpdate power temps s) := by
  simp_all [execThrottleUpdate]

theorem rwpCommit_kept (h : p.outside (.pwr :: eventParts)) :
    p.kept s (execRwpCommit s) := by
  simp only [execRwpCommit]
  split <;> simp_all

/-! ### Commands of `Secure` -/

theorem debugChallenge_kept (h : p.outside (.mb :: .sec :: .fresh :: eventParts)) :
    p.kept s (execDebugChallenge s) := by
  simp_all [execDebugChallenge]

theorem debugUnlock_kept (h : p.outside (.mb :: .sec :: eventParts)) :
    p.kept s (execDebugUnlock s) := by
  simp_all [execDebugUnlock]

theorem debugEnd_kept (h : p.outside (.cores :: .mb :: eventParts)) :
    p.kept s (execDebugEnd s) := by
  simp_all [execDebugEnd]

theorem nonceExpire_kept (h : p.outside [.hub, .sec]) :
    p.kept s (execNonceExpire s) := by
  simp only [execNonceExpire]
  split <;> simp_all

theorem toDebugUnlocked_kept (h : p.outside (.cores :: .mb :: .sec :: .pwr :: eventParts)) :
    p.kept s (execToDebugUnlocked s) := by
  refine (kept_guarded (by simp_all) fun c u => (same_lifecycle (by simp_all) fun v => ?_).2 (Part.same_refl p u)).2 (Part.same_refl p s)
  simp_all

theorem toSecured_kept (h : p.outside (.cores :: .mb :: .sec :: .pwr :: eventParts)) :
    p.kept s (execToSecured s) := by
  refine (kept_guarded (by simp_all) fun c u => (same_lifecycle (by simp_all) fun v => ?_).2 (Part.same_refl p u)).2 (Part.same_refl p s)
  simp_all

theorem toReturned_kept (h : p.outside (.cores :: .clusters :: .mb :: .sec :: .rst :: .pwr :: eventParts)) :
    p.kept s (execToReturned s) := by
  refine (kept_guarded (by simp_all) fun c u => (same_lifecycle (by simp_all) fun v => ?_).2 (Part.same_refl p u)).2 (Part.same_refl p s)
  simp_all

theorem provision_kept (h : p.outside (.cores :: .sec :: eventParts)) :
    p.kept s (execProvision s) := by
  simp_all [execProvision]

theorem fwStage_kept {hbm : List HbmErr} (h : p.outside (.mem :: .flaws :: .net :: .rel :: .mb :: .sec :: .fresh :: eventParts)) :
    p.kept s (execFwStage hbm s) := by
  refine (kept_hbmRun (by simp_all) fun u => ?_).2 (Part.same_refl p s)
  split
  · simp
  · refine (kept_long (by simp_all) fun c n v => ?_).2 (Part.same_refl p u)
    have hv : p.same v (v.stageImage (c.field 0 8) (c.field 8 4)).2 ↔ p.same v v := same_stageImage (by simp_all)
    generalize v.stageImage (c.field 0 8) (c.field 8 4) = r at hv ⊢
    obtain ⟨_ | st, w⟩ := r <;> simp_all

theorem recoveryFwStage_kept {img : List Byte} (h : p.outside (.mb :: .sec :: .rst :: eventParts)) :
    p.kept s (execRecoveryFwStage img s) := by
  unfold execRecoveryFwStage
  split
  · simp
  · refine (kept_long (by simp_all) fun c n u => ?_).2 (Part.same_refl p s)
    simp only []
    split <;> simp_all

theorem fwCommit_kept (h : p.outside (.mb :: .sec :: eventParts)) :
    p.kept s (execFwCommit s) := by
  refine (kept_long (by simp_all) fun c n u => ?_).2 (Part.same_refl p s)
  split <;> simp_all

theorem v1FwUpdate_kept {hbm : List HbmErr} (h : p.outside (.mem :: .flaws :: .net :: .rel :: .mb :: .sec :: .fresh :: eventParts)) :
    p.kept s (execV1FwUpdate hbm s) := by
  refine (kept_hbmRun (by simp_all) fun u => ?_).2 (Part.same_refl p s)
  refine (kept_guarded (by simp_all) fun c v => ?_).2 (Part.same_refl p u)
  have hv : p.same v (v.stageImage (c.field 0 8) (c.field 8 4)).2 ↔ p.same v v := same_stageImage (by simp_all)
  generalize v.stageImage (c.field 0 8) (c.field 8 4) = r at hv ⊢
  obtain ⟨_ | st, w⟩ := r
  · simp only []
    (repeat' split) <;> simp_all
  · simp_all

theorem getVersion_kept (h : p.outside [.sec]) :
    p.kept s (execGetVersion s) := by
  simp_all [execGetVersion]

theorem getCapabilities_kept (h : p.outside [.sec]) :
    p.kept s (execGetCapabilities s) := by
  simp_all [execGetCapabilities]

theorem negotiateAlgorithms_kept {asym hash dhe aead : Nat} (h : p.outside [.sec]) :
    p.kept s (execNegotiateAlgorithms asym hash dhe aead s) := by
  simp only [execNegotiateAlgorithms]
  split <;> simp_all

theorem getDigests_kept (h : p.outside [.sec]) :
    p.kept s (execGetDigests s) := by
  simp_all [execGetDigests]

theorem getCertificate_kept {slot off len : Nat} (h : p.outside [.sec]) :
    p.kept s (execGetCertificate slot off len s) := by
  simp only [execGetCertificate]
  split <;> simp_all

theorem challenge_kept {slot : Nat} {nonce : List Byte} (h : p.outside [.sec, .fresh]) :
    p.kept s (execChallenge slot nonce s) := by
  simp only [execChallenge]
  split <;> simp_all

theorem getMeasurements_kept {index : Nat} {sign : Bool} {nonce : List Byte} (h : p.outside [.sec, .fresh]) :
    p.kept s (execGetMeasurements index sign nonce s) := by
  simp at h
  simp [execGetMeasurements, h]

theorem keyExchange_kept {slot : Nat} {key : List Byte} (h : p.outside [.sec, .fresh]) :
    p.kept s (execKeyExchange slot key s) := by
  refine (kept_spdm (by simp_all) fun u => ?_).2 (Part.same_refl p s)
  simp_all

theorem finish_kept {id : Nat} {ok : Bool} (h : p.outside [.sec]) :
    p.kept s (execFinish id ok s) := by
  refine (kept_spdm (by simp_all) fun u => ?_).2 (Part.same_refl p s)
  split <;> simp_all

theorem heartbeat_kept {id : Nat} (h : p.outside [.sec]) :
    p.kept s (execHeartbeat id s) := by
  simp_all [execHeartbeat]

theorem keyUpdate_kept {id op : Nat} (h : p.outside [.sec]) :
    p.kept s (execKeyUpdate id op s) := by
  simp_all [execKeyUpdate]

theorem endSession_kept {id : Nat} (h : p.outside [.sec]) :
    p.kept s (execEndSession id s) := by
  simp_all [execEndSession]

theorem tapChallenge_kept (h : p.outside [.hub, .sec, .fresh]) :
    p.kept s (execTapChallenge s) := by
  simp_all [execTapChallenge]

theorem tapUnlock_kept {level : Nat} {token : List Byte} (h : p.outside (.sec :: eventParts)) :
    p.kept s (execTapUnlock level token s) := by
  simp_all [execTapUnlock]

theorem tapEnd_kept (h : p.outside [.hub, .cores, .sec]) :
    p.kept s (execTapEnd s) := by
  simp_all [execTapEnd]

theorem idcode_kept (h : p.outside [.sec]) :
    p.kept s (execIdcode s) := by
  simp_all [execIdcode]

theorem bypass_kept {tdi : List Byte} (h : p.outside [.sec]) :
    p.kept s (execBypass tdi s) := by
  simp_all [execBypass]

theorem samplePreload_kept {pins preload : List Byte} (h : p.outside [.sec]) :
    p.kept s (execSamplePreload pins preload s) := by
  simp_all [execSamplePreload]

theorem extest_kept {pins next_ : List Byte} (h : p.outside [.sec]) :
    p.kept s (execExtest pins next_ s) := by
  simp_all [execExtest]

/-! ### Commands of `Recorder` -/

theorem rgaSample_kept {ch x : Nat} (h : p.outside [.gauge]) :
    p.kept s (execRgaSample ch x s) := by
  simp_all [execRgaSample]

theorem windowClose_kept (h : p.outside [.gauge]) :
    p.kept s (execWindowClose s) := by
  simp_all [execWindowClose]

theorem sheetWrite_kept (h : p.outside [.gauge, .fac]) :
    p.kept s (execSheetWrite s) := by
  simp_all [execSheetWrite]

theorem rgaRead_kept (h : p.outside storeParts) :
    p.kept s (execRgaRead s) := by
  simp only [execRgaRead]
  simp_all

theorem rgaFlush_kept (h : p.outside (.mb :: eventParts)) :
    p.kept s (execRgaFlush s) := by
  simp_all [execRgaFlush]

theorem rgaClear_kept (h : p.outside (.mb :: .sec :: eventParts)) :
    p.kept s (execRgaClear s) := by
  refine (kept_guarded (by simp_all) fun c u => ?_).2 (Part.same_refl p s)
  have hv : p.same u (u.verify 6 c.body).2 ↔ p.same u u := same_verify (by simp_all)
  generalize u.verify 6 c.body = r at hv ⊢
  obtain ⟨_ | st, w⟩ := r <;> simp_all

/-! ### Commands of `Facility` -/

theorem clearFaults_kept {pec : Bool} (h : p.outside [.hub, .fac]) :
    p.kept s (execClearFaults pec s) := by
  simp_all [execClearFaults]

theorem capability_kept (h : p.outside [.fac]) :
    p.kept s (execCapability s) := by
  simp_all [execCapability]

theorem statusWord_kept {uv : Bool} (h : p.outside [.fac]) :
    p.kept s (execStatusWord uv s) := by
  simp_all [execStatusWord]

theorem readVin_kept (h : p.outside [.fac, .fresh]) :
    p.kept s (execReadVin s) := by
  simp_all [execReadVin]

theorem readIin_kept (h : p.outside [.fac, .fresh]) :
    p.kept s (execReadIin s) := by
  simp_all [execReadIin]

theorem readPin_kept (h : p.outside [.fac, .fresh]) :
    p.kept s (execReadPin s) := by
  simp_all [execReadPin]

theorem readTemperature1_kept (h : p.outside [.fac, .fresh]) :
    p.kept s (execReadTemperature1 s) := by
  simp_all [execReadTemperature1]

theorem readTemperature2_kept (h : p.outside [.fac, .fresh]) :
    p.kept s (execReadTemperature2 s) := by
  simp_all [execReadTemperature2]

theorem readTemperature3_kept (h : p.outside [.fac, .fresh]) :
    p.kept s (execReadTemperature3 s) := by
  simp_all [execReadTemperature3]

theorem mfrSerial_kept (h : p.outside [.fac]) :
    p.kept s (execMfrSerial s) := by
  simp_all [execMfrSerial]

theorem mfrCoolantFlow_kept (h : p.outside [.fac, .fresh]) :
    p.kept s (execMfrCoolantFlow s) := by
  simp_all [execMfrCoolantFlow]

theorem mfrPowerCap_kept {w : Option Nat} {pec : Bool} (h : p.outside (.pwr :: .fac :: eventParts)) :
    p.kept s (execMfrPowerCap w pec s) := by
  refine (kept_message (by simp_all) fun u => ?_).2 (Part.same_refl p s)
  split <;> simp_all

theorem facCapHeldApply_kept (h : p.outside (.pwr :: .fac :: eventParts)) :
    p.kept s (execFacCapHeldApply s) := by
  simp only [execFacCapHeldApply]
  split <;> simp_all

theorem mfrPowerState_kept (h : p.outside [.fac]) :
    p.kept s (execMfrPowerState s) := by
  simp_all [execMfrPowerState]

theorem mfrIdentify_kept {v : Option Nat} (h : p.outside [.hub, .fac]) :
    p.kept s (execMfrIdentify v s) := by
  refine (kept_message (by simp_all) fun u => ?_).2 (Part.same_refl p s)
  split <;> simp_all

theorem mfrEmergArm_kept {v : Nat} {pec : Bool} (h : p.outside [.hub, .fac]) :
    p.kept s (execMfrEmergArm v pec s) := by
  refine (kept_message (by simp_all) fun u => ?_).2 (Part.same_refl p s)
  simp_all

theorem mfrEmergReset_kept {v : Nat} {pec : Bool}
    (h : p.outside (.outbox :: .frontQ :: .streams :: .quietG :: .quiescedG :: .quiesce :: .barrier :: .rake :: .layers :: .layersNext :: .rel :: .host
      :: .fac :: .hubFlitCe :: .sundial :: .policy :: .fresh :: registerParts)) :
    p.kept s (execMfrEmergReset v pec s) := by
  simp at h
  simp [execMfrEmergReset, h]

theorem emergArmExpire_kept (h : p.outside [.hub, .fac]) :
    p.kept s (execEmergArmExpire s) := by
  simp only [execEmergArmExpire]
  split <;> simp_all

theorem mfrRgaSummary_kept (h : p.outside [.fac]) :
    p.kept s (execMfrRgaSummary s) := by
  simp_all [execMfrRgaSummary]

theorem alertResponse_kept (h : p.outside [.fac]) :
    p.kept s (execAlertResponse s) := by
  simp_all [execAlertResponse]

theorem pmbusUnsupportedCode_kept {code : Nat} {badPec : Bool} (h : p.outside [.hub, .fac]) :
    p.kept s (execPmbusUnsupportedCode code badPec s) := by
  simp_all [execPmbusUnsupportedCode]

theorem facEmergOffAssert_kept
    (h : p.outside (.outbox :: .frontQ :: .streams :: .quietG :: .quiescedG :: .quiesce :: .barrier :: .rake :: .layers :: .layersNext :: .rel :: .host
      :: .fac :: .hubFlitCe :: .sundial :: .policy :: .fresh :: registerParts)) :
    p.kept s (execFacEmergOffAssert s) := by
  simp_all [execFacEmergOffAssert]

theorem facEmergOffDeassert_kept (h : p.outside [.hub, .rst]) :
    p.kept s (execFacEmergOffDeassert s) := by
  simp_all [execFacEmergOffDeassert]

theorem coolantFault_kept (h : p.outside (.pwr :: .fac :: eventParts)) :
    p.kept s (execCoolantFault s) := by
  simp_all [execCoolantFault]

theorem coolantGraceExpire_kept
    (h : p.outside (.mem :: .flaws :: .clusters :: .outbox :: .net :: .frontHeld :: .quietG :: .quiescedG :: .quiesce :: .step :: .coll :: .links :: .mb
      :: .pwr :: .fac :: .fresh :: eventParts)) :
    p.kept s (execCoolantGraceExpire s) := by
  simp at h
  simp only [execCoolantGraceExpire]
  split <;> simp [h]

theorem coolantRestored_kept (h : p.outside [.hub, .pwr, .fac]) :
    p.kept s (execCoolantRestored s) := by
  simp_all [execCoolantRestored]

/-! ### Commands of `RegAccess` -/

theorem registerWrite_kept {a : RegAddr} {v be : Nat} (h : p.outside (.host :: registerParts)) :
    p.kept s (execRegisterWrite a v be s) := by
  simp_all [execRegisterWrite]

theorem registerRead_kept {a : RegAddr} {be : Nat} (h : p.outside (.host :: registerParts)) :
    p.kept s (execRegisterRead a be s) := by
  simp_all [execRegisterRead]

theorem frontgo_kept {who : Agent} {ci v : Nat} (h : p.outside (.host :: registerParts)) :
    p.kept s (execFrontgo who ci v s) := by
  simp_all [execFrontgo]

theorem frontgoHoldTimeout_kept (h : p.outside (.host :: registerParts)) :
    p.kept s (execFrontgoHoldTimeout s) := by
  simp at h
  simp only [execFrontgoHoldTimeout]
  split <;> simp [h]

theorem frontStreamStart_kept {k : Nat} {hbm : List HbmErr} (h : p.outside (.frontQ :: .streams :: .rel :: .host :: registerParts)) :
    p.kept s (execFrontStreamStart k hbm s) := by
  simp_all [execFrontStreamStart]

theorem loReadLatch_kept {a : RegAddr} (h : p.outside (.host :: registerParts)) :
    p.kept s (execLoReadLatch a s) := by
  simp_all [execLoReadLatch]

theorem coldFrameAccess_kept {a : RegAddr} {w : Option Nat} (h : p.outside (.host :: registerParts)) :
    p.kept s (execColdFrameAccess a w s) := by
  simp at h
  simp only [execColdFrameAccess]
  (repeat' split) <;> simp [h]

theorem regrd_kept {n : Nat} {flits : List FlitErr} (h : p.outside [.mem, .flaws, .hub, .cores, .clusters, .net, .grafters, .mb, .host, .hubFlitCe]) :
    p.kept s (execRegrd n flits s) := by
  unfold execRegrd
  split
  · simp
  · next q u e =>
    have hu := takePacket_same (s := s) (p := p) (by simp_all) e
    (repeat' split) <;> simp_all

theorem regwr_kept {n : Nat} {flits : List FlitErr} (h : p.outside (.hubFlitCe :: registerParts)) :
    p.kept s (execRegwr n flits s) := by
  unfold execRegwr
  split
  · simp
  · next q u e =>
    have hu := takePacket_same (s := s) (p := p) (by simp_all) e
    (repeat' split) <;> simp_all

theorem regrsp_kept {n : Nat} {flits : List FlitErr} (h : p.outside [.clusters, .net, .host, .hubFlitCe]) :
    p.kept s (execRegrsp n flits s) := by
  unfold execRegrsp
  split
  · simp
  · next q u e =>
    have hu := takePacket_same (s := s) (p := p) (by simp_all) e
    split
    · simp only []
      (repeat' split) <;> simp_all
    · simpa using hu
    · simp

theorem regResponseTimeout_kept (h : p.outside (.mbx :: .clusters :: .host :: eventParts)) :
    p.kept s (execRegResponseTimeout s) := by
  simp only [execRegResponseTimeout]
  split <;> simp_all

theorem cspMemoryAccess_kept {ci a len : Nat} {w : Option Nat} {ups : List Upset} (h : p.outside (.net :: .host :: storeParts)) :
    p.kept s (execCspMemoryAccess ci a len w ups s) := by
  simp at h
  simp only [execCspMemoryAccess]
  (repeat' split) <;> simp [h]

/-! ### Commands of `Debug` -/

theorem traceRead_kept (h : p.outside storeParts) :
    p.kept s (execTraceRead s) := by
  simp_all [execTraceRead]

theorem debugHalt_kept (h : p.outside storeParts) :
    p.kept s (execDebugHalt s) := by
  simp_all [execDebugHalt]

theorem debugResume_kept (h : p.outside storeParts) :
    p.kept s (execDebugResume s) := by
  simp_all [execDebugResume]

theorem memRead_kept {hbm : List HbmErr} (h : p.outside (.net :: .grafters :: .rel :: .host :: storeParts)) :
    p.kept s (execMemRead hbm s) := by
  simp_all [execMemRead]

theorem memWrite_kept {hbm : List HbmErr} (h : p.outside (.rel :: registerParts)) :
    p.kept s (execMemWrite hbm s) := by
  simp_all [execMemWrite]

theorem debugReset_kept {cut : List Endpoint}
    (h : p.outside (.outbox :: .frontQ :: .streams :: .quietG :: .quiescedG :: .quiesce :: .barrier :: .rake :: .layers :: .layersNext :: .rel :: .host
      :: .fac :: .hubFlitCe :: .sundial :: .policy :: .fresh :: registerParts)) :
    p.kept s (execDebugReset cut s) := by
  simp_all [execDebugReset]

/-! ### Commands of `HostMem` -/

theorem hdmCommit_kept {size ways dpa : Nat} (h : p.outside [.host]) :
    p.kept s (execHdmCommit size ways dpa s) := by
  simp_all [execHdmCommit]

theorem hdmRead_kept {bar4 : Bool} {x n : Nat} {hbm : List HbmErr} (h : p.outside (.mem :: .rel :: .host :: eventParts)) :
    p.kept s (execHdmRead bar4 x n hbm s) := by
  simp only [execHdmRead]
  split <;> simp_all

theorem hdmWrite_kept {bar4 : Bool} {x : Nat} {data : List Byte} (h : p.outside (.host :: storeParts)) :
    p.kept s (execHdmWrite bar4 x data s) := by
  simp only [execHdmWrite]
  split <;> simp_all

/-! ### Commands of `Slice` -/

theorem sliceEnd_kept
    (h : p.outside (.mem :: .flaws :: .clusters :: .quietG :: .quiescedG :: .quiesce :: .step :: .coll :: .links :: .harvest :: .rel :: .mb :: .pwr
      :: .fresh :: eventParts)) :
    p.kept s (execSliceEnd s) := by
  simp at h
  simp only [execSliceEnd]
  split <;> simp [h]

/-! ### Commands of `Vector` -/

theorem vld_kept {gi w : Nat} {ups : List Upset} (h : p.outside [.mem, .flaws, .cores, .clusters, .net]) :
    p.kept s (execVld gi w ups s) := by
  simp_all [execVld]

theorem vst_kept {gi w : Nat} {ups : List Upset} (h : p.outside [.mem, .flaws, .cores, .clusters, .net]) :
    p.kept s (execVst gi w ups s) := by
  simp_all [execVst]

theorem vlds_kept {gi w : Nat} {ups : List Upset} (h : p.outside [.mem, .flaws, .cores, .clusters, .net]) :
    p.kept s (execVlds gi w ups s) := by
  simp_all [execVlds]

theorem vsts_kept {gi w : Nat} {ups : List Upset} (h : p.outside [.mem, .flaws, .cores, .clusters, .net]) :
    p.kept s (execVsts gi w ups s) := by
  simp_all [execVsts]

theorem vleaf_kept {gi w : Nat} (h : p.outside [.mem, .flaws, .cores, .clusters, .net]) :
    p.kept s (execVleaf gi w s) := by
  simp_all [execVleaf]

/-! ### Every command -/

theorem Part.outside_of_subset {ps qs : List Part} (h : p ∉ qs) (hs : ps.all (qs.contains ·) = true) : p.outside ps := by
  simp_all [Part.outside]
  exact fun hp => h (hs p hp)

/-- What a vector command that moves no memory does is one word of the vector unit. -/
theorem exec_vectorRow {i : Instr} {gi op w : Nat} (hi : Claims.vectorRow i = some (gi, op, w)) :
    exec i s = .next (s.vword gi op w) := by
  unfold Claims.vectorRow at hi
  split at hi <;> cases hi <;> rfl

/-- Every other command answers a state with the parts it does not list as they were. -/
theorem exec_kept {i : Instr} (hi : Claims.vectorRow i = none) (h : p ∉ Claims.touches i) : p.kept s (exec i s) :=
  match i with
  | .registerWrite _ _ _ => registerWrite_kept (Part.outside_of_subset h rfl)
  | .rwpCommit => rwpCommit_kept (Part.outside_of_subset h rfl)
  | .loReadLatch _ => loReadLatch_kept (Part.outside_of_subset h rfl)
  | .coldFrameAccess _ _ => coldFrameAccess_kept (Part.outside_of_subset h rfl)
  | .listEntryFetch _ _ => listEntryFetch_kept (Part.outside_of_subset h rfl)
  | .descIssue _ => descIssue_kept (Part.outside_of_subset h rfl)
  | .chainBodyLoad _ _ => chainBodyLoad_kept (Part.outside_of_subset h rfl)
  | .descComplete _ => descComplete_kept (Part.outside_of_subset h rfl)
  | .descEngineStop _ => descEngineStop_kept (Part.outside_of_subset h rfl)
  | .nop _ => nop_kept (Part.outside_of_subset h rfl)
  | .pass _ _ => pass_kept (Part.outside_of_subset h rfl)
  | .emul _ => emul_kept (Part.outside_of_subset h rfl)
  | .eadd _ => eadd_kept (Part.outside_of_subset h rfl)
  | .efma _ => efma_kept (Part.outside_of_subset h rfl)
  | .chain _ _ => chain_kept (Part.outside_of_subset h rfl)
  | .fill _ _ => fill_kept (Part.outside_of_subset h rfl)
  | .fillT _ _ => fillT_kept (Part.outside_of_subset h rfl)
  | .fillIn _ => fillIn_kept (Part.outside_of_subset h rfl)
  | .fillComplete _ => fillComplete_kept (Part.outside_of_subset h rfl)
  | .load _ => load_kept (Part.outside_of_subset h rfl)
  | .store _ => store_kept (Part.outside_of_subset h rfl)
  | .send _ => send_kept (Part.outside_of_subset h rfl)
  | .sendInject _ => sendInject_kept (Part.outside_of_subset h rfl)
  | .post _ => post_kept (Part.outside_of_subset h rfl)
  | .postArm _ => postArm_kept (Part.outside_of_subset h rfl)
  | .rakeSq _ _ _ => rakeSq_kept (Part.outside_of_subset h rfl)
  | .repeatEntry _ => repeatEntry_kept (Part.outside_of_subset h rfl)
  | .resultLand _ => resultLand_kept (Part.outside_of_subset h rfl)
  | .lmemEccWriteback _ => lmemEccWriteback_kept (Part.outside_of_subset h rfl)
  | .vld _ _ _ => vld_kept (Part.outside_of_subset h rfl)
  | .vst _ _ _ => vst_kept (Part.outside_of_subset h rfl)
  | .vlds _ _ _ => vlds_kept (Part.outside_of_subset h rfl)
  | .vsts _ _ _ => vsts_kept (Part.outside_of_subset h rfl)
  | .vleaf _ _ => vleaf_kept (Part.outside_of_subset h rfl)
  | .tokincWrite _ _ _ => tokincWrite_kept (Part.outside_of_subset h rfl)
  | .cluLselWrite _ _ => cluLselWrite_kept (Part.outside_of_subset h rfl)
  | .patch _ _ _ => patch_kept (Part.outside_of_subset h rfl)
  | .broadcastPatchLand => broadcastPatchLand_kept (Part.outside_of_subset h rfl)
  | .listComplete _ => listComplete_kept (Part.outside_of_subset h rfl)
  | .replay => replay_kept (Part.outside_of_subset h rfl)
  | .rampGroupRelease _ => rampGroupRelease_kept (Part.outside_of_subset h rfl)
  | .auditRepair _ _ => auditRepair_kept (Part.outside_of_subset h rfl)
  | .spareCoreSwap _ _ => spareCoreSwap_kept (Part.outside_of_subset h rfl)
  | .shardPermuteRun _ => shardPermuteRun_kept (Part.outside_of_subset h rfl)
  | .rollingBistSlice _ _ => rollingBistSlice_kept (Part.outside_of_subset h rfl)
  | .phaseSwitch => phaseSwitch_kept (Part.outside_of_subset h rfl)
  | .msg _ _ => msg_kept (Part.outside_of_subset h rfl)
  | .token _ _ => token_kept (Part.outside_of_subset h rfl)
  | .credit _ _ => credit_kept (Part.outside_of_subset h rfl)
  | .mrd _ _ _ _ => mrd_kept (Part.outside_of_subset h rfl)
  | .mwr _ _ => mwr_kept (Part.outside_of_subset h rfl)
  | .mrsp _ _ => mrsp_kept (Part.outside_of_subset h rfl)
  | .regrd _ _ => regrd_kept (Part.outside_of_subset h rfl)
  | .regwr _ _ => regwr_kept (Part.outside_of_subset h rfl)
  | .regrsp _ _ => regrsp_kept (Part.outside_of_subset h rfl)
  | .tc0PoliceAdmit _ _ _ => tc0PoliceAdmit_kept (Part.outside_of_subset h rfl)
  | .halt _ _ _ => halt_kept (Part.outside_of_subset h rfl)
  | .resume _ _ => resume_kept (Part.outside_of_subset h rfl)
  | .quiesceUrgent _ _ => quiesceUrgent_kept (Part.outside_of_subset h rfl)
  | .quiesced => quiesced_kept (Part.outside_of_subset h rfl)
  | .quiesceTimeout => quiesceTimeout_kept (Part.outside_of_subset h rfl)
  | .barrierArrive _ _ _ => barrierArrive_kept (Part.outside_of_subset h rfl)
  | .barrierRelease => barrierRelease_kept (Part.outside_of_subset h rfl)
  | .sdlSync _ _ => sdlSync_kept (Part.outside_of_subset h rfl)
  | .sdlSyncSend => sdlSyncSend_kept (Part.outside_of_subset h rfl)
  | .errorNotice _ _ => errorNotice_kept (Part.outside_of_subset h rfl)
  | .frontgo _ _ _ => frontgo_kept (Part.outside_of_subset h rfl)
  | .frontgoHoldTimeout => frontgoHoldTimeout_kept (Part.outside_of_subset h rfl)
  | .frontLaunchRequest _ _ => frontLaunchRequest_kept (Part.outside_of_subset h rfl)
  | .frontStreamStart _ _ => frontStreamStart_kept (Part.outside_of_subset h rfl)
  | .frontMarker _ _ => frontMarker_kept (Part.outside_of_subset h rfl)
  | .frontTile _ _ => frontTile_kept (Part.outside_of_subset h rfl)
  | .cstoreEccWriteback _ => cstoreEccWriteback_kept (Part.outside_of_subset h rfl)
  | .rowRepair _ => rowRepair_kept (Part.outside_of_subset h rfl)
  | .hbmPatrolScrub _ _ _ => hbmPatrolScrub_kept (Part.outside_of_subset h rfl)
  | .mramPatrolScrub _ _ _ => mramPatrolScrub_kept (Part.outside_of_subset h rfl)
  | .gdoneNotice _ _ => gdoneNotice_kept (Part.outside_of_subset h rfl)
  | .ddoneNotice _ _ => ddoneNotice_kept (Part.outside_of_subset h rfl)
  | .factorExchange _ => factorExchange_kept (Part.outside_of_subset h rfl)
  | .factorFoldTile _ _ _ _ _ => factorFoldTile_kept (Part.outside_of_subset h rfl)
  | .grfSubloWrite _ _ _ => grfSubloWrite_kept (Part.outside_of_subset h rfl)
  | .grfSubmit _ _ _ => grfSubmit_kept (Part.outside_of_subset h rfl)
  | .grafterJobStart _ _ => grafterJobStart_kept (Part.outside_of_subset h rfl)
  | .root _ _ => root_kept (Part.outside_of_subset h rfl)
  | .orth _ _ => orth_kept (Part.outside_of_subset h rfl)
  | .chol _ _ => chol_kept (Part.outside_of_subset h rfl)
  | .trsv _ _ => trsv_kept (Part.outside_of_subset h rfl)
  | .cg _ _ => cg_kept (Part.outside_of_subset h rfl)
  | .grafterIterationComplete _ _ => grafterIterationComplete_kept (Part.outside_of_subset h rfl)
  | .jobDeadline _ _ => jobDeadline_kept (Part.outside_of_subset h rfl)
  | .grfAbort _ _ => grfAbort_kept (Part.outside_of_subset h rfl)
  | .rakeClose => rakeClose_kept (Part.outside_of_subset h rfl)
  | .normAllreduce => normAllreduce_kept (Part.outside_of_subset h rfl)
  | .sieveDecide => sieveDecide_kept (Part.outside_of_subset h rfl)
  | .sweepRecord _ _ => sweepRecord_kept (Part.outside_of_subset h rfl)
  | .workingCopyAudit _ => workingCopyAudit_kept (Part.outside_of_subset h rfl)
  | .recoverySweep _ => recoverySweep_kept (Part.outside_of_subset h rfl)
  | .stepReplay => stepReplay_kept (Part.outside_of_subset h rfl)
  | .sieveResume => sieveResume_kept (Part.outside_of_subset h rfl)
  | .windowClear => windowClear_kept (Part.outside_of_subset h rfl)
  | .reduceScatterLayer _ => reduceScatterLayer_kept (Part.outside_of_subset h rfl)
  | .collFrame _ _ _ _ => collFrame_kept (Part.outside_of_subset h rfl)
  | .rsLanded => rsLanded_kept (Part.outside_of_subset h rfl)
  | .gather _ => gather_kept (Part.outside_of_subset h rfl)
  | .permuteAck => permuteAck_kept (Part.outside_of_subset h rfl)
  | .permuteCommit => permuteCommit_kept (Part.outside_of_subset h rfl)
  | .mgmtFrame _ _ _ => mgmtFrame_kept (Part.outside_of_subset h rfl)
  | .frameForward _ _ _ => frameForward_kept (Part.outside_of_subset h rfl)
  | .ack _ _ => ack_kept (Part.outside_of_subset h rfl)
  | .nak _ _ => nak_kept (Part.outside_of_subset h rfl)
  | .portRetrain _ _ => portRetrain_kept (Part.outside_of_subset h rfl)
  | .laneSpare _ _ => laneSpare_kept (Part.outside_of_subset h rfl)
  | .laneLoss _ _ => laneLoss_kept (Part.outside_of_subset h rfl)
  | .v1msg _ _ _ => v1msg_kept (Part.outside_of_subset h rfl)
  | .helloSend => helloSend_kept (Part.outside_of_subset h rfl)
  | .hello _ _ _ => hello_kept (Part.outside_of_subset h rfl)
  | .discoveryRootAssign _ => discoveryRootAssign_kept (Part.outside_of_subset h rfl)
  | .disc _ _ _ => disc_kept (Part.outside_of_subset h rfl)
  | .portRejoin _ _ => portRejoin_kept (Part.outside_of_subset h rfl)
  | .replayReq _ _ _ => replayReq_kept (Part.outside_of_subset h rfl)
  | .sundialSyncTimer _ => sundialSyncTimer_kept (Part.outside_of_subset h rfl)
  | .syncReq _ _ _ _ => syncReq_kept (Part.outside_of_subset h rfl)
  | .syncResp _ _ _ _ _ _ => syncResp_kept (Part.outside_of_subset h rfl)
  | .parentLost => parentLost_kept (Part.outside_of_subset h rfl)
  | .rootLost => rootLost_kept (Part.outside_of_subset h rfl)
  | .launchTime => launchTime_kept (Part.outside_of_subset h rfl)
  | .resetFrame _ _ _ => resetFrame_kept (Part.outside_of_subset h rfl)
  | .mailboxDoorbell _ _ => mailboxDoorbell_kept (Part.outside_of_subset h rfl)
  | .slotAck _ => slotAck_kept (Part.outside_of_subset h rfl)
  | .ticketAck _ => ticketAck_kept (Part.outside_of_subset h rfl)
  | .sliceEnd => sliceEnd_kept (Part.outside_of_subset h rfl)
  | .getEventRecords => getEventRecords_kept (Part.outside_of_subset h rfl)
  | .clearEventRecords => clearEventRecords_kept (Part.outside_of_subset h rfl)
  | .getEventInterruptPolicy => getEventInterruptPolicy_kept (Part.outside_of_subset h rfl)
  | .setEventInterruptPolicy => setEventInterruptPolicy_kept (Part.outside_of_subset h rfl)
  | .getFwInfo => getFwInfo_kept (Part.outside_of_subset h rfl)
  | .getSupportedLogs => getSupportedLogs_kept (Part.outside_of_subset h rfl)
  | .getLog => getLog_kept (Part.outside_of_subset h rfl)
  | .getInfo => getInfo_kept (Part.outside_of_subset h rfl)
  | .getStatus => getStatus_kept (Part.outside_of_subset h rfl)
  | .getTelemetry => getTelemetry_kept (Part.outside_of_subset h rfl)
  | .fpflagReduce => fpflagReduce_kept (Part.outside_of_subset h rfl)
  | .reset => reset_kept (Part.outside_of_subset h rfl)
  | .quiesce => quiesce_kept (Part.outside_of_subset h rfl)
  | .setPowerState => setPowerState_kept (Part.outside_of_subset h rfl)
  | .setPowerCap => setPowerCap_kept (Part.outside_of_subset h rfl)
  | .broadcastPatch => broadcastPatch_kept (Part.outside_of_subset h rfl)
  | .copySram _ => copySram_kept (Part.outside_of_subset h rfl)
  | .layerWrite _ => layerWrite_kept (Part.outside_of_subset h rfl)
  | .layerRead => layerRead_kept (Part.outside_of_subset h rfl)
  | .factorWrite _ => factorWrite_kept (Part.outside_of_subset h rfl)
  | .factorRead => factorRead_kept (Part.outside_of_subset h rfl)
  | .jobStart _ => jobStart_kept (Part.outside_of_subset h rfl)
  | .jobStop => jobStop_kept (Part.outside_of_subset h rfl)
  | .replayStep => replayStep_kept (Part.outside_of_subset h rfl)
  | .skipStep => skipStep_kept (Part.outside_of_subset h rfl)
  | .jobResumeStop => jobResumeStop_kept (Part.outside_of_subset h rfl)
  | .discover => discover_kept (Part.outside_of_subset h rfl)
  | .discoveryRead => discoveryRead_kept (Part.outside_of_subset h rfl)
  | .setGrid => setGrid_kept (Part.outside_of_subset h rfl)
  | .shardPermute _ => shardPermute_kept (Part.outside_of_subset h rfl)
  | .planRead => planRead_kept (Part.outside_of_subset h rfl)
  | .v1Send _ => v1Send_kept (Part.outside_of_subset h rfl)
  | .groupReset => groupReset_kept (Part.outside_of_subset h rfl)
  | .harvestStart => harvestStart_kept (Part.outside_of_subset h rfl)
  | .snapshotOpen => snapshotOpen_kept (Part.outside_of_subset h rfl)
  | .harvestDrain _ _ _ => harvestDrain_kept (Part.outside_of_subset h rfl)
  | .harvestDataReceive _ _ _ => harvestDataReceive_kept (Part.outside_of_subset h rfl)
  | .harvestRestore _ => harvestRestore_kept (Part.outside_of_subset h rfl)
  | .selftest _ => selftest_kept (Part.outside_of_subset h rfl)
  | .marginReplan _ => marginReplan_kept (Part.outside_of_subset h rfl)
  | .marginReplanDaily _ => marginReplanDaily_kept (Part.outside_of_subset h rfl)
  | .spareRead => spareRead_kept (Part.outside_of_subset h rfl)
  | .rgaRead => rgaRead_kept (Part.outside_of_subset h rfl)
  | .rgaFlush => rgaFlush_kept (Part.outside_of_subset h rfl)
  | .rgaClear => rgaClear_kept (Part.outside_of_subset h rfl)
  | .fwStage _ => fwStage_kept (Part.outside_of_subset h rfl)
  | .recoveryFwStage _ => recoveryFwStage_kept (Part.outside_of_subset h rfl)
  | .fwCommit => fwCommit_kept (Part.outside_of_subset h rfl)
  | .debugChallenge => debugChallenge_kept (Part.outside_of_subset h rfl)
  | .debugUnlock => debugUnlock_kept (Part.outside_of_subset h rfl)
  | .toDebugUnlocked => toDebugUnlocked_kept (Part.outside_of_subset h rfl)
  | .toSecured => toSecured_kept (Part.outside_of_subset h rfl)
  | .toReturned => toReturned_kept (Part.outside_of_subset h rfl)
  | .traceRead => traceRead_kept (Part.outside_of_subset h rfl)
  | .debugHalt => debugHalt_kept (Part.outside_of_subset h rfl)
  | .debugResume => debugResume_kept (Part.outside_of_subset h rfl)
  | .memRead _ => memRead_kept (Part.outside_of_subset h rfl)
  | .memWrite _ => memWrite_kept (Part.outside_of_subset h rfl)
  | .debugReset _ => debugReset_kept (Part.outside_of_subset h rfl)
  | .debugEnd => debugEnd_kept (Part.outside_of_subset h rfl)
  | .ticketAbort => ticketAbort_kept (Part.outside_of_subset h rfl)
  | .v1Identify => v1Identify_kept (Part.outside_of_subset h rfl)
  | .v1Health => v1Health_kept (Part.outside_of_subset h rfl)
  | .v1Reset => v1Reset_kept (Part.outside_of_subset h rfl)
  | .v1SetPcap => v1SetPcap_kept (Part.outside_of_subset h rfl)
  | .v1GetLog => v1GetLog_kept (Part.outside_of_subset h rfl)
  | .v1FwUpdate _ => v1FwUpdate_kept (Part.outside_of_subset h rfl)
  | .getVersion => getVersion_kept (Part.outside_of_subset h rfl)
  | .getCapabilities => getCapabilities_kept (Part.outside_of_subset h rfl)
  | .negotiateAlgorithms _ _ _ _ => negotiateAlgorithms_kept (Part.outside_of_subset h rfl)
  | .getDigests => getDigests_kept (Part.outside_of_subset h rfl)
  | .getCertificate _ _ _ => getCertificate_kept (Part.outside_of_subset h rfl)
  | .challenge _ _ => challenge_kept (Part.outside_of_subset h rfl)
  | .getMeasurements _ _ _ => getMeasurements_kept (Part.outside_of_subset h rfl)
  | .keyExchange _ _ => keyExchange_kept (Part.outside_of_subset h rfl)
  | .finish _ _ => finish_kept (Part.outside_of_subset h rfl)
  | .heartbeat _ => heartbeat_kept (Part.outside_of_subset h rfl)
  | .keyUpdate _ _ => keyUpdate_kept (Part.outside_of_subset h rfl)
  | .endSession _ => endSession_kept (Part.outside_of_subset h rfl)
  | .tapChallenge => tapChallenge_kept (Part.outside_of_subset h rfl)
  | .tapUnlock _ _ => tapUnlock_kept (Part.outside_of_subset h rfl)
  | .tapEnd => tapEnd_kept (Part.outside_of_subset h rfl)
  | .idcode => idcode_kept (Part.outside_of_subset h rfl)
  | .bypass _ => bypass_kept (Part.outside_of_subset h rfl)
  | .samplePreload _ _ => samplePreload_kept (Part.outside_of_subset h rfl)
  | .extest _ _ => extest_kept (Part.outside_of_subset h rfl)
  | .nonceExpire => nonceExpire_kept (Part.outside_of_subset h rfl)
  | .provision => provision_kept (Part.outside_of_subset h rfl)
  | .hdmCommit _ _ _ => hdmCommit_kept (Part.outside_of_subset h rfl)
  | .hdmRead _ _ _ _ => hdmRead_kept (Part.outside_of_subset h rfl)
  | .hdmWrite _ _ _ => hdmWrite_kept (Part.outside_of_subset h rfl)
  | .regResponseTimeout => regResponseTimeout_kept (Part.outside_of_subset h rfl)
  | .pciePowerState _ => pciePowerState_kept (Part.outside_of_subset h rfl)
  | .powerTransitionComplete => powerTransitionComplete_kept (Part.outside_of_subset h rfl)
  | .wakeWave => wakeWave_kept (Part.outside_of_subset h rfl)
  | .throttleUpdate _ _ => throttleUpdate_kept (Part.outside_of_subset h rfl)
  | .eccBucketRoll => eccBucketRoll_kept (Part.outside_of_subset h rfl)
  | .laneWindow _ _ _ _ => laneWindow_kept (Part.outside_of_subset h rfl)
  | .monitorReading _ => monitorReading_kept (Part.outside_of_subset h rfl)
  | .spareEyeCheck _ _ => spareEyeCheck_kept (Part.outside_of_subset h rfl)
  | .rgaSample _ _ => rgaSample_kept (Part.outside_of_subset h rfl)
  | .windowClose => windowClose_kept (Part.outside_of_subset h rfl)
  | .sheetWrite => sheetWrite_kept (Part.outside_of_subset h rfl)
  | .powerOn => powerOn_kept (Part.outside_of_subset h rfl)
  | .supplyTrip _ => supplyTrip_kept (Part.outside_of_subset h rfl)
  | .cxlPerst _ => cxlPerst_kept (Part.outside_of_subset h rfl)
  | .functionLevelReset => functionLevelReset_kept (Part.outside_of_subset h rfl)
  | .dbgSrst _ => dbgSrst_kept (Part.outside_of_subset h rfl)
  | .resetRequest _ => resetRequest_kept (Part.outside_of_subset h rfl)
  | .resetRelease _ _ _ _ => resetRelease_kept (Part.outside_of_subset h rfl)
  | .watchdogKick => watchdogKick_kept (Part.outside_of_subset h rfl)
  | .watchdogTimeout => watchdogTimeout_kept (Part.outside_of_subset h rfl)
  | .thermalTrip _ => thermalTrip_kept (Part.outside_of_subset h rfl)
  | .refclkLoss => refclkLoss_kept (Part.outside_of_subset h rfl)
  | .refclkReturn => refclkReturn_kept (Part.outside_of_subset h rfl)
  | .facCapHeldApply => facCapHeldApply_kept (Part.outside_of_subset h rfl)
  | .clearFaults _ => clearFaults_kept (Part.outside_of_subset h rfl)
  | .capability => capability_kept (Part.outside_of_subset h rfl)
  | .statusWord _ => statusWord_kept (Part.outside_of_subset h rfl)
  | .readVin => readVin_kept (Part.outside_of_subset h rfl)
  | .readIin => readIin_kept (Part.outside_of_subset h rfl)
  | .readPin => readPin_kept (Part.outside_of_subset h rfl)
  | .readTemperature1 => readTemperature1_kept (Part.outside_of_subset h rfl)
  | .readTemperature2 => readTemperature2_kept (Part.outside_of_subset h rfl)
  | .readTemperature3 => readTemperature3_kept (Part.outside_of_subset h rfl)
  | .mfrSerial => mfrSerial_kept (Part.outside_of_subset h rfl)
  | .mfrCoolantFlow => mfrCoolantFlow_kept (Part.outside_of_subset h rfl)
  | .mfrPowerCap _ _ => mfrPowerCap_kept (Part.outside_of_subset h rfl)
  | .mfrPowerState => mfrPowerState_kept (Part.outside_of_subset h rfl)
  | .mfrIdentify _ => mfrIdentify_kept (Part.outside_of_subset h rfl)
  | .mfrEmergArm _ _ => mfrEmergArm_kept (Part.outside_of_subset h rfl)
  | .mfrEmergReset _ _ => mfrEmergReset_kept (Part.outside_of_subset h rfl)
  | .emergArmExpire => emergArmExpire_kept (Part.outside_of_subset h rfl)
  | .mfrRgaSummary => mfrRgaSummary_kept (Part.outside_of_subset h rfl)
  | .alertResponse => alertResponse_kept (Part.outside_of_subset h rfl)
  | .facEmergOffAssert => facEmergOffAssert_kept (Part.outside_of_subset h rfl)
  | .facEmergOffDeassert => facEmergOffDeassert_kept (Part.outside_of_subset h rfl)
  | .coolantFault => coolantFault_kept (Part.outside_of_subset h rfl)
  | .coolantGraceExpire => coolantGraceExpire_kept (Part.outside_of_subset h rfl)
  | .coolantRestored => coolantRestored_kept (Part.outside_of_subset h rfl)
  | .registerRead _ _ => registerRead_kept (Part.outside_of_subset h rfl)
  | .cspMemoryAccess _ _ _ _ _ => cspMemoryAccess_kept (Part.outside_of_subset h rfl)
  | .badCrcFrame _ _ => badCrcFrame_kept (Part.outside_of_subset h rfl)
  | .rowErrorWindowExpire _ _ => rowErrorWindowExpire_kept (Part.outside_of_subset h rfl)
  | .pmbusUnsupportedCode _ _ => pmbusUnsupportedCode_kept (Part.outside_of_subset h rfl)
  | .vnop _ _ | .vadd _ _ | .vsub _ _ | .vmul _ _ | .vfma _ _ | .vfnma _ _ | .vmax _ _ | .vmin _ _ | .vabs _ _ | .vneg _ _
  | .vceq _ _ | .vclt _ _ | .vcle _ _ | .vclass _ _ | .vsel _ _ | .vmov _ _ | .vand _ _ | .vor _ _ | .vxor _ _ | .vshl _ _
  | .vsra _ _ | .vsrl _ _ | .viadd _ _ | .visub _ _ | .vdiv _ _ | .vsqrt _ _ | .vcvt _ _ | .vcvtMx _ _ | .vcvtwMx _ _ | .vlsplit _ _
  | .vljoin _ _ | .accrd _ _ | .vredSum _ _ | .vredMax _ _ | .vredMin _ _ | .vred2Norm _ _ | .vred2Smax _ _ | .vexp2 _ _ | .vexp _ _ | .vlog2 _ _
  | .vrcp _ _ | .vrsq _ _ | .vsinpi _ _ | .vcospi _ _ | .vtanh _ _ | .verf _ _ => nomatch hi
end
end Sys2Proof.Machine

namespace Sys2Proof.Claims
open Machine

theorem pending_notMem_touches (i : Instr) : Part.pending ∉ touches i := by
  unfold touches
  split <;> decide

theorem touches_vectorRow {i : Instr} {gi op w : Nat} (hi : vectorRow i = some (gi, op, w)) : touches i = [.cores, .clusters, .net] := by
  unfold vectorRow at hi
  split at hi <;> cases hi <;> rfl

theorem vectorRow_eq_none_of_touches {i : Instr} (h : ¬ ∀ p ∈ touches i, p ∈ fabricParts) : vectorRow i = none := by
  match hi : vectorRow i with
  | none => rfl
  | some (gi, op, w) =>
    refine absurd ?_ h
    rw [touches_vectorRow hi]
    decide

/-- Settles O57: every part a command's list does not name agrees before and after, command by command (`exec_kept`). -/
theorem hubFrames : Obligations.HubFrames := by
  intro i s t hhub hexec p hp
  obtain ⟨u, hu, hsame⟩ := exec_kept (s := s) (vectorRow_eq_none_of_touches hhub) hp
  cases hu.symm.trans hexec
  exact hsame

/-- Settles O59: a vector word answers the state after it, and every other command answers a state whose queue is the one before. -/
theorem everyCommandCompletes : Obligations.EveryCommandCompletes := by
  intro i s
  match hi : vectorRow i with
  | some (gi, op, w) => exact ⟨_, exec_vectorRow hi⟩
  | none =>
    obtain ⟨t, ht, -⟩ := exec_kept (s := s) hi (pending_notMem_touches i)
    exact ⟨t, ht⟩
end Sys2Proof.Claims
end

section
/-! A host's access of the Cold frame (O3). -/

namespace Sys2Proof.Claims
open Machine

/-- A host with nothing held makes its access at once (R173). -/
theorem access_of_hostFree {s : State} {x : HostAcc} {go : State → State} (hs : hostFree s) : s.access .host x go = go s := by
  obtain ⟨-, hheld, hbehind⟩ := hs
  simp [State.access, State.hostDrained, hbehind, State.drainHost, hheld]

/-- A host read of RST_CFDATA answers the low four bytes of the Cold frame's word, and the index advances (R388, R442). -/
theorem exec_coldFrameRead {s : State} (hs : hostFree s) :
    exec (.coldFrameAccess (.bar2 (Reg.offset .RST_CFDATA 0)) none) s =
      .next (s.coldNext.gave .host (lanes 15 (Sparse.get (fun _ => 0) s.rst.cold (s.hf .RST_CFIDX 0 0 8)))) := by
  have hup : s.canAccess (.bar2 (Reg.offset .RST_CFDATA 0)) = true := hs.1
  have hplace : s.placeFor (.bar2 (Reg.offset .RST_CFDATA 0)) = .hub (Reg.offset .RST_CFDATA 0) := rfl
  have hreg : regAt .hub (Reg.offset .RST_CFDATA 0) = some (.RST_CFDATA, 0) := by decide
  have hread : s.regRead (.bar2 (Reg.offset .RST_CFDATA 0)) 15 =
      s.coldNext.gave .host (lanes 15 (Sparse.get (fun _ => 0) s.rst.cold (s.hf .RST_CFIDX 0 0 8))) := by
    simp [State.regRead, hplace, State.hostRead, RegPlace.mapped, State.dark, hreg, RegPlace.remote, State.readNow, State.readPlace,
      State.readHub, State.coldRead, Reg.info]
  show execColdFrameAccess _ none s = _
  rw [execColdFrameAccess, hup, hplace, ← hread]
  exact congrArg _ (access_of_hostFree hs)

/-- Reset, with a word of the Cold frame that does not fit its register: the state's frame holds numbers of any size. -/
def wideColdWord : State := { State.reset with rst := { State.reset.rst with cold := [(0, 2 ^ 32)] } }

/-- Refutes O3: in `wideColdWord` the word at RST_CFIDX is 2^32, and the host's read of it answers its low four bytes, which are zero. -/
theorem not_hostRegisterAccess : ¬ Obligations.HostRegisterAccess := by
  intro h
  have hfree : hostFree wideColdWord := by simp only [hostFree]; decide +kernel
  obtain ⟨-, -, hcold, -⟩ := h.1 wideColdWord hfree
  obtain ⟨t, ht, hdata, -⟩ := hcold
  rw [exec_coldFrameRead hfree] at ht
  cases ht
  have hzero : lanes 15 (2 ^ 32) = 0 := by decide
  have hword : Sparse.get (fun _ => 0) wideColdWord.rst.cold (wideColdWord.hf .RST_CFIDX 0 0 8) = 2 ^ 32 := by decide +kernel
  rw [hword] at hdata
  exact absurd (hdata.symm.trans hzero) (by decide)

end Sys2Proof.Claims
end

section
/-! Power states, throttling and commits (O35): what the operations leave in the registers, then the statement. -/

namespace Sys2Proof

/-- A field is its low bits and its high bits. -/
theorem bits_add (v lo a b : Nat) : bits v lo (a + b) = bits v lo a + 2 ^ a * bits v (lo + a) b := by
  rw [bits, bits, bits, pow_add, Nat.mod_mul, Nat.div_div_eq_div_mul, ← pow_add]

namespace Machine

/-! ### The hub windows as wholes -/

/-- A register with a field written. -/
theorem State.h_setHf_same (s : State) (r : Reg) (i lo w x : Nat) (h : lo + w ≤ 32) : (s.setHf r i lo w x).h r i = putBits (s.h r i) lo w x :=
  rg_sf_same s.hub r i lo w x h

/-- A field of a register is its bits. -/
theorem State.hf_eq_bits (s : State) (r : Reg) (i lo w : Nat) : s.hf r i lo w = bits (s.h r i) lo w := rfl

/-- States with one set of hub windows read the same fields. -/
theorem State.hf_of_hub {s t : State} (h : t.hub = s.hub) (r : Reg) (i lo w : Nat) : t.hf r i lo w = s.hf r i lo w := by rw [State.hf, h]; rfl

theorem State.h_of_hub {s t : State} (h : t.hub = s.hub) (r : Reg) (i : Nat) : t.h r i = s.h r i := by rw [State.h, h]; rfl

/-- An event writes no hub register but FAC_STAT, which latches a failure (R428). -/
theorem State.h_event (s : State) (status kind idx arg : Nat) (r : Reg) (i : Nat) (h : r.offset i ≠ Reg.offset .FAC_STAT 0) :
    (s.event status kind idx arg).h r i = s.h r i := by
  unfold State.event
  split
  · rfl
  · next l _ =>
    simp only [State.logEvent]
    split
    · split <;> split
      · exact s.h_setHf_other .FAC_STAT r 0 i 5 1 1 h
      · exact s.h_setHf_other .FAC_STAT r 0 i 5 1 1 h
      · rfl
      · rfl
    · rfl

/-! ### Power states (R391-R394) -/

/-- PWR_STATE's two busy bits: a transition in progress, and a HOLD that waits for its boundary. -/
theorem State.busy_eq (s : State) : s.hf .PWR_STATE 0 6 2 = s.hf .PWR_STATE 0 6 1 + 2 * s.hf .PWR_STATE 0 7 1 := bits_add _ 6 1 1

theorem State.not_inTransition {s : State} : s.inTransition = false ↔ s.hf .PWR_STATE 0 6 2 = 0 := by simp [State.inTransition]

theorem State.idle_bits {s : State} (h : s.inTransition = false) : s.hf .PWR_STATE 0 6 1 = 0 ∧ s.hf .PWR_STATE 0 7 1 = 0 := by
  have hbusy := State.not_inTransition.1 h
  rw [State.busy_eq] at hbusy
  omega

/-- PHYs coming up leave the power state register. -/
theorem State.h_phyUp (s : State) : s.phyUp.h .PWR_STATE 0 = s.h .PWR_STATE 0 := by
  unfold State.phyUp
  rw [State.h_setH_other _ _ _ _ _ _ (by decide), State.h_setHf_other _ _ _ _ _ _ _ _ (by decide)]
  split
  · rfl
  · exact State.h_of_hub ((same_forgetHbm (p := .hub) (by simp)).2 rfl) _ _

/-- A transition as it begins: its ticket kept and its target set. -/
def State.targeted (s : State) (target n : Nat) : State := { s with pwr := { s.pwr with ticket := n } }.setHf .PWR_STATE 0 3 3 target

/-- The work a transition begins with: QUIESCE on the way down, wake waves on the way up (R394, R397). -/
def State.powerWork (s : State) (target : Nat) : State :=
  let t := if 2 ≤ target ∧ s.powerState < 2 ∧ s.quiesce.isNone then s.startQuiesce 0 else s
  if target ≤ 1 ∧ 2 ≤ t.powerState then (if t.powerState = 3 then t.phyUp else t).wake (List.range 8) else t

theorem State.powerBegin_eq (s : State) (target n : Nat) : s.powerBegin target n =
    if target = 1 ∧ s.step.job then (s.targeted target n).setHf .PWR_STATE 0 7 1 1
    else ((s.targeted target n).powerWork target).setHf .PWR_STATE 0 6 1 1 := rfl

theorem State.h_targeted (s : State) (target n : Nat) : (s.targeted target n).h .PWR_STATE 0 = putBits (s.h .PWR_STATE 0) 3 3 target :=
  State.h_setHf_same _ _ _ _ _ _ (by decide)

/-- The work leaves the power state register and the ticket. -/
theorem State.powerWork_keeps (s : State) (target : Nat) :
    (s.powerWork target).h .PWR_STATE 0 = s.h .PWR_STATE 0 ∧ (s.powerWork target).pwr.ticket = s.pwr.ticket := by
  have hphy : ∀ t : State, t.phyUp.pwr = t.pwr := fun t => (same_phyUp (p := .pwr) (by simp)).2 rfl
  unfold State.powerWork
  extract_lets t
  have ht : t.h .PWR_STATE 0 = s.h .PWR_STATE 0 ∧ t.pwr.ticket = s.pwr.ticket := by unfold t; split <;> exact ⟨rfl, rfl⟩
  split
  · split
    · exact ⟨t.h_phyUp.trans ht.1, (congrArg Power.ticket (hphy t)).trans ht.2⟩
    · exact ht
  · exact ht

/-- PWR_STATE as a transition begins: the target, and one busy bit. -/
theorem State.h_powerBegin (s : State) (target n : Nat) : (s.powerBegin target n).h .PWR_STATE 0 =
    putBits (putBits (s.h .PWR_STATE 0) 3 3 target) (if target = 1 ∧ s.step.job then 7 else 6) 1 1 := by
  rw [State.powerBegin_eq]
  split
  · rw [State.h_setHf_same _ _ _ _ _ _ (by decide), State.h_targeted]
  · rw [State.h_setHf_same _ _ _ _ _ _ (by decide), (State.powerWork_keeps _ _).1, State.h_targeted]

/-- The transition keeps its ticket. -/
theorem State.ticket_powerBegin (s : State) (target n : Nat) : (s.powerBegin target n).pwr.ticket = n := by
  rw [State.powerBegin_eq]
  split
  · rfl
  · exact (State.powerWork_keeps _ _).2

/-- A transition that begins leaves the state in force, and says its target and what it waits for. -/
theorem State.powerBegin_fields (s : State) {target n : Nat} (ht : target < 8) (hidle : s.inTransition = false) :
    (s.powerBegin target n).powerState = s.powerState ∧ (s.powerBegin target n).hf .PWR_STATE 0 3 3 = target ∧
      (s.powerBegin target n).hf .PWR_STATE 0 6 2 = (if target = 1 ∧ s.step.job = true then 2 else 1) := by
  obtain ⟨h6, h7⟩ := State.idle_bits hidle
  rw [State.hf_eq_bits] at h6 h7
  rw [State.busy_eq]
  simp only [State.powerState, State.hf_eq_bits, State.h_powerBegin]
  split
  · rw [bits_putBits_other _ 7 _ _ 0 _ (by omega), bits_putBits_other _ 3 _ _ 0 _ (by omega), bits_putBits_other _ 7 _ _ 3 _ (by omega),
      bits_putBits_other _ 7 _ _ 6 _ (by omega), bits_putBits_other _ 3 _ _ 6 _ (by omega), bits_putBits_same, bits_putBits_same, h6]
    exact ⟨rfl, Nat.mod_eq_of_lt ht, rfl⟩
  · rw [bits_putBits_other _ 6 _ _ 0 _ (by omega), bits_putBits_other _ 3 _ _ 0 _ (by omega), bits_putBits_other _ 6 _ _ 3 _ (by omega),
      bits_putBits_other _ 6 _ _ 7 _ (by omega), bits_putBits_other _ 3 _ _ 7 _ (by omega), bits_putBits_same, bits_putBits_same, h7]
    exact ⟨rfl, Nat.mod_eq_of_lt ht, rfl⟩

/-- The registers of a transition that is done: the state reached, nothing in progress, compute ready from HOLD up. -/
def State.powerAt (s : State) (target : Nat) : State :=
  let t := (s.setHf .PWR_STATE 0 0 3 target).setHf .PWR_STATE 0 3 5 0
  let u := if target ≤ 1 then { t with rst := { t.rst with compute := true }, host := { t.host with unavail := false } } else t
  if target = 0 then u.setHf .DBG_STAT 0 2 1 0 else u

/-- A transition that is done, before the next one begins: its ticket has ended too. -/
def State.powerReached (s : State) (target : Nat) : State :=
  if s.pwr.ticket < 8 then (s.powerAt target).endTicket s.pwr.ticket St.OK else s.powerAt target

theorem State.powerDone_eq (s : State) (target : Nat) :
    s.powerDone target = State.powerGo (s.powerReached target).pwr.queue (s.powerReached target) := rfl

theorem same_powerReached {p : Part} {s t : State} {target : Nat} (h : p.outside [.hub, .mb, .host, .rst, .msix]) :
    p.same s (t.powerReached target) ↔ p.same s t := by
  have hat : p.same s (t.powerAt target) ↔ p.same s t := by simp at h; simp [State.powerAt, h]
  unfold State.powerReached
  split
  · rw [same_endTicket (by simp_all), hat]
  · exact hat

theorem State.h_powerAt (s : State) (target : Nat) :
    (s.powerAt target).h .PWR_STATE 0 = putBits (putBits (s.h .PWR_STATE 0) 0 3 target) 3 5 0 := by
  have hset : ((s.setHf .PWR_STATE 0 0 3 target).setHf .PWR_STATE 0 3 5 0).h .PWR_STATE 0 =
      putBits (putBits (s.h .PWR_STATE 0) 0 3 target) 3 5 0 := by
    rw [State.h_setHf_same _ _ _ _ _ _ (by decide), State.h_setHf_same _ _ _ _ _ _ (by decide)]
  unfold State.powerAt
  split <;> split
  · exact (State.h_setHf_other _ .DBG_STAT _ _ _ _ _ _ (by decide)).trans hset
  · exact hset
  · exact (State.h_setHf_other _ .DBG_STAT _ _ _ _ _ _ (by decide)).trans hset
  · exact hset

theorem State.powerReached_hub (s : State) (target : Nat) : (s.powerReached target).hub = (s.powerAt target).hub := by
  unfold State.powerReached
  split
  · exact (same_endTicket (p := .hub) (by simp)).2 rfl
  · rfl

/-- HOLD and better have compute ready (R391). -/
theorem State.powerReached_compute (s : State) {target : Nat} (ht : target ≤ 1) : (s.powerReached target).rst.compute = true := by
  have hat : (s.powerAt target).rst.compute = true := by
    simp only [State.powerAt, if_pos ht]
    split <;> rfl
  unfold State.powerReached
  split
  · rw [(same_endTicket (p := .rst) (by simp)).2 rfl]; exact hat
  · exact hat

/-- With nothing waiting, a transition that is done rests at its target. -/
theorem State.powerDone_of_queue (s : State) (target : Nat) (hq : s.pwr.queue = []) :
    s.powerDone target = { s.powerReached target with pwr := { s.pwr with queue := [], ticket := 8 } } := by
  have hpwr : (s.powerReached target).pwr = s.pwr := (same_powerReached (p := .pwr) (by simp)).2 rfl
  rw [State.powerDone_eq, hpwr, hq, State.powerGo, hpwr]

/-- PWR_STATE once a transition is done and none waits: the state reached, and nothing in progress. -/
theorem State.powerDone_fields (s : State) {target : Nat} (ht : target < 8) (hq : s.pwr.queue = []) :
    (s.powerDone target).powerState = target ∧ (s.powerDone target).inTransition = false := by
  have hhub : (s.powerDone target).hub = (s.powerAt target).hub := by rw [State.powerDone_of_queue s target hq]; exact s.powerReached_hub target
  rw [State.not_inTransition, State.powerState]
  simp only [State.hf_of_hub hhub, State.hf_eq_bits, State.h_powerAt]
  constructor
  · rw [bits_putBits_other _ _ _ _ _ _ (by omega), bits_putBits_same]
    exact Nat.mod_eq_of_lt ht
  · have hsplit : ∀ v, bits v 3 5 = bits v 3 3 + 2 ^ 3 * bits v 6 2 := fun v => bits_add v 3 3 2
    have hzero := hsplit (putBits (putBits (s.h .PWR_STATE 0) 0 3 target) 3 5 0)
    rw [bits_putBits_same] at hzero
    omega

/-! ### Throttling (R399) -/

theorem levelNext_lt {l : Nat} (h : l < 16) (up down : Bool) : levelNext l up down < 16 := by
  unfold levelNext; split <;> [skip; split] <;> omega

theorem pwrThr_offset_ne {d e : Nat} (h : d ≠ e) : Reg.offset .PWR_THR d ≠ Reg.offset .PWR_THR e := by
  unfold Reg.offset; omega

theorem pwrThr_offset_ne_other {d : Nat} (hd : d < 8) : Reg.offset .PWR_THR d ≠ Reg.offset .FAC_STAT 0 ∧
    Reg.offset .PWR_THR d ≠ Reg.offset .PWR_CAP 0 := by
  simp only [Reg.offset, Reg.info]; omega

/-- Die `d`'s two levels written: of its power, and of its temperature. -/
def State.levels (s : State) (d c h : Nat) : State := (s.setHf .PWR_THR d 0 4 c).setHf .PWR_THR d 4 4 h

/-- The two levels read back, and the one in force is their larger, or 15. -/
theorem State.levels_fields (s : State) (d : Nat) {c h : Nat} (hc : c < 16) (hh : h < 16) :
    ((s.levels d c h).levelEff d).hf .PWR_THR d 0 4 = c ∧ ((s.levels d c h).levelEff d).hf .PWR_THR d 4 4 = h ∧
      ((s.levels d c h).levelEff d).hf .PWR_THR d 8 4 = if s.pwr.coolForce then 15 else max c h := by
  have hpow : (s.levels d c h).hf .PWR_THR d 0 4 = c := by
    rw [State.levels, State.hf_setHf_field _ _ _ _ _ _ _ _ (by omega) (by omega), State.hf_setHf_same _ _ _ _ _ _ (by omega)]
    exact Nat.mod_eq_of_lt hc
  have htemp : (s.levels d c h).hf .PWR_THR d 4 4 = h := by
    rw [State.levels, State.hf_setHf_same _ _ _ _ _ _ (by omega)]
    exact Nat.mod_eq_of_lt hh
  have hcool : (s.levels d c h).pwr = s.pwr := rfl
  rw [State.levelEff, hpow, htemp, hcool]
  refine ⟨?_, ?_, ?_⟩
  · rw [State.hf_setHf_field _ _ _ _ _ _ _ _ (by omega) (by omega), hpow]
  · rw [State.hf_setHf_field _ _ _ _ _ _ _ _ (by omega) (by omega), htemp]
  · rw [State.hf_setHf_same _ _ _ _ _ _ (by omega)]
    exact Nat.mod_eq_of_lt (by split <;> omega)

/-- The level of die `d` for the module's power, after an update. -/
def State.powerLevel (s : State) (p d : Nat) : Nat :=
  levelNext (s.hf .PWR_THR d 0 4) (decide (1000 * s.hf .PWR_CAP 0 0 14 < p)) (decide (100 * p < 97000 * s.hf .PWR_CAP 0 0 14))

/-- The level of die `d` for its reading `x`, after an update. -/
def State.heatLevel (s : State) (d x : Nat) : Nat := levelNext (s.hf .PWR_THR d 4 4) (decide (95000 ≤ x)) (decide (x ≤ 92000))

/-- `t` holds what an update from power `p` and reading `x` makes of die `d`'s levels in `s`. -/
def State.ThrottledTo (s t : State) (p d x : Nat) : Prop :=
  t.hf .PWR_THR d 0 4 = s.powerLevel p d ∧ t.hf .PWR_THR d 4 4 = s.heatLevel d x ∧
    t.hf .PWR_THR d 8 4 = if s.pwr.coolForce then 15 else max (s.powerLevel p d) (s.heatLevel d x)

/-- Of the registers, throttling a die writes its levels, and FAC_STAT by the events it raises. -/
theorem State.h_throttleDie (s : State) (p d x : Nat) (r : Reg) (i : Nat) (h : r.offset i ≠ Reg.offset .FAC_STAT 0) :
    (s.throttleDie p d x).h r i = ((s.levels d (s.powerLevel p d) (s.heatLevel d x)).levelEff d).h r i := by
  have hevent : ∀ (t : State) (c : Prop) [Decidable c] (st : Nat), (if c then t.event st 1 d 0 else t).h r i = t.h r i := fun t c _ st => by
    split
    · exact State.h_event _ _ _ _ _ _ _ h
    · rfl
  exact (hevent _ _ _).trans (hevent _ _ _)

theorem State.h_throttleDie_other (s : State) (p d x : Nat) {r : Reg} {i : Nat} (h : r.offset i ≠ Reg.offset .FAC_STAT 0)
    (hd : r.offset i ≠ Reg.offset .PWR_THR d) : (s.throttleDie p d x).h r i = s.h r i := by
  rw [State.h_throttleDie s p d x r i h, State.levelEff, State.h_setHf_other _ _ _ _ _ _ _ _ hd, State.levels,
    State.h_setHf_other _ _ _ _ _ _ _ _ hd, State.h_setHf_other _ _ _ _ _ _ _ _ hd]

theorem State.throttleDie_throttles (s : State) (p x : Nat) {d : Nat} (hd : d < 8) : s.ThrottledTo (s.throttleDie p d x) p d x := by
  have hread : ∀ lo w, (s.throttleDie p d x).hf .PWR_THR d lo w =
      ((s.levels d (s.powerLevel p d) (s.heatLevel d x)).levelEff d).hf .PWR_THR d lo w := fun lo w => by
    rw [State.hf_eq_bits, State.h_throttleDie s p d x .PWR_THR d (pwrThr_offset_ne_other hd).1]; rfl
  simp only [State.ThrottledTo, hread]
  exact s.levels_fields d (levelNext_lt (bits_lt _ _ 4) _ _) (levelNext_lt (bits_lt _ _ 4) _ _)

/-- An update in turn of the dies listed leaves the others' levels. -/
theorem State.h_throttleDies_other (p : Nat) (temps : List Nat) {d : Nat} (hd : d < 8) {l : List Nat} (hl : d ∉ l) (s : State) :
    (l.foldl (fun (t : State) d => t.throttleDie p d (temps.getD d 0)) s).h .PWR_THR d = s.h .PWR_THR d := by
  induction l generalizing s with
  | nil => rfl
  | cons e l ih =>
    simp only [List.mem_cons, not_or] at hl
    rw [List.foldl_cons, ih hl.2, State.h_throttleDie_other _ _ _ _ (pwrThr_offset_ne_other hd).1 (pwrThr_offset_ne hl.1)]

/-- An update in turn of the dies listed updates each from the levels it had. -/
theorem State.throttleDies_throttle (p : Nat) (temps : List Nat) {d : Nat} {l : List Nat} (hlt : ∀ e ∈ l, e < 8) (hnodup : l.Nodup) (hd : d ∈ l) (s : State) :
    s.ThrottledTo (l.foldl (fun (t : State) d => t.throttleDie p d (temps.getD d 0)) s) p d (temps.getD d 0) := by
  have hd8 := hlt d hd
  induction l generalizing s with
  | nil => simp at hd
  | cons e l ih =>
    obtain ⟨hel, hl⟩ := List.nodup_cons.1 hnodup
    rw [List.foldl_cons]
    by_cases hde : d = e
    · subst hde
      have hkeep := State.h_throttleDies_other p temps hd8 hel (s.throttleDie p d (temps.getD d 0))
      have hone := s.throttleDie_throttles p (temps.getD d 0) hd8
      simp only [State.ThrottledTo, State.hf_eq_bits, hkeep] at hone ⊢
      exact hone
    · have hrest := ih (fun e he => hlt e (List.mem_cons_of_mem _ he)) hl ((List.mem_cons.1 hd).resolve_left hde) (s.throttleDie p e (temps.getD e 0))
      have hthr : (s.throttleDie p e (temps.getD e 0)).h .PWR_THR d = s.h .PWR_THR d :=
        State.h_throttleDie_other _ _ _ _ (pwrThr_offset_ne_other hd8).1 (pwrThr_offset_ne hde)
      have hcap : (s.throttleDie p e (temps.getD e 0)).h .PWR_CAP 0 = s.h .PWR_CAP 0 :=
        State.h_throttleDie_other _ _ _ _ (by decide) (pwrThr_offset_ne_other (hlt e List.mem_cons_self)).2.symm
      have hcool : (s.throttleDie p e (temps.getD e 0)).pwr = s.pwr := (same_throttleDie (p := .pwr) (by simp)).2 rfl
      simp only [State.ThrottledTo, State.powerLevel, State.heatLevel, State.hf_eq_bits, hthr, hcap, hcool] at hrest ⊢
      exact hrest

end Machine
end Sys2Proof
end

section
namespace Sys2Proof.Claims
open Machine

/-! ### Commands of the mailbox that open a ticket (R331) -/

/-- A ticket written is read back, where there is one. -/
theorem ticket_setTicket {s : State} {n : Nat} (x : Ticket) (hn : n < s.mb.tickets.length) : (s.setTicket n x).ticket n = x := by
  simp [State.ticket, State.setTicket, List.getD, List.getElem?_set_self hn]

/-- A status that no log takes raises nothing (R339). -/
theorem event_of_unlogged {s : State} {status kind idx arg : Nat} (h : statusLog status = none) : s.event status kind idx arg = s := by
  rw [State.event, h]

/-- An L command's first answer is no event, and puts itself into the slot. -/
theorem reply_inProgress (s : State) (c : Cmd) (data : List Byte) : s.reply c St.IN_PROGRESS data = s.answer c.slot c.tag St.IN_PROGRESS data := by
  rw [State.reply, event_of_unlogged (by decide)]

theorem answer_mb (s : State) (k tag status : Nat) (data : List Byte) :
    (s.answer k tag status data).mb = { s.mb with slots := s.mb.slots.set k ⟨2, tag, status, data, false, 0⟩ } := by
  simp only [State.answer, State.raiseMsix_mb, State.setSlot, State.sampleUs_mb]

theorem freeTicket_lt {s : State} {n : Nat} (h : s.freeTicket = some n) : n < 8 := by
  simpa using List.mem_of_find?_eq_some h

/-- The state without the command at the head of the queue. -/
def popped (s : State) : State := { s with mb := { s.mb with cmds := s.mb.cmds.tail } }

theorem takeCmd_of_waits {s : State} {op : Nat} {c : Cmd} (hw : Waits s op c) : s.takeCmd op = some (c, popped s) := by
  obtain ⟨hup, hhead, hop, -, -⟩ := hw
  obtain ⟨rest, hcmds⟩ : ∃ rest, s.mb.cmds = c :: rest := List.head?_eq_some_iff.1 hhead
  simp [State.takeCmd, popped, hcmds, hop, hup]

theorem long_of_takeCmd {s v : State} {op n : Nat} {c : Cmd} {refuse : Cmd → State → Option Nat} {go : Cmd → Nat → State → State}
    (htake : s.takeCmd op = some (c, v)) (hrefuse : refuse c v = none) (hbusy : v.resourceBusy op = false) (hfree : v.freeTicket = some n) :
    s.long op refuse go = .next (go c n (v.openTicket n c)) := by
  simp [State.long, htake, hrefuse, hbusy, hfree]

/-- The mailbox as a ticket opens: the ticket runs and the slot says so. -/
theorem openTicket_mb (s : State) (n : Nat) (c : Cmd) : (s.openTicket n c).mb =
    { s.mb with
      tickets := s.mb.tickets.set n ⟨true, false, c.tag, St.IN_PROGRESS, 0, c.opcode, c.body, false⟩
      turn := (match s.mb.turn with | some k => some k | none => some n)
      slots := s.mb.slots.set c.slot ⟨2, c.tag, St.IN_PROGRESS, toLe 4 n, false, 0⟩ } := by
  rw [State.openTicket, reply_inProgress, answer_mb]; rfl

/-- Besides the mailbox, a ticket that opens counts its answer and interrupts. -/
theorem openTicket_onlyIn (s : State) (n : Nat) (c : Cmd) : OnlyIn [.mb, .msix, .gauge] s ((popped s).openTicket n c) := by
  intro p hp
  simp only [List.mem_cons, List.not_mem_nil, or_false, not_or] at hp
  simp [State.openTicket, reply_inProgress, State.setTicket, popped, hp]

/-- A long command that is not refused opens its ticket and goes on from there. -/
theorem long_opens {s : State} {op n : Nat} {c : Cmd} {refuse : Cmd → State → Option Nat} {go : Cmd → Nat → State → State}
    (hw : Waits s op c) (ht : Tickets s op n) (hrefuse : refuse c (popped s) = none) :
    ∃ u, Opened s u c n ∧ OnlyIn [.mb, .msix, .gauge] s u ∧ s.long op refuse go = .next (go c n u) := by
  have htake := takeCmd_of_waits hw
  obtain ⟨-, -, -, hslot, hslots⟩ := hw
  obtain ⟨hbusy, hfree, htickets⟩ := ht
  refine ⟨(popped s).openTicket n c, ⟨⟨?_, ?_⟩, ?_⟩, openTicket_onlyIn s n c, long_of_takeCmd htake hrefuse hbusy hfree⟩
  · rw [openTicket_mb]; rfl
  · rw [State.slot, openTicket_mb]
    simp [List.getD, popped, List.getElem?_set_self (hslots ▸ hslot)]
  · rw [State.ticket, openTicket_mb]
    simp [List.getD, popped, List.getElem?_set_self (htickets ▸ freeTicket_lt hfree)]

/-- An open ticket is one of the mailbox's. -/
theorem lt_length_of_active {s : State} {n : Nat} (h : (s.ticket n).active = true) : n < s.mb.tickets.length := by
  by_contra hn
  rw [State.ticket, List.getD, List.getElem?_eq_none (by omega)] at h
  exact absurd h (by decide)

/-- Whether a ticket was opened is told by the mailbox alone. -/
theorem Opened.of_mb {s u t : State} {c : Cmd} {n : Nat} (h : Opened s u c n) (hmb : t.mb = u.mb) : Opened s t c n := by
  unfold Opened Answered State.slot State.ticket at *
  rwa [hmb]

/-- A ticket that was opened and ends has ended. -/
theorem Opened.endTicket {s u : State} {c : Cmd} {n : Nat} (h : Opened s u c n) (status : Nat) : Ended s (u.endTicket n status) c n status := by
  obtain ⟨⟨hcmds, hslot⟩, hticket⟩ := h
  have hlt : n < u.mb.tickets.length := lt_length_of_active (by rw [hticket])
  have hend : u.endTicket n status = (u.setTicket n ⟨true, true, c.tag, status, 100, c.opcode, c.body, false⟩).raiseMsix 2 := by
    simp [State.endTicket, hticket]
  rw [hend]
  refine ⟨⟨hcmds, hslot⟩, ?_⟩
  rw [State.ticket, State.raiseMsix_mb]
  exact ticket_setTicket _ hlt

theorem Ended.of_mb {s u t : State} {c : Cmd} {n status : Nat} (h : Ended s u c n status) (hmb : t.mb = u.mb) : Ended s t c n status := by
  unfold Ended Answered State.slot State.ticket at *
  rwa [hmb]

/-! ### SET_POWER_STATE (R393) -/

/-- SET_POWER_STATE with a target it may take opens a ticket and asks for the transition. -/
theorem setPowerState_asks {s : State} {n : Nat} {c : Cmd} (hw : Waits s 0xD012 c) (ht : Tickets s 0xD012 n) (hc : c.field 0 1 ≤ 3)
    (hjob : s.step.job = true → c.field 0 1 ≤ 1) :
    ∃ u, Opened s u c n ∧ OnlyIn [.mb, .msix, .gauge] s u ∧ Gives .setPowerState s (u.powerAsk (c.field 0 1) n) := by
  refine long_opens (go := fun c n s => s.powerAsk (c.field 0 1) n) hw ht ?_
  have hstep : (popped s).step = s.step := rfl
  rw [if_neg (by omega), refuseIf, hstep, if_neg]
  rw [Bool.and_eq_true, decide_eq_true_eq]
  exact fun ⟨h, h2⟩ => absurd (hjob h) (by omega)

/-- What SET_POWER_STATE does with its ticket open: the transition waits, has ended, or begins. -/
theorem powerAsk_outcome {s u : State} {c : Cmd} {n target : Nat} (ho : Opened s u c n) (hu : OnlyIn [.mb, .msix, .gauge] s u) (htarget : target ≤ 3) :
    (s.inTransition = true →
      Opened s (u.powerAsk target n) c n ∧ (u.powerAsk target n).pwr.queue = s.pwr.queue ++ [(target, n)] ∧
        OnlyIn [.pwr, .mb, .msix, .gauge] s (u.powerAsk target n)) ∧
    (s.inTransition = false → target = s.powerState → Ended s (u.powerAsk target n) c n St.OK ∧ (u.powerAsk target n).hub = s.hub) ∧
    (s.inTransition = false → target ≠ s.powerState →
      Opened s (u.powerAsk target n) c n ∧ (u.powerAsk target n).pwr.ticket = n ∧ (u.powerAsk target n).hf .PWR_STATE 0 3 3 = target ∧
        (u.powerAsk target n).hf .PWR_STATE 0 6 2 = (if target = 1 ∧ s.step.job = true then 2 else 1) ∧
        (u.powerAsk target n).powerState = s.powerState) := by
  have hhub : u.hub = s.hub := hu .hub (by decide)
  have hpwr : u.pwr = s.pwr := hu .pwr (by decide)
  have hstep : u.step = s.step := hu .step (by decide)
  have hmove : u.inTransition = s.inTransition := by rw [State.inTransition, State.hf_of_hub hhub]; rfl
  have hstate : u.powerState = s.powerState := State.hf_of_hub hhub _ _ _ _
  refine ⟨fun hbusy => ?_, fun hidle heq => ?_, fun hidle hne => ?_⟩
  · rw [State.powerAsk, if_pos (hmove.trans hbusy), hpwr]
    refine ⟨ho.of_mb rfl, rfl, fun p hp => ?_⟩
    simp only [List.mem_cons, List.not_mem_nil, or_false, not_or] at hp
    have hsame := hu p (by simp [hp])
    simpa [hp] using hsame
  · have hask : u.powerAsk target n = { u.endTicket n St.OK with pwr := { (u.endTicket n St.OK).pwr with queue := [], ticket := 8 } } := by
      rw [State.powerAsk, if_neg (by rw [hmove, hidle]; decide), State.powerGo, if_pos (heq.trans hstate.symm), State.powerGo]
    rw [hask]
    exact ⟨(ho.endTicket St.OK).of_mb rfl, ((same_endTicket (p := .hub) (by simp)).2 rfl : (u.endTicket n St.OK).hub = u.hub).trans hhub⟩
  · have hask : u.powerAsk target n = { u with pwr := { u.pwr with queue := [] } }.powerBegin target n := by
      rw [State.powerAsk, if_neg (by rw [hmove, hidle]; decide), State.powerGo, if_neg (fun h => hne (h.trans hstate))]
    obtain ⟨hkeep, htgt, hbusy⟩ := State.powerBegin_fields { u with pwr := { u.pwr with queue := [] } } (target := target) (n := n) (by omega)
      (hmove.trans hidle)
    rw [hask]
    refine ⟨ho.of_mb ((same_powerBegin (p := .mb) (by simp)).2 rfl), State.ticket_powerBegin _ _ _, htgt, ?_, hkeep.trans hstate⟩
    rw [hbusy]
    exact congrArg (fun x : StepState => if target = 1 ∧ x.job = true then 2 else 1) hstep

theorem exec_powerTransitionComplete (s : State) : exec .powerTransitionComplete s = execPowerTransitionComplete s := rfl

/-- A HOLD that waits is reached at its boundary, or once no job runs (R394). -/
theorem holdReached {s : State} (hhold : s.hf .PWR_STATE 0 7 1 = 1) (hat : s.step.job = false ∨ s.atAction 6 = true) :
    Gives .powerTransitionComplete s (s.powerDone 1) := by
  rw [Gives, exec_powerTransitionComplete, execPowerTransitionComplete, if_pos hhold, if_pos hat]

/-- A transition in progress whose work is done reaches its target (R394, R395). -/
theorem targetReached {s : State} (hbusy : s.hf .PWR_STATE 0 6 2 = 1)
    (hwork : ¬(s.hf .PWR_STATE 0 3 3 ≤ 1 ∧ 2 ≤ s.powerState ∧ s.pwr.wave < 20)) :
    Gives .powerTransitionComplete s
      ((if s.hf .PWR_STATE 0 3 3 = 2 ∧ s.powerState < 2 then s.enterNap else if s.hf .PWR_STATE 0 3 3 = 3 then s.enterDark else s).powerDone
        (s.hf .PWR_STATE 0 3 3)) := by
  rw [State.busy_eq] at hbusy
  rw [Gives, exec_powerTransitionComplete, execPowerTransitionComplete, if_neg (by omega), if_pos (by omega), if_neg hwork]

/-- A transition whose work is not done, or none: nothing happens (R394). -/
theorem transitionWaits {s : State}
    (h : s.hf .PWR_STATE 0 7 1 = 1 ∧ s.step.job = true ∧ s.atAction 6 = false ∨ s.hf .PWR_STATE 0 6 2 = 0 ∨
      s.hf .PWR_STATE 0 6 2 = 1 ∧ s.hf .PWR_STATE 0 3 3 ≤ 1 ∧ 2 ≤ s.powerState ∧ s.pwr.wave < 20) :
    Gives .powerTransitionComplete s s := by
  rw [State.busy_eq] at h
  rw [Gives, exec_powerTransitionComplete, execPowerTransitionComplete]
  obtain ⟨hhold, hjob, hat⟩ | hidle | ⟨hbusy, hwork⟩ := h
  · rw [if_pos hhold, if_neg (by simp [hjob, hat])]
  · rw [if_neg (by omega), if_neg (by omega)]
  · rw [if_neg (by omega), if_pos (by omega), if_pos hwork]

/-- A transition that is done leaves memory and the cores, with nothing waiting. -/
theorem powerDone_keeps {s : State} {target : Nat} (hq : s.pwr.queue = []) {p : Part} (hp : p.outside [.hub, .mb, .host, .rst, .pwr, .msix]) :
    p.same s (s.powerDone target) := by
  rw [State.powerDone_of_queue s target hq]
  simp at hp
  have hreached : p.same s (s.powerReached target) := (same_powerReached (by simp [hp])).2 (Part.same_refl p s)
  simpa [hp] using hreached

/-- D3hot with no job and no transition begins the way to DARK (R392). -/
theorem goDark_begins {s : State} (hjob : s.step.job = false) (hidle : s.hf .PWR_STATE 0 6 2 = 0) (hstate : s.powerState < 3) :
    s.goDark = s.powerBegin 3 8 := by
  obtain ⟨h6, h7⟩ := State.idle_bits (State.not_inTransition.2 hidle)
  have hdrop : s.dropJob = s := by rw [State.dropJob, if_neg (by simp [hjob])]
  simp [State.goDark, Nat.not_le.2 hstate, hdrop, h6, h7]

/-- OFF: the state says so, and no job is left (R391, R392). -/
theorem enterOff_fields (s : State) : s.enterOff.powerState = 4 ∧ s.enterOff.step.job = false := by
  refine ⟨?_, rfl⟩
  rw [State.enterOff, State.powerState, State.hf_eq_bits, State.h_setH_same]
  rfl

/-- A commit that completes counts, and the one that wears the register out says so (R402). -/
theorem rwpCommit_counts {s : State} {key old : Nat} {rest : List (Nat × Nat)} (h : s.pwr.commits = (key, old) :: rest) :
    Runs .rwpCommit s fun t => t.pwr = (({ s with pwr := { s.pwr with commits := rest } } : State).wearUp key).pwr ∧
      OnlyIn [.pwr, .logs, .logLost, .msix, .gauge, .hub] s t := by
  let v : State := ({ s with pwr := { s.pwr with commits := rest } } : State).wearUp key
  have hexec : exec .rwpCommit s = if v.wearOf key = 1000000 then .next (v.event St.RWP_WORN 0 0 key) else .next v := by
    show execRwpCommit s = _
    rw [execRwpCommit, h]
  have honly : ∀ p ∉ [Part.pwr, .logs, .logLost, .msix, .gauge, .hub], p.same s v := fun p hp => by
    simp only [List.mem_cons, List.not_mem_nil, or_false, not_or] at hp
    simp [v, hp]
  by_cases hworn : v.wearOf key = 1000000
  · refine ⟨_, hexec.trans (if_pos hworn), (same_event (p := .pwr) (by simp)).2 rfl, fun p hp => ?_⟩
    refine (same_event ?_).2 (honly p hp)
    simp only [List.mem_cons, List.not_mem_nil, or_false, not_or] at hp
    simp [hp]
  · exact ⟨_, hexec.trans (if_neg hworn), rfl, honly⟩

/-- HOLD during a job, reached at its boundary (R394). -/
theorem holdReached_fields {s : State} (hhold : s.hf .PWR_STATE 0 7 1 = 1) (hat : s.atAction 6 = true) (hq : s.pwr.queue = []) :
    Runs .powerTransitionComplete s fun t => t.powerState = 1 ∧ t.inTransition = false ∧ t.mem = s.mem := by
  obtain ⟨hstate, hidle⟩ := s.powerDone_fields (target := 1) (by omega) hq
  exact ⟨_, holdReached hhold (.inr hat), hstate, hidle, powerDone_keeps (p := .mem) hq (by simp)⟩

/-- NAP: the cores are as after reset, the Trellis is empty, and memory is kept (R391, R395). -/
theorem napReached_fields {s : State} (hbusy : s.hf .PWR_STATE 0 6 2 = 1) (htarget : s.hf .PWR_STATE 0 3 3 = 2) (hstate : s.powerState < 2)
    (hq : s.pwr.queue = []) : Runs .powerTransitionComplete s fun t =>
      t.powerState = 2 ∧ t.inTransition = false ∧ t.mem = s.mem ∧ t.net = [] ∧ t.cores = ⟨Core.init, []⟩ := by
  have hgives := targetReached hbusy (by omega)
  rw [htarget, if_pos ⟨rfl, hstate⟩] at hgives
  have hnq : s.enterNap.pwr.queue = [] := hq
  obtain ⟨hnap, hidle⟩ := s.enterNap.powerDone_fields (target := 2) (by omega) hnq
  exact ⟨_, hgives, hnap, hidle, powerDone_keeps (p := .mem) hnq (by simp), powerDone_keeps (p := .net) hnq (by simp),
    powerDone_keeps (p := .cores) hnq (by simp)⟩

/-- RUN: compute is ready once the wake waves have passed (R394, R397). -/
theorem runReached_fields {s : State} (hbusy : s.hf .PWR_STATE 0 6 2 = 1) (htarget : s.hf .PWR_STATE 0 3 3 = 0) (hwave : s.pwr.wave = 20)
    (hq : s.pwr.queue = []) : Runs .powerTransitionComplete s fun t =>
      t.powerState = 0 ∧ t.inTransition = false ∧ t.rst.compute = true ∧ t.mem = s.mem ∧ t.cores = s.cores := by
  have hgives := targetReached hbusy (by omega)
  rw [htarget, if_neg (by omega), if_neg (by omega)] at hgives
  obtain ⟨hrun, hidle⟩ := s.powerDone_fields (target := 0) (by omega) hq
  refine ⟨_, hgives, hrun, hidle, ?_, powerDone_keeps (p := .mem) hq (by simp), powerDone_keeps (p := .cores) hq (by simp)⟩
  rw [State.powerDone_of_queue s 0 hq]
  exact s.powerReached_compute (by omega)

/-- D3hot from D0 takes the module towards DARK (R392). -/
theorem d3hot_gives {s : State} (hd : s.host.dstate = 0) : Gives (.pciePowerState 3) s { s with host := { s.host with dstate := 3 } }.goDark := by
  show execPciePowerState 3 s = _
  rw [execPciePowerState, if_neg (by omega), if_pos rfl, if_pos hd]

/-- D3hot begins the way to DARK (R392). -/
theorem d3hot_fields {s : State} (hd : s.host.dstate = 0) (hjob : s.step.job = false) (hidle : s.hf .PWR_STATE 0 6 2 = 0) (hstate : s.powerState < 3) :
    Runs (.pciePowerState 3) s fun t => t.host.dstate = 3 ∧ t.hf .PWR_STATE 0 3 3 = 3 ∧ t.hf .PWR_STATE 0 6 1 = 1 := by
  let v : State := { s with host := { s.host with dstate := 3 } }
  have hdark : v.goDark = v.powerBegin 3 8 := goDark_begins hjob hidle hstate
  have hgives : Gives (.pciePowerState 3) s v.goDark := d3hot_gives hd
  obtain ⟨-, htarget, -⟩ := v.powerBegin_fields (target := 3) (n := 8) (by omega) (State.not_inTransition.2 hidle)
  refine ⟨_, hgives, ?_, ?_, ?_⟩
  · rw [hdark, (same_powerBegin (p := .host) (by simp)).2 rfl]
  · rw [hdark, htarget]
  · rw [hdark, State.hf_eq_bits, State.h_powerBegin, if_neg (by simp), bits_putBits_same]
    rfl

/-- D3cold leaves OFF behind, and no job (R392). -/
theorem d3cold_gives {s : State} (hd : s.host.dstate ≠ 4) :
    Gives (.pciePowerState 4) s { s.dropJob.enterOff with host := { s.dropJob.enterOff.host with dstate := 4 } } := by
  show execPciePowerState 4 s = _
  rw [execPciePowerState, if_neg (by omega), if_neg (by omega), if_pos rfl, if_neg hd]

theorem d3cold_fields {s : State} (hd : s.host.dstate ≠ 4) :
    Runs (.pciePowerState 4) s fun t => t.host.dstate = 4 ∧ t.powerState = 4 ∧ t.step.job = false := by
  obtain ⟨hstate, hjob⟩ := enterOff_fields s.dropJob
  have hgives := d3cold_gives hd
  generalize s.dropJob.enterOff = v at *
  exact ⟨_, hgives, rfl, hstate, hjob⟩

/-- What THROTTLE_UPDATE does when it is due: every die in turn (R399). -/
theorem throttleUpdate_gives {s : State} (p : Nat) (temps : List Nat) (hdue : s.pwr.throttleDue ≤ s.sundial) (hready : s.rst.ready = true) :
    Gives (.throttleUpdate p temps) s ((List.range 8).foldl (fun (t : State) d => t.throttleDie p d (temps.getD d 0))
      { s with pwr := { s.pwr with throttleDue := s.sundial + 250000 } }) := by
  show execThrottleUpdate p temps s = _
  rw [execThrottleUpdate, if_pos ⟨hdue, hready⟩]

/-- A level as the update's two conditions make it. -/
theorem levelNext_decide (l : Nat) (up down : Prop) [Decidable up] [Decidable down] :
    levelNext l (decide up) (decide down) = if up then min (l + 1) 15 else if down then l - 1 else l := by
  simp [levelNext]

/-- THROTTLE_UPDATE when it is due: each die's levels move by at most one, and the larger is in force (R399). -/
theorem throttleUpdate_fields {s : State} (p : Nat) (temps : List Nat) (hdue : s.pwr.throttleDue ≤ s.sundial) (hready : s.rst.ready = true) :
    Runs (.throttleUpdate p temps) s fun t => t.pwr.throttleDue = s.sundial + 250000 ∧ ∀ d, d < 8 → s.ThrottledTo t p d (temps.getD d 0) := by
  refine ⟨_, throttleUpdate_gives p temps hdue hready, ?_, fun d hd => ?_⟩
  · rw [(Part.same_foldl (p := .pwr) fun u d => (same_throttleDie (p := .pwr) (by simp)).2 rfl).2 rfl]
  · exact State.throttleDies_throttle p temps (fun e he => List.mem_range.1 he) List.nodup_range (List.mem_range.2 hd) _

/-- An update that is not due, or that finds Ngumal not ready, does nothing (R399). -/
theorem throttleUpdate_waits {s : State} (p : Nat) (temps : List Nat) (h : s.sundial < s.pwr.throttleDue ∨ s.rst.ready = false) :
    Gives (.throttleUpdate p temps) s s := by
  show execThrottleUpdate p temps s = _
  rw [execThrottleUpdate, if_neg]
  obtain hearly | hdown := h
  · omega
  · simp [hdown]

/-- The levels as R399 counts them. -/
theorem throttledTo_levels {s t : State} {p d x : Nat} (h : s.ThrottledTo t p d x) :
    t.hf .PWR_THR d 0 4 = (if 1000 * s.hf .PWR_CAP 0 0 14 < p then min (s.hf .PWR_THR d 0 4 + 1) 15
      else if 100 * p < 97000 * s.hf .PWR_CAP 0 0 14 then s.hf .PWR_THR d 0 4 - 1 else s.hf .PWR_THR d 0 4) ∧
    t.hf .PWR_THR d 4 4 = (if 95000 ≤ x then min (s.hf .PWR_THR d 4 4 + 1) 15
      else if x ≤ 92000 then s.hf .PWR_THR d 4 4 - 1 else s.hf .PWR_THR d 4 4) ∧
    t.hf .PWR_THR d 8 4 = (if s.pwr.coolForce = true then 15 else max (t.hf .PWR_THR d 0 4) (t.hf .PWR_THR d 4 4)) := by
  obtain ⟨hpower, hheat, hforce⟩ := h
  rw [hforce, hpower, hheat, State.powerLevel, State.heatLevel, levelNext_decide, levelNext_decide]
  exact ⟨rfl, rfl, rfl⟩

/-- A wake wave counts itself (R397). -/
theorem wakeWave_counts {s : State} (hwave : s.pwr.wave < 20) : Runs .wakeWave s fun t => t.pwr.wave = s.pwr.wave + 1 ∧ OnlyIn [.pwr] s t := by
  have hexec : exec .wakeWave s = execWakeWave s := rfl
  rw [Runs, hexec, execWakeWave, if_pos hwave]
  refine ⟨_, rfl, rfl, fun p hp => ?_⟩
  simp at hp
  simp [hp]

/-- D0 ends D3hot, and leaves the module in the state it is in (R392). -/
theorem d0_fields (s : State) : Runs (.pciePowerState 0) s fun t =>
    t.host.dstate = (if s.host.dstate = 3 then 0 else s.host.dstate) ∧ t.powerState = s.powerState ∧ OnlyIn [.host] s t := by
  refine ⟨_, rfl, rfl, rfl, fun p hp => ?_⟩
  simp at hp
  simp [hp]

/-- A commit that completes is off the list, and its register's count alone is one up; at its last the register is frozen (R402). -/
theorem rwpCommit_fields {s : State} {key old : Nat} {rest : List (Nat × Nat)} (h : s.pwr.commits = (key, old) :: rest) :
    Runs .rwpCommit s fun t => t.pwr.commits = rest ∧ t.wearOf key = s.wearOf key + 1 ∧ (∀ k, k ≠ key → t.wearOf k = s.wearOf k) ∧
      (s.wearOf key + 1 = 1000000 → t.frozen key = true) ∧ OnlyIn [.pwr, .logs, .logLost, .msix, .gauge, .hub] s t := by
  obtain ⟨t, hexec, hpwr, honly⟩ := rwpCommit_counts h
  have hwear : t.pwr.wear = Sparse.set (fun _ => 0) s.pwr.wear key (s.wearOf key + 1) := by rw [hpwr]; rfl
  have hcount : t.wearOf key = s.wearOf key + 1 := by rw [State.wearOf, hwear, Sparse.get_set_same]
  have hother : ∀ k, k ≠ key → t.wearOf k = s.wearOf k := fun k hk => by rw [State.wearOf, hwear]; exact Sparse.get_set_other _ _ _ _ _ hk
  refine ⟨t, hexec, by rw [hpwr]; rfl, hcount, hother, fun hworn => ?_, honly⟩
  rw [State.frozen, hcount, hworn]
  rfl

/-- Settles O35: each command's outcome, from the lemmas about it above. -/
theorem powerStatesChange : Obligations.PowerStatesChange := by
  refine ⟨fun s n c hw ht hc hjob => ?_, fun _ _ _ => setPowerState_asks, fun s => ⟨holdReached, ?_, ?_, ?_, targetReached⟩,
    fun _ => ⟨d3hot_gives, d3cold_gives⟩, fun _ p temps => ⟨throttleUpdate_gives p temps, throttleUpdate_waits p temps⟩, fun _ => holdReached_fields,
    fun _ => napReached_fields, fun _ => runReached_fields, d0_fields, fun _ hd hjob _ => d3hot_fields hd hjob, fun _ => d3cold_fields,
    fun _ => wakeWave_counts, fun s p temps hdue hready => ?_, fun _ _ _ _ => rwpCommit_fields⟩
  · obtain ⟨u, ho, hu, hgives⟩ := setPowerState_asks hw ht hc hjob
    exact ⟨_, hgives, powerAsk_outcome ho hu hc⟩
  · exact fun hhold hjob hat => transitionWaits (.inl ⟨hhold, hjob, hat⟩)
  · exact fun hidle => transitionWaits (.inr (.inl hidle))
  · exact fun hbusy hwork => transitionWaits (.inr (.inr ⟨hbusy, hwork⟩))
  · obtain ⟨t, hexec, hdue', hlevels⟩ := throttleUpdate_fields p temps hdue hready
    exact ⟨t, hexec, hdue', fun d hd => throttledTo_levels (hlevels d hd)⟩

end Sys2Proof.Claims
end

section
/-! What a vector word that moves no memory leaves unchanged (O56): the engine's context holds memory as it found it. -/

namespace Sys2Proof.Machine

/-- The context's memory and flaws are as in `y`. -/
def CX.sameMemory (x y : CX) : Prop := x.mem = y.mem ∧ x.flaws = y.flaws

theorem CX.sameMemory.trans {x y z : CX} (hxy : x.sameMemory y) (hyz : y.sameMemory z) : x.sameMemory z :=
  ⟨hxy.1.trans hyz.1, hxy.2.trans hyz.2⟩

/-- With no store waiting none lands, whatever has become of the core. -/
theorem CX.landStores_sameMemory {x : CX} (h : x.stores = []) (c : Core) (t : Nat) : ({ x with c := c }.landStores t).sameMemory x := by
  cases x
  cases h
  exact ⟨rfl, rfl⟩

theorem CX.sentinel_sameMemory (x : CX) (t : Nat) (srcs : List Nat) : (x.sentinel t srcs).sameMemory x := by
  simp only [CX.sentinel]
  split
  · exact ⟨rfl, rfl⟩
  · split <;> exact ⟨rfl, rfl⟩

theorem CX.pipeBusy_sameMemory (x : CX) (p : Pipe) (t : Nat) : (x.pipeBusy p t).sameMemory x := by
  cases p <;> exact ⟨rfl, rfl⟩

/-- Only VLEAF reads memory as it finishes, through its ECC. -/
theorem CX.vFinish_sameMemory (x : CX) {w : Nat} (hop : vOp w ≠ 0x70) (t lat : Nat) : (x.vFinish w t lat).sameMemory x := by
  rw [CX.vFinish, if_neg hop]
  exact ⟨rfl, rfl⟩

/-- With no store waiting, a word that is neither a load, a store nor VLEAF issues without touching memory (R93). -/
theorem CX.vIssue_sameMemory {x : CX} {w : Nat} (hstores : x.stores = []) (hop : vOp w ≠ 0x70) (hmem : vMem (vOp w) = false) :
    (x.vIssue w).sameMemory x := by
  unfold CX.vIssue
  split
  · exact ⟨rfl, rfl⟩
  split
  · exact ⟨rfl, rfl⟩
  extract_lets tm t landed y z v
  have hlanded : landed.sameMemory x := CX.landStores_sameMemory hstores _ t
  have hy : y.sameMemory x := (CX.sentinel_sameMemory _ _ _).trans hlanded
  have hv : v.sameMemory x := (CX.pipeBusy_sameMemory _ _ _).trans hy
  split
  · exact hy
  split
  · exact hv
  · rw [if_neg (by simp [hmem])]
    exact (CX.vFinish_sameMemory _ hop _ _).trans hv

theorem State.vctx_stores (s : State) (gi : Nat) : (s.vctx gi).stores = [] := rfl

theorem vOp_putBits {op : Nat} (w : Nat) (h : op < 256) : vOp (putBits w 0 8 op) = op := by
  rw [vOp, bits_putBits_same]
  exact Nat.mod_eq_of_lt h

section
variable {p : Part} {s t : State}

/-- A context that holds memory as it found it changes only its core, and by its faults its cluster and the Trellis. -/
theorem same_unvctx_of_sameMemory {x : CX} {gi : Nat} (h : p.outside [.cores, .clusters, .net]) (hx : x.sameMemory (t.vctx gi)) :
    p.same s (t.unvctx x) ↔ p.same s t := by
  obtain ⟨hmem, hflaws⟩ : x.mem = t.mem ∧ x.flaws = t.flaws := hx
  simp_all [State.unvctx, State.uncx]

theorem same_vword_of_notMem {gi op w : Nat} (hop : op < 256) (hleaf : op ≠ 0x70) (hmem : vMem op = false) (h : p.outside [.cores, .clusters, .net]) :
    p.same s (t.vword gi op w) ↔ p.same s t :=
  same_unvctx_of_sameMemory h (CX.vIssue_sameMemory (t.vctx_stores gi) (by rwa [vOp_putBits w hop]) (by rwa [vOp_putBits w hop]))
end

end Sys2Proof.Machine

namespace Sys2Proof.Claims
open Machine

theorem vectorRow_op {i : Instr} {gi op w : Nat} (hi : vectorRow i = some (gi, op, w)) : op < 256 ∧ op ≠ 0x70 ∧ vMem op = false := by
  unfold vectorRow at hi
  split at hi <;> cases hi <;> decide

/-- Every command leaves the parts it does not list: a vector word that moves no memory by `same_vword_of_notMem`, any other by `exec_kept`. -/
theorem exec_onlyIn {i : Instr} {s t : State} (hexec : exec i s = .next t) : OnlyIn (touches i) s t := by
  intro p hp
  match hi : vectorRow i with
  | none =>
    obtain ⟨u, hu, hsame⟩ := exec_kept (s := s) hi hp
    cases hu.symm.trans hexec
    exact hsame
  | some (gi, op, w) =>
    cases (exec_vectorRow hi).symm.trans hexec
    obtain ⟨hop, hleaf, hmem⟩ := vectorRow_op hi
    rw [touches_vectorRow hi] at hp
    exact (same_vword_of_notMem hop hleaf hmem hp).2 (Part.same_refl p s)

/-- Settles O56: no command changes a part it does not list, of the fabric or not (`exec_onlyIn`). -/
theorem fabricFrames : Obligations.FabricFrames := fun _ _ _ _ => exec_onlyIn

end Sys2Proof.Claims
end

section
/-! What REPLAY does before the cores take it (O23): publishing factors and roots writes memory, and leaves what the step's
registers, the cores' own registers, the Grafters' regions and the collectives hold. -/

namespace Sys2Proof.Machine

/-- Register `r`, index `i`, lies in the hub's page of update registers, UPD_STEP to UPD_MODE. -/
abbrev Reg.inUpdatePage (r : Reg) (i : Nat) : Prop := 0x1000 ≤ r.offset i ∧ r.offset i < 0x2000

/-- REPLAY finds in `t` what it would find in `s`: the update registers, every core's registers, the Grafters' regions, what holds
the module, and the collectives. -/
structure AlikeAtReplay (s t : State) : Prop where
  page : ∀ r i, r.inUpdatePage i → t.h r i = s.h r i
  regs : ∀ gi, (t.core gi).regs = (s.core gi).regs
  rgn : ∀ k, (t.grafter k).rgn = (s.grafter k).rgn
  held : t.step.held = s.step.held
  coll : t.coll = s.coll

namespace AlikeAtReplay
variable {s t u : State}

theorem refl (s : State) : AlikeAtReplay s s := ⟨fun _ _ _ => rfl, fun _ => rfl, fun _ => rfl, rfl, rfl⟩

theorem trans (hst : AlikeAtReplay s t) (htu : AlikeAtReplay t u) : AlikeAtReplay s u :=
  ⟨fun r i h => (htu.page r i h).trans (hst.page r i h), fun gi => (htu.regs gi).trans (hst.regs gi),
    fun k => (htu.rgn k).trans (hst.rgn k), htu.held.trans hst.held, htu.coll.trans hst.coll⟩

/-- An operation that changes none of the parts REPLAY looks at. -/
theorem of_parts (hub : t.hub = s.hub) (cores : t.cores = s.cores) (grafters : t.grafters = s.grafters) (held : t.step.held = s.step.held)
    (coll : t.coll = s.coll) : AlikeAtReplay s t :=
  ⟨fun r i _ => State.h_of_hub hub r i, fun gi => by rw [State.core, cores]; rfl, fun k => by rw [State.grafter, grafters]; rfl, held, coll⟩

theorem foldl {α : Type} {f : State → α → State} (h : ∀ u x, AlikeAtReplay u (f u x)) (l : List α) (s : State) : AlikeAtReplay s (l.foldl f s) := by
  induction l generalizing s with
  | nil => exact refl s
  | cons x l ih => exact (h s x).trans (ih _)

/-- A field of a register outside the page is written. -/
theorem setHf (s : State) {r : Reg} {i : Nat} (h : ¬ r.inUpdatePage i) (lo w v : Nat) : AlikeAtReplay s (s.setHf r i lo w v) :=
  ⟨fun r' i' h' => s.h_setHf_other _ _ _ _ _ _ _ (fun e => h (by rwa [Reg.inUpdatePage, ← e])), fun _ => rfl, fun _ => rfl, rfl, rfl⟩

theorem setCluster (s : State) (ci : Nat) (c : Cluster) : AlikeAtReplay s (s.setCluster ci c) := of_parts rfl rfl rfl rfl rfl

/-- A Grafter is replaced by one with its regions. -/
theorem setGrafter (s : State) {k : Nat} {g : Grafter} (h : g.rgn = (s.grafter k).rgn) : AlikeAtReplay s (s.setGrafter k g) := by
  refine ⟨fun _ _ _ => rfl, fun _ => rfl, fun j => ?_, rfl, rfl⟩
  by_cases hj : k = j
  · subst hj
    by_cases hk : k < s.grafters.length
    · simpa [State.setGrafter, State.grafter, hk] using h
    · simp [State.setGrafter, State.grafter, hk]
  · simp [State.setGrafter, State.grafter, hj]

theorem setJob (s : State) (k i : Nat) (j : Option GJob) : AlikeAtReplay s (s.setJob k i j) := setGrafter s rfl

/-- The step's state is replaced by one that the module is held by alike. -/
theorem setStep (s : State) {x : StepState} (h : x.held = s.step.held) : AlikeAtReplay s { s with step := x } := of_parts rfl rfl rfl h rfl

/-! ### Stores -/

/-- A write cancels write-backs, and no register has one. -/
theorem cancelWb (s : State) (a n : Nat) : AlikeAtReplay s (s.cancelWb a n) := by
  unfold State.cancelWb
  split
  · next gi _ _ =>
    split
    · exact refl s
    · refine ⟨fun _ _ _ => rfl, fun gj => ?_, fun _ => rfl, rfl, rfl⟩
      by_cases hj : gj = gi
      · rw [hj, State.core_modCore_same]
      · rw [State.modCore, State.core_setCore_other _ _ _ _ hj]
  · split
    · exact refl s
    · exact setCluster _ _ _
  · exact refl s

theorem wrPlace (s : State) (a : Nat) (bs : List Byte) : AlikeAtReplay s (s.wrPlace a bs) := by
  have hland : AlikeAtReplay s { s with mem := msets s.mem a bs, flaws := healed s.flaws a bs.length } := of_parts rfl rfl rfl rfl rfl
  exact hland.trans (cancelWb _ _ _)

theorem wr (s : State) (a : Nat) (bs : List Byte) : AlikeAtReplay s (s.wr a bs) := by
  unfold State.wr
  split
  · exact refl s
  split
  · exact wrPlace s a bs
  · refine foldl (fun u g => ?_) _ s
    split
    · exact wrPlace _ _ _
    · exact refl u

theorem event (s : State) (status kind idx arg : Nat) : AlikeAtReplay s (s.event status kind idx arg) := by
  have same : ∀ p : Part, p.outside eventParts → p.same s (s.event status kind idx arg) := fun p hp => (same_event hp).2 (Part.same_refl p s)
  refine ⟨fun r i h => s.h_event _ _ _ _ _ _ fun e => ?_, fun gi => ?_, fun k => ?_, ?_, same .coll (by simp)⟩
  · rw [Reg.inUpdatePage, e] at h
    exact absurd h (by decide)
  · rw [State.core, same .cores (by simp)]
    rfl
  · rw [State.grafter, same .grafters (by simp)]
    rfl
  · rw [same .step (by simp)]

theorem endTicket (s : State) (n status : Nat) : AlikeAtReplay s (s.endTicket n status) := by
  unfold State.endTicket
  extract_lets t
  split
  · exact of_parts rfl rfl rfl rfl rfl
  · exact refl s

/-- HRV_STAT is no update register. -/
theorem setHrv (s : State) (lo w v : Nat) : AlikeAtReplay s (s.setHf .HRV_STAT 0 lo w v) := setHf s (by decide) lo w v

theorem abandon (s : State) (status : Nat) : AlikeAtReplay s (s.abandon status) := by
  unfold State.abandon
  split
  · extract_lets n t u
    have ht : AlikeAtReplay s t := by
      unfold t
      split
      · exact setHrv _ _ _ _
      · exact refl s
    have hu : AlikeAtReplay s u := ((ht.trans (setHrv _ _ _ _)).trans (setHrv _ _ _ _)).trans (setHrv _ _ _ _)
    have hgone : AlikeAtReplay u { u with harvest := { Harvest.init with hostMem := u.harvest.hostMem } } := of_parts rfl rfl rfl rfl rfl
    exact ((hu.trans hgone).trans (event _ _ _ _ _)).trans (endTicket _ _ _)
  · exact refl s

theorem stageUnit (s : State) (n : Nat) : AlikeAtReplay s (s.stageUnit n) := by
  unfold State.stageUnit
  split
  · extract_lets k a t
    split
    · exact abandon _ _
    · have ht : AlikeAtReplay s t := wr _ _ _
      clear_value t
      have hstaged : AlikeAtReplay t { t with harvest := { t.harvest with staged := t.harvest.staged ++ [(n, a)] } } := of_parts rfl rfl rfl rfl rfl
      exact (ht.trans hstaged).trans (setHrv _ _ _ _)
  · exact refl s

theorem wrS (s : State) (a : Nat) (bs : List Byte) : AlikeAtReplay s (s.wrS a bs) := by
  have hstage : AlikeAtReplay s (s.stage a bs.length) := by
    unfold State.stage
    split
    · exact foldl (fun _ _ => stageUnit _ _) _ _
    · exact refl s
  exact hstage.trans (wr _ _ _)

/-! ### Publication (R210, R235) -/

theorem copyBlock (s : State) (fidx side blk l : Nat) : AlikeAtReplay s (s.copyBlock fidx side blk l) := (wrS _ _ _).trans (wrS _ _ _)

theorem keepFactors (s : State) (x : Exchange) : AlikeAtReplay s (s.keepFactors x) :=
  foldl (fun _ _ => foldl (fun _ _ => foldl (fun _ _ => copyBlock _ _ _ _ _) _ _) _ _) _ _

theorem setFactorField (s : State) (i lo w v : Nat) : AlikeAtReplay s (s.setFactorField i lo w v) := of_parts rfl rfl rfl rfl rfl

theorem publishFactors (s : State) : AlikeAtReplay s s.publishFactors := by
  unfold State.publishFactors
  split
  · exact refl s
  · next x _ =>
    extract_lets t u
    have hu : AlikeAtReplay s u := (keepFactors s x).trans (foldl (fun _ _ => setFactorField _ _ _ _ _) _ _)
    have hfolded : AlikeAtReplay u { u with step := { u.step with folded := none } } := setStep u rfl
    exact (hu.trans hfolded).trans (setHf (r := .STEP_STATSTS) (i := 0) _ (by decide) _ _ _)

theorem voteRecord (s : State) (j : GJob) (g : Nat) : AlikeAtReplay s (s.voteRecord j g) := by
  unfold State.voteRecord State.grfRecord
  extract_lets its ex resid v t
  have ht : AlikeAtReplay s t := (wrS _ _ _).trans (of_parts rfl rfl rfl rfl rfl)
  split
  · exact ht.trans ((setCluster _ _ _).trans (setCluster _ _ _))
  · exact ht

theorem publishRoots (s : State) : AlikeAtReplay s s.publishRoots := by
  unfold State.publishRoots
  extract_lets t _ u
  have ht : AlikeAtReplay s t := foldl (fun _ _ => setFactorField _ _ _ _ _) _ s
  have hu : AlikeAtReplay t u := setStep t rfl
  refine (ht.trans hu).trans (foldl (fun v k => ?_) _ u)
  extract_lets w gone _ x
  have hw : AlikeAtReplay v w := by
    refine foldl (fun y i => ?_) _ v
    split
    · split
      · exact (setJob _ _ _ _).trans (voteRecord _ _ _)
      · exact refl y
    · exact refl y
  have hx : AlikeAtReplay w x := setGrafter _ rfl
  exact (hw.trans hx).trans (foldl (fun _ _ => voteRecord _ _ _) _ _)

end AlikeAtReplay
end Sys2Proof.Machine
end

section
/-! REPLAY of the next step (O23): the stages of `State.applyReplay`, what each leaves, and what the step then starts with. -/

namespace Sys2Proof.Machine
section
variable {p : Part} {s t : State} {n : Nat} {was : Bool}

/-! ### The stages -/

/-- The gauge takes the boundary's and the last step's time. -/
def State.replayTimed (s : State) : State :=
  let t := s.sampleUs 44 (s.sundial - s.step.bound)
  if s.step.starting then t else t.sampleUs 42 (t.sundial - t.step.begun)

/-- Step `n` is in force, with the shadow hyperparameters and the Sieve's settings as they stand (R240, R245, R257). -/
def State.takeHyper (s : State) (n : Nat) : State :=
  (List.range 128).foldl (fun (t : State) i => t.setH .UPD_HP i (t.h .UPD_HPS i)) (s.setStepNo n).latchSieve

/-- The factors folded for a step at least two before step `n` are published (R210). -/
def State.publishFolded (s : State) (n : Nat) : State := if s.step.folded.any fun x => decide (x.step + 2 ≤ n) then s.publishFactors else s

/-- A job's first step is the first that a vote can carry (R233). -/
def State.voteFirst (s : State) (n : Nat) (was : Bool) : State := if was then { s with step := { s.step with voteFrom := n } } else s

/-- Folded factors and adopted roots are published (R210, R235). -/
def State.replayPublished (s : State) (n : Nat) (was : Bool) : State := (s.publishFolded n).publishRoots.voteFirst n was

/-- The step runs, its replay count 0 and the QUIESCE over (R245). -/
def State.stepBegun (s : State) (n : Nat) (was : Bool) : State :=
  let stat := { s with step := { s.step with starting := was } }.statStep n (s.hf .STEP_CFG 0 2 1 = 1)
  let t := { s with step := s.step.begin (s.hf .STEP_CFG 0 0 1) stat s.sundial, coll := s.coll.begin, rake := Rake.init }
  (t.setHf .UPD_STAT 0 2 2 0).endQuiesce

/-- With the cores started: the snapshot's share of the step, the faults of lists that are not valid, the final layers, the ticket. -/
def State.replayDone (s : State) (bad owed : List Nat) : State :=
  let t := { s with harvest := { s.harvest with draining := s.hrv == 2, inStep := 0 } }
  let t := bad.foldl (fun (t : State) gi => t.coreFault gi 3 0) t
  (t.addFinal (t.validLayers.filter fun i => !owed.contains i)).endOp 0xD030 St.OK

/-- The state in which the next step begins. -/
def State.replayReady (s : State) : State := (s.replayTimed.takeHyper s.nextStep).replayPublished s.nextStep s.step.starting

/-- REPLAY is these stages in turn. -/
theorem State.applyReplay_eq (s : State) : s.applyReplay =
    ((s.replayReady.stepBegun s.nextStep s.step.starting).replayAll true (Core.replay s.nextStep)).replayDone s.replayReady.badLists s.gatherOwed := by
  unfold State.applyReplay
  extract_lets was owed n s1 s2 s3 s4 s5 src s6 gen stat bad src2 s7 s8 src3 s9 s10
  have htaken : s3 = s.replayTimed.takeHyper n := rfl
  have hroots : s5 = (s3.publishFolded n).publishRoots := by clear_value s3; rfl
  have hready : s6 = s5.voteFirst n was := by clear_value s5; rfl
  have hstarted : s8 = (s6.stepBegun n was).replayAll true (Core.replay n) := by clear_value s6; rfl
  have hdone : (s10.addFinal (s10.validLayers.filter fun i => !owed.contains i)).endOp 0xD030 St.OK = s8.replayDone src2 owed := by clear_value s8; rfl
  rw [hdone, hstarted]
  unfold src2
  rw [hready, hroots, htaken]
  rfl

/-! ### What the stages leave -/

theorem AlikeAtReplay.sampleUs (s : State) (ch n : Nat) : AlikeAtReplay s (s.sampleUs ch n) := by
  have same : ∀ p : Part, p.outside [.gauge] → p.same s (s.sampleUs ch n) := fun p hp => (same_sampleUs hp).2 (Part.same_refl p s)
  exact AlikeAtReplay.of_parts (same .hub (by simp)) (same .cores (by simp)) (same .grafters (by simp))
    (congrArg StepState.held (same .step (by simp))) (same .coll (by simp))

theorem AlikeAtReplay.replayTimed (s : State) : AlikeAtReplay s s.replayTimed := by
  unfold State.replayTimed
  extract_lets t
  have ht : AlikeAtReplay s t := AlikeAtReplay.sampleUs _ _ _
  split
  · exact ht
  · exact ht.trans (AlikeAtReplay.sampleUs _ _ _)

theorem AlikeAtReplay.publishFolded (s : State) (n : Nat) : AlikeAtReplay s (s.publishFolded n) := by
  unfold State.publishFolded
  split
  · exact AlikeAtReplay.publishFactors s
  · exact AlikeAtReplay.refl s

theorem AlikeAtReplay.voteFirst (s : State) (n : Nat) (was : Bool) : AlikeAtReplay s (s.voteFirst n was) := by
  unfold State.voteFirst
  split
  · exact AlikeAtReplay.setStep s rfl
  · exact AlikeAtReplay.refl s

theorem AlikeAtReplay.replayPublished (s : State) (n : Nat) (was : Bool) : AlikeAtReplay s (s.replayPublished n was) :=
  ((AlikeAtReplay.publishFolded s n).trans (AlikeAtReplay.publishRoots _)).trans (AlikeAtReplay.voteFirst _ n was)

theorem same_takeHyper (h : p.outside [.hub, .sieve]) : p.same s (t.takeHyper n) ↔ p.same s t := by
  simp_all [State.takeHyper]

theorem same_stepBegun
    (h : p.outside [.hub, .clusters, .outbox, .net, .frontHeld, .quietG, .quiescedG, .quiesce, .rake, .step, .coll]) :
    p.same s (t.stepBegun n was) ↔ p.same s t := by
  simp_all [State.stepBegun]

theorem same_replayDone {bad owed : List Nat} (h : p.outside [.clusters, .net, .step, .harvest, .mb, .msix]) :
    p.same s (t.replayDone bad owed) ↔ p.same s t := by
  simp at h
  simp [State.replayDone, h]

/-- What neither the cores' start nor what follows it changes is as the step began with it. -/
theorem same_applyReplay_stepBegun (h : p.outside [.cores, .clusters, .net, .step, .harvest, .mb, .msix]) :
    p.same (s.replayReady.stepBegun s.nextStep s.step.starting) s.applyReplay := by
  simp at h
  rw [State.applyReplay_eq, same_replayDone (by simp [h]), same_replayAll (by simp [h])]
  exact Part.same_refl _ _

/-! ### The registers -/

/-- The first `k` active hyperparameters are the shadow ones, and every other register is as before. -/
theorem State.h_takeHypers (s : State) {k : Nat} (hk : k ≤ 128) :
    let t := (List.range k).foldl (fun (t : State) i => t.setH .UPD_HP i (t.h .UPD_HPS i)) s
    (∀ i, i < k → t.h .UPD_HP i = s.h .UPD_HPS i) ∧ ∀ r i, (∀ j, j < k → r.offset i ≠ Reg.offset .UPD_HP j) → t.h r i = s.h r i := by
  induction k with
  | zero => exact ⟨fun _ h => absurd h (by omega), fun _ _ _ => rfl⟩
  | succ k ih =>
    intro t
    obtain ⟨htaken, hother⟩ := ih (by omega)
    have ht : t = ((List.range k).foldl (fun (t : State) i => t.setH .UPD_HP i (t.h .UPD_HPS i)) s).setH .UPD_HP k
        (((List.range k).foldl (fun (t : State) i => t.setH .UPD_HP i (t.h .UPD_HPS i)) s).h .UPD_HPS k) := by
      simp [t, List.range_succ, List.foldl_append]
    have hshadow := hother .UPD_HPS k fun j hj => by simp only [Reg.offset, Reg.info]; omega
    rw [ht, hshadow]
    refine ⟨fun i hi => ?_, fun r i hr => ?_⟩
    · by_cases hik : i = k
      · rw [hik, State.h_setH_same]
        exact Nat.mod_eq_of_lt (rg_lt _ _ _)
      · rw [State.h_setH_other _ _ _ _ _ _ (by simp only [Reg.offset]; omega)]
        exact htaken i (by omega)
    · rw [State.h_setH_other _ _ _ _ _ _ (hr k (by omega))]
      exact hother r i fun j hj => hr j (by omega)

theorem State.stepNo_of_h (hlo : t.h .UPD_STEPLO = s.h .UPD_STEPLO) (hhi : t.h .UPD_STEPHI = s.h .UPD_STEPHI) : t.stepNo = s.stepNo := by
  rw [State.stepNo, State.stepNo, hlo, hhi]

/-- UPD_STEP reads as the 64-bit number written to it. -/
theorem State.stepNo_setStepNo (s : State) (hn : n < 2 ^ 64) : (s.setStepNo n).stepNo = n := by
  rw [State.stepNo, State.setStepNo, State.h_setH_other _ .UPD_STEPHI .UPD_STEPLO _ _ _ (by decide), State.h_setH_same, State.h_setH_same]
  omega

theorem State.stepNo_takeHyper (s : State) (hn : n < 2 ^ 64) : (s.takeHyper n).stepNo = n := by
  obtain ⟨-, hother⟩ := (s.setStepNo n).latchSieve.h_takeHypers (k := 128) le_rfl
  refine (State.stepNo_of_h (hother _ _ ?_) (hother _ _ ?_)).trans (s.stepNo_setStepNo hn) <;>
    · intro j _
      simp only [Reg.offset, Reg.info]
      omega

theorem State.hp_takeHyper (s : State) (n : Nat) {i : Nat} (hi : i < 128) : (s.takeHyper n).h .UPD_HP i = s.h .UPD_HPS i := by
  obtain ⟨htaken, -⟩ := (s.setStepNo n).latchSieve.h_takeHypers (k := 128) le_rfl
  refine (htaken i hi).trans ?_
  show ((s.setH .UPD_STEPLO 0 _).setH .UPD_STEPHI 0 _).h .UPD_HPS i = _
  rw [State.h_setH_other _ _ _ _ _ _ (by simp only [Reg.offset, Reg.info]; omega),
    State.h_setH_other _ _ _ _ _ _ (by simp only [Reg.offset, Reg.info]; omega)]

/-- The hub as a step begins: the replay count is written, and nothing else. -/
theorem State.hub_stepBegun (s : State) (n : Nat) (was : Bool) : (s.stepBegun n was).hub = (s.setHf .UPD_STAT 0 2 2 0).hub := by
  unfold State.stepBegun
  exact (same_endQuiesce (p := .hub) (by simp)).2 rfl

/-- The update registers but for the replay count are, once REPLAY is applied, as publication left them. -/
theorem State.h_applyReplay (s : State) {r : Reg} {i : Nat} (h : r.inUpdatePage i) (hr : r.offset i ≠ Reg.offset .UPD_STAT 0) :
    s.applyReplay.h r i = (s.replayTimed.takeHyper s.nextStep).h r i := by
  have hlast : s.applyReplay.hub = _ := same_applyReplay_stepBegun (p := .hub) (s := s) (by simp)
  rw [State.h_of_hub (hlast.trans (State.hub_stepBegun _ _ _)), State.h_setHf_other _ _ _ _ _ _ _ _ hr]
  exact (AlikeAtReplay.replayPublished _ _ _).page r i h

/-- The number of the next step is in force (R240). -/
theorem State.stepNo_applyReplay (s : State) (hn : s.nextStep < 2 ^ 64) : s.applyReplay.stepNo = s.nextStep :=
  (State.stepNo_of_h (s.h_applyReplay (by decide) (by decide)) (s.h_applyReplay (by decide) (by decide))).trans (State.stepNo_takeHyper _ hn)

/-- The active hyperparameters are the shadow ones (R245). -/
theorem State.hp_applyReplay (s : State) {i : Nat} (hi : i < 128) : s.applyReplay.h .UPD_HP i = s.h .UPD_HPS i := by
  have hoff : Reg.offset .UPD_HP i = 0x1218 + 4 * i := rfl
  have hoffS : Reg.offset .UPD_HPS i = 0x1018 + 4 * i := rfl
  have hoffStat : Reg.offset .UPD_STAT 0 = 0x141C := rfl
  rw [s.h_applyReplay (by omega) (by omega), State.hp_takeHyper _ _ hi]
  exact (AlikeAtReplay.replayTimed s).page _ _ (by omega)

theorem State.replays_applyReplay (s : State) : s.applyReplay.replays = 0 := by
  have hlast : s.applyReplay.hub = _ := same_applyReplay_stepBegun (p := .hub) (s := s) (by simp)
  rw [State.replays, State.hf_of_hub (hlast.trans (State.hub_stepBegun _ _ _)), State.hf_setHf_same _ _ _ _ _ _ (by omega)]
  rfl

/-! ### The step, the Rake and the collectives -/

theorem State.step_stepBegun (s : State) (n : Nat) (was : Bool) : ∃ act stat, (s.stepBegun n was).step = s.step.begin act stat s.sundial := by
  unfold State.stepBegun
  exact ⟨_, _, (same_endQuiesce (p := .step) (by simp)).2 rfl⟩

/-- Layers that become final change that count of the step, and nothing else of it. -/
theorem State.step_addFinal (h : t.step = s.step) (ls : List Nat) : ∃ final counted, (t.addFinal ls).step = { s.step with final, counted } := by
  rw [State.addFinal, (same_allCsp (p := .step) (by simp)).2 rfl, ← h]
  exact ⟨_, _, rfl⟩

theorem State.step_replayDone (s : State) (bad owed : List Nat) : ∃ final counted, (s.replayDone bad owed).step = { s.step with final, counted } := by
  unfold State.replayDone
  rw [(same_endOp (p := .step) (by simp)).2 rfl]
  exact State.step_addFinal (Part.foldl_same (p := .step) fun v gi => (same_coreFault (by simp)).2 rfl) _

/-- The step runs undecided, its Rake open and no fault on it; what held the module still does. -/
theorem State.step_applyReplay (s : State) : s.applyReplay.step.phase = .running ∧ s.applyReplay.step.decided = false ∧
    s.applyReplay.step.closed = false ∧ s.applyReplay.step.faulted = false ∧ s.applyReplay.step.held = s.step.held := by
  have hheld : s.replayReady.step.held = s.step.held := by
    refine (AlikeAtReplay.replayPublished _ _ _).held.trans ?_
    rw [(same_takeHyper (p := .step) (by simp)).2 rfl]
    exact (AlikeAtReplay.replayTimed s).held
  obtain ⟨final, counted, hdone⟩ := State.step_replayDone
    ((s.replayReady.stepBegun s.nextStep s.step.starting).replayAll true (Core.replay s.nextStep)) s.replayReady.badLists s.gatherOwed
  obtain ⟨act, stat, hbegun⟩ := State.step_stepBegun s.replayReady s.nextStep s.step.starting
  rw [State.applyReplay_eq, hdone, (same_replayAll (p := .step) (by simp)).2 rfl, hbegun]
  exact ⟨rfl, rfl, rfl, rfl, hheld⟩

theorem State.rake_applyReplay (s : State) : s.applyReplay.rake = Rake.init := by
  have hlast : s.applyReplay.rake = _ := same_applyReplay_stepBegun (p := .rake) (s := s) (by simp)
  exact hlast.trans ((same_endQuiesce (p := .rake) (by simp)).2 rfl)

theorem State.coll_applyReplay (s : State) : s.applyReplay.coll = s.coll.begin := by
  have hlast : s.applyReplay.coll = _ := same_applyReplay_stepBegun (p := .coll) (s := s) (by simp)
  have hbegun : (s.replayReady.stepBegun s.nextStep s.step.starting).coll = s.replayReady.coll.begin :=
    (same_endQuiesce (p := .coll) (by simp)).2 rfl
  have hready : s.replayReady.coll = s.coll := by
    refine (AlikeAtReplay.replayPublished _ _ _).coll.trans ?_
    rw [(same_takeHyper (p := .coll) (by simp)).2 rfl]
    exact (AlikeAtReplay.replayTimed s).coll
  rw [hlast, hbegun, hready]

/-! ### The cores -/

/-- A core of a cluster has that cluster's number. -/
theorem coreCi_of_mem_coresOf {gi ci : Nat} (h : gi ∈ coresOf ci) : coreCi gi = ci := by
  obtain ⟨k, hk, rfl⟩ := List.mem_map.1 h
  have hk := List.mem_range.1 hk
  simp only [coreCi, coreOf]
  omega

/-- A core outside every Grafter's region takes what a replay gives it (R213). -/
theorem State.core_replayAll (s : State) (step : Bool) (f : Core → Core) {gi : Nat} (h : coreCi gi ∉ s.regionClusters) :
    (s.replayAll step f).core gi = f (s.core gi) := by
  have hout : gi ∉ (s.regionClusters.map coresOf).flatten := fun hmem => by
    obtain ⟨l, hl, hgi⟩ := List.mem_flatten.1 hmem
    obtain ⟨ci, hci, rfl⟩ := List.mem_map.1 hl
    exact h (coreCi_of_mem_coresOf hgi ▸ hci)
  have hcores : (s.replayAll step f).cores = s.cores.mapBut (s.regionClusters.map coresOf).flatten f := by
    unfold State.replayAll
    exact Part.foldl_same (p := .cores) fun u ci => (same_setCf (by simp)).2 rfl
  rw [State.core, hcores, Fam.get_mapBut, if_neg hout]
  rfl

/-- A core whose engine is as it must be takes its shadow parameters and starts the list it selects (R131, R158). -/
def Core.takeList (n : Nat) (c : Core) : Core :=
  let v := c.listValid
  let c := { c.copyPrm with regs := sf c.copyPrm.regs .CORE_LSEL 0 2 2 (rf c.regs .CORE_LSEL 0 0 2) }
  (c.startList v).takeImages n

/-- A stopped or halted core is reset first (R132). -/
theorem Core.replay_eq (n : Nat) (c : Core) : c.replay n = (if c.state = 2 ∨ c.halted then c.engineReset else c).takeList n := rfl

theorem Core.regs_engineReset_congr {c d : Core} (h : c.regs = d.regs) : c.engineReset.regs = d.engineReset.regs := by
  simp only [Core.engineReset, h]

theorem Core.regs_takeList_congr {c d : Core} (h : c.regs = d.regs) (n : Nat) : (c.takeList n).regs = (d.takeList n).regs := by
  have hvalid : c.listValid = d.listValid := by simp only [Core.listValid, h]
  simp only [Core.takeList, hvalid]
  simp only [Core.takeImages, Core.startList, Core.setState, Core.copyPrm, h]

/-- The registers after REPLAY follow from the registers before it. -/
theorem Core.regs_replay_congr {c d : Core} (h : c.regs = d.regs) (n : Nat) : (c.replay n).regs = (d.replay n).regs := by
  have hstop : (c.state = 2 ∨ c.halted = true) ↔ (d.state = 2 ∨ d.halted = true) := by rw [Core.state, Core.state, Core.halted, Core.halted, h]
  rw [Core.replay_eq, Core.replay_eq]
  refine Core.regs_takeList_congr ?_ n
  by_cases hc : c.state = 2 ∨ c.halted = true
  · rw [if_pos hc, if_pos (hstop.1 hc)]
    exact Core.regs_engineReset_congr h
  · rw [if_neg hc, if_neg (hstop.not.1 hc)]
    exact h

theorem State.regionClusters_congr (h : ∀ k, (t.grafter k).rgn = (s.grafter k).rgn) : t.regionClusters = s.regionClusters := by
  simp only [State.regionClusters, h]

/-- Every core outside a Grafter's region takes its shadow parameters and starts its list (R131, R246). -/
theorem State.core_applyReplay (s : State) {gi : Nat} (h : coreCi gi ∉ s.regionClusters) :
    (s.applyReplay.core gi).regs = ((s.core gi).replay s.nextStep).regs ∧ (s.applyReplay.core gi).win = [] ∧ (s.applyReplay.core gi).fetch = 0 := by
  have hpub := AlikeAtReplay.replayPublished (s.replayTimed.takeHyper s.nextStep) s.nextStep s.step.starting
  have htimed := AlikeAtReplay.replayTimed s
  have hhyper : (s.replayTimed.takeHyper s.nextStep).cores = s.replayTimed.cores ∧
      (s.replayTimed.takeHyper s.nextStep).grafters = s.replayTimed.grafters :=
    ⟨(same_takeHyper (p := .cores) (by simp)).2 rfl, (same_takeHyper (p := .grafters) (by simp)).2 rfl⟩
  have hbegun : (s.replayReady.stepBegun s.nextStep s.step.starting).cores = s.replayReady.cores ∧
      (s.replayReady.stepBegun s.nextStep s.step.starting).grafters = s.replayReady.grafters :=
    ⟨(same_stepBegun (p := .cores) (by simp)).2 rfl, (same_stepBegun (p := .grafters) (by simp)).2 rfl⟩
  have hregs : (s.replayReady.core gi).regs = (s.core gi).regs := by
    refine (hpub.regs gi).trans (Eq.trans ?_ (htimed.regs gi))
    rw [State.core, hhyper.1]
    rfl
  have hregions : (s.replayReady.stepBegun s.nextStep s.step.starting).regionClusters = s.regionClusters := by
    refine State.regionClusters_congr fun k => ?_
    rw [State.grafter, hbegun.2]
    refine (hpub.rgn k).trans (Eq.trans ?_ (htimed.rgn k))
    rw [State.grafter, hhyper.2]
    rfl
  have hcore : s.applyReplay.core gi = (s.replayReady.core gi).replay s.nextStep := by
    rw [State.applyReplay_eq, State.core, (same_replayDone (p := .cores) (by simp)).2 rfl]
    refine (State.core_replayAll _ _ _ (hregions ▸ h)).trans ?_
    rw [State.core, hbegun.1]
    rfl
  rw [hcore]
  exact ⟨Core.regs_replay_congr hregs _, rfl, rfl⟩

end
end Sys2Proof.Machine
end

section
/-! What waits for a step to come (O23): held collective frames and early replay requests (R280, R312). -/

namespace Sys2Proof.Machine
section
variable {s : State}

/-- With no frame held, nothing is taken. -/
theorem State.settleColl_of_held (h : s.coll.held = []) : s.settleColl = s := by
  have hkept : { s.coll with held := s.coll.held.filter fun c => s.collFresh c || s.collAhead c } = s.coll := by
    rw [h, List.filter_nil, ← h]
  rw [State.settleColl, hkept, h]
  rfl

/-- With no request waiting, none is taken. -/
theorem State.settleReq_of_reqs (h : s.coll.reqs = []) : s.settleReq = s := by
  have hkept : { s.coll with reqs := s.coll.reqs.filter fun e => decide (s.stepNo < e.1) || (e.1 == s.stepNo && decide (s.replays < e.2.1)) } = s.coll := by
    rw [h, List.filter_nil, ← h]
  rw [State.settleReq, hkept, h]
  rfl

/-- The one request that waits is for the step and replay count now reached: it is taken. -/
theorem State.settleReq_of_reached {cause : Nat} (h : s.coll.reqs = [(s.stepNo, s.replays, cause)]) :
    s.settleReq = { s with coll := { s.coll with reqs := [] } }.takeReq cause := by
  simp [State.settleReq, h]

theorem State.takeReq_of_undecided {cause : Nat} (hphase : s.step.phase = .running) (hdecided : s.step.decided = false)
    (hfaulted : s.step.faulted = false) (hheld : s.step.held = 0) : s.takeReq cause = s.replayDue cause := by
  simp [State.takeReq, hphase, hdecided, hfaulted, hheld]

/-- The cause of a replay is noted in UPD_STAT; a NONFINITE one is the step's only one (R258). -/
def State.causeNoted (s : State) (cause : Nat) : State :=
  (if cause = 0 then { s with sieve := { s.sieve with nfDone := true } } else s).setHf .UPD_STAT 0 16 16 cause

/-- The step has a fault on it, and QUIESCE begins. -/
def State.stepFaulted (s : State) : State := { s with step := { s.step with faulted := true } }.startQuiesce (s.stepNo % 2 ^ 32)

theorem State.replayDue_eq (s : State) (cause : Nat) : s.replayDue cause =
    if 2 ≤ (s.causeNoted cause).replays then (s.causeNoted cause).hold St.STEP_REPLAY_EXHAUSTED cause else (s.causeNoted cause).stepFaulted := rfl

theorem same_causeNoted {p : Part} {t : State} {cause : Nat} (h : p.outside [.hub, .sieve]) : p.same s (t.causeNoted cause) ↔ p.same s t := by
  simp_all [State.causeNoted]

/-- Of the hub only UPD_STAT's cause is written. -/
theorem State.hub_causeNoted (s : State) (cause : Nat) : (s.causeNoted cause).hub = (s.setHf .UPD_STAT 0 16 16 cause).hub := by
  unfold State.causeNoted
  split <;> rfl

theorem State.replays_causeNoted (s : State) (cause : Nat) : (s.causeNoted cause).replays = s.replays := by
  rw [State.replays, State.hf_of_hub (s.hub_causeNoted cause), State.hf_setHf_field _ _ _ _ _ _ _ _ (by omega) (by omega), State.replays]

theorem State.stepNo_causeNoted (s : State) (cause : Nat) : (s.causeNoted cause).stepNo = s.stepNo := by
  refine State.stepNo_of_h ?_ ?_ <;>
    exact (State.h_of_hub (s.hub_causeNoted cause) _ _).trans (State.h_setHf_other s _ _ _ _ _ _ _ (by decide))

theorem same_stepFaulted {p : Part} {t : State} (h : p.outside [.clusters, .quietG, .quiescedG, .quiesce, .step]) :
    p.same s t.stepFaulted ↔ p.same s t := by
  simp_all [State.stepFaulted]

/-- A replay that is left faults the step, with its cause in UPD_STAT (R268). -/
theorem State.replayDue_fields (cause : Nat) (h : s.replays = 0) : (s.replayDue cause).step = { s.step with faulted := true } ∧
    (s.replayDue cause).stepNo = s.stepNo ∧ (s.replayDue cause).hf .UPD_STAT 0 16 16 = cause % 2 ^ 16 ∧ (s.replayDue cause).coll = s.coll := by
  have hdue : s.replayDue cause = (s.causeNoted cause).stepFaulted := by
    rw [State.replayDue_eq, if_neg (by rw [s.replays_causeNoted, h]; omega)]
  have hhub : (s.causeNoted cause).stepFaulted.hub = (s.causeNoted cause).hub := (same_stepFaulted (p := .hub) (by simp)).2 rfl
  rw [hdue]
  refine ⟨?_, ?_, ?_, ?_⟩
  · have hstep : (s.causeNoted cause).step = s.step := (same_causeNoted (p := .step) (by simp)).2 rfl
    rw [State.stepFaulted, (same_startQuiesce (p := .step) (by simp)).2 rfl, hstep]
  · exact (State.stepNo_of_h (State.h_of_hub hhub _ _) (State.h_of_hub hhub _ _)).trans (s.stepNo_causeNoted cause)
  · rw [State.hf_of_hub (hhub.trans (s.hub_causeNoted cause)), State.hf_setHf_same _ _ _ _ _ _ (by omega)]
  · rw [(same_stepFaulted (p := .coll) (by simp)).2 rfl, (same_causeNoted (p := .coll) (by simp)).2 rfl]

/-! ### STEP_REPLAY (R269) -/

/-- What a step replay forgets of the step. -/
def State.stepForgotten (s : State) : State :=
  let x := s.step
  let x := { x with faulted := false, closed := false, own := Norm.zero, group := none, gdone := [], ddone := [], rsSent := [], landed := [], held := 0, ramp := s.sundial, rerun := false }
  { s with step := x, coll := s.coll.begin, rake := Rake.init, outbox := [] }

/-- The clusters' event counters are cleared, and count the layers that are final already. -/
def State.recount (s : State) : State :=
  let t := { s with clusters := s.clusters.map Cluster.clearEvents }
  let n := finalPrefix t.validLayers t.step.final
  { t with step := { t.step with counted := n } }.allCsp 31 n

theorem State.restart_eq (s : State) : s.restart = (s.stepForgotten.endQuiesce.replayAll false Core.stepReplay).recount := by
  unfold State.restart
  extract_lets _ _ t u v
  have hu : u = s.stepForgotten.endQuiesce.replayAll false Core.stepReplay := rfl
  rw [← hu]
  rfl

theorem same_recount {p : Part} {t : State} (h : p.outside [.clusters, .step]) : p.same s t.recount ↔ p.same s t := by
  simp_all [State.recount]

theorem State.step_recount (s : State) : ∃ counted, s.recount.step = { s.step with counted } := by
  rw [State.recount, (same_allCsp (p := .step) (by simp)).2 rfl]
  exact ⟨_, rfl⟩

/-- What neither the cores' restart nor what follows it changes is as it was with the QUIESCE over. -/
theorem same_restart_endQuiesce {p : Part} (h : p.outside [.cores, .clusters, .step]) : p.same s.stepForgotten.endQuiesce s.restart := by
  simp at h
  rw [State.restart_eq, same_recount (by simp [h]), same_replayAll (by simp [h])]
  exact Part.same_refl _ _

/-- A restarted step has no fault on it, and nothing of its payload, its notices or its reduce-scatter. -/
theorem State.step_restart (s : State) : s.restart.step.faulted = false ∧ s.restart.step.closed = false ∧ s.restart.step.group = none ∧
    s.restart.step.gdone = [] ∧ s.restart.step.rsSent = [] := by
  obtain ⟨counted, hcount⟩ := (s.stepForgotten.endQuiesce.replayAll false Core.stepReplay).step_recount
  rw [State.restart_eq, hcount, (same_replayAll (p := .step) (by simp)).2 rfl, (same_endQuiesce (p := .step) (by simp)).2 rfl]
  exact ⟨rfl, rfl, rfl, rfl, rfl⟩

theorem State.quiesce_endQuiesce (s : State) : s.endQuiesce.quiesce = none := by
  unfold State.endQuiesce
  exact (same_releaseAll (p := .quiesce) (by simp)).2 rfl

theorem State.quiesce_restart (s : State) : s.restart.quiesce = none :=
  Eq.trans (same_restart_endQuiesce (p := .quiesce) (by simp)) (State.quiesce_endQuiesce _)

theorem State.rake_restart (s : State) : s.restart.rake = Rake.init :=
  Eq.trans (same_restart_endQuiesce (p := .rake) (by simp)) ((same_endQuiesce (p := .rake) (by simp)).2 rfl)

theorem State.coll_restart (s : State) : s.restart.coll = s.coll.begin :=
  Eq.trans (same_restart_endQuiesce (p := .coll) (by simp)) ((same_endQuiesce (p := .coll) (by simp)).2 rfl)

theorem State.hub_restart (s : State) : s.restart.hub = s.hub := (same_restart (p := .hub) (by simp)).2 rfl

/-- Every core outside a Grafter's region has its images back and its list restarted (R158, R213). -/
theorem State.core_restart (s : State) {gi : Nat} (h : coreCi gi ∉ s.regionClusters) : s.restart.core gi = (s.core gi).stepReplay := by
  have hover : s.stepForgotten.endQuiesce.cores = s.cores ∧ s.stepForgotten.endQuiesce.grafters = s.grafters :=
    ⟨(same_endQuiesce (p := .cores) (by simp)).2 rfl, (same_endQuiesce (p := .grafters) (by simp)).2 rfl⟩
  have hregions : s.stepForgotten.endQuiesce.regionClusters = s.regionClusters := by
    refine State.regionClusters_congr fun k => ?_
    rw [State.grafter, hover.2]
    rfl
  rw [State.restart_eq, State.core, (same_recount (p := .cores) (by simp)).2 rfl]
  refine (State.core_replayAll _ _ _ (hregions ▸ h)).trans ?_
  rw [State.core, hover.1]
  rfl

end
end Sys2Proof.Machine

namespace Sys2Proof.Claims
open Machine

/-! ### The commands -/

/-- REPLAY that may be applied is, and takes what waits for its step (R131). -/
theorem replay_applies {s : State} (hmay : s.mayReplay = true) (hyper : s.badHyper = none) :
    Gives .replay s s.applyReplay.settleReq.settleColl := by
  show execReplay s = _
  rw [execReplay, if_pos hmay, hyper]

/-- With nothing waiting, REPLAY leaves the state in which the step starts. -/
theorem replay_gives {s : State} (hmay : s.mayReplay = true) (hyper : s.badHyper = none) (hheld : s.coll.held = []) (hreqs : s.coll.reqs = []) :
    Gives .replay s s.applyReplay := by
  have hcoll := s.coll_applyReplay
  have hreq : s.applyReplay.settleReq = s.applyReplay := State.settleReq_of_reqs (by rw [hcoll]; exact hreqs)
  have hsettled : s.applyReplay.settleColl = s.applyReplay := State.settleColl_of_held (by rw [hcoll]; exact hheld)
  have hgives := replay_applies hmay hyper
  rwa [hreq, hsettled] at hgives

/-- A module that may replay is not held. -/
theorem held_of_mayReplay {s : State} (h : s.mayReplay = true) : s.step.held = 0 := by
  by_contra hheld
  simp [State.mayReplay, hheld] at h

/-- A request that came early faults the step as it starts (R312). -/
theorem replay_faults {s : State} {cause : Nat} (hmay : s.mayReplay = true) (hyper : s.badHyper = none) (hn : s.nextStep < 2 ^ 64)
    (hheld : s.coll.held = []) (hreqs : s.coll.reqs = [(s.nextStep, 0, cause)]) : Runs .replay s fun t =>
      t.stepNo = s.nextStep ∧ t.step.phase = .running ∧ t.step.faulted = true ∧ t.coll.reqs = [] ∧ t.hf .UPD_STAT 0 16 16 = cause % 2 ^ 16 := by
  have hcoll := s.coll_applyReplay
  have hno := s.stepNo_applyReplay hn
  have hcount := s.replays_applyReplay
  obtain ⟨hphase, hdecided, -, hfaulted, hstepHeld⟩ := s.step_applyReplay
  have hgives := replay_applies hmay hyper
  generalize s.applyReplay = u at *
  let v : State := { u with coll := { u.coll with reqs := [] } }
  have hreq : u.settleReq = v.replayDue cause := by
    rw [State.settleReq_of_reached (cause := cause) (by rw [hcoll, hno, hcount]; exact hreqs)]
    exact State.takeReq_of_undecided hphase hdecided hfaulted (hstepHeld.trans (held_of_mayReplay hmay))
  obtain ⟨hstep, hsame, hcause, hleft⟩ := State.replayDue_fields (s := v) cause hcount
  have hempty : (v.replayDue cause).coll.held = [] := by
    rw [hleft]
    exact (congrArg Coll.held hcoll).trans hheld
  rw [hreq, State.settleColl_of_held hempty] at hgives
  refine ⟨_, hgives, hsame.trans hno, ?_, ?_, ?_, hcause⟩
  · rw [hstep]
    exact hphase
  · rw [hstep]
  · rw [hleft]

/-- A named set that is not valid holds the module, and its event says which (R246). -/
theorem replay_holds {s : State} {k : Nat} (hmay : s.mayReplay = true) (hyper : s.badHyper = some k) : Runs .replay s fun t =>
    t.step.held = St.HPARAM_INVALID ∧ t.step.phase = s.step.phase ∧ t.stepNo = s.stepNo ∧ t.mayReplay = false ∧
      OnlyIn [.step, .logs, .logLost, .msix, .gauge, .hub] s t := by
  let u : State := { s with step := { s.step with held := St.HPARAM_INVALID } }
  have hexec : exec .replay s = .next (u.event St.HPARAM_INVALID 0 0 k) := by
    show execReplay s = _
    rw [execReplay, if_pos hmay, hyper]
  have hstep : (u.event St.HPARAM_INVALID 0 0 k).step = u.step := (same_event (p := .step) (by simp)).2 rfl
  refine ⟨_, hexec, by rw [hstep], by rw [hstep], ?_, ?_, fun p hp => ?_⟩
  · exact State.stepNo_of_h (State.h_event _ _ _ _ _ _ _ (by decide)) (State.h_event _ _ _ _ _ _ _ (by decide))
  · have hheld : (u.event St.HPARAM_INVALID 0 0 k).step.held ≠ 0 := by
      rw [hstep]
      exact (by decide : St.HPARAM_INVALID ≠ 0)
    exact Bool.eq_false_iff.2 fun hnow => hheld (held_of_mayReplay hnow)
  · simp only [List.mem_cons, List.not_mem_nil, or_false, not_or] at hp
    refine (same_event (by simp [hp])).2 ?_
    simp [u, hp]

/-- With the Trellis quiesced and nothing waiting, the faulted step restarts with its replay count (R269, R335). -/
theorem stepReplay_gives {s : State} {q : Quiesce} (hfaulted : s.step.faulted = true) (hphase : s.step.phase = .running)
    (hq : s.quiesce = some q) (hdone : q.done = true) (hheld : s.coll.held = []) (hreqs : s.coll.reqs = []) :
    Gives .stepReplay s (s.restart.setHf .UPD_STAT 0 2 2 (if s.step.rerun then 0 else min (s.replays + 1) 3)) := by
  show execStepReplay s = _
  rw [execStepReplay, if_pos (by simp [hfaulted, hphase, hq, hdone])]
  extract_lets t
  have hcoll : t.coll = s.coll.begin := (State.setHf_coll _ _ _ _ _ _).trans s.coll_restart
  have htheld : t.coll.held = [] := by rw [hcoll]; exact hheld
  have htreqs : t.coll.reqs = [] := by rw [hcoll]; exact hreqs
  change _ = Host.Outcome.next t
  clear_value t
  split
  · have hkept : { t.coll with reqs := [], held := t.coll.held.filter fun c => c.step != s.stepNo % 2 ^ 16 || !c.kind.ofStep } = t.coll := by
      rw [htheld, List.filter_nil, ← htheld, ← htreqs]
    rw [hkept, State.settleColl_of_held htheld]
  · rw [State.settleReq_of_reqs htreqs, State.settleColl_of_held htheld]

/-- What the restarted step starts with (R269). -/
theorem stepReplay_restarts {s : State} {q : Quiesce} (hfaulted : s.step.faulted = true) (hphase : s.step.phase = .running)
    (hq : s.quiesce = some q) (hdone : q.done = true) (hheld : s.coll.held = []) (hreqs : s.coll.reqs = []) : Runs .stepReplay s fun t =>
      t.step.faulted = false ∧ t.step.closed = false ∧ t.step.group = none ∧ t.step.gdone = [] ∧ t.step.rsSent = [] ∧ t.rake = Rake.init ∧
      t.quiesce = none ∧ t.replays = (if s.step.rerun then 0 else min (s.replays + 1) 3) ∧ t.stepNo = s.stepNo ∧
      ∀ gi, coreCi gi ∉ s.regionClusters → t.core gi = (s.core gi).stepReplay := by
  obtain ⟨hfault, hclosed, hgroup, hgdone, hsent⟩ := s.step_restart
  have hrake := s.rake_restart
  have hover := s.quiesce_restart
  have hhub := s.hub_restart
  have hcores := fun gi => s.core_restart (gi := gi)
  have hgives := stepReplay_gives hfaulted hphase hq hdone hheld hreqs
  generalize s.restart = u at *
  refine ⟨_, hgives, hfault, hclosed, hgroup, hgdone, hsent, hrake, hover, ?_, ?_, hcores⟩
  · rw [State.replays, State.hf_setHf_same _ _ _ _ _ _ (by omega)]
    split <;> omega
  · refine State.stepNo_of_h ?_ ?_ <;>
      exact (State.h_setHf_other u _ _ _ _ _ _ _ (by decide)).trans (State.h_of_hub hhub _ _)

/-- Settles O23: the outcome of REPLAY in each of its cases, and of STEP_REPLAY, from the lemmas above. -/
theorem replayApplies : Obligations.ReplayApplies := by
  refine ⟨fun s hmay hyper hn hheld hreqs => ?_, fun _ _ => replay_faults, fun _ _ => replay_holds, fun _ _ => stepReplay_restarts⟩
  obtain ⟨hphase, hdecided, hclosed, -, -⟩ := s.step_applyReplay
  exact ⟨_, replay_gives hmay hyper hheld hreqs, s.stepNo_applyReplay hn, hphase, hdecided, hclosed, s.rake_applyReplay,
    s.replays_applyReplay, fun _ => s.hp_applyReplay, fun _ => s.core_applyReplay⟩

end Sys2Proof.Claims
end

section
/-! The report commands (O31): each is answered at once, from the state its command leaves as it is taken from the queue. -/

namespace Sys2Proof.Machine

theorem OnlyIn.mono {ps qs : List Part} {s t : State} (h : OnlyIn ps s t) (hsub : ps ⊆ qs) : OnlyIn qs s t :=
  fun p hp => h p fun hmem => hp (hsub hmem)

theorem OnlyIn.trans {ps : List Part} {s t u : State} (hst : OnlyIn ps s t) (htu : OnlyIn ps t u) : OnlyIn ps s u :=
  fun p hp => (Part.same_congr (htu p hp)).2 (hst p hp)

/-- The flags of every core ORed are five bits, as each core's are (R42, R43). -/
theorem State.fpflags_lt (s : State) : s.fpflags < 2 ^ 5 :=
  List.foldlRecOn (motive := (· < 2 ^ 5)) _ _ (by decide) fun _ hacc gi _ =>
    Nat.or_lt_two_pow hacc (bits_lt (rg (s.core gi).regs .CORE_FPFLAGS) 0 5)

end Sys2Proof.Machine

namespace Sys2Proof.Claims
open Machine

/-! ### Commands of the mailbox that answer at once (R330) -/

/-- An S command at the head of the queue is taken from it and runs. -/
theorem short_of_waits {s : State} {op : Nat} {c : Cmd} {go : Cmd → State → State} (hw : Waits s op c) :
    s.short op go = .next (go c (popped s)) := by
  rw [State.short, takeCmd_of_waits hw]

theorem popped_onlyIn (s : State) : OnlyIn [.mb] s (popped s) := fun p hp => by
  simp only [List.mem_cons, List.not_mem_nil, or_false] at hp
  simp [popped, hp]

/-- A reply puts itself into its command's slot, whatever else of the state the command changed before. -/
theorem answered_reply {s u : State} {op : Nat} {c : Cmd} (hw : Waits s op c) (hmb : u.mb = (popped s).mb) (status : Nat) (data : List Byte) :
    Answered s (u.reply c status data) c status data := by
  obtain ⟨-, -, -, hslot, hslots⟩ := hw
  have hevent : (u.event status 0 0 0).mb = u.mb := (same_event (p := .mb) (by simp)).2 rfl
  have hreply : (u.reply c status data).mb = { (popped s).mb with slots := s.mb.slots.set c.slot ⟨2, c.tag, status, data, false, 0⟩ } := by
    rw [State.reply, answer_mb, hevent, hmb]; rfl
  refine ⟨by rw [hreply]; rfl, ?_⟩
  rw [State.slot, hreply]
  simp [List.getD, List.getElem?_set_self (hslots ▸ hslot)]

/-- A reply whose status no log takes counts its time and interrupts, besides its slot. -/
theorem reply_onlyIn {status : Nat} (hlog : statusLog status = none) (u : State) (c : Cmd) (data : List Byte) :
    OnlyIn [.mb, .msix, .gauge] u (u.reply c status data) := fun p hp => by
  rw [State.reply, event_of_unlogged hlog]
  simp only [List.mem_cons, List.not_mem_nil, or_false, not_or] at hp
  simp [hp]

/-- An S command that replies from the state as it finds it, with a status no log takes. -/
theorem runs_of_gives_reply {i : Instr} {s : State} {op status : Nat} {c : Cmd} {data : List Byte} (hw : Waits s op c)
    (hlog : statusLog status = none) (hgives : Gives i s ((popped s).reply c status data)) :
    Runs i s fun t => Answered s t c status data ∧ OnlyIn [.mb, .msix, .gauge] s t :=
  ⟨_, hgives, answered_reply hw rfl status data, ((popped_onlyIn s).mono (by simp)).trans (reply_onlyIn hlog _ _ _)⟩

/-! ### What each report command answers (R335, R337) -/

section
variable {s : State} {c : Cmd}

theorem getInfo_gives (hw : Waits s 0xD000 c) : Gives .getInfo s ((popped s).reply c St.OK s.infoBytes) := by
  show execGetInfo s = _
  exact short_of_waits hw

theorem v1Identify_gives (hw : Waits s 0xC000 c) : Gives .v1Identify s ((popped s).reply c St.OK s.infoBytes) := by
  show execV1Identify s = _
  exact short_of_waits hw

theorem getStatus_gives (hw : Waits s 0xD001 c) : Gives .getStatus s ((popped s).reply c St.OK
    (toLe 1 (s.hf .PWR_STATE 0 0 3) ++ toLe 1 (b2n s.step.job) ++ toLe 1 (s.hf .STEP_CFG 0 2 1) ++ toLe 8 s.stepNo ++ toLe 2 s.holdStatus)) := by
  show execGetStatus s = _
  exact short_of_waits hw

theorem v1GetLog_gives (hw : Waits s 0xC004 c) : Gives .v1GetLog s ((popped s).reply c St.OK s.gauge.summary) := by
  show execV1GetLog s = _
  exact short_of_waits hw

theorem getTelemetry_gives (hw : Waits s 0xD002 c) : Gives .getTelemetry s
    (if 2 ^ 56 ≤ c.field 0 8 then (popped s).reply c St.INVALID_PAYLOAD []
      else (popped s).sensed.reply c St.OK (s.sensorBytes (c.field 0 8))) := by
  show execGetTelemetry s = _
  exact short_of_waits hw

theorem v1Health_gives (hw : Waits s 0xC001 c) :
    Gives .v1Health s ((popped s).sensed.reply c St.OK (s.sensorBytes (2 ^ 56 - 1))) := by
  show execV1Health s = _
  exact short_of_waits hw

theorem fpflagReduce_gives (hw : Waits s 0xD003 c) : Gives .fpflagReduce s
    (if s.step.job then (popped s).reply c St.BUSY_JOB []
      else ((popped s).setHf .RKE_FPFLAGS 0 0 5 s.fpflags).reply c St.OK (toLe 1 s.fpflags)) := by
  show execFpflagReduce s = _
  exact short_of_waits hw

/-! ### The commands that change the state they reply from -/

/-- A reading of the sensors is answered as it was, and later ones are drawn afresh (R401). -/
theorem runs_of_gives_sensed {i : Instr} {op : Nat} {data : List Byte} (hw : Waits s op c)
    (hgives : Gives i s ((popped s).sensed.reply c St.OK data)) :
    Runs i s fun t => Answered s t c St.OK data ∧ OnlyIn [.mb, .msix, .gauge, .fresh] s t := by
  have hsensed : OnlyIn [.fresh] (popped s) (popped s).sensed := fun p hp => (same_sensed hp).2 (p.same_refl _)
  exact ⟨_, hgives, answered_reply (u := (popped s).sensed) hw rfl _ _, ((popped_onlyIn s).mono (by simp)).trans <|
    (hsensed.mono (by simp)).trans <| (reply_onlyIn (by decide) _ _ _).mono (by simp)⟩

/-- With no job the flags of all the cores are reduced into RKE_FPFLAGS (R43). -/
theorem fpflagReduce_reduces (hw : Waits s 0xD003 c) (hjob : s.step.job = false) : Runs .fpflagReduce s fun t =>
    Answered s t c St.OK (toLe 1 s.fpflags) ∧ t.hf .RKE_FPFLAGS 0 0 5 = s.fpflags ∧ OnlyIn [.mb, .msix, .gauge, .hub] s t := by
  have hgives := fpflagReduce_gives hw
  rw [if_neg (by simp [hjob])] at hgives
  let u := (popped s).setHf .RKE_FPFLAGS 0 0 5 s.fpflags
  have hwritten : OnlyIn [.hub] (popped s) u := fun p hp => (same_setHf hp).2 (p.same_refl _)
  have hreply := reply_onlyIn (status := St.OK) (by decide) u c (toLe 1 s.fpflags)
  refine ⟨_, hgives, answered_reply (u := u) hw rfl _ _, ?_, ((popped_onlyIn s).mono (by simp)).trans <|
    (hwritten.mono (by simp)).trans <| hreply.mono (by simp)⟩
  rw [State.hf_of_hub (hreply .hub (by simp)), State.hf_setHf_same _ _ _ _ _ _ (by omega)]
  exact Nat.mod_eq_of_lt s.fpflags_lt

/-- While a job runs the reduction is refused, and no register changes. -/
theorem fpflagReduce_refuses (hw : Waits s 0xD003 c) (hjob : s.step.job = true) : Runs .fpflagReduce s fun t =>
    Answered s t c St.BUSY_JOB [] ∧ t.hub = s.hub := by
  have hgives := fpflagReduce_gives hw
  rw [if_pos hjob] at hgives
  obtain ⟨t, hexec, hanswer, honly⟩ := runs_of_gives_reply hw (by decide) hgives
  exact ⟨t, hexec, hanswer, honly .hub (by simp)⟩

/-- A mask of sensors 0 to 55 is answered with their readings (R401). -/
theorem getTelemetry_reads (hw : Waits s 0xD002 c) (hmask : c.field 0 8 < 2 ^ 56) : Runs .getTelemetry s fun t =>
    Answered s t c St.OK (s.sensorBytes (c.field 0 8)) ∧ OnlyIn [.mb, .msix, .gauge, .fresh] s t := by
  have hgives := getTelemetry_gives hw
  rw [if_neg (by omega)] at hgives
  exact runs_of_gives_sensed hw hgives

/-- A mask that names a sensor above 55 is refused (R401). -/
theorem getTelemetry_refuses (hw : Waits s 0xD002 c) (hmask : 2 ^ 56 ≤ c.field 0 8) : Runs .getTelemetry s fun t =>
    Answered s t c St.INVALID_PAYLOAD [] := by
  have hgives := getTelemetry_gives hw
  rw [if_pos hmask] at hgives
  exact ⟨_, hgives, answered_reply hw rfl _ _⟩

end

/-- Settles O31: each report command, from what it gives. -/
theorem reportsAnswer : Obligations.ReportsAnswer :=
  ⟨fun _ _ hw => runs_of_gives_reply hw (by decide) (getInfo_gives hw),
    fun _ _ hw => runs_of_gives_reply hw (by decide) (v1Identify_gives hw),
    fun _ _ hw => runs_of_gives_reply hw (by decide) (getStatus_gives hw),
    fun _ _ => getTelemetry_reads,
    fun _ _ => getTelemetry_refuses,
    fun _ _ hw => runs_of_gives_sensed hw (v1Health_gives hw),
    fun _ _ hw => runs_of_gives_reply hw (by decide) (v1GetLog_gives hw),
    fun _ _ => fpflagReduce_reduces,
    fun _ _ => fpflagReduce_refuses⟩

end Sys2Proof.Claims
end

section
/-! Bytes and numbers: little-endian lists and the memory that holds them. -/

namespace Sys2Proof

@[simp] theorem leNat_toLe (n v : Nat) : leNat (toLe n v) = v % 256 ^ n := by
  induction n generalizing v with
  | zero => simp [toLe, leNat, Nat.mod_one]
  | succ n ih => rw [toLe, leNat, ih, pow_succ', Nat.mod_mul]; simp

theorem leNat_lt (bs : List Byte) : leNat bs < 256 ^ bs.length := by
  induction bs with
  | nil => simp [leNat]
  | cons b r ih => rw [leNat, List.length_cons, pow_succ']; have := b.isLt; omega

@[simp] theorem toLe_leNat (bs : List Byte) : toLe bs.length (leNat bs) = bs := by
  induction bs with
  | nil => rfl
  | cons b r ih =>
    have hb := b.isLt
    rw [List.length_cons, toLe, leNat, show (b.toNat + 256 * leNat r) / 256 = leNat r by omega, ih]
    congr 1
    apply BitVec.eq_of_toNat_eq
    rw [BitVec.toNat_ofNat]
    omega

end Sys2Proof

namespace Sys2Proof.Machine

@[simp] theorem mgets_length (m : Mem) (a n : Nat) : (mgets m a n).length = n := by simp [mgets]

theorem leNat_mgets_lt (m : Mem) (a n : Nat) : leNat (mgets m a n) < 256 ^ n := by
  simpa using leNat_lt (mgets m a n)

/-- What was written is read. -/
theorem mgets_msets (m : Mem) (a : Nat) (bs : List Byte) : mgets (msets m a bs) a bs.length = bs := by
  apply List.ext_getElem (by simp)
  intro i hi hi'
  simp [mgets, mget_msets, hi']

/-- A number written over `n` bytes is read, cut to them. -/
theorem leNat_mgets_msets (m : Mem) (a n v : Nat) : leNat (mgets (msets m a (toLe n v)) a n) = v % 256 ^ n := by
  have h := mgets_msets m a (toLe n v)
  rw [toLe_length] at h
  rw [h, leNat_toLe]

theorem mget_msets_outside (m : Mem) {a k : Nat} {bs : List Byte} (h : k < a ∨ a + bs.length ≤ k) : mget (msets m a bs) k = mget m k := by
  rw [mget_msets, if_neg (by omega)]

/-- Bytes written where they already stand change nothing that is read. -/
theorem mget_msets_self (m : Mem) (a n k : Nat) : mget (msets m a (mgets m a n)) k = mget m k := by
  rw [mget_msets, mgets_length]
  split
  · next h => simp [mgets, show k - a < n by omega, show a + (k - a) = k by omega]
  · rfl

end Sys2Proof.Machine
end

section
/-! Register counters, and what ECC does on a read (O16). -/

namespace Sys2Proof.Machine

theorem rf_satField_same (f : Regs) (r : Reg) (i lo w n : Nat) (h : lo + w ≤ 32) :
    rf (satField f r i lo w n) r i lo w = min (rf f r i lo w + n) (2 ^ w - 1) := by
  have := Nat.two_pow_pos w
  rw [satField, rf_sf_same _ _ _ _ _ _ h]
  exact Nat.mod_eq_of_lt (by omega)

/-- A bit reads as it was set. -/
theorem rf_sf_one (f : Regs) (r : Reg) (i lo : Nat) (h : lo + 1 ≤ 32) : rf (sf f r i lo 1 1) r i lo 1 = 1 := by
  rw [rf_sf_same _ _ _ _ _ _ h]
  rfl

theorem rg_satField_other (f : Regs) (r r' : Reg) (i i' lo w n : Nat) (h : r'.offset i' ≠ r.offset i) :
    rg (satField f r i lo w n) r' i' = rg f r' i' := rg_sf_other _ _ _ _ _ _ _ _ h

/-! ### A halt -/

theorem CX.halt_reg (x : CX) (cause kind : Nat) (r : Reg) (i lo w : Nat) (h : r.offset i ≠ Reg.offset .CORE_STAT 0) :
    rf (x.halt cause kind).c.regs r i lo w = rf x.c.regs r i lo w := by
  rw [CX.halt]
  dsimp only
  rw [rf_sf_other _ _ _ _ _ _ _ _ _ _ h, rf_sf_other _ _ _ _ _ _ _ _ _ _ h]

/-- A halted core shows it, with its cause, in CORE_STAT (R86). -/
theorem CX.halt_stat (x : CX) (cause kind : Nat) :
    rf (x.halt cause kind).c.regs .CORE_STAT 0 0 1 = 1 ∧ rf (x.halt cause kind).c.regs .CORE_STAT 0 1 3 = cause % 8 := by
  rw [CX.halt]
  dsimp only
  rw [rf_sf_field _ _ _ _ _ _ _ _ (by omega) (by omega), rf_sf_same _ _ _ _ _ _ (by omega), rf_sf_same _ _ _ _ _ _ (by omega)]
  exact ⟨rfl, rfl⟩

/-! ### A local read -/

/-- A core that meets no flaw reads what memory holds, and nothing else happens. -/
@[simp] theorem Core.eccRead_clean (c : Core) (a n : Nat) : c.eccRead [] a n = (c, false) := by
  unfold Core.eccRead
  split <;> rfl

/-- A local read gives the bytes that are stored, and what its words' ECC leaves of the core. -/
theorem CX.readLocal_of_ecc {x : CX} {a n : Nat} {c : Core} {ue : Bool} (h : x.c.eccRead x.flaws (localBase x.gi + a) n = (c, ue)) :
    x.readLocal a n = (if ue then ({ x with c := c } : CX).halt 3 2 else { x with c := c }, mgets x.mem (localBase x.gi + a) n) := by
  rw [CX.readLocal, h]

theorem CX.readLocal_clean {x : CX} (h : x.flaws = []) (a n : Nat) : x.readLocal a n = (x, mgets x.mem (localBase x.gi + a) n) :=
  CX.readLocal_of_ecc (c := x.c) (ue := false) (by rw [h, Core.eccRead_clean])

section
variable {c : Core} {a n w b : Nat} (hn : 0 < n) (hlo : a / 8 ≤ w) (hhi : w ≤ (a + n - 1) / 8)
include hn hlo hhi

/-- The one flaw among the words read is a single: it is counted, and the word waits for its write-back (R79). -/
theorem Core.eccRead_single (hwb : c.wb = []) :
    c.eccRead [(w, some (.single b))] a n = ({ c.count .CORE_ECC 0 16 1 with wb := [w] }, false) := by
  simp [Core.eccRead, hn.ne', hlo, hhi, hwb, Core.count]

/-- The one flaw among the words read is a double: the read is uncorrectable (R79). -/
theorem Core.eccRead_double :
    c.eccRead [(w, some (.double b))] a n = ({ c with regs := sf c.regs .CORE_ECC 0 16 1 1 }, true) := by
  simp [Core.eccRead, hn.ne', hlo, hhi]
end

/-! ### A slot read -/

/-- Word `w` of lane `lane` of a slot is that slot's, and no other's. -/
theorem slotWord_place {slot lane w : Nat} (hlane : lane < 16) (hw : w < 32) :
    (544 * slot + 34 * lane + w) / 544 = slot ∧ (544 * slot + 34 * lane + w) % 34 = w := by omega

section
variable {x : CX} {slot lane w lo hi b : Nat} (sc : Option Nat) (hlane : lane < 16) (hw : w < 32) (hlo : lo ≤ w) (hhi : w ≤ hi)
include hlane hw hlo hhi

/-- The one flaw of the slots is a single in a word that is read: it is counted and written back at once (R79). -/
theorem CX.slotRead_single (h : x.c.slotFlaws = [(544 * slot + 34 * lane + w, some (.single b))]) :
    x.slotRead slot lo hi sc = { x with c := { x.c.count .CORE_ECC 0 16 1 with slotFlaws := [] } } := by
  obtain ⟨hslot, hword⟩ := slotWord_place (slot := slot) hlane hw
  simp [CX.slotRead, h, hslot, hword, hlo, hhi, hw, Core.count]

/-- The one flaw of the slots is a double in a word that is read: the core halts, and the word stays (R79). -/
theorem CX.slotRead_double (h : x.c.slotFlaws = [(544 * slot + 34 * lane + w, some (.double b))]) :
    x.slotRead slot lo hi sc = ({ x with c := { x.c.count .CORE_ECC 0 16 0 with
      regs := sf (x.c.count .CORE_ECC 0 16 0).regs .CORE_ECC 0 16 1 1 } }).halt 3 2 := by
  obtain ⟨hslot, hword⟩ := slotWord_place (slot := slot) hlane hw
  simp [CX.slotRead, h, hslot, hword, hlo, hhi, hw, Core.count]
end

/-! ### An upset -/

theorem flawOf_set (fl : Flaws) (w : Nat) (f : Option Flaw) : flawOf (Sparse.set (fun _ => none) fl w f) w = f :=
  Sparse.get_set_same (fun _ => none) fl w f

theorem struck_clean_one {data m : Nat} (h : onebit m = true) : struck none data m = (data, some (.single m)) := by
  have hm : m ≠ 0 := of_decide_eq_true (Bool.and_eq_true_iff.mp h).1
  simp [struck, h, hm]

theorem struck_clean_more {data m : Nat} (hm : m ≠ 0) (h : onebit m = false) : struck none data m = (data ^^^ m, some (.double m)) := by
  simp [struck, h, hm]

section
variable {mem : Mem} {fl : Flaws} {u : Upset} (hmask : u.mask < 2 ^ 64) (hclean : flawOf fl u.word = none)
include hmask hclean

/-- An upset strikes a clean word. -/
theorem strike_clean : strike mem fl u =
    (msets mem (8 * u.word) (toLe 8 (struck none (leNat (mgets mem (8 * u.word) 8)) u.mask).1),
      Sparse.set (fun _ => none) fl u.word (struck none (leNat (mgets mem (8 * u.word) 8)) u.mask).2) := by
  rw [flawOf] at hclean
  rw [strike, hclean, Nat.mod_eq_of_lt hmask]

/-- One flipped bit is corrected on every read. -/
theorem strike_one (h : onebit u.mask = true) :
    (∀ a, mget (strike mem fl u).1 a = mget mem a) ∧ flawOf (strike mem fl u).2 u.word = some (.single u.mask) := by
  have hsame : toLe 8 (leNat (mgets mem (8 * u.word) 8)) = mgets mem (8 * u.word) 8 := by
    simpa using toLe_leNat (mgets mem (8 * u.word) 8)
  rw [strike_clean hmask hclean, struck_clean_one h, hsame]
  exact ⟨mget_msets_self mem _ _, flawOf_set fl u.word (some (.single u.mask))⟩

/-- More flipped bits stand in the word that is read. -/
theorem strike_more (hne : u.mask ≠ 0) (h : onebit u.mask = false) :
    leNat (mgets (strike mem fl u).1 (8 * u.word) 8) = leNat (mgets mem (8 * u.word) 8) ^^^ u.mask ∧
      (∀ a, a / 8 ≠ u.word → mget (strike mem fl u).1 a = mget mem a) ∧ flawOf (strike mem fl u).2 u.word = some (.double u.mask) := by
  have hlt : leNat (mgets mem (8 * u.word) 8) ^^^ u.mask < 256 ^ 8 :=
    Nat.xor_lt_two_pow (n := 64) (leNat_mgets_lt mem _ 8) hmask
  rw [strike_clean hmask hclean, struck_clean_more hne h]
  refine ⟨?_, fun a ha => mget_msets_outside mem ?_, flawOf_set fl u.word (some (.double u.mask))⟩
  · rw [leNat_mgets_msets, Nat.mod_eq_of_lt hlt]
  · rw [toLe_length]
    omega
end

end Sys2Proof.Machine

namespace Sys2Proof.Claims
open Machine

/-- A core that reads a word with one flipped bit goes on; with two it halts with CAUSE LMEM_UE. -/
theorem readLocal_flawed (x : CX) (a n w b : Nat) (hn : 0 < n) (hlo : (localBase x.gi + a) / 8 ≤ w) (hhi : w ≤ (localBase x.gi + a + n - 1) / 8)
    (hwb : x.c.wb = []) :
    let r := x.readLocal a n
    (x.flaws = [(w, some (.single b))] → r.2 = mgets x.mem (localBase x.gi + a) n ∧ r.1.halted = x.halted ∧ r.1.c.wb = [w] ∧
      rf r.1.c.regs .CORE_ECC 0 0 16 = min (rf x.c.regs .CORE_ECC 0 0 16 + 1) 65535) ∧
    (x.flaws = [(w, some (.double b))] → r.2 = mgets x.mem (localBase x.gi + a) n ∧ r.1.halted = true ∧ r.1.faults = x.faults ++ [2] ∧
      rf r.1.c.regs .CORE_ECC 0 16 1 = 1 ∧ rf r.1.c.regs .CORE_STAT 0 0 1 = 1 ∧ rf r.1.c.regs .CORE_STAT 0 1 3 = 3) := by
  intro r
  refine ⟨fun h => ?_, fun h => ?_⟩
  · have hr : r = _ := CX.readLocal_of_ecc (h ▸ Core.eccRead_single hn hlo hhi hwb)
    rw [hr]
    exact ⟨rfl, rfl, rfl, rf_satField_same _ _ _ _ _ _ (by omega)⟩
  · have hr : r = _ := CX.readLocal_of_ecc (h ▸ Core.eccRead_double hn hlo hhi)
    rw [hr, if_pos rfl]
    refine ⟨rfl, rfl, rfl, ?_, (CX.halt_stat _ _ _).1, (CX.halt_stat _ _ _).2⟩
    rw [CX.halt_reg _ _ _ _ _ _ _ (by decide), rf_sf_one _ _ _ _ (by omega)]

/-- Settles O16: an upset, a local read and a slot read, each of a word with one flipped bit and with two. -/
theorem errorsAreCorrectedOrHaltTheCore : Obligations.ErrorsAreCorrectedOrHaltTheCore := by
  refine ⟨fun mem fl u hmask hclean => ⟨strike_one hmask hclean, strike_more hmask hclean⟩, readLocal_flawed, ?_⟩
  intro x slot lane w lo hi b sc hlane hw hlo hhi
  refine ⟨fun h => ?_, fun h => ?_⟩
  · rw [CX.slotRead_single sc hlane hw hlo hhi h]
    exact ⟨rfl, rfl, rfl, rf_satField_same _ _ _ _ _ _ (by omega)⟩
  · rw [CX.slotRead_double sc hlane hw hlo hhi h]
    refine ⟨rfl, rfl, rfl, ?_, (CX.halt_stat _ _ _).2⟩
    rw [CX.halt_reg _ _ _ _ _ _ _ (by decide), rf_sf_one _ _ _ _ (by omega)]

end Sys2Proof.Claims
end

section
/-! Results in flight: what a register holds once they have landed (R82, R84). -/

namespace Sys2Proof.Machine

/-- What an accumulator holds of a value: its 16 lanes of 64 bits. Irreducible, so that no unifier evaluates the power. -/
@[irreducible] def accBits (v : Nat) : Nat := v % 2 ^ 1024

theorem accBits_of_lt {v : Nat} (h : v < 2 ^ 1024) : accBits v = v := by
  rw [accBits, Nat.mod_eq_of_lt h]

section
variable (c : Core)

/-! ### The committed registers -/

theorem Core.setR_acc (j v : Nat) : c.setR (32 + j) v = { c with acc := Sparse.set (fun _ => 0) c.acc j (accBits v) } := by
  rw [Core.setR, if_neg (by omega), Nat.add_sub_cancel_left, accBits]

theorem Core.getR_setR_same (r v : Nat) : (c.setR r v).getR r = v % (if r < 32 then 2 ^ 512 else 2 ^ 1024) := by
  unfold Core.setR Core.getR
  split <;> exact Sparse.get_set_same ..

theorem Core.getR_setR_other {r k : Nat} (v : Nat) (h : k ≠ r) : (c.setR r v).getR k = c.getR k := by
  unfold Core.setR Core.getR
  split
  · split
    · exact Sparse.get_set_other _ _ _ _ _ h
    · rfl
  · split
    · rfl
    · exact Sparse.get_set_other _ _ _ _ _ (by omega)

/-! ### The hazard log -/

/-- Logging a hazard writes CORE_HZLOG and CORE_HZCYC alone. -/
theorem Core.rg_hzlog (reg kind desc cyc : Nat) {r : Reg} {i : Nat} (hlog : r.offset i ≠ Reg.offset .CORE_HZLOG 0)
    (hcyc : r.offset i ≠ Reg.offset .CORE_HZCYC 0) : rg (c.hzlog reg kind desc cyc).regs r i = rg c.regs r i := by
  unfold Core.hzlog
  split
  · rfl
  · dsimp only
    rw [rg_sg_other _ _ _ _ _ _ hcyc, rg_sg_other _ _ _ _ _ _ hlog]

/-- Logging a hazard writes registers alone. -/
theorem Core.hzlog_eq (reg kind desc cyc : Nat) : c.hzlog reg kind desc cyc = { c with regs := (c.hzlog reg kind desc cyc).regs } := by
  unfold Core.hzlog
  split <;> rfl

/-! ### Landing -/

theorem Core.landOne_kept {f : Flight} (desc : Nat) (h : c.landedSeq f.reg ≤ f.seq) :
    c.landOne desc f = { c.setR f.reg f.val with landed := Sparse.set (fun _ => 0) c.landed f.reg (f.seq + 1) } := if_pos h

theorem Core.landOne_discarded {f : Flight} (desc : Nat) (h : f.seq < c.landedSeq f.reg) :
    c.landOne desc f = (c.count .CORE_HZCNT 16 16 1).hzlog f.reg 1 desc f.due := if_neg (by omega)

/-- A result of an accumulator lands. -/
theorem Core.landOne_acc {f : Flight} {j : Nat} (desc : Nat) (hreg : f.reg = 32 + j) (h : c.landedSeq (32 + j) ≤ f.seq) :
    c.landOne desc f = { c with acc := Sparse.set (fun _ => 0) c.acc j (accBits f.val), landed := Sparse.set (fun _ => 0) c.landed (32 + j) (f.seq + 1) } := by
  rw [Core.landOne_kept c desc (hreg ▸ h), hreg, Core.setR_acc]

/-- With nothing in flight nothing lands. -/
theorem Core.land_none {c : Core} (h : c.flights = []) (desc t : Nat) : c.land desc t = c := by
  cases c
  cases h
  rfl

/-- The only result in flight is due: it lands. -/
theorem Core.land_one {f : Flight} (h : c.flights = [f]) (desc : Nat) {t : Nat} (hdue : f.due ≤ t) :
    c.land desc t = ({ c with flights := [] } : Core).landOne desc f := by
  simp [Core.land, h, hdue, flightIns]

/-- What each result that lands keeps, and the results leaving flight keep, all of them keep. -/
theorem Core.land_induct {motive : Core → Prop} (desc t : Nat)
    (base : motive { c with flights := c.flights.filter fun f => !decide (f.due ≤ t) }) (step : ∀ d f, motive d → motive (d.landOne desc f)) :
    motive (c.land desc t) :=
  List.foldlRecOn _ _ base fun d hd f _ => step d f hd

/-- Landing writes CORE_HZCNT, CORE_HZLOG and CORE_HZCYC alone. -/
theorem Core.rg_landOne (desc : Nat) (f : Flight) {r : Reg} {i : Nat} (hcnt : r.offset i ≠ Reg.offset .CORE_HZCNT 0)
    (hlog : r.offset i ≠ Reg.offset .CORE_HZLOG 0) (hcyc : r.offset i ≠ Reg.offset .CORE_HZCYC 0) :
    rg (c.landOne desc f).regs r i = rg c.regs r i := by
  unfold Core.landOne
  split
  · unfold Core.setR
    split <;> rfl
  · rw [Core.rg_hzlog _ _ _ _ _ hlog hcyc]
    exact rg_satField_other _ _ _ _ _ _ _ _ hcnt

theorem Core.rg_land (desc t : Nat) {r : Reg} {i : Nat} (hcnt : r.offset i ≠ Reg.offset .CORE_HZCNT 0)
    (hlog : r.offset i ≠ Reg.offset .CORE_HZLOG 0) (hcyc : r.offset i ≠ Reg.offset .CORE_HZCYC 0) :
    rg (c.land desc t).regs r i = rg c.regs r i :=
  c.land_induct (motive := fun d => rg d.regs r i = rg c.regs r i) desc t rfl fun d f hd => (d.rg_landOne desc f hcnt hlog hcyc).trans hd

end

end Sys2Proof.Machine
end

section
/-! RAKE_SQ, RESULT_LAND, the write-backs, TOKINC_WRITE, CLU_LSEL_WRITE and PATCH (O15). -/

namespace Sys2Proof.Machine

section
variable (s : State)

/-! ### One core of the state -/

theorem State.setCore_onlyIn (gi : Nat) (c : Core) : OnlyIn [.cores] s (s.setCore gi c) :=
  fun p hp => (same_setCore hp).2 (p.same_refl s)

theorem State.setCluster_onlyIn (ci : Nat) (c : Cluster) : OnlyIn [.clusters] s (s.setCluster ci c) :=
  fun p hp => (same_setCluster hp).2 (p.same_refl s)

theorem State.setCore_otherCores (gi : Nat) (c : Core) : Claims.otherCores gi s (s.setCore gi c) :=
  fun gj h => s.core_setCore_other gi gj c h

/-- A core written as it stands is as it was, with every other. -/
theorem State.core_setCore_self (gi gj : Nat) : (s.setCore gi (s.core gi)).core gj = s.core gj := by
  by_cases h : gj = gi
  · rw [h, State.core_setCore_same]
  · rw [State.core_setCore_other _ _ _ _ h]

variable {s}

/-- The transfer at the head of the queue goes on where its core runs (R86). -/
theorem State.goOn_running {gi : Nat} (h : (s.core gi).halted = false) (r : Run) : s.goOn gi r = s.modCore gi fun c => c.setTq r :=
  if_neg (by simp [h])

/-- HBM lies below every SRAM (R162). -/
theorem lt_of_placeOf_hbm {a x : Nat} (h : placeOf a = .hbm x) : a < 0x008000000000 := by
  by_contra hge
  rw [placeOf, if_neg hge] at h
  dsimp only at h
  split_ifs at h

/-- Memory and its flaws written beside other parts. -/
theorem OnlyIn.withMem {ps : List Part} {u : State} (h : OnlyIn ps s u) (m : Mem) (f : Flaws) :
    OnlyIn (.mem :: .flaws :: ps) s { u with mem := m, flaws := f } := by
  intro p hp
  obtain ⟨hmem, hflaws, hps⟩ : p ≠ .mem ∧ p ≠ .flaws ∧ p ∉ ps := by simpa using hp
  have hsame := h p hps
  cases p
  case mem => contradiction
  case flaws => contradiction
  all_goals exact hsame

/-- The Rake written beside other parts. -/
theorem OnlyIn.withRake {ps : List Part} {u : State} (h : OnlyIn ps s u) (k : Rake) : OnlyIn (.rake :: ps) s { u with rake := k } := by
  intro p hp
  obtain ⟨hrake, hps⟩ : p ≠ .rake ∧ p ∉ ps := by simpa using hp
  have hsame := h p hps
  cases p
  case rake => contradiction
  all_goals exact hsame

/-! ### Reads of memory without flaws (R79, R168) -/

variable (hflaws : s.flaws = [])
include hflaws

theorem State.extRead_clean (gi a n : Nat) : s.extRead gi a n = (s.rd a n, s.setCore gi (s.core gi)) := by
  simp [State.extRead, hflaws]

theorem State.storeRead_clean (ci a n : Nat) : s.storeRead ci a n = (s.rd a n, s.setCluster ci (s.cluster ci)) := by
  have hnone : s.flawsIn a n = [] := by simp [State.flawsIn, hflaws]
  simp [State.storeRead, hnone, Cluster.eccRead]

/-- A read of one mapped place of SRAM gives its bytes and leaves the cores as they are. -/
theorem State.readAt_clean {a n : Nat} (es : List HbmErr) (hrange : memRange a n = true) (hsram : 0x008000000000 ≤ a) :
    (s.readAt a n es).1 = s.rd a n ∧ OnlyIn [.cores, .clusters] s (s.readAt a n es).2 ∧ ∀ gj, (s.readAt a n es).2.core gj = s.core gj := by
  rw [State.readAt, if_pos hrange, State.readPlaceAt]
  match hplace : placeOf a with
  | .hbm x => exact absurd (lt_of_placeOf_hbm hplace) (by omega)
  | .store ci off =>
    simp only [State.storeRead_clean hflaws]
    exact ⟨trivial, OnlyIn.mono (s.setCluster_onlyIn ci _) (by simp), fun _ => rfl⟩
  | .localMem gi off =>
    simp only [State.extRead_clean hflaws]
    exact ⟨trivial, OnlyIn.mono (s.setCore_onlyIn gi _) (by simp), s.core_setCore_self gi⟩
  | .reg off => simp [memRange, hplace] at hrange
  | .unmapped => simp [memRange, hplace] at hrange

end

/-! ### A write-back -/

section
variable (mem : Mem) (fl : Flaws) (w : Nat)

theorem flawOf_writeBack : flawOf (writeBack mem fl w).2 w = none := flawOf_set fl w none

theorem mget_writeBack_outside {a : Nat} (h : a / 8 ≠ w) : mget (writeBack mem fl w).1 a = mget mem a := by
  unfold writeBack
  dsimp only
  split
  · exact mget_msets_outside mem (by rw [toLe_length]; omega)
  · rfl

/-- Only a word struck again since it was read is written with other bytes. -/
theorem writeBack_mem (h : ∀ b, flawOf fl w ≠ some (.double b)) : (writeBack mem fl w).1 = mem := by
  unfold writeBack
  dsimp only
  split
  · next b hb => exact absurd hb (h b)
  · rfl
end

/-! ### Registers written in a row -/

/-- The registers `first` to `first + n - 1` of an array, written one by one. -/
theorem rg_foldl_sg (f : Regs) (r : Reg) (first k : Nat) (v : Nat → Nat) (n : Nat) :
    rg ((List.range n).foldl (fun g i => sg g r (first + i) (v i)) f) r k =
      if first ≤ k ∧ k < first + n then v (k - first) % 2 ^ 32 else rg f r k := by
  induction n with
  | zero => rw [if_neg (by omega)]; rfl
  | succ n ih =>
    rw [List.range_succ, List.foldl_append, List.foldl_cons, List.foldl_nil]
    by_cases h : k = first + n
    · rw [h, rg_sg_same, if_pos (by omega), Nat.add_sub_cancel_left]
    · rw [rg_sg_other _ _ _ _ _ _ (by unfold Reg.offset; omega), ih]
      congr 1
      exact propext ⟨fun ⟨h1, h2⟩ => ⟨h1, by omega⟩, fun ⟨h1, h2⟩ => ⟨h1, by omega⟩⟩

/-! ### List selection of a cluster -/

/-- A field written in every core of a list reads so in each of them. -/
theorem State.rf_foldl_modCore {r : Reg} {i lo w v : Nat} (hw : lo + w ≤ 32) (hv : v < 2 ^ w) {gj : Nat} {l : List Nat} (hmem : gj ∈ l) (s : State) :
    rf ((l.foldl (fun s gi => s.modCore gi fun c => { c with regs := sf c.regs r i lo w v }) s).core gj).regs r i lo w = v := by
  induction l using List.reverseRecOn with
  | nil => simp at hmem
  | append_singleton l gi ih =>
    rw [List.foldl_append, List.foldl_cons, List.foldl_nil]
    by_cases h : gj = gi
    · rw [h, State.core_modCore_same]
      exact (rf_sf_same _ r i lo w v hw).trans (Nat.mod_eq_of_lt hv)
    · rw [State.modCore, State.core_setCore_other _ _ _ _ h]
      exact ih (by simpa [h] using hmem)

end Sys2Proof.Machine

namespace Sys2Proof.Claims
open Machine

/-- An iteration of a RAKE_SQ from local memory (R252, R253). -/
theorem rakeSq_adds (s : State) (gi : Nat) (r : Run) (hready : (s.core gi).tqReady opRakeSq = some r) (hspace : hSpace (hget r.hs (dH r.desc 0)) = false)
    (hflaws : s.flaws = []) (hrun : (s.core gi).halted = false) (hrange : memRange (localBase gi + r.localAt 0) (dLen r.desc) = true)
    (hvalid : lValid (s.layer (dLayer r.desc)) = true) (hfrozen : lFrozen (s.layer (dLayer r.desc)) = false) :
    Runs (.rakeSq gi [] []) s fun t => (t.core gi).tq = r.advance :: (s.core gi).tq.drop 1 ∧
      t.rake = (rakeElems (hget r.hs (dH r.desc 0)) (r.indices r.iter) (s.rd (localBase gi + r.localAt 0) (dLen r.desc))).foldl
        (fun k x => k.add (signed 8 (bits s.sieve.ls 0 8)) x) s.rake ∧ OnlyIn [.cores, .clusters, .rake] s t ∧ otherCores gi s t := by
  have hsram : 0x008000000000 ≤ localBase gi + r.localAt 0 := by unfold localBase; omega
  obtain ⟨hbytes, honly, hcores⟩ := State.readAt_clean hflaws [] hrange hsram
  let d := s.readAt (localBase gi + r.localAt 0) (dLen r.desc) []
  let k := (rakeElems (hget r.hs (dH r.desc 0)) (r.indices r.iter) d.1).foldl (fun k x => k.add (signed 8 (bits d.2.sieve.ls 0 8)) x) d.2.rake
  have hlayer : d.2.layer (dLayer r.desc) = s.layer (dLayer r.desc) := by rw [State.layer, State.layer, honly .layers (by simp)]
  have hgo : (({ d.2 with rake := k } : State).core gi).halted = false := (congrArg Core.halted (hcores gi)).trans hrun
  have hgives : Gives (.rakeSq gi [] []) s (({ d.2 with rake := k } : State).modCore gi fun c => c.setTq r.advance) := by
    show execRakeSq gi [] [] s = _
    simp only [execRakeSq, hready, hspace, Bool.false_and, Bool.false_eq_true, if_false, State.strikes, List.foldl_nil]
    rw [hlayer, hvalid, hfrozen]
    exact congrArg Host.Outcome.next (State.goOn_running hgo r.advance)
  refine ⟨_, hgives, ?_, ?_, ?_, fun gj hj => ?_⟩
  · rw [State.core_modCore_same]
    exact congrArg (fun c : Core => r.advance :: c.tq.drop 1) (hcores gi)
  · show k = _
    rw [← hbytes, ← honly .sieve (by simp), ← honly .rake (by simp)]
  · exact OnlyIn.trans (honly.withRake k |>.mono (by simp)) ((State.setCore_onlyIn _ gi _).mono (by simp))
  · exact (State.setCore_otherCores _ gi _ gj hj).trans (hcores gj)

/-- The results of the only cycle in flight land (R84). -/
theorem resultLand_gives {s : State} {gi : Nat} {f : Flight} (h : (s.core gi).flights = [f]) : ∃ desc,
    Gives (.resultLand gi) s (s.setCore gi (({ s.core gi with flights := [] } : Core).landOne desc f)) := by
  refine ⟨((s.core gi).comp.map (·.idx)).getD 0, ?_⟩
  show execResultLand gi s = _
  simp only [execResultLand, h, List.foldl_nil]
  rw [Core.land_one _ h _ (le_refl _)]

theorem resultLand_lands (s : State) (gi : Nat) (f : Flight) (h : (s.core gi).flights = [f]) (hnew : (s.core gi).landedSeq f.reg ≤ f.seq) :
    Runs (.resultLand gi) s fun t => (t.core gi).flights = [] ∧ (t.core gi).getR f.reg = f.val % (if f.reg < 32 then 2 ^ 512 else 2 ^ 1024) ∧
      (∀ k, k ≠ f.reg → (t.core gi).getR k = (s.core gi).getR k) ∧ OnlyIn [.cores] s t ∧ otherCores gi s t := by
  obtain ⟨desc, hgives⟩ := resultLand_gives h
  let c : Core := { s.core gi with flights := [] }
  rw [Core.landOne_kept c desc hnew] at hgives
  refine ⟨_, hgives, ?_, ?_, fun k hk => ?_, s.setCore_onlyIn gi _, s.setCore_otherCores gi _⟩
  · rw [State.core_setCore_same]
    show (c.setR f.reg f.val).flights = []
    unfold Core.setR
    split <;> rfl
  · rw [State.core_setCore_same]
    exact c.getR_setR_same f.reg f.val
  · rw [State.core_setCore_same]
    exact c.getR_setR_other f.val hk

theorem resultLand_discards (s : State) (gi : Nat) (f : Flight) (h : (s.core gi).flights = [f]) (hold : f.seq < (s.core gi).landedSeq f.reg) :
    Runs (.resultLand gi) s fun t => (t.core gi).flights = [] ∧ (∀ k, (t.core gi).getR k = (s.core gi).getR k) ∧
      rf (t.core gi).regs .CORE_HZCNT 0 16 16 = min (rf (s.core gi).regs .CORE_HZCNT 0 16 16 + 1) 65535 := by
  obtain ⟨desc, hgives⟩ := resultLand_gives h
  let c : Core := { s.core gi with flights := [] }
  rw [Core.landOne_discarded c desc hold] at hgives
  refine ⟨_, hgives, ?_, fun k => ?_, ?_⟩
  · rw [State.core_setCore_same, Core.hzlog_eq]
    rfl
  · rw [State.core_setCore_same, Core.hzlog_eq]
    rfl
  · rw [State.core_setCore_same, rf, Core.rg_hzlog _ _ _ _ _ (by decide) (by decide)]
    exact rf_satField_same _ _ _ _ _ _ (by omega)

theorem lmemEccWriteback_writes (s : State) (gi w : Nat) (rest : List Nat) (h : (s.core gi).wb = w :: rest) :
    Runs (.lmemEccWriteback gi) s fun t => (t.core gi).wb = rest ∧ flawOf t.flaws w = none ∧ (∀ a, a / 8 ≠ w → mget t.mem a = mget s.mem a) ∧
      ((∀ b, flawOf s.flaws w ≠ some (.double b)) → t.mem = s.mem) ∧ OnlyIn [.cores, .flaws, .mem] s t ∧ otherCores gi s t := by
  let u := s.setCore gi { s.core gi with wb := rest }
  have hgives : Gives (.lmemEccWriteback gi) s { u with mem := (writeBack s.mem s.flaws w).1, flaws := (writeBack s.mem s.flaws w).2 } := by
    show execLmemEccWriteback gi s = _
    simp only [execLmemEccWriteback, h]
    rfl
  refine ⟨_, hgives, ?_, flawOf_writeBack s.mem s.flaws w, fun a => mget_writeBack_outside s.mem s.flaws w,
    writeBack_mem s.mem s.flaws w, ?_, s.setCore_otherCores gi _⟩
  · show (u.core gi).wb = rest
    rw [State.core_setCore_same]
  · exact ((s.setCore_onlyIn gi _).withMem _ _).mono (by simp)

theorem cstoreEccWriteback_writes (s : State) (ci w : Nat) (rest : List Nat) (h : (s.cluster ci).wb = w :: rest) :
    Runs (.cstoreEccWriteback ci) s fun t => (t.cluster ci).wb = rest ∧ flawOf t.flaws w = none ∧ (∀ a, a / 8 ≠ w → mget t.mem a = mget s.mem a) ∧
      ((∀ b, flawOf s.flaws w ≠ some (.double b)) → t.mem = s.mem) ∧ OnlyIn [.clusters, .flaws, .mem] s t := by
  let u := s.setCluster ci { s.cluster ci with wb := rest }
  have hgives : Gives (.cstoreEccWriteback ci) s { u with mem := (writeBack s.mem s.flaws w).1, flaws := (writeBack s.mem s.flaws w).2 } := by
    show execCstoreEccWriteback ci s = _
    simp only [execCstoreEccWriteback, h]
    rfl
  refine ⟨_, hgives, ?_, flawOf_writeBack s.mem s.flaws w, fun a => mget_writeBack_outside s.mem s.flaws w, writeBack_mem s.mem s.flaws w, ?_⟩
  · show (u.cluster ci).wb = rest
    rw [State.cluster_setCluster_same]
  · exact ((s.setCluster_onlyIn ci _).withMem _ _).mono (by simp)

theorem tokincWrite_adds (s : State) (gi k n : Nat) (hk : k < 32) (hn : n < 256) (hsum : rf (s.core gi).regs .CORE_TOK k 0 16 + n ≤ 65535) :
    Runs (.tokincWrite gi k n) s fun t => rf (t.core gi).regs .CORE_TOK k 0 16 = rf (s.core gi).regs .CORE_TOK k 0 16 + n ∧
      OnlyIn [.cores] s t ∧ otherCores gi s t := by
  let v := rf (s.core gi).regs .CORE_TOK k 0 16 + n
  by_cases hzero : n = 0
  · refine ⟨s, ?_, by rw [hzero]; rfl, fun p _ => p.same_refl s, fun _ _ => rfl⟩
    rw [hzero]
    rfl
  · have hgives : Gives (.tokincWrite gi k n) s (s.setCore gi { s.core gi with regs := sg (s.core gi).regs .CORE_TOK k v }) := by
      show execTokincWrite gi k n s = _
      rw [execTokincWrite, if_neg (by omega), Nat.mod_eq_of_lt hk, Nat.mod_eq_of_lt hn]
      dsimp only [State.addToken]
      rw [if_neg (by omega), Nat.min_eq_left hsum]
    refine ⟨_, hgives, ?_, s.setCore_onlyIn gi _, s.setCore_otherCores gi _⟩
    rw [State.core_setCore_same]
    show bits (rg (sg (s.core gi).regs .CORE_TOK k v) .CORE_TOK k) 0 16 = v
    rw [rg_sg_same, bits]
    omega

theorem cluLselWrite_selects (s : State) (ci sel : Nat) (hsel : sel < 4) :
    Runs (.cluLselWrite ci sel) s fun t => (∀ k, k < 64 → rf (t.core (coreOf ci k)).regs .CORE_LSEL 0 0 2 = sel) ∧ OnlyIn [.cores] s t :=
  ⟨_, rfl, fun k hk => State.rf_foldl_modCore (by omega) hsel (List.mem_map.2 ⟨k, List.mem_range.2 hk, rfl⟩) s,
    fun p hp => Part.foldl_same (p := p) fun u gi => (same_modCore hp).2 (p.same_refl u)⟩

theorem patch_lands (s : State) (gi first : Nat) (vals : List Nat) (hmin : 1 ≤ vals.length) (hmax : vals.length ≤ 16) (hfit : first + vals.length ≤ 64) :
    Runs (.patch gi first vals) s fun t => (∀ j, j < vals.length → rg (t.core gi).regs .CORE_PRMS (first + j) = vals.getD j 0 % 2 ^ 32) ∧
      (∀ k, k < 64 → (k < first ∨ first + vals.length ≤ k) → rg (t.core gi).regs .CORE_PRMS k = rg (s.core gi).regs .CORE_PRMS k) ∧
      OnlyIn [.cores] s t ∧ otherCores gi s t := by
  refine ⟨_, if_pos ⟨hmin, hmax, hfit⟩, fun j hj => ?_, fun k _ hk => ?_, s.setCore_onlyIn gi _, s.setCore_otherCores gi _⟩
  · rw [State.core_modCore_same]
    exact (rg_foldl_sg _ _ _ _ (fun i => vals.getD i 0) _).trans (by rw [if_pos (by omega), Nat.add_sub_cancel_left])
  · rw [State.core_modCore_same]
    exact (rg_foldl_sg _ _ _ _ (fun i => vals.getD i 0) _).trans (if_neg (by omega))

/-- Settles O15: each command on its own. -/
theorem rakeAndCoreRegisters : Obligations.RakeAndCoreRegisters :=
  ⟨rakeSq_adds, resultLand_lands, resultLand_discards, lmemEccWriteback_writes, cstoreEccWriteback_writes, tokincWrite_adds,
    fun s ci sel _ => cluLselWrite_selects s ci sel, patch_lands⟩

end Sys2Proof.Claims
end

section
/-! Element mode, and the fills of weight slots (O13). -/

namespace Sys2Proof.Machine

/-! ### What a whole run leaves of the state -/

section
variable {s : State}

/-- Memory as the context holds it. -/
theorem State.uncx_quiet {x : CX} (h : x.faults = []) : s.uncx x = { s.setCore x.gi x.c with mem := x.mem, flaws := x.flaws } := by
  rw [State.uncx, h]
  rfl

variable {x : CX} {gi : Nat} (hfaults : x.faults = [])
include hfaults

theorem State.uncx_onlyIn : OnlyIn [.mem, .flaws, .cores] s (s.uncx x) := by
  rw [State.uncx_quiet hfaults]
  exact (s.setCore_onlyIn x.gi x.c).withMem x.mem x.flaws

/-- A context that holds memory as it found it changes its core alone. -/
theorem State.uncx_onlyIn_cores (hmem : x.mem = s.mem) (hflaws : x.flaws = s.flaws) : OnlyIn [.cores] s (s.uncx x) := by
  rw [State.uncx_quiet hfaults, hmem, hflaws]
  exact s.setCore_onlyIn x.gi x.c

variable (hgi : x.gi = gi)
include hgi

theorem State.core_uncx : (s.uncx x).core gi = x.c := by
  rw [State.uncx_quiet hfaults, hgi]
  exact s.core_setCore_same gi x.c

theorem State.uncx_otherCores : Claims.otherCores gi s (s.uncx x) := by
  rw [State.uncx_quiet hfaults, hgi]
  exact s.setCore_otherCores gi x.c
end

/-! ### Flags and the halt bit -/

/-- Raising flags writes CORE_FPFLAGS alone. -/
theorem Core.rg_flag (c : Core) (f : Flags) {r : Reg} {i : Nat} (h : r.offset i ≠ Reg.offset .CORE_FPFLAGS 0) :
    rg (c.flag f).regs r i = rg c.regs r i := rg_sg_other _ _ _ _ _ _ h

theorem Core.halted_of_regs {c d : Core} (h : rg d.regs .CORE_STAT 0 = rg c.regs .CORE_STAT 0) : d.halted = c.halted := by
  rw [Core.halted, Core.halted, rf, rf, h]

/-! ### Packed elements -/

/-- Element `k` of a packed list. -/
theorem bits_packElems (w : Nat) (l : List Nat) (k : Nat) (hk : k < l.length) : bits (packElems w l) (w * k) w = l[k] % 2 ^ w := by
  induction l generalizing k with
  | nil => simp at hk
  | cons x l ih =>
    have hx : x % 2 ^ w < 2 ^ w := Nat.mod_lt _ (Nat.two_pow_pos w)
    cases k with
    | zero => simp [packElems, bits]
    | succ k =>
      rw [List.getElem_cons_succ, ← ih k (by simpa using hk), packElems, bits, bits, Nat.mul_succ, Nat.add_comm (w * k), pow_add, ← Nat.div_div_eq_div_mul,
        Nat.add_mul_div_left _ _ (Nat.two_pow_pos w), Nat.div_eq_of_lt hx, Nat.zero_add]

theorem packElems_lt (w : Nat) (l : List Nat) : packElems w l < 2 ^ (w * l.length) := by
  induction l with
  | nil => simp [packElems]
  | cons x l ih =>
    have hx : x % 2 ^ w < 2 ^ w := Nat.mod_lt _ (Nat.two_pow_pos w)
    rw [packElems, List.length_cons, Nat.mul_succ, Nat.add_comm (w * l.length), pow_add]
    have := Nat.mul_le_mul_left (2 ^ w) ih
    rw [Nat.mul_succ] at this
    omega

/-! ### Element mode (R71) -/

/-- The lanes an ELEM of FP32 with parameter operands computes from a core. -/
def Core.elemLanes (c : Core) (d : Nat) : List (Nat × Flags) :=
  (List.range 16).map fun k => elemLane (dEop d) fp32 (bits (c.getA (dEacc d)) (64 * k) 32) (c.prm (dEsidx d)) (c.prm (dEbidx d))

/-- The flags of those lanes. -/
def Core.elemFlags (c : Core) (d : Nat) : Flags := ((c.elemLanes d).map (·.2)).foldl (· ||| ·) 0

/-- The core once one such iteration has issued in cycle 0: its flags are raised, and its lanes are in flight. -/
def Core.elemFly (c : Core) (d : Nat) : Core :=
  (c.flag (c.elemFlags d)).fly (32 + dEacc d) 7 (packElems 64 ((c.elemLanes d).map (·.1))) none

/-- A sentinel that finds no source pending lets the issue go on (R83). -/
theorem CX.sentinel_quiet {x : CX} {srcs : List Nat} (h : ∀ r ∈ srcs, x.c.pending r = false) (t : Nat) : x.sentinel t srcs = x := by
  have hnone : srcs.filter (fun r => x.c.pending r) = [] := by simpa using h
  simp [CX.sentinel, hnone]

theorem Core.pending_none {c : Core} (h : c.flights = []) (r : Nat) : c.pending r = false := by simp [Core.pending, h]

/-- Everything due by cycle `t` has landed. -/
def CX.landAll (x : CX) (t : Nat) : CX := ({ x with c := x.c.land x.idx t } : CX).landStores t

theorem CX.landAll_idle {x : CX} (hflights : x.c.flights = []) (hstores : x.stores = []) (t : Nat) : x.landAll t = x := by
  rw [CX.landAll, Core.land_none hflights]
  cases x
  cases hstores
  rfl

theorem CX.elemStep_flies {x : CX} {d : Nat} (h64 : dEfmt64 d = false) (hsrc : dEosrc d = true) (hflights : x.c.flights = []) (hstores : x.stores = [])
    (hrun : x.halted = false) : x.elemStep d 0 = { x with c := x.c.elemFly d } := by
  unfold CX.elemStep
  extract_lets j f y srcs hit z a rs raised kept
  have hf : f = fp32 := by simp [f, h64]
  have hy : y = x := CX.landAll_idle hflights hstores 0
  have hhit : hit = false := by simp only [hit, hy]; exact Core.pending_none hflights _
  have hz : z = x := by simp only [z, hy]; exact CX.sentinel_quiet (fun r _ => Core.pending_none hflights r) 0
  clear_value z hit f
  subst hz hhit hf
  rw [if_neg (by simp [hrun])]
  have hoperand : ∀ idx k, z.c.elemOperand d idx k = z.c.prm idx := fun idx k => by simp [Core.elemOperand, h64, hsrc]
  have hrs : rs = z.c.elemLanes d := by simp only [rs, hoperand]; rfl
  simp only [kept, raised, hrs, h64]
  rfl

/-- The result one such iteration puts in flight. -/
def Core.elemFlight (c : Core) (d : Nat) : Flight := ⟨32 + dEacc d, 7, c.seq, packElems 64 ((c.elemLanes d).map (·.1)), none⟩

/-- The core once that result has landed: its flags are raised, and the accumulator holds the lanes. -/
def Core.elemDone (c : Core) (d : Nat) : Core :=
  { c.elemFly d with
    flights := []
    acc := Sparse.set (fun _ => 0) c.acc (dEacc d) (accBits (c.elemFlight d).val)
    landed := Sparse.set (fun _ => 0) c.landed (32 + dEacc d) (c.seq + 1) }

theorem Core.halted_elemDone (c : Core) (d : Nat) : (c.elemDone d).halted = c.halted :=
  Core.halted_of_regs (c.rg_flag (c.elemFlags d) (by decide))

theorem Core.acc_elemDone (c : Core) (d : Nat) :
    (c.elemDone d).acc = Sparse.set (fun _ => 0) c.acc (dEacc d) (accBits (c.elemFlight d).val) := rfl

theorem Core.getA_elemDone_same (c : Core) (d : Nat) : (c.elemDone d).getA (dEacc d) = accBits (c.elemFlight d).val := by
  rw [Core.getA, Core.acc_elemDone, Sparse.get_set_same]

theorem Core.getA_elemDone_other (c : Core) {d k : Nat} (h : k ≠ dEacc d) : (c.elemDone d).getA k = c.getA k := by
  rw [Core.getA, Core.acc_elemDone, Sparse.get_set_other _ _ _ _ _ h, Core.getA]

/-- Each lane of the accumulator is the lane computed (R71). -/
theorem Core.bits_elemDone (c : Core) (d : Nat) {k : Nat} (hk : k < 16) : bits ((c.elemDone d).getA (dEacc d)) (64 * k) 64 =
    (elemLane (dEop d) fp32 (bits (c.getA (dEacc d)) (64 * k) 32) (c.prm (dEsidx d)) (c.prm (dEbidx d))).1 % 2 ^ 64 := by
  have hlen : ((c.elemLanes d).map (·.1)).length = 16 := by simp [Core.elemLanes]
  have hlt : (c.elemFlight d).val < 2 ^ 1024 := by
    rw [show 1024 = 64 * ((c.elemLanes d).map (·.1)).length by rw [hlen]]
    exact packElems_lt 64 _
  rw [Core.getA_elemDone_same, accBits_of_lt hlt, Core.elemFlight, bits_packElems _ _ _ (by omega)]
  simp [Core.elemLanes]

/-- A whole ELEM of one iteration (R71, R81). -/
theorem CX.runElem_lands {x : CX} {r : Run} (h64 : dEfmt64 r.desc = false) (hsrc : dEosrc r.desc = true) (hcounts : r.counts = [1, 1, 1, 1])
    (hflights : x.c.flights = []) (hstores : x.stores = []) (hrun : x.halted = false) (hseq : x.c.landedSeq (32 + dEacc r.desc) ≤ x.c.seq) :
    x.runElem r = { x with c := x.c.elemDone r.desc } := by
  let y : CX := { x with c := x.c.elemFly r.desc }
  have hloop : x.elemLoop r.desc r.total 0 = y := by
    rw [show r.total = 1 by rw [Run.total, hcounts]; rfl, CX.elemLoop, if_neg (by simp [hrun]), CX.elemLoop]
    exact CX.elemStep_flies h64 hsrc hflights hstores hrun
  have hdone : y.storesDone = y := by simp [CX.storesDone, y, hstores]
  have hfly : y.c.flights = [x.c.elemFlight r.desc] := by
    show x.c.flights ++ [x.c.elemFlight r.desc] = _
    rw [hflights, List.nil_append]
  have hland : y.c.land y.idx (y.c.drainAt 0) = x.c.elemDone r.desc := by
    have hdue : (x.c.elemFlight r.desc).due ≤ y.c.drainAt 0 := by rw [Core.drainAt, hfly]; exact le_max_right _ _
    rw [Core.land_one _ hfly _ hdue, Core.landOne_acc _ _ (j := dEacc r.desc) rfl hseq]
    rfl
  rw [CX.runElem, hloop, CX.drain, hdone, hland]

/-! ### The compute descriptor that is ready -/

theorem Core.compReady_some {c : Core} {op : Nat} {r : Run} (h : c.compReady op = some r) : c.halted = false ∧ c.comp = some r := by
  unfold Core.compReady at h
  split at h
  · simp at h
  · next hrun =>
    split at h
    · next q hq =>
      split at h
      · exact ⟨by simpa using hrun, hq.trans h⟩
      · simp at h
    · simp at h

/-! ### Fills (R74, R75) -/

section
variable (c : Core)

theorem Core.pendSlot_setPend (k : Nat) (b : Bool) : (c.setPend k b).pendSlot k = b := by
  unfold Core.setPend Core.pendSlot
  split <;> rfl

/-- A fill-pending bit is no lane and no slot pointer. -/
theorem Core.setPend_keeps (k : Nat) (b : Bool) : (∀ slot j, (c.setPend k b).lane slot j = c.lane slot j) ∧ (c.setPend k b).slotPtr = c.slotPtr ∧
    (c.setPend k b).tq = c.tq := by
  unfold Core.setPend
  split <;> exact ⟨fun _ _ => rfl, rfl, rfl⟩

/-- Filling a slot leaves the slot pointer. -/
theorem Core.fillSlot_slotPtr (tr : Bool) (h sfmt kk slot : Nat) (src : List Byte) (lut : Nat) (ent : Nat → Nat) :
    (c.fillSlot tr h sfmt kk slot src lut ent).slotPtr = c.slotPtr := by
  unfold Core.fillSlot
  refine List.foldlRecOn (motive := fun d : Core => d.slotPtr = c.slotPtr) _ _ rfl fun d hd i _ => ?_
  dsimp only
  split <;> exact hd
end

/-- A fill that meets no flaw: the slot takes the decoded bytes, and its fill-pending bit is set. -/
theorem CX.startFill_clean {x : CX} (h : x.flaws = []) (r : Run) (tr : Bool) (slot : Nat) : x.startFill r tr slot =
    { x with c := (x.c.fillSlot tr (hget r.hs (dH r.desc 0)) (dFsfmt r.desc) (dFk r.desc) slot
      (mgets x.mem (localBase x.gi + (hPos (hget r.hs (dH r.desc 0)) (r.indices r.iter)).toNat) (fillSize (hget r.hs (dH r.desc 0)) (dFsfmt r.desc) (dFk r.desc)))
      (x.lutOf (hget r.hs (dH r.desc 0)) (r.indices r.iter)) (x.entOf (hget r.hs (dH r.desc 0)) (r.indices r.iter))).setPend slot true } := by
  unfold CX.startFill CX.readTables
  simp only [CX.readLocal_clean h]

/-- The transfer at the head of the queue that is ready. -/
theorem Core.tqReady_some {c : Core} {op : Nat} {r : Run} (h : c.tqReady op = some r) : (∃ rest, c.tq = r :: rest) ∧ dOp r.desc = op ∧ r.done = false := by
  unfold Core.tqReady at h
  split at h
  · next q rest hq =>
    split at h
    · next hready =>
      cases h
      exact ⟨⟨rest, hq⟩, hready.1, hready.2.1⟩
    · simp at h
  · simp at h

end Sys2Proof.Machine

namespace Sys2Proof.Claims
open Machine

theorem exec_elem {i : Instr} {gi e : Nat} (h : e = 1 ∧ i = .emul gi ∨ e = 2 ∧ i = .eadd gi ∨ e = 3 ∧ i = .efma gi) (s : State) :
    exec i s = .next (s.elem gi e) := by
  obtain ⟨rfl, rfl⟩ | ⟨rfl, rfl⟩ | ⟨rfl, rfl⟩ := h <;> rfl

/-- A one-iteration ELEM in FP32 with parameter operands (R71). -/
theorem elem_computes (s : State) (gi e : Nat) (r : Run) (i : Instr) (hi : e = 1 ∧ i = .emul gi ∨ e = 2 ∧ i = .eadd gi ∨ e = 3 ∧ i = .efma gi)
    (hready : (s.core gi).compReady opElem = some r) (he : dEop r.desc = e) (h64 : dEfmt64 r.desc = false) (hsrc : dEosrc r.desc = true)
    (hcounts : r.counts = [1, 1, 1, 1]) (hflights : (s.core gi).flights = []) (hseq : (s.core gi).landedSeq (32 + dEacc r.desc) ≤ (s.core gi).seq) :
    let c := s.core gi
    let lane := fun k => elemLane e fp32 (bits (c.getA (dEacc r.desc)) (64 * k) 32) (c.prm (dEsidx r.desc)) (c.prm (dEbidx r.desc))
    Runs i s fun t => (∀ k, k < 16 → bits ((t.core gi).getA (dEacc r.desc)) (64 * k) 64 = (lane k).1 % 2 ^ 64) ∧
      (∀ k, k ≠ dEacc r.desc → (t.core gi).getA k = c.getA k) ∧ (∀ k, (t.core gi).getV k = c.getV k) ∧ (t.core gi).flights = [] ∧
      (t.core gi).comp = some { r with done := true, iter := 1 } ∧ OnlyIn [.cores] s t ∧ otherCores gi s t := by
  intro c lane
  obtain ⟨hrun, hcomp⟩ := Core.compReady_some hready
  have hdone : (c.elemDone r.desc).halted = false := (c.halted_elemDone _).trans hrun
  let q : Core := { c.elemDone r.desc with comp := some { r with done := true, iter := 1 } }
  have hmark : markComp (c.elemDone r.desc) = q := by
    have htotal : r.total = 1 := by rw [Run.total, hcounts]; rfl
    rw [markComp, if_neg (by simp [hdone]), show (c.elemDone r.desc).comp = some r from hcomp, Option.map_some, htotal]
  let x : CX := { s.cx gi r with c := q }
  have hexec : exec i s = .next (s.uncx x) := by
    have hlands := CX.runElem_lands (x := s.cx gi r) h64 hsrc hcounts hflights rfl rfl hseq
    rw [exec_elem hi, State.elem, hready]
    dsimp only
    rw [if_pos he, State.runComp]
    dsimp only [State.strikes, List.foldl_nil]
    rw [hlands]
    exact congrArg (fun d : Core => Host.Outcome.next (s.uncx { s.cx gi r with c := d })) hmark
  have hcore : (s.uncx x).core gi = q := State.core_uncx rfl rfl
  refine ⟨_, hexec, ?_⟩
  beta_reduce
  rw [hcore]
  refine ⟨fun k hk => ?_, fun k hk => c.getA_elemDone_other hk, fun _ => rfl, rfl, rfl, State.uncx_onlyIn_cores rfl rfl rfl,
    State.uncx_otherCores rfl rfl⟩
  dsimp only [lane]
  rw [← he]
  exact c.bits_elemDone r.desc hk

/-- One iteration of a FILL or FILL_T that meets no flaw (R74, R75). -/
theorem fill_decodes (s : State) (gi : Nat) (r : Run) (i : Instr) (tr : Bool) (hi : i = .fill gi [] ∧ tr = false ∧ (s.core gi).compReady opFill = some r ∨
      i = .fillT gi [] ∧ tr = true ∧ (s.core gi).compReady opFillT = some r) (hwait : r.wait = false) (hflaws : s.flaws = []) :
    let h := hget r.hs (dH r.desc 0)
    let k := r.slot
    let a := localBase gi + (hPos h (r.indices r.iter)).toNat
    let x := s.cx gi r
    Runs i s fun t => (t.core gi).comp = some { r with wait := true } ∧ (t.core gi).pendSlot k = true ∧
      (∀ j, (t.core gi).lane k j = ((s.core gi).fillSlot tr h (dFsfmt r.desc) (dFk r.desc) k (s.rd a (fillSize h (dFsfmt r.desc) (dFk r.desc)))
        (x.lutOf h (r.indices r.iter)) (x.entOf h (r.indices r.iter))).lane k j) ∧
      (t.core gi).slotPtr = (s.core gi).slotPtr ∧ OnlyIn [.cores] s t ∧ otherCores gi s t := by
  intro h k a x
  let c := (s.core gi).fillSlot tr h (dFsfmt r.desc) (dFk r.desc) k (s.rd a (fillSize h (dFsfmt r.desc) (dFk r.desc)))
    (x.lutOf h (r.indices r.iter)) (x.entOf h (r.indices r.iter))
  let y : CX := { x with c := { c.setPend k true with comp := some { r with wait := true } } }
  have hexec : exec i s = .next (s.uncx y) := by
    have hstart : ∀ tr', tr' = tr → x.startFill r tr' k = { x with c := c.setPend k true } := fun tr' htr => by
      rw [htr]
      exact CX.startFill_clean hflaws r tr k
    obtain ⟨rfl, htr, hready⟩ | ⟨rfl, htr, hready⟩ := hi
    · show Host.Outcome.next (s.fill gi [] opFill) = _
      simp only [State.fill, hready, hwait, State.strikes, List.foldl_nil, Bool.false_eq_true, if_false]
      rw [hstart _ (by rw [htr]; rfl)]
    · show Host.Outcome.next (s.fill gi [] opFillT) = _
      simp only [State.fill, hready, hwait, State.strikes, List.foldl_nil, Bool.false_eq_true, if_false]
      rw [hstart _ (by rw [htr]; rfl)]
  have hcore : (s.uncx y).core gi = y.c := State.core_uncx rfl rfl
  obtain ⟨hlane, hptr, -⟩ := c.setPend_keeps k true
  refine ⟨_, hexec, ?_⟩
  beta_reduce
  rw [hcore]
  exact ⟨rfl, c.pendSlot_setPend k true, hlane k, hptr.trans (Core.fillSlot_slotPtr ..), State.uncx_onlyIn_cores rfl rfl rfl,
    State.uncx_otherCores rfl rfl⟩

/-- The last byte of a fill lands (R74). -/
theorem fillComplete_ends (s : State) (gi : Nat) (r : Run) (hcomp : (s.core gi).comp = some r) (hop : dOp r.desc = opFill ∨ dOp r.desc = opFillT)
    (hwait : r.wait = true) :
    Runs (.fillComplete gi) s fun t => (t.core gi).comp = some r.advance ∧ (t.core gi).pendSlot r.slot = false ∧ OnlyIn [.cores] s t ∧ otherCores gi s t := by
  have hgives : Gives (.fillComplete gi) s (s.setCore gi { (s.core gi).setPend r.slot false with comp := some r.advance }) := by
    show execFillComplete gi s = _
    simp only [execFillComplete, hcomp]
    exact if_pos ⟨hop, hwait⟩
  refine ⟨_, hgives, ?_, ?_, s.setCore_onlyIn gi _, s.setCore_otherCores gi _⟩
  · rw [State.core_setCore_same]
  · rw [State.core_setCore_same]
    exact (s.core gi).pendSlot_setPend r.slot false

/-- A waiting FILL_IN takes the marker of its own tile, the last of its stream (R176). -/
theorem fillIn_takes (s : State) (gi tile : Nat) (r : Run) (hready : (s.core gi).tqReady opFillIn = some r) (hfront : (s.core gi).front = some (tile, 1))
    (hwait : r.wait = false) :
    let k := (s.core gi).fillSlotOf r.desc
    (s.core gi).passReads k = false → fillSize (hget r.hs (dH r.desc 0)) (dFsfmt r.desc) (dFk r.desc) ≤ 32 * tile →
    Runs (.fillIn gi) s fun t => (t.core gi).pendSlot k = true ∧ (t.core gi).take = some ⟨tile, 1, 0⟩ ∧ (t.core gi).front = none ∧
      (t.core gi).slotPtr = (if dFslot r.desc = 2 then k else (s.core gi).slotPtr) ∧ (∃ q, (t.core gi).tq.head? = some q ∧ q.wait = true ∧ q.slot = k ∧ q.got = []) ∧
      OnlyIn [.cores] s t ∧ otherCores gi s t := by
  intro k hfree hfit
  let ptr := if dFslot r.desc = 2 then k else (s.core gi).slotPtr
  let c : Core := { (s.core gi).setPend k true with slotPtr := ptr, front := none, take := some ⟨tile, 1, 0⟩ }
  have hgives : Gives (.fillIn gi) s (s.setCore gi (c.setTq { r with wait := true, slot := k, got := [] })) := by
    show execFillIn gi s = _
    simp only [execFillIn, State.takeMarker, hready, hfront, hwait, Bool.false_eq_true, if_false]
    rw [if_neg (by simpa using hfree), if_pos (le_refl 1), if_neg (by simpa using hfit)]
  refine ⟨_, hgives, ?_, ?_, ?_, ?_, ⟨{ r with wait := true, slot := k, got := [] }, ?_, rfl, rfl, rfl⟩, s.setCore_onlyIn gi _, s.setCore_otherCores gi _⟩
  all_goals rw [State.core_setCore_same]
  · exact (s.core gi).pendSlot_setPend k true
  all_goals rfl

/-- The whole source of a FILL_IN has arrived (R74, R176). -/
theorem fillIn_ends (s : State) (gi : Nat) (r : Run) (hcomp : (s.core gi).comp = none) (hready : (s.core gi).tqReady opFillIn = some r)
    (hwait : r.wait = true) (htake : (s.core gi).take = none) (hgot : fillSize (hget r.hs (dH r.desc 0)) (dFsfmt r.desc) (dFk r.desc) ≤ r.got.length) :
    Runs (.fillComplete gi) s fun t => (t.core gi).pendSlot r.slot = false ∧ (t.core gi).tq.head? = some { r.advance with got := [] } ∧
      OnlyIn [.cores] s t ∧ otherCores gi s t := by
  obtain ⟨⟨rest, htq⟩, hop, hdone⟩ := Core.tqReady_some hready
  have hgives : Gives (.fillComplete gi) s (s.setCore gi (((s.core gi).setPend r.slot false).setTq { r.advance with got := [] })) := by
    show execFillComplete gi s = _
    have hhead : (s.core gi).tq.head?.filter (fun r => dOp r.desc == opFillIn && !r.done) = some r := by
      rw [htq]
      exact Option.filter_some_pos (by simp [hop, hdone])
    simp [execFillComplete, State.fillInDone, hcomp, hhead, hwait, htake, hgot]
  refine ⟨_, hgives, ?_, ?_, s.setCore_onlyIn gi _, s.setCore_otherCores gi _⟩
  all_goals rw [State.core_setCore_same]
  · exact (s.core gi).pendSlot_setPend r.slot false
  · rfl

/-- Settles O13: an ELEM, a fill and its completion, a FILL_IN and its completion. -/
theorem elementModeAndSlots : Obligations.ElementModeAndSlots :=
  ⟨elem_computes, fill_decodes, fillComplete_ends, fillIn_takes, fillIn_ends⟩

end Sys2Proof.Claims
end

section
/-! The parts that words and broadcasts are made of (R63, R72, R91, R98): each function of the model that runs many of them in one body is their composition. -/

namespace Sys2Proof.Machine

/-! ### The parts -/

/-- The context in which a word issues, before the sentinel: its wait counted, and everything due by then landed (R83, R91). -/
def CX.arrived (x : CX) (w : Nat) : CX :=
  ({ x with c := x.c.count .CORE_VSTAT 0 16 (x.issueAt w - x.slotOf w) } : CX).landAll (x.issueAt w)

/-- A word that does not run counts as illegal (R94). -/
def CX.vIgnored (x : CX) (w : Nat) : CX := { x with c := x.c.count .CORE_VSTAT 16 8 1, last := some (x.slotOf w) }

/-- The context once a word holds its pipe (R91). -/
def CX.piped (x : CX) (w t n : Nat) : CX := { x.pipeBusy (vTiming w n).1 (t + (vTiming w n).2.1) with last := some t }

/-- A word takes its pipe, and its row's effect follows. -/
def CX.vGo (x : CX) (w t n : Nat) : CX :=
  let y := x.piped w t n
  if vOp w = 0 then y else if vMem (vOp w) then y.vMemRun w t else y.vFinish w t (vTiming w n).2.2

theorem CX.vIssue_eq (x : CX) (w : Nat) : x.vIssue w =
    if x.halted then x
    else if !x.vRuns w then x.vIgnored w
    else
      let y := (x.arrived w).sentinel (x.issueAt w) ((x.arrived w).vSources w)
      if y.halted then y else y.vGo w (x.issueAt w) (x.leafN w) := rfl

section
variable {x : CX} {t r : Nat} {srcs l : List Nat} (hbad : srcs.filter (x.c.pending ·) = r :: l)
include hbad

/-- TOLERANT counts and logs each pending source (R83). -/
theorem CX.sentinel_tolerant (htol : x.tol = true) : x.sentinel t srcs =
    { x with c := (r :: l).foldl (fun c r => (c.count .CORE_HZCNT 0 16 1).hzlog r 0 x.idx t) x.c } := by
  simp only [CX.sentinel, hbad, if_pos htol]

/-- STRICT halts on the first pending source (R83). -/
theorem CX.sentinel_strict (htol : x.tol = false) : x.sentinel t srcs = ({ x with c := x.c.hzlog r 0 x.idx t } : CX).halt 1 0 := by
  simp only [CX.sentinel, hbad]
  exact if_neg (by simp [htol])
end

/-- The cycle the VLS serves an access made at `t` (R77). -/
def CX.servedAt (x : CX) (w t : Nat) : Nat :=
  let a := (x.vAddr w).toNat
  vlsServe x.fetch [a / 32 % 4, (a + vLen (vOp w) (vPart w) - 1) / 32 % 4] (x.fetchTo - (t + x.vlsOff)) (t + x.vlsOff)

/-- The cycles an access lost are counted and move every later one (R77). -/
def CX.stalled (x : CX) (w t : Nat) : CX :=
  { x with c := x.c.count .CORE_BKCNT 0 16 (x.servedAt w t - (t + x.vlsOff)), vlsOff := x.servedAt w t - t }

/-- A load served at `t` puts its bytes in flight (R98). -/
def CX.loadAt (x : CX) (w t : Nat) : CX :=
  let r := x.storesDone.readLocal (x.vAddr w).toNat 64
  let v := leNat r.2
  { x with c := r.1.c.fly (vVd w) (t + 3) (if vOp w = 0x30 then r.1.maskedBytes w x.mask 64 0 v else v) none, halted := r.1.halted, faults := r.1.faults }

/-- A store served at `t` waits for its cycle (R77, R98). -/
def CX.storeAt (x : CX) (w t : Nat) : CX :=
  let a := (x.vAddr w).toNat
  let n := vLen (vOp w) (vPart w)
  let src := x.c.getV (vVa w) % 2 ^ (8 * n)
  let old := leNat (mgets x.storesDone.mem (localBase x.gi + a) n)
  { x with stores := x.stores ++ [(t, a, toLe n (if vOp w = 0x31 then x.maskedBytes w x.mask n old src else src))] }

theorem CX.vMemRun_eq (x : CX) (w t : Nat) : x.vMemRun w t =
    if vOp w = 0x30 ∨ vOp w = 0x32 then (x.stalled w t).loadAt w (x.servedAt w t)
    else ((x.stalled w t).storeAt w (x.servedAt w t)).landStores t := rfl

/-- CORE_STAT.LIMBSAT is raised where limbs saturated (R59). -/
def Core.saturated (c : Core) (b : Bool) : Core := if b then { c with regs := sf c.regs .CORE_STAT 0 5 1 1 } else c

/-- Results fly, and their flags and saturation are raised. -/
def Core.finished (c : Core) (w due acc : Nat) (r : List (Nat × Nat) × Flags × Bool) : Core :=
  let c := c.flag r.2.1
  let c := c.saturated r.2.2
  let c := r.1.foldl (fun c d => c.fly d.1 due d.2 none) c
  if vOp w = 0x40 && vClr w then c.clearAcc acc else c

theorem CX.vFinish_parts (x : CX) (w t lat : Nat) : x.vFinish w t lat =
    let y := if vOp w = 0x70 then x.leafRead w else x
    { y with c := y.c.finished w (t + lat) (y.accIdx w) (y.vCompute w) } := rfl

/-- Whether a broadcast reads word `k` of a core's slots (R79). -/
def slotHit (slot lo hi : Nat) (scale : Option Nat) (k : Nat) : Bool :=
  decide (k / 544 = slot) && ((decide (lo ≤ k % 34) && decide (k % 34 ≤ hi) && decide (k % 34 < 32)) || scale == some (k % 34))

/-- The flawed words a slot read meets. -/
def Core.slotBad (c : Core) (hit : Nat → Bool) : Flaws := c.slotFlaws.filter fun e => hit e.1

/-- Those of them that are uncorrectable. -/
def Core.slotLost (c : Core) (hit : Nat → Bool) : Flaws := (c.slotBad hit).filter fun e => match e.2 with
  | some (.double _) => true
  | _ => false

/-- The corrected ones are counted and whole again. -/
def Core.slotMended (c : Core) (hit : Nat → Bool) : Core :=
  { c.count .CORE_ECC 0 16 ((c.slotBad hit).length - (c.slotLost hit).length) with
    slotFlaws := c.slotFlaws.filter fun e => !hit e.1 || (c.slotLost hit).contains e }

/-- CORE_ECC.UE is raised (R79). -/
def Core.ueRaised (c : Core) : Core := { c with regs := sf c.regs .CORE_ECC 0 16 1 1 }

/-- What the flaw of one word read does to the core, and whether it is uncorrectable (R79). -/
def Core.eccWord (c : Core) (word : Nat) : Option Flaw → Core × Bool
  | some (.single _) =>
    if c.wb.contains word then (c, false)
    else if c.wb.any (fun w => bankOf w == bankOf word) then (c.count .CORE_ECC 0 16 1, false)
    else ({ c.count .CORE_ECC 0 16 1 with wb := c.wb ++ [word] }, false)
  | some (.double _) => (c.ueRaised, true)
  | none => (c, false)

theorem Core.eccRead_eq (c : Core) (fl : Flaws) (a n : Nat) : c.eccRead fl a n =
    if n = 0 then (c, false)
    else (fl.filter fun e => decide (a / 8 ≤ e.1) && decide (e.1 ≤ (a + n - 1) / 8)).foldl
      (fun (st : Core × Bool) e => ((st.1.eccWord e.1 e.2).1, st.2 || (st.1.eccWord e.1 e.2).2)) (c, false) := by
  unfold Core.eccRead
  split
  · rfl
  · refine List.foldl_ext _ _ _ fun st e _ => ?_
    obtain ⟨word, flaw⟩ := e
    match flaw with
    | none => simp [Core.eccWord]
    | some (.double _) => simp [Core.eccWord, Core.ueRaised]
    | some (.single _) =>
      simp only [Core.eccWord, Core.count]
      split
      · simp
      · split <;> simp_all

theorem CX.slotRead_eq (x : CX) (slot lo hi : Nat) (scale : Option Nat) : x.slotRead slot lo hi scale =
    if (x.c.slotBad (slotHit slot lo hi scale)).isEmpty then x
    else if (x.c.slotLost (slotHit slot lo hi scale)).isEmpty then { x with c := x.c.slotMended (slotHit slot lo hi scale) }
    else ({ x with c := (x.c.slotMended (slotHit slot lo hi scale)).ueRaised } : CX).halt 3 2 := by
  unfold CX.slotRead
  extract_lets hit bad two c d
  rfl

/-- A line of a row is in the row's buffer already, or is read (R76). -/
def CX.takeLine (old : List (Nat × Nat × List Byte)) (row : Nat) (x : CX) (l : Nat) : CX :=
  match old.find? fun e => e.2.1 == l with
  | some e => { x with lines := x.lines ++ [e] }
  | none => { (x.readLocal (32 * l) 32).1 with lines := (x.readLocal (32 * l) 32).1.lines ++ [(row, l, (x.readLocal (32 * l) 32).2)] }

/-- The context once the lines of a row's operand are in its buffer (R76). -/
def CX.takeLines (x : CX) (row lo hi : Nat) (held : Bool) : CX :=
  ((List.range (hi / 32 - lo / 32 + 1)).map (lo / 32 + ·)).foldl (CX.takeLine (if held then x.lines.filter fun e => e.1 == row else []) row)
    { x with lines := x.lines.filter fun e => e.1 != row }

theorem CX.readRow_eq (x : CX) (row lo hi : Nat) (held : Bool) : x.readRow row lo hi held =
    (x.takeLines row lo hi held,
      leNat (((x.takeLines row lo hi held).lines.filter fun e => e.1 == row).map fun e => e.2.2).flatten / 2 ^ (8 * (lo % 32))) := rfl

/-- The block scale of a broadcast, where the pass has one (R76). -/
def CX.readBlockScale (x : CX) (p : PassGeo) (b : Nat) : CX × Option Nat :=
  if p.mmx then ((x.readScale b).1, some (x.readScale b).2) else (x, none)

/-- The 16 lanes of one broadcast over the operand `mv` with block scale `sc`, each with its flags (R63). -/
def CX.fpLanes (x : CX) (r : Run) (p : PassGeo) (g mv : Nat) (sc : Option Nat) : List (Nat × Flags) :=
  let b := g % p.per
  let k0 := p.d * (b / p.nrow)
  let n := min p.d (p.k - k0)
  let w := fmtBits p.mfmt
  let sw := fmtBits p.sfmt
  let mov := (List.range n).map fun i => rowElem p.mfmt (bits mv (k0 * w % 8 + w * i) w) sc
  let a := dAbase r.desc + b % p.nrow + (if dAdbl r.desc && g / p.per % 2 == 1 then p.nrow else 0)
  let acc := if bit (dClr r.desc) a && b < p.nrow then 0 else x.c.forwarded a
  let f := if p.cls = .fp64 then fp64 else fp32
  (List.range 16).map fun i =>
    let st := x.c.lane p.slot i
    let ss := if p.smx then some (bits (x.c.laneScale p.slot i) (8 * (k0 / 32)) 8) else none
    rowAcc (p.cls == .fp32 || p.cls == .fp64) f (bits acc (64 * i) f.width)
      ((List.range n).map fun e => (mov.getD e (.nan false), rowElem p.sfmt (bits st (sw * (k0 + e)) sw) ss))

/-- A broadcast's result flies (R63). -/
def CX.fpFire (x : CX) (r : Run) (p : PassGeo) (g mv : Nat) (sc : Option Nat) : CX :=
  let rs := x.fpLanes r p g mv sc
  let a := dAbase r.desc + g % p.per % p.nrow + (if dAdbl r.desc && g / p.per % 2 == 1 then p.nrow else 0)
  { x with c := (x.c.flag ((rs.map (·.2)).foldl (· ||| ·) 0)).fly (32 + a) (g * p.ival + p.lat) (packElems 64 (rs.map (·.1))) (some p.cls) }

theorem CX.bcastFp_eq (x : CX) (r : Run) (p : PassGeo) (g : Nat) : x.bcastFp r p g =
    let b := g % p.per
    let k0 := p.d * (b / p.nrow)
    let sw := fmtBits p.sfmt
    let by_ := passBytes r p g
    let rd := (x.landAll (g * p.ival)).readRow (b % p.nrow) by_.1.toNat by_.2.1.toNat (decide (p.nrow ≤ b))
    let rs := (rd.1.scaleDelay (g * p.ival)).readBlockScale p by_.2.2.toNat
    (rs.1.slotRead p.slot (k0 * sw / 64) (((k0 + min p.d (p.k - k0)) * sw - 1) / 64)
      (if p.smx then some (32 + k0 / 32 / 8) else none)).fpFire r p g rd.2 rs.2 := by
  unfold CX.bcastFp CX.readBlockScale
  by_cases h : p.mmx <;> simp only [h] <;> rfl

/-- The six class sums of one LIMB pair over the 16 lanes, each with whether it saturated (R72). -/
def CX.limbCells (x : CX) (r : Run) (p : PassGeo) (g mv : Nat) : List (List (Int × Bool)) :=
  let b := g % p.per
  let k0 := 2 * b
  let accs := (List.range 6).map fun s => if bit (dClr r.desc) s && b = 0 then 0 else x.c.forwarded s
  let lim : Int := 2 ^ 63
  (List.range 6).map fun s => (List.range 16).map fun i =>
    let st := x.c.lane p.slot i
    let add := (List.range (min 2 (p.k - k0))).foldl (fun (a : Int) e =>
      a + (limbClasses (signed 48 (bits mv (48 * e) 48)) (signed 48 (bits st (48 * (k0 + e)) 48))).getD s 0) 0
    let v := signed 64 (bits (accs.getD s 0) (64 * i) 64) + add
    if lim ≤ v then (lim - 1, true) else if v < -lim then (-lim, true) else (v, false)

/-- The six class sums fly, and saturation is raised (R72). -/
def Core.limbFired (c : Core) (due : Nat) (cells : List (List (Int × Bool))) : Core :=
  let c := c.saturated (cells.any fun l => l.any (·.2))
  (List.range 6).foldl (fun c s => c.fly (32 + s) due (packElems 64 ((cells.getD s []).map fun v => unsigned 64 v.1)) (some .limb)) c

theorem CX.bcastLimb_eq (x : CX) (r : Run) (p : PassGeo) (g : Nat) : x.bcastLimb r p g =
    let b := g % p.per
    let k0 := 2 * b
    let by_ := passBytes r p g
    let rd := (x.landAll (g * p.ival)).readRow (b % p.nrow) by_.1.toNat by_.2.1.toNat (decide (p.nrow ≤ b))
    let y := rd.1.slotRead p.slot (k0 * 48 / 64) (((k0 + min 2 (p.k - k0)) * 48 - 1) / 64) none
    { y with c := y.c.limbFired (g * p.ival + 20 + p.lat) (y.limbCells r p g rd.2) } := rfl

end Sys2Proof.Machine
end

section
/-! One vector word that may issue: what it puts in flight (O6). -/

namespace Sys2Proof.Machine

/-! ### The context of a word (R90, R91) -/

/-- The context in which a word issues: its wait counted, and everything due by then landed. -/
def CX.atWord (x : CX) (w : Nat) : CX :=
  { x with c := (x.c.count .CORE_VSTAT 0 16 (x.issueAt w - x.slotOf w)).land x.idx (x.issueAt w) }

/-- The context with another clock. -/
def CX.clocked (x : CX) (k : VClock) : CX := { x with last := k.last, valu := k.valu, vtu := k.vtu, vls := k.vls, vrd := k.vrd }

theorem CX.piped_clocked (x : CX) (w t n : Nat) : ∃ k, x.piped w t n = x.clocked k := by
  unfold CX.piped CX.pipeBusy
  split
  · exact ⟨⟨_, x.valu, x.vtu, x.vls, x.vrd⟩, rfl⟩
  · exact ⟨⟨_, _, x.vtu, x.vls, x.vrd⟩, rfl⟩
  · exact ⟨⟨_, x.valu, _, x.vls, x.vrd⟩, rfl⟩
  · exact ⟨⟨_, x.valu, x.vtu, _, x.vrd⟩, rfl⟩
  · exact ⟨⟨_, x.valu, x.vtu, x.vls, _⟩, rfl⟩
  · exact ⟨⟨_, _, _, x.vls, x.vrd⟩, rfl⟩

/-- With no store delayed, none lands. -/
theorem CX.landStores_none {x : CX} (h : x.stores = []) (t : Nat) : x.landStores t = x := by
  rw [CX.landStores, h]
  cases x
  cases h
  rfl

/-- A word that runs on a running core, with no store delayed and no source pending, issues. -/
theorem CX.vIssue_ready {x : CX} {w : Nat} (hstores : x.stores = []) (hrun : x.halted = false) (hlegal : x.vRuns w = true)
    (hsources : ∀ r ∈ (x.atWord w).vSources w, (x.atWord w).c.pending r = false) :
    x.vIssue w = (x.atWord w).vGo w (x.issueAt w) (x.leafN w) := by
  have harrived : x.arrived w = x.atWord w := CX.landStores_none (x := x.atWord w) hstores _
  have hrunning : (x.atWord w).halted = false := hrun
  rw [CX.vIssue_eq, if_neg (by simp [hrun]), if_neg (by simp [hlegal]), harrived, CX.sentinel_quiet hsources]
  exact if_neg (by simp [hrunning])

/-! ### What a computing word puts in flight (R67, R82) -/

/-- Results put in flight one after another. -/
theorem Core.foldl_fly (c : Core) (due : Nat) (rs : List (Nat × Nat)) :
    rs.foldl (fun c d => c.fly d.1 due d.2 none) c = { c with flights := c.flights ++ Claims.inFlight c due rs, seq := c.seq + rs.length } := by
  induction rs generalizing c with
  | nil => simp [Claims.inFlight]
  | cons d rs ih =>
    rw [List.foldl_cons, ih]
    simp [Core.fly, Claims.inFlight, List.mapIdx_cons, Nat.add_comm, Nat.add_left_comm]

theorem Core.rg_flag_same (c : Core) (f : Flags) : rg (c.flag f).regs .CORE_FPFLAGS = rg c.regs .CORE_FPFLAGS ||| f.toNat :=
  (rg_sg_same _ _ _ _).trans (Nat.mod_eq_of_lt (Nat.or_lt_two_pow (rg_lt _ _ _) (lt_of_lt_of_le f.isLt (by norm_num))))

/-- Clearing an accumulator writes no flight, no vector register and no flag. -/
theorem Core.clearAcc_keeps (c : Core) (j : Nat) : (c.clearAcc j).flights = c.flights ∧ (c.clearAcc j).v = c.v ∧ (c.clearAcc j).regs = c.regs := by
  rw [Core.clearAcc, Core.setR_acc]
  exact ⟨rfl, rfl, rfl⟩

/-- What the results of a computing word depend on is no clock. -/
theorem CX.vCompute_clocked (x : CX) {w : Nat} (hop : vOp w ≠ 0x70) (k : VClock) : (x.clocked k).vCompute w = x.vCompute w := by
  simp only [CX.vCompute, if_neg hop]
  rfl

/-- A computing word raises its flags, puts its results in flight and leaves the vector registers. -/
theorem Core.finished_results (c : Core) (w due acc : Nat) (r : List (Nat × Nat) × Flags × Bool) :
    (c.finished w due acc r).flights = c.flights ++ Claims.inFlight c due r.1 ∧ (c.finished w due acc r).v = c.v ∧
      rg (c.finished w due acc r).regs .CORE_FPFLAGS = rg c.regs .CORE_FPFLAGS ||| r.2.1.toNat := by
  unfold Core.finished
  extract_lets flagged sat flown
  obtain ⟨hregs, hflags⟩ : sat = { flagged with regs := sat.regs } ∧ rg sat.regs .CORE_FPFLAGS = rg flagged.regs .CORE_FPFLAGS := by
    simp only [sat, Core.saturated]
    split
    · exact ⟨rfl, rg_sf_other _ _ _ _ _ _ _ _ (by decide)⟩
    · exact ⟨rfl, rfl⟩
  have hflown : flown = { sat with flights := sat.flights ++ Claims.inFlight sat due r.1, seq := sat.seq + r.1.length } := sat.foldl_fly _ _
  have hresults : flown.flights = c.flights ++ Claims.inFlight c due r.1 ∧ flown.v = c.v ∧
      rg flown.regs .CORE_FPFLAGS = rg c.regs .CORE_FPFLAGS ||| r.2.1.toNat := by
    rw [hflown]
    refine ⟨?_, ?_, hflags.trans (c.rg_flag_same r.2.1)⟩
    · rw [hregs]
      rfl
    · rw [hregs]
      rfl
  split
  · obtain ⟨hflights, hv, hregs⟩ := flown.clearAcc_keeps acc
    rwa [hflights, hv, hregs]
  · exact hresults

end Sys2Proof.Machine
end

section
/-! ### Back into the state -/

namespace Sys2Proof.Machine

/-- A computing word that is no VLEAF writes no part of its context but the core. -/
theorem CX.vFinish_computes (x : CX) {w : Nat} (hop : vOp w ≠ 0x70) (t lat : Nat) :
    x.vFinish w t lat = { x with c := x.c.finished w (t + lat) (x.accIdx w) (x.vCompute w) } := by
  rw [CX.vFinish_parts, if_neg hop]

theorem CX.leafN_computes (x : CX) {w : Nat} (hop : vOp w ≠ 0x70) : x.leafN w = 0 := by
  rw [CX.leafN, if_neg hop]

/-- No wait and no landing touches the floating-point flags. -/
theorem CX.fpflags_atWord (x : CX) (w : Nat) : rg (x.atWord w).c.regs .CORE_FPFLAGS = rg x.c.regs .CORE_FPFLAGS := by
  show rg ((x.c.count .CORE_VSTAT 0 16 _).land x.idx _).regs .CORE_FPFLAGS = _
  rw [Core.rg_land _ _ _ (by decide) (by decide) (by decide)]
  exact rg_satField_other _ _ _ _ _ _ _ _ (by decide)

section
variable {s : State} {x : CX} {gi : Nat} (hfaults : x.faults = [])
include hfaults

/-- A word's context put back changes its core alone, where memory is as it was. -/
theorem State.unvctx_onlyIn_cores (hmem : x.mem = s.mem) (hflaws : x.flaws = s.flaws) : OnlyIn [.cores] s (s.unvctx x) :=
  State.uncx_onlyIn_cores (x := { x with c := _ }) hfaults hmem hflaws

theorem State.unvctx_onlyIn : OnlyIn [.mem, .flaws, .cores] s (s.unvctx x) :=
  State.uncx_onlyIn (x := { x with c := _ }) hfaults

variable (hgi : x.gi = gi)
include hgi

theorem State.core_unvctx : (s.unvctx x).core gi = { x.c with clock := ⟨x.last, x.valu, x.vtu, x.vls, x.vrd⟩ } :=
  State.core_uncx (x := { x with c := _ }) hfaults hgi

theorem State.unvctx_otherCores : Claims.otherCores gi s (s.unvctx x) :=
  State.uncx_otherCores (x := { x with c := _ }) hfaults hgi
end

/-- What a word that moves no memory leaves in its context when it issues. -/
theorem CX.vIssue_computes {x : CX} {w : Nat} (hstores : x.stores = []) (hrun : x.halted = false) (hlegal : x.vRuns w = true)
    (hsources : ∀ r ∈ (x.atWord w).vSources w, (x.atWord w).c.pending r = false) (hop : vOp w ≠ 0x70) (hmem : vMem (vOp w) = false) :
    let y := x.atWord w
    let r := y.vCompute w
    let z := x.vIssue w
    z.c.flights = y.c.flights ++ (if vOp w = 0 then [] else Claims.inFlight y.c (x.issueAt w + (vTiming w 0).2.2) r.1) ∧ z.c.v = y.c.v ∧
      rg z.c.regs .CORE_FPFLAGS = rg y.c.regs .CORE_FPFLAGS ||| (if vOp w = 0 then 0 else r.2.1.toNat) ∧
      z.mem = x.mem ∧ z.flaws = x.flaws ∧ z.gi = x.gi ∧ z.faults = x.faults := by
  intro y r z
  obtain ⟨k, hk⟩ := y.piped_clocked w (x.issueAt w) 0
  have hz : z = if vOp w = 0 then y.clocked k else (y.clocked k).vFinish w (x.issueAt w) (vTiming w 0).2.2 := by
    show x.vIssue w = _
    rw [CX.vIssue_ready hstores hrun hlegal hsources, x.leafN_computes hop, CX.vGo, hk, hmem]
    rfl
  rw [hz]
  by_cases h0 : vOp w = 0
  · simp only [if_pos h0]
    exact ⟨(List.append_nil _).symm, rfl, (Nat.or_zero _).symm, rfl, rfl, rfl, rfl⟩
  · simp only [if_neg h0]
    rw [(y.clocked k).vFinish_computes hop, y.vCompute_clocked hop]
    obtain ⟨hflights, hv, hflags⟩ := y.c.finished_results w (x.issueAt w + (vTiming w 0).2.2) (y.accIdx w) (y.vCompute w)
    exact ⟨hflights, hv, hflags, rfl, rfl, rfl, rfl⟩

end Sys2Proof.Machine

namespace Sys2Proof.Claims
open Sys2Proof.Machine

/-- Settles O6: with no source pending `vIssue` reaches the word's row (`vIssue_computes`), whose results depend on no pipe's clock. -/
theorem vectorWordsPutResultsInFlight : Obligations.VectorWordsPutResultsInFlight := by
  unfold Obligations.VectorWordsPutResultsInFlight
  intro i gi op w s hi hop ⟨hrun, hlegal, hsources⟩
  obtain ⟨-, hleaf, hmem⟩ := vectorRow_op hi
  have hword : vOp (vword op w) = op := vOp_putBits w hop
  obtain ⟨hflights, hv, hflags, hm, hf, hgi, hfaults⟩ := CX.vIssue_computes (x := s.vctx gi) (s.vctx_stores gi) hrun hlegal hsources
    (by rwa [hword]) (by rwa [hword])
  refine ⟨_, exec_vectorRow hi, ?_⟩
  have hcore := State.core_unvctx (s := s) hfaults hgi
  rw [hword] at hflights hflags
  rw [CX.fpflags_atWord] at hflags
  beta_reduce
  intro y r
  rw [State.vword, show (s.unvctx ((s.vctx gi).vIssue (vword op w))).core gi = _ from hcore]
  exact ⟨hflights, hflags, fun j => congrArg (fun v => Sparse.get (fun _ => 0) v j) hv, State.unvctx_onlyIn_cores hfaults hm hf,
    State.unvctx_otherCores hfaults hgi⟩

end Sys2Proof.Claims
end

section
/-! A load and a store that issue (O8). -/

namespace Sys2Proof.Machine

/-- With no store delayed, none is left to make. -/
theorem CX.storesDone_none {x : CX} (h : x.stores = []) : x.storesDone = x := by
  rw [CX.storesDone, h]
  cases x
  cases h
  rfl

/-- The 64 bytes a load takes, VLD with its inactive elements zero (R98, R99). -/
def CX.loadValue (x : CX) (op w : Nat) : Nat :=
  let v := leNat (mgets x.mem (localBase x.gi + (x.vAddr w).toNat) 64)
  if op = 0x30 then x.maskedBytes w x.mask 64 0 v else v

/-- The context once a load's bytes are in flight, to land 3 cycles after cycle `t` (R98). -/
def CX.loading (x : CX) (w t : Nat) : CX := { x with c := x.c.fly (vVd w) (t + 3) (x.loadValue (vOp w) w) none }

/-- The bytes a store writes, VST keeping what stood at its inactive elements (R98, R99). -/
def CX.storeValue (x : CX) (op w : Nat) : Nat :=
  let n := vLen op (vPart w)
  let src := x.c.getV (vVa w) % 2 ^ (8 * n)
  if op = 0x31 then x.maskedBytes w x.mask n (leNat (mgets x.mem (localBase x.gi + (x.vAddr w).toNat) n)) src else src

/-- Nothing delays a load or store: no store waits, no access lost a cycle, and no operand fetch runs. -/
structure CX.Undelayed (x : CX) : Prop where
  stores : x.stores = []
  vlsOff : x.vlsOff = 0
  fetchTo : x.fetchTo = 0

/-- No cycle lost to a bank conflict is counted. -/
def CX.unstalled (x : CX) : CX := { x with c := x.c.count .CORE_BKCNT 0 16 0, vlsOff := 0 }

section
variable {x : CX} {w : Nat} (h : x.Undelayed) (t : Nat)
include h

theorem CX.servedAt_undelayed (w : Nat) : x.servedAt w t = t := by
  simp [CX.servedAt, h.vlsOff, h.fetchTo, vlsServe]

theorem CX.stalled_undelayed (w : Nat) : x.stalled w t = x.unstalled := by
  simp only [CX.stalled, CX.unstalled, CX.servedAt_undelayed h, h.vlsOff, Nat.add_zero, Nat.sub_self]

theorem CX.vMemRun_load (hflaws : x.flaws = []) (hop : vOp w = 0x30 ∨ vOp w = 0x32) : x.vMemRun w t = x.unstalled.loading w t := by
  rw [CX.vMemRun_eq, if_pos hop, CX.stalled_undelayed h, CX.servedAt_undelayed h, CX.loadAt,
    CX.storesDone_none (x := x.unstalled) h.stores, CX.readLocal_clean (x := x.unstalled) hflaws]
  rfl

theorem CX.vMemRun_store (hop : ¬ (vOp w = 0x30 ∨ vOp w = 0x32)) :
    x.vMemRun w t = x.unstalled.writeLocal (x.vAddr w).toNat (toLe (vLen (vOp w) (vPart w)) (x.storeValue (vOp w) w)) := by
  have hstores : x.unstalled.stores = [] := h.stores
  have hqueue : x.unstalled.storeAt w t =
      { x.unstalled with stores := [(t, (x.vAddr w).toNat, toLe (vLen (vOp w) (vPart w)) (x.storeValue (vOp w) w))] } := by
    rw [CX.storeAt, CX.storesDone_none hstores, hstores]
    rfl
  rw [CX.vMemRun_eq, if_neg hop, CX.stalled_undelayed h, CX.servedAt_undelayed h, hqueue, CX.landStores]
  simp only [List.takeWhile_cons, decide_eq_true (Nat.le_refl t), if_true]
  show ({ x.unstalled with stores := [] } : CX).writeLocal _ _ = _
  congr 1
  exact (congrArg (fun q => { x.unstalled with stores := q }) hstores).symm
end

end Sys2Proof.Machine
end

section
namespace Sys2Proof.Machine

/-- A load or store that issues is made at once, where nothing delays it. -/
theorem CX.vIssue_moves {x : CX} {w : Nat} (h : x.Undelayed) (hrun : x.halted = false) (hlegal : x.vRuns w = true)
    (hsources : ∀ r ∈ (x.atWord w).vSources w, (x.atWord w).c.pending r = false) (hop : vOp w ≠ 0) (hmem : vMem (vOp w) = true) :
    ∃ k, x.vIssue w = ((x.atWord w).clocked k).vMemRun w (x.issueAt w) := by
  obtain ⟨k, hk⟩ := (x.atWord w).piped_clocked w (x.issueAt w) (x.leafN w)
  refine ⟨k, ?_⟩
  rw [CX.vIssue_ready h.stores hrun hlegal hsources, CX.vGo, hk]
  exact (if_neg hop).trans (if_pos hmem)

theorem CX.storeValue_lt (x : CX) (op w : Nat) : x.storeValue op w < 256 ^ vLen op (vPart w) := by
  rw [show (256 : Nat) = 2 ^ 8 from rfl, ← pow_mul]
  unfold CX.storeValue
  extract_lets n src
  split
  · exact Nat.mod_lt _ (by positivity)
  · exact Nat.mod_lt _ (by positivity)

end Sys2Proof.Machine

namespace Sys2Proof.Claims
open Sys2Proof.Machine

variable {s : State} {gi op w : Nat}

theorem vctx_undelayed (s : State) (gi : Nat) : (s.vctx gi).Undelayed := ⟨rfl, rfl, rfl⟩

/-- A load that may issue puts its bytes in flight (R98). -/
theorem vword_load (hflaws : s.flaws = []) (hop : op = 0x30 ∨ op = 0x32) (hready : wordReady s gi op w) :
    let y := atIssue s gi op w
    let t := s.vword gi op w
    (t.core gi).flights = y.c.flights ++ [⟨vVd (vword op w), (s.vctx gi).issueAt (vword op w) + 3, y.c.seq, y.loadValue op (vword op w), none⟩] ∧
      (∀ k, (t.core gi).getV k = y.c.getV k) ∧ OnlyIn [.cores] s t ∧ otherCores gi s t := by
  obtain ⟨hrun, hlegal, hsources⟩ := hready
  have hword : vOp (vword op w) = op := vOp_putBits w (by omega)
  obtain ⟨k, hk⟩ := CX.vIssue_moves (vctx_undelayed s gi) hrun hlegal hsources (by omega) (by rw [hword]; rcases hop with rfl | rfl <;> rfl)
  rw [CX.vMemRun_load (x := ((s.vctx gi).atWord (vword op w)).clocked k) ⟨rfl, rfl, rfl⟩ _ hflaws (by rwa [hword]), CX.loading, hword] at hk
  intro y t
  have ht : t = s.unvctx _ := congrArg s.unvctx hk
  rw [ht, show (State.unvctx ..).core gi = _ from State.core_unvctx rfl rfl]
  exact ⟨rfl, fun _ => rfl, State.unvctx_onlyIn_cores rfl rfl rfl, State.unvctx_otherCores rfl rfl⟩

/-- A store that may issue writes its bytes and no other (R98). -/
theorem vword_store (hop : op = 0x31 ∨ op = 0x33) (hready : wordReady s gi op w) :
    let y := atIssue s gi op w
    let a := localBase gi + (y.vAddr (vword op w)).toNat
    let n := vLen op (vPart (vword op w))
    let t := s.vword gi op w
    t.rdN a n = y.storeValue op (vword op w) ∧ (∀ b, (b < a ∨ a + n ≤ b) → mget t.mem b = mget s.mem b) ∧
      (∀ k, (t.core gi).getV k = y.c.getV k) ∧ OnlyIn [.mem, .flaws, .cores] s t ∧ otherCores gi s t := by
  obtain ⟨hrun, hlegal, hsources⟩ := hready
  have hword : vOp (vword op w) = op := vOp_putBits w (by omega)
  obtain ⟨k, hk⟩ := CX.vIssue_moves (vctx_undelayed s gi) hrun hlegal hsources (by omega) (by rw [hword]; rcases hop with rfl | rfl <;> rfl)
  rw [CX.vMemRun_store (x := ((s.vctx gi).atWord (vword op w)).clocked k) ⟨rfl, rfl, rfl⟩ _ (by rw [hword]; omega), hword] at hk
  intro y a n t
  have ht : t = s.unvctx _ := congrArg s.unvctx hk
  have hmem : t.mem = msets s.mem a (toLe n (y.storeValue op (vword op w))) := by
    rw [ht]
    rfl
  refine ⟨?_, fun b hb => ?_, ?_, ?_, ?_⟩
  · rw [State.rdN, State.rd, hmem, leNat_mgets_msets, Nat.mod_eq_of_lt (y.storeValue_lt op _)]
  · rw [hmem, mget_msets_outside _ (by rwa [toLe_length])]
  · rw [ht, show (State.unvctx ..).core gi = _ from State.core_unvctx rfl rfl]
    exact fun _ => rfl
  · exact ht ▸ State.unvctx_onlyIn rfl
  · exact ht ▸ State.unvctx_otherCores rfl rfl

/-- Settles O8: with no flaw and nothing delayed, a word that may issue reads or writes its bytes at once (`vword_load`, `vword_store`). -/
theorem vectorLoadsAndStores : Obligations.VectorLoadsAndStores := by
  unfold Obligations.VectorLoadsAndStores
  intro gi w s hflaws
  refine ⟨?_, ?_⟩
  · rintro op i (⟨rfl, rfl⟩ | ⟨rfl, rfl⟩) hready
    · exact ⟨_, rfl, vword_load hflaws (.inl rfl) hready⟩
    · exact ⟨_, rfl, vword_load hflaws (.inr rfl) hready⟩
  · rintro op i (⟨rfl, rfl⟩ | ⟨rfl, rfl⟩) hready
    · exact ⟨_, rfl, vword_store (.inl rfl) hready⟩
    · exact ⟨_, rfl, vword_store (.inr rfl) hready⟩

end Sys2Proof.Claims
end

section
/-! No part of a run of the compute lane reads or writes the lane's own record. -/

namespace Sys2Proof.Machine

/-- The core with another record in its compute lane. -/
def Core.withComp (c : Core) (q : Option Run) : Core := { c with comp := q }

/-- The context with another record in its core's compute lane. -/
def CX.withComp (x : CX) (q : Option Run) : CX := { x with c := x.c.withComp q }

/-! ### The core -/

section
variable (c : Core) (q : Option Run)

@[simp] theorem Core.withComp_count (r : Reg) (lo w n : Nat) : (c.withComp q).count r lo w n = (c.count r lo w n).withComp q := rfl

@[simp] theorem Core.withComp_flag (f : Flags) : (c.withComp q).flag f = (c.flag f).withComp q := rfl

@[simp] theorem Core.withComp_supersede (reg : Nat) : (c.withComp q).supersede reg = (c.supersede reg).withComp q := rfl

@[simp] theorem Core.withComp_hzlog (reg kind desc cyc : Nat) : (c.withComp q).hzlog reg kind desc cyc = (c.hzlog reg kind desc cyc).withComp q := by
  unfold Core.hzlog Core.withComp
  split <;> rfl

@[simp] theorem Core.withComp_setR (r v : Nat) : (c.withComp q).setR r v = (c.setR r v).withComp q := by
  unfold Core.setR Core.withComp
  split <;> rfl

@[simp] theorem Core.withComp_landOne (desc : Nat) (f : Flight) : (c.withComp q).landOne desc f = (c.landOne desc f).withComp q := by
  by_cases h : c.landedSeq f.reg ≤ f.seq
  · rw [Core.landOne_kept c desc h, Core.landOne_kept (c.withComp q) desc h, Core.withComp_setR]
    rfl
  · rw [Core.landOne_discarded c desc (by omega), Core.landOne_discarded (c.withComp q) desc (lt_of_not_ge h), Core.withComp_count,
      Core.withComp_hzlog]

@[simp] theorem Core.withComp_land (desc t : Nat) : (c.withComp q).land desc t = (c.land desc t).withComp q := by
  unfold Core.land
  exact List.foldl_hom (fun d : Core => d.withComp q) (init := { c with flights := c.flights.filter fun f => !decide (f.due ≤ t) })
    fun d f => d.withComp_landOne q desc f

@[simp] theorem Core.withComp_clearAcc (j : Nat) : (c.withComp q).clearAcc j = (c.clearAcc j).withComp q := by
  unfold Core.clearAcc
  rw [Core.withComp_setR]
  rfl

/-- Results that fly one after another. -/
@[simp] theorem Core.withComp_foldl_fly {α : Type} (l : List α) (reg val : α → Nat) (due : Nat) (cls : Option RowClass) :
    l.foldl (fun c a => c.fly (reg a) due (val a) cls) (c.withComp q) = (l.foldl (fun c a => c.fly (reg a) due (val a) cls) c).withComp q :=
  List.foldl_hom (fun d : Core => d.withComp q) fun _ _ => rfl

@[simp] theorem Core.withComp_saturated (b : Bool) : (c.withComp q).saturated b = (c.saturated b).withComp q := by
  cases b <;> rfl

@[simp] theorem Core.withComp_finished (w due acc : Nat) (r : List (Nat × Nat) × Flags × Bool) :
    (c.withComp q).finished w due acc r = (c.finished w due acc r).withComp q := by
  unfold Core.finished
  simp only [Core.withComp_flag, Core.withComp_saturated, Core.withComp_foldl_fly, Core.withComp_clearAcc]
  split <;> rfl

@[simp] theorem Core.withComp_limbFired (due : Nat) (cells : List (List (Int × Bool))) :
    (c.withComp q).limbFired due cells = (c.limbFired due cells).withComp q := by
  unfold Core.limbFired
  simp only [Core.withComp_saturated, Core.withComp_foldl_fly]

@[simp] theorem Core.withComp_ueRaised : (c.withComp q).ueRaised = c.ueRaised.withComp q := by
  simp only [Core.ueRaised, Core.withComp]

theorem Core.withComp_eccWord (word : Nat) (f : Option Flaw) :
    (c.withComp q).eccWord word f = ((c.eccWord word f).1.withComp q, (c.eccWord word f).2) := by
  match f with
  | none => rfl
  | some (.double _) => rw [Core.eccWord, Core.eccWord, Core.withComp_ueRaised]
  | some (.single _) =>
    unfold Core.eccWord Core.withComp
    dsimp only
    split
    · rfl
    · split
      · rfl
      · rfl

/-- A word's flaws are counted and its write-back queued whatever the compute lane holds (R79). -/
theorem Core.withComp_eccRead (fl : Flaws) (a n : Nat) : (c.withComp q).eccRead fl a n = ((c.eccRead fl a n).1.withComp q, (c.eccRead fl a n).2) := by
  rw [Core.eccRead_eq, Core.eccRead_eq]
  split
  · rfl
  · exact List.foldl_hom (fun st : Core × Bool => (st.1.withComp q, st.2)) (init := (c, false)) fun st e => by rw [Core.withComp_eccWord]

end
end Sys2Proof.Machine
end

section
namespace Sys2Proof.Machine

variable (x : CX) (q : Option Run)

@[simp] theorem CX.withComp_c : (x.withComp q).c = x.c.withComp q := rfl

/-! ### Local memory and the slots -/

@[simp] theorem CX.withComp_halt (cause kind : Nat) : (x.withComp q).halt cause kind = (x.halt cause kind).withComp q := by
  simp only [CX.halt, CX.withComp, Core.withComp]

/-- Stores are made one after another. -/
theorem CX.withComp_stores (l : List (Nat × Nat × List Byte)) :
    l.foldl (fun (x : CX) e => x.writeLocal e.2.1 e.2.2) (x.withComp q) = (l.foldl (fun (x : CX) e => x.writeLocal e.2.1 e.2.2) x).withComp q :=
  List.foldl_hom (fun y : CX => y.withComp q) fun _ _ => rfl

@[simp] theorem CX.withComp_landStores (t : Nat) : (x.withComp q).landStores t = (x.landStores t).withComp q :=
  CX.withComp_stores { x with stores := x.stores.drop (x.stores.takeWhile fun e => decide (e.1 ≤ t)).length } q _

@[simp] theorem CX.withComp_storesDone : (x.withComp q).storesDone = x.storesDone.withComp q :=
  CX.withComp_stores { x with stores := [] } q x.stores

@[simp] theorem CX.withComp_landAll (t : Nat) : (x.withComp q).landAll t = (x.landAll t).withComp q := by
  unfold CX.landAll
  rw [CX.withComp_c, Core.withComp_land]
  exact CX.withComp_landStores { x with c := x.c.land x.idx t } q t

theorem CX.withComp_readLocal (a n : Nat) : (x.withComp q).readLocal a n = ((x.readLocal a n).1.withComp q, (x.readLocal a n).2) := by
  match h : x.c.eccRead x.flaws (localBase x.gi + a) n with
  | (d, ue) =>
    have hq : (x.withComp q).c.eccRead (x.withComp q).flaws (localBase (x.withComp q).gi + a) n = (d.withComp q, ue) := by
      rw [CX.withComp_c, Core.withComp_eccRead, show x.c.eccRead (x.withComp q).flaws (localBase (x.withComp q).gi + a) n = _ from h]
    rw [CX.readLocal_of_ecc h, CX.readLocal_of_ecc hq]
    cases ue
    · rfl
    · exact congrArg (·, mgets x.mem (localBase x.gi + a) n) (CX.withComp_halt { x with c := d } q 3 2)

theorem Core.withComp_slotBad (c : Core) (hit : Nat → Bool) : (c.withComp q).slotBad hit = c.slotBad hit := rfl

theorem Core.withComp_slotLost (c : Core) (hit : Nat → Bool) : (c.withComp q).slotLost hit = c.slotLost hit := rfl

theorem Core.withComp_slotMended (c : Core) (hit : Nat → Bool) : (c.withComp q).slotMended hit = (c.slotMended hit).withComp q := rfl

@[simp] theorem CX.withComp_slotRead (slot lo hi : Nat) (scale : Option Nat) :
    (x.withComp q).slotRead slot lo hi scale = (x.slotRead slot lo hi scale).withComp q := by
  rw [CX.slotRead_eq, CX.slotRead_eq, CX.withComp_c, Core.withComp_slotBad, Core.withComp_slotLost, Core.withComp_slotMended, Core.withComp_ueRaised]
  split
  · rfl
  · split
    · rfl
    · exact CX.withComp_halt { x with c := (x.c.slotMended _).ueRaised } q 3 2

/-! ### The sentinel -/

/-- Pending sources are counted and logged one after another. -/
theorem Core.withComp_hazards (c : Core) (idx t : Nat) (l : List Nat) :
    l.foldl (fun c r => (c.count .CORE_HZCNT 0 16 1).hzlog r 0 idx t) (c.withComp q) =
      (l.foldl (fun c r => (c.count .CORE_HZCNT 0 16 1).hzlog r 0 idx t) c).withComp q :=
  List.foldl_hom (fun d : Core => d.withComp q) fun d r => by rw [Core.withComp_count, Core.withComp_hzlog]

@[simp] theorem CX.withComp_sentinel (t : Nat) (srcs : List Nat) : (x.withComp q).sentinel t srcs = (x.sentinel t srcs).withComp q := by
  match hbad : srcs.filter (x.c.pending ·), htol : x.tol with
  | [], _ =>
    have hquiet : ∀ r ∈ srcs, x.c.pending r = false := by simpa using hbad
    rw [CX.sentinel_quiet hquiet, CX.sentinel_quiet (x := x.withComp q) hquiet]
  | r :: l, true =>
    rw [CX.sentinel_tolerant hbad htol, CX.sentinel_tolerant (x := x.withComp q) hbad htol, CX.withComp_c, Core.withComp_hazards]
    rfl
  | r :: l, false =>
    rw [CX.sentinel_strict hbad htol, CX.sentinel_strict (x := x.withComp q) hbad htol, CX.withComp_c, Core.withComp_hzlog]
    exact CX.withComp_halt { x with c := x.c.hzlog r 0 x.idx t } q 1 0

/-! ### Words -/

@[simp] theorem CX.withComp_pipeBusy (p : Pipe) (t : Nat) : (x.withComp q).pipeBusy p t = (x.pipeBusy p t).withComp q := by
  cases p <;> rfl

@[simp] theorem CX.withComp_leafBytes (w : Nat) : (x.withComp q).leafBytes w = x.leafBytes w := by
  unfold CX.leafBytes
  rw [CX.withComp_storesDone]
  rfl

@[simp] theorem CX.withComp_leafOf (w : Nat) : (x.withComp q).leafOf w = x.leafOf w := by
  unfold CX.leafOf
  rw [CX.withComp_leafBytes]
  rfl

@[simp] theorem CX.withComp_leafRead (w : Nat) : (x.withComp q).leafRead w = (x.leafRead w).withComp q := by
  unfold CX.leafRead
  rw [CX.withComp_leafBytes]
  exact congrArg Prod.fst (x.withComp_readLocal q _ _)

@[simp] theorem CX.withComp_vRuns (w : Nat) : (x.withComp q).vRuns w = x.vRuns w := by
  unfold CX.vRuns
  rw [CX.withComp_leafOf]
  rfl

@[simp] theorem CX.withComp_leafN (w : Nat) : (x.withComp q).leafN w = x.leafN w := by
  unfold CX.leafN
  rw [CX.withComp_leafOf]

@[simp] theorem CX.withComp_issueAt (w : Nat) : (x.withComp q).issueAt w = x.issueAt w := by
  unfold CX.issueAt
  rw [CX.withComp_vRuns, CX.withComp_leafN]
  rfl

@[simp] theorem CX.withComp_vCompute (w : Nat) : (x.withComp q).vCompute w = x.vCompute w := by
  unfold CX.vCompute
  rw [CX.withComp_leafOf]
  rfl

@[simp] theorem CX.withComp_vFinish (w t lat : Nat) : (x.withComp q).vFinish w t lat = (x.vFinish w t lat).withComp q := by
  rw [CX.vFinish_parts, CX.vFinish_parts, CX.withComp_leafRead, ← apply_ite (CX.withComp · q)]
  dsimp only
  rw [CX.withComp_vCompute, CX.withComp_c, Core.withComp_finished]
  rfl

@[simp] theorem CX.withComp_loadAt (w t : Nat) : (x.withComp q).loadAt w t = (x.loadAt w t).withComp q := by
  unfold CX.loadAt
  rw [CX.withComp_storesDone, show (x.withComp q).vAddr w = x.vAddr w from rfl, CX.withComp_readLocal]
  rfl

@[simp] theorem CX.withComp_storeAt (w t : Nat) : (x.withComp q).storeAt w t = (x.storeAt w t).withComp q := by
  unfold CX.storeAt
  rw [CX.withComp_storesDone]
  rfl

@[simp] theorem CX.withComp_vMemRun (w t : Nat) : (x.withComp q).vMemRun w t = (x.vMemRun w t).withComp q := by
  have hstalled : (x.withComp q).stalled w t = (x.stalled w t).withComp q := rfl
  have hserved : (x.withComp q).servedAt w t = x.servedAt w t := rfl
  rw [CX.vMemRun_eq, CX.vMemRun_eq, hstalled, hserved, CX.withComp_loadAt, CX.withComp_storeAt, CX.withComp_landStores, ← apply_ite (CX.withComp · q)]

@[simp] theorem CX.withComp_piped (w t n : Nat) : (x.withComp q).piped w t n = (x.piped w t n).withComp q := by
  unfold CX.piped
  rw [CX.withComp_pipeBusy]
  rfl

@[simp] theorem CX.withComp_vGo (w t n : Nat) : (x.withComp q).vGo w t n = (x.vGo w t n).withComp q := by
  unfold CX.vGo
  rw [CX.withComp_piped]
  dsimp only
  rw [CX.withComp_vMemRun, CX.withComp_vFinish, ← apply_ite (CX.withComp · q), ← apply_ite (CX.withComp · q)]

@[simp] theorem CX.withComp_arrived (w : Nat) : (x.withComp q).arrived w = (x.arrived w).withComp q := by
  unfold CX.arrived
  rw [CX.withComp_issueAt]
  exact CX.withComp_landAll { x with c := x.c.count .CORE_VSTAT 0 16 (x.issueAt w - x.slotOf w) } q (x.issueAt w)

@[simp] theorem CX.withComp_vIssue (w : Nat) : (x.withComp q).vIssue w = (x.vIssue w).withComp q := by
  have hsources : ((x.arrived w).withComp q).vSources w = (x.arrived w).vSources w := rfl
  have hignored : (x.withComp q).vIgnored w = (x.vIgnored w).withComp q := rfl
  rw [CX.vIssue_eq, CX.vIssue_eq, CX.withComp_arrived, CX.withComp_vRuns, CX.withComp_issueAt, CX.withComp_leafN, hsources, hignored, CX.withComp_sentinel]
  dsimp only
  rw [CX.withComp_vGo]
  show (if x.halted then _ else if !x.vRuns w then _ else if (CX.sentinel ..).halted then _ else _) = _
  simp only [← apply_ite (CX.withComp · q)]

end Sys2Proof.Machine
end

section
/-! The lane's own record in passes and chains. -/

namespace Sys2Proof.Machine

variable (x : CX) (q : Option Run)

/-! ### The operand fetch -/

@[simp] theorem CX.withComp_scaleDelay (t : Nat) : (x.withComp q).scaleDelay t = (x.scaleDelay t).withComp q := by
  unfold CX.scaleDelay
  exact (apply_ite (CX.withComp · q) ((x.fetch t).2 = 0) x { x with c := x.c.count .CORE_BKCNT 0 16 (x.fetch t).2 }).symm

theorem CX.withComp_takeLine (old : List (Nat × Nat × List Byte)) (row l : Nat) :
    CX.takeLine old row (x.withComp q) l = (CX.takeLine old row x l).withComp q := by
  unfold CX.takeLine
  split
  · rfl
  · rw [CX.withComp_readLocal]
    rfl

theorem CX.withComp_takeLines (row lo hi : Nat) (held : Bool) : (x.withComp q).takeLines row lo hi held = (x.takeLines row lo hi held).withComp q :=
  List.foldl_hom (fun y : CX => y.withComp q) (init := { x with lines := x.lines.filter fun e => e.1 != row }) fun y l => y.withComp_takeLine q _ row l

theorem CX.withComp_readRow (row lo hi : Nat) (held : Bool) :
    (x.withComp q).readRow row lo hi held = ((x.readRow row lo hi held).1.withComp q, (x.readRow row lo hi held).2) := by
  rw [CX.readRow_eq, CX.readRow_eq, CX.withComp_takeLines]
  rfl

theorem CX.withComp_readScale (b : Nat) : (x.withComp q).readScale b = ((x.readScale b).1.withComp q, (x.readScale b).2) := by
  unfold CX.readScale
  rw [CX.withComp_readLocal]
  dsimp only
  match x.scales with
  | none => rfl
  | some e =>
    dsimp only
    split <;> rfl

theorem CX.withComp_readBlockScale (p : PassGeo) (b : Nat) :
    (x.withComp q).readBlockScale p b = ((x.readBlockScale p b).1.withComp q, (x.readBlockScale p b).2) := by
  unfold CX.readBlockScale
  rw [CX.withComp_readScale]
  split <;> rfl

/-! ### Broadcasts -/

@[simp] theorem CX.withComp_fpFire (r : Run) (p : PassGeo) (g mv : Nat) (sc : Option Nat) :
    (x.withComp q).fpFire r p g mv sc = (x.fpFire r p g mv sc).withComp q := rfl

@[simp] theorem CX.withComp_bcastFp (r : Run) (p : PassGeo) (g : Nat) : (x.withComp q).bcastFp r p g = (x.bcastFp r p g).withComp q := by
  rw [CX.bcastFp_eq, CX.bcastFp_eq]
  simp only [CX.withComp_landAll, CX.withComp_readRow, CX.withComp_scaleDelay, CX.withComp_readBlockScale, CX.withComp_slotRead, CX.withComp_fpFire]

@[simp] theorem CX.withComp_bcastLimb (r : Run) (p : PassGeo) (g : Nat) : (x.withComp q).bcastLimb r p g = (x.bcastLimb r p g).withComp q := by
  have hcells : ∀ (y : CX) mv, (y.withComp q).limbCells r p g mv = y.limbCells r p g mv := fun _ _ => rfl
  rw [CX.bcastLimb_eq, CX.bcastLimb_eq]
  simp only [CX.withComp_landAll, CX.withComp_readRow, CX.withComp_slotRead, hcells, CX.withComp_c, Core.withComp_limbFired]
  rfl

/-! ### Runs -/

@[simp] theorem CX.withComp_atIter (r : Run) (j : Nat) : (x.withComp q).atIter r j = (x.atIter r j).withComp q := rfl

@[simp] theorem CX.withComp_passLoop (r : Run) (p : PassGeo) (words : List Nat) (fuel g j k : Nat) :
    (x.withComp q).passLoop r p words fuel g j k = (x.passLoop r p words fuel g j k).withComp q := by
  induction fuel generalizing x g j k with
  | zero => rfl
  | succ fuel ih =>
    unfold CX.passLoop
    simp only [CX.withComp_atIter, CX.withComp_issueAt, CX.withComp_bcastFp, CX.withComp_bcastLimb, CX.withComp_vIssue, ← apply_ite (CX.withComp · q), ih]
    rfl

@[simp] theorem CX.withComp_drain : (x.withComp q).drain = x.drain.withComp q := by
  unfold CX.drain
  rw [CX.withComp_storesDone]
  dsimp only
  rw [CX.withComp_c, show (x.storesDone.c.withComp q).drainAt 0 = x.storesDone.c.drainAt 0 from rfl, Core.withComp_land]
  rfl

@[simp] theorem CX.withComp_runWords (ws : List Nat) : (x.withComp q).runWords ws = (x.runWords ws).withComp q := by
  induction ws generalizing x with
  | nil => rfl
  | cons w ws ih => rw [CX.runWords, CX.runWords, CX.withComp_vIssue, ih]

@[simp] theorem CX.withComp_chainLoop (r : Run) (words : List Nat) (n j : Nat) :
    (x.withComp q).chainLoop r words n j = (x.chainLoop r words n j).withComp q := by
  induction n generalizing x j with
  | zero => rfl
  | succ n ih =>
    rw [CX.chainLoop, CX.chainLoop, CX.withComp_atIter, CX.withComp_runWords, ih]
    exact (apply_ite (CX.withComp · q) _ _ _).symm

end Sys2Proof.Machine
end

section
/-! A whole pass (R127): its entry, its operand fetch and its late scale reads. -/

namespace Sys2Proof.Machine

/-- The accumulators a pass writes (R63, R72). -/
def passRegs (r : Run) (p : PassGeo) : List Nat :=
  if p.cls = .limb then [32, 33, 34, 35, 36, 37] else (List.range p.nrow).map (32 + dAbase r.desc + ·)

/-- Those with a pending result of another class (R83). -/
def Core.passBad (c : Core) (r : Run) (p : PassGeo) : List Nat :=
  (passRegs r p).filter fun q => c.flights.any fun f => f.reg == q && decide (c.landedSeq q ≤ f.seq) && f.cls != some p.cls

/-- TOLERANT counts and logs each, and its pending results are discarded (R83, R84). -/
def Core.passHazards (c : Core) (idx : Nat) (bad : List Nat) : Core :=
  bad.foldl (fun c q => ((c.count .CORE_HZCNT 0 16 1).hzlog q 0 idx 0).supersede q) c

section
variable {x : CX} {r : Run} {p : PassGeo}

/-- A pass halts at a slot that is fill-pending (R75). -/
theorem CX.passEnter_pending (h : x.c.pendSlot p.slot = true) :
    x.passEnter r p = ({ x with c := x.c.hzlog (40 + p.slot) 2 x.idx 0 } : CX).halt 2 1 := if_pos h

section
variable (h : x.c.pendSlot p.slot = false)
include h

theorem CX.passEnter_quiet (hbad : x.c.passBad r p = []) : x.passEnter r p = x := by
  unfold CX.passEnter
  rw [if_neg (by simp [h])]
  extract_lets regs bad
  rw [show bad = [] from hbad]

variable {q : Nat} {l : List Nat} (hbad : x.c.passBad r p = q :: l)
include hbad

theorem CX.passEnter_tolerant (htol : x.tol = true) : x.passEnter r p = { x with c := x.c.passHazards x.idx (q :: l) } := by
  unfold CX.passEnter
  rw [if_neg (by simp [h])]
  extract_lets regs bad
  rw [show bad = q :: l from hbad]
  exact if_pos htol

theorem CX.passEnter_strict (htol : x.tol = false) : x.passEnter r p = ({ x with c := x.c.hzlog q 0 x.idx 0 } : CX).halt 1 0 := by
  unfold CX.passEnter
  rw [if_neg (by simp [h])]
  extract_lets regs bad
  rw [show bad = q :: l from hbad]
  exact if_neg (by simp [htol])
end
end

/-- The banks the operand fetch of an MX pass uses, cycle by cycle (R77). -/
def mxSched (r : Run) (p : PassGeo) : List (List Nat × Nat) := if p.mmx then passSched r p (2 * p.total + 1) 0 [] else []

/-- The context with its operand fetch under way (R76, R77). -/
def CX.fetching (x : CX) (r : Run) (p : PassGeo) : CX :=
  { x with fetchTo := if p.mmx then (mxSched r p).length else p.total * p.ival
           fetch := fun t => if p.mmx then (mxSched r p).getD t ([], 0) else ((passBanks r p t).1, 0) }

/-- The scale reads that still wait after the last broadcast are counted (R77). -/
def CX.lateScales (x : CX) (p : PassGeo) : CX :=
  (List.range (x.fetchTo - p.total * p.ival)).foldl (fun (x : CX) k => x.scaleDelay (p.total * p.ival + k)) x

theorem CX.runPass_eq (x : CX) (r : Run) : x.runPass r =
    let p := passGeo r x.c
    let y := ((x.fetching r p).passEnter r p).passLoop r p (r.chain.getD []) (p.total + r.total * (r.chain.getD []).length) 0 0 0
    (if y.halted then y else y.lateScales p).drain := rfl

/-! ### The lane's own record -/

section
variable (x : CX) (q : Option Run)

theorem Core.withComp_passHazards (c : Core) (idx : Nat) (bad : List Nat) :
    (c.withComp q).passHazards idx bad = (c.passHazards idx bad).withComp q :=
  List.foldl_hom (fun d : Core => d.withComp q) fun d k => by rw [Core.withComp_count, Core.withComp_hzlog, Core.withComp_supersede]

@[simp] theorem CX.withComp_passEnter (r : Run) (p : PassGeo) : (x.withComp q).passEnter r p = (x.passEnter r p).withComp q := by
  match hpend : x.c.pendSlot p.slot, hbad : x.c.passBad r p, htol : x.tol with
  | true, _, _ =>
    rw [CX.passEnter_pending hpend, CX.passEnter_pending (x := x.withComp q) hpend, CX.withComp_c, Core.withComp_hzlog]
    exact CX.withComp_halt { x with c := x.c.hzlog (40 + p.slot) 2 x.idx 0 } q 2 1
  | false, [], _ => rw [CX.passEnter_quiet hpend hbad, CX.passEnter_quiet (x := x.withComp q) hpend hbad]
  | false, k :: l, true =>
    rw [CX.passEnter_tolerant hpend hbad htol, CX.passEnter_tolerant (x := x.withComp q) hpend hbad htol, CX.withComp_c, Core.withComp_passHazards]
    rfl
  | false, k :: l, false =>
    rw [CX.passEnter_strict hpend hbad htol, CX.passEnter_strict (x := x.withComp q) hpend hbad htol, CX.withComp_c, Core.withComp_hzlog]
    exact CX.withComp_halt { x with c := x.c.hzlog k 0 x.idx 0 } q 1 0

@[simp] theorem CX.withComp_lateScales (p : PassGeo) : (x.withComp q).lateScales p = (x.lateScales p).withComp q :=
  List.foldl_hom (fun y : CX => y.withComp q) fun y _ => y.withComp_scaleDelay q _

/-- A pass neither reads nor writes the lane's own record. -/
theorem CX.withComp_runPass (r : Run) : (x.withComp q).runPass r = (x.runPass r).withComp q := by
  have hgeo : passGeo r (x.c.withComp q) = passGeo r x.c := rfl
  have hfetch : ∀ p, (x.withComp q).fetching r p = (x.fetching r p).withComp q := fun _ => rfl
  rw [CX.runPass_eq, CX.runPass_eq, CX.withComp_c, hgeo]
  dsimp only
  rw [hfetch, CX.withComp_passEnter, CX.withComp_passLoop, CX.withComp_lateScales, ← CX.withComp_drain]
  exact congrArg CX.drain (apply_ite (CX.withComp · q) _ _ _).symm

/-- Nor does a chain. -/
theorem CX.withComp_runChain (r : Run) : (x.withComp q).runChain r = (x.runChain r).withComp q := by
  unfold CX.runChain
  rw [CX.withComp_chainLoop, CX.withComp_drain]

/-- What neither reads nor writes the lane's own record leaves it. -/
theorem CX.comp_of_withComp {f : CX → CX} (h : ∀ (x : CX) q, f (x.withComp q) = (f x).withComp q) : (f x).c.comp = x.c.comp := by
  have hself : f x = (f x).withComp x.c.comp := h x x.c.comp
  rw [hself]
  rfl
end

/-! ### The slot the lane's record holds -/

/-- The record with another slot. -/
def Run.withSlot (r : Run) (n : Nat) : Run := { r with slot := n }

section
variable (r : Run) (n : Nat)

theorem Run.withSlot_passSched (p : PassGeo) (m t : Nat) (w : List Nat) : passSched (r.withSlot n) p m t w = passSched r p m t w := by
  induction m generalizing t w with
  | zero => rfl
  | succ m ih => exact congrArg (_ :: ·) (ih _ _)

theorem Run.withSlot_passLoop (x : CX) (p : PassGeo) (words : List Nat) (fuel g j k : Nat) :
    x.passLoop (r.withSlot n) p words fuel g j k = x.passLoop r p words fuel g j k := by
  induction fuel generalizing x g j k with
  | zero => rfl
  | succ fuel ih =>
    have hfp : x.bcastFp (r.withSlot n) p g = x.bcastFp r p g := rfl
    have hlimb : x.bcastLimb (r.withSlot n) p g = x.bcastLimb r p g := rfl
    unfold CX.passLoop
    simp only [ih, hfp, hlimb]
    rfl

/-- A pass reads its slot from its geometry and not from its record. -/
theorem Run.withSlot_runPass (x : CX) : x.runPass (r.withSlot n) = x.runPass r := by
  have hsched : ∀ p, mxSched (r.withSlot n) p = mxSched r p := fun p => by
    unfold mxSched
    rw [Run.withSlot_passSched]
  have hfetch : ∀ p, x.fetching (r.withSlot n) p = x.fetching r p := fun p => by
    unfold CX.fetching
    rw [hsched]
    rfl
  rw [CX.runPass_eq, CX.runPass_eq, show passGeo (r.withSlot n) x.c = passGeo r x.c from rfl]
  dsimp only
  rw [hfetch, Run.withSlot_passLoop]
  rfl
end

end Sys2Proof.Machine
end

section
/-! What every part of a run keeps: the core it runs on, and, with no hazard and no flaw, that nothing halts it (R83, R86). -/

namespace Sys2Proof.Machine

/-! ### The core's halt bit and slot flaws -/

/-- A core that halts where another does, and whose slots have its flaws. -/
structure Core.Keeps (c d : Core) : Prop where
  halted : d.halted = c.halted
  slotFlaws : d.slotFlaws = c.slotFlaws

theorem Core.Keeps.refl (c : Core) : c.Keeps c := ⟨rfl, rfl⟩

theorem Core.Keeps.trans {c d e : Core} (h : c.Keeps d) (h' : d.Keeps e) : c.Keeps e := ⟨h'.halted.trans h.halted, h'.slotFlaws.trans h.slotFlaws⟩

theorem Core.Keeps.foldl {α : Type} {f : Core → α → Core} (h : ∀ (c : Core) a, c.Keeps (f c a)) (l : List α) (c : Core) : c.Keeps (l.foldl f c) :=
  List.foldlRecOn l f (motive := c.Keeps) (.refl c) fun d hd a _ => hd.trans (h d a)

section
variable (c : Core)

theorem Core.keeps_count {r : Reg} (lo w n : Nat) (h : Reg.offset .CORE_STAT 0 ≠ r.offset 0) : c.Keeps (c.count r lo w n) :=
  ⟨Core.halted_of_regs (rg_satField_other _ _ _ _ _ _ _ _ h), rfl⟩

theorem Core.keeps_flag (f : Flags) : c.Keeps (c.flag f) := ⟨Core.halted_of_regs (c.rg_flag f (by decide)), rfl⟩

theorem Core.keeps_hzlog (reg kind desc cyc : Nat) : c.Keeps (c.hzlog reg kind desc cyc) :=
  ⟨Core.halted_of_regs (c.rg_hzlog _ _ _ _ (by decide) (by decide)), by rw [c.hzlog_eq]⟩

theorem Core.keeps_setR (r v : Nat) : c.Keeps (c.setR r v) := by
  unfold Core.setR
  split <;> exact ⟨rfl, rfl⟩

theorem Core.keeps_landOne (desc : Nat) (f : Flight) : c.Keeps (c.landOne desc f) := by
  by_cases h : c.landedSeq f.reg ≤ f.seq
  · rw [c.landOne_kept desc h]
    exact (c.keeps_setR _ _).trans ⟨rfl, rfl⟩
  · rw [c.landOne_discarded desc (by omega)]
    exact (c.keeps_count _ _ _ (by decide)).trans (Core.keeps_hzlog _ _ _ _ _)

theorem Core.keeps_land (desc t : Nat) : c.Keeps (c.land desc t) :=
  c.land_induct (motive := c.Keeps) desc t ⟨rfl, rfl⟩ fun d f hd => hd.trans (d.keeps_landOne desc f)

theorem Core.keeps_clearAcc (j : Nat) : c.Keeps (c.clearAcc j) := (c.keeps_setR _ _).trans ⟨rfl, rfl⟩

theorem Core.keeps_saturated (b : Bool) : c.Keeps (c.saturated b) := by
  unfold Core.saturated
  split
  · refine ⟨?_, rfl⟩
    rw [Core.halted, Core.halted, rf_sf_field _ _ _ _ _ _ _ _ (by omega) (by omega)]
  · exact .refl c

/-- Results that fly one after another. -/
theorem Core.keeps_foldl_fly {α : Type} (l : List α) (reg val : α → Nat) (due : Nat) (cls : Option RowClass) :
    c.Keeps (l.foldl (fun c a => c.fly (reg a) due (val a) cls) c) :=
  .foldl (f := fun c a => c.fly (reg a) due (val a) cls) (fun _ _ => ⟨rfl, rfl⟩) l c

theorem Core.keeps_finished (w due acc : Nat) (r : List (Nat × Nat) × Flags × Bool) : c.Keeps (c.finished w due acc r) := by
  unfold Core.finished
  extract_lets f s l
  have hl : c.Keeps l := ((c.keeps_flag _).trans (f.keeps_saturated _)).trans (s.keeps_foldl_fly _ _ _ _ _)
  split
  · exact hl.trans (l.keeps_clearAcc acc)
  · exact hl

theorem Core.keeps_limbFired (due : Nat) (cells : List (List (Int × Bool))) : c.Keeps (c.limbFired due cells) :=
  (c.keeps_saturated _).trans (Core.keeps_foldl_fly _ _ _ _ _ _)

theorem Core.keeps_hazard (k idx t : Nat) : c.Keeps ((c.count .CORE_HZCNT 0 16 1).hzlog k 0 idx t) :=
  (c.keeps_count _ _ _ (by decide)).trans (Core.keeps_hzlog _ _ _ _ _)

theorem Core.keeps_passHazards (idx : Nat) (bad : List Nat) : c.Keeps (c.passHazards idx bad) :=
  .foldl (f := fun c q => ((c.count .CORE_HZCNT 0 16 1).hzlog q 0 idx 0).supersede q) (fun d q => (d.keeps_hazard q idx 0).trans ⟨rfl, rfl⟩) bad c

theorem Core.eccWord_slotFlaws (word : Nat) (f : Option Flaw) : (c.eccWord word f).1.slotFlaws = c.slotFlaws := by
  unfold Core.eccWord
  split
  · split
    · rfl
    · split <;> rfl
  · simp only [Core.ueRaised]
  · rfl

theorem Core.eccRead_slotFlaws (fl : Flaws) (a n : Nat) : (c.eccRead fl a n).1.slotFlaws = c.slotFlaws := by
  rw [Core.eccRead_eq]
  split
  · rfl
  · exact List.foldlRecOn _ _ (motive := fun st : Core × Bool => st.1.slotFlaws = c.slotFlaws) rfl
      fun st hst e _ => (st.1.eccWord_slotFlaws e.1 e.2).trans hst
end

/-! ### The context -/

/-- Nothing has halted the core, and no word of its memory is flawed. -/
structure CX.Calm (x : CX) : Prop where
  flaws : x.flaws = []
  halted : x.halted = false
  faults : x.faults = []
  core : x.c.halted = false

/-- A context that follows another: of the same core and mode, without a slot's flaw where there was none, and as calm where it is `safe`. -/
structure CX.Follows (safe : Prop) (x y : CX) : Prop where
  gi : y.gi = x.gi
  tol : y.tol = x.tol
  slotFlaws : x.c.slotFlaws = [] → y.c.slotFlaws = []
  calm : safe → x.Calm → y.Calm

section
variable {safe safe' : Prop} {x y z : CX}

theorem CX.Follows.refl (x : CX) : x.Follows safe x := ⟨rfl, rfl, id, fun _ => id⟩

theorem CX.Follows.trans (h : x.Follows safe y) (h' : y.Follows safe z) : x.Follows safe z :=
  ⟨h'.gi.trans h.gi, h'.tol.trans h.tol, h'.slotFlaws ∘ h.slotFlaws, fun hs => h'.calm hs ∘ h.calm hs⟩

theorem CX.Follows.mono (h : x.Follows safe y) (hs : safe' → safe) : x.Follows safe' y := ⟨h.gi, h.tol, h.slotFlaws, fun hs' => h.calm (hs hs')⟩

theorem CX.Follows.foldl {α : Type} {f : CX → α → CX} (h : ∀ (x : CX) a, x.Follows safe (f x a)) (l : List α) (x : CX) : x.Follows safe (l.foldl f x) :=
  List.foldlRecOn l f (motive := x.Follows safe) (.refl x) fun y hy a _ => hy.trans (h y a)

/-- The parts of a context that only a read, a write or a halt changes. -/
def CX.frame (x : CX) : Flaws × Nat × Bool × Bool × List Nat := (x.flaws, x.gi, x.tol, x.halted, x.faults)

theorem CX.Follows.of_frame (hframe : y.frame = x.frame) (hcore : x.c.Keeps y.c) : x.Follows safe y := by
  simp only [CX.frame, Prod.mk.injEq] at hframe
  obtain ⟨hflaws, hgi, htol, hhalted, hfaults⟩ := hframe
  exact ⟨hgi, htol, hcore.slotFlaws.trans,
    fun _ hx => ⟨hflaws.trans hx.flaws, hhalted.trans hx.halted, hfaults.trans hx.faults, hcore.halted.trans hx.core⟩⟩

/-- A hazard that halts is logged first (R86). -/
theorem CX.follows_hazard (hunsafe : ¬ safe) (x : CX) (reg kind cyc cause fault : Nat) :
    x.Follows safe (({ x with c := x.c.hzlog reg kind x.idx cyc } : CX).halt cause fault) :=
  ⟨rfl, rfl, fun h => (x.c.keeps_hzlog reg kind x.idx cyc).slotFlaws.trans h, fun h => (hunsafe h).elim⟩
end

section
variable {safe : Prop} (x : CX)

/-! ### Local memory and the slots -/

theorem CX.follows_writeLocal (a : Nat) (bs : List Byte) : x.Follows safe (x.writeLocal a bs) :=
  ⟨rfl, rfl, id, fun _ hx => ⟨by rw [CX.writeLocal, hx.flaws]; rfl, hx.halted, hx.faults, hx.core⟩⟩

theorem CX.follows_stores (l : List (Nat × Nat × List Byte)) : x.Follows safe (l.foldl (fun (x : CX) e => x.writeLocal e.2.1 e.2.2) x) :=
  .foldl (fun y e => y.follows_writeLocal e.2.1 e.2.2) l x

theorem CX.follows_landStores (t : Nat) : x.Follows safe (x.landStores t) :=
  .trans (y := { x with stores := x.stores.drop (x.stores.takeWhile fun e => decide (e.1 ≤ t)).length }) (.of_frame rfl (.refl _)) (CX.follows_stores _ _)

theorem CX.follows_storesDone : x.Follows safe x.storesDone :=
  .trans (y := { x with stores := [] }) (.of_frame rfl (.refl _)) (CX.follows_stores _ x.stores)

theorem CX.follows_landAll (t : Nat) : x.Follows safe (x.landAll t) :=
  .trans (y := { x with c := x.c.land x.idx t }) (.of_frame rfl (x.c.keeps_land x.idx t)) (CX.follows_landStores _ t)

theorem CX.follows_readLocal (a n : Nat) : x.Follows safe (x.readLocal a n).1 := by
  have hcalm : x.Calm → (x.readLocal a n).1.Calm := fun hx => by rwa [CX.readLocal_clean hx.flaws]
  have hslots := x.c.eccRead_slotFlaws x.flaws (localBase x.gi + a) n
  match h : x.c.eccRead x.flaws (localBase x.gi + a) n with
  | (d, ue) =>
    rw [h] at hslots
    rw [CX.readLocal_of_ecc h] at hcalm ⊢
    refine ⟨?_, ?_, fun hx => ?_, fun _ => hcalm⟩
    · cases ue <;> rfl
    · cases ue <;> rfl
    · cases ue <;> exact hslots.trans hx

theorem CX.slotRead_clean {x : CX} (h : x.c.slotFlaws = []) (slot lo hi : Nat) (scale : Option Nat) : x.slotRead slot lo hi scale = x := by
  rw [CX.slotRead_eq, Core.slotBad, h]
  rfl

theorem CX.follows_slotRead (slot lo hi : Nat) (scale : Option Nat) : x.Follows (x.c.slotFlaws = []) (x.slotRead slot lo hi scale) where
  gi := by
    rw [CX.slotRead_eq]
    split
    · rfl
    · split <;> rfl
  tol := by
    rw [CX.slotRead_eq]
    split
    · rfl
    · split <;> rfl
  slotFlaws h := by rwa [CX.slotRead_clean h]
  calm h hx := by rwa [CX.slotRead_clean h]
end

end Sys2Proof.Machine
end

section
/-! What words, broadcasts, passes and chains keep. -/

namespace Sys2Proof.Machine

section
variable {safe : Prop} (x : CX)

/-! ### Words -/

theorem CX.follows_sentinel (t : Nat) (srcs : List Nat) : x.Follows (x.tol = true ∨ ∀ r ∈ srcs, x.c.pending r = false) (x.sentinel t srcs) := by
  match hbad : srcs.filter (x.c.pending ·), htol : x.tol with
  | [], _ =>
    rw [CX.sentinel_quiet (by simpa using hbad)]
    exact .refl x
  | r :: l, true =>
    rw [CX.sentinel_tolerant hbad htol]
    exact .of_frame rfl (.foldl (f := fun c r => (c.count .CORE_HZCNT 0 16 1).hzlog r 0 x.idx t) (fun d k => d.keeps_hazard k x.idx t) _ x.c)
  | r :: l, false =>
    obtain ⟨hmem, hpending⟩ := List.mem_filter.1 (hbad ▸ List.mem_cons_self : r ∈ srcs.filter (x.c.pending ·))
    have hquiet : ¬ ∀ r ∈ srcs, x.c.pending r = false := fun h => by simp [h r hmem] at hpending
    rw [CX.sentinel_strict hbad htol]
    exact CX.follows_hazard (by simp [hquiet]) x r 0 t 1 0

theorem CX.follows_pipeBusy (p : Pipe) (t : Nat) : x.Follows safe (x.pipeBusy p t) := by
  cases p <;> exact .of_frame rfl (.refl _)

theorem CX.follows_vFinish (w t lat : Nat) : x.Follows safe (x.vFinish w t lat) := by
  rw [CX.vFinish_parts]
  extract_lets y
  have hy : x.Follows safe y := by
    simp only [y]
    split
    · exact x.follows_readLocal _ _
    · exact .refl x
  exact hy.trans (.of_frame rfl (y.c.keeps_finished _ _ _ _))

theorem CX.follows_stalled (w t : Nat) : x.Follows safe (x.stalled w t) := .of_frame rfl (x.c.keeps_count _ _ _ (by decide))

theorem CX.follows_loadAt (w t : Nat) : x.Follows safe (x.loadAt w t) := by
  have hread : x.Follows safe (x.storesDone.readLocal (x.vAddr w).toNat 64).1 := x.follows_storesDone.trans (x.storesDone.follows_readLocal _ _)
  exact ⟨rfl, rfl, hread.slotFlaws, fun hs hx => let hr := hread.calm hs hx; ⟨hx.flaws, hr.halted, hr.faults, hr.core⟩⟩

theorem CX.follows_storeAt (w t : Nat) : x.Follows safe (x.storeAt w t) := .of_frame rfl (.refl _)

theorem CX.follows_vMemRun (w t : Nat) : x.Follows safe (x.vMemRun w t) := by
  rw [CX.vMemRun_eq]
  split
  · exact (x.follows_stalled w t).trans (CX.follows_loadAt _ _ _)
  · exact ((x.follows_stalled w t).trans (CX.follows_storeAt _ _ _)).trans (CX.follows_landStores _ _)

theorem CX.follows_vGo (w t n : Nat) : x.Follows safe (x.vGo w t n) := by
  unfold CX.vGo
  extract_lets y
  have hy : x.Follows safe y := (x.follows_pipeBusy _ _).trans (.of_frame rfl (.refl _))
  split
  · exact hy
  · split
    · exact hy.trans (y.follows_vMemRun w t)
    · exact hy.trans (y.follows_vFinish w t _)

theorem CX.follows_arrived (w : Nat) : x.Follows safe (x.arrived w) :=
  .trans (y := { x with c := x.c.count .CORE_VSTAT 0 16 (x.issueAt w - x.slotOf w) }) (.of_frame rfl (x.c.keeps_count _ _ _ (by decide)))
    (CX.follows_landAll _ _)

/-- Stores put no result in flight. -/
theorem CX.flights_landStores (t : Nat) : (x.landStores t).c.flights = x.c.flights :=
  List.foldlRecOn _ _ (motive := fun y : CX => y.c.flights = x.c.flights) rfl fun _ hy _ _ => hy

/-- With nothing in flight when a word is due, nothing is when it issues. -/
theorem CX.flights_arrived {x : CX} (h : x.c.flights = []) (w : Nat) : (x.arrived w).c.flights = [] := by
  unfold CX.arrived CX.landAll
  rw [CX.flights_landStores]
  exact (congrArg Core.flights (Core.land_none (c := x.c.count .CORE_VSTAT 0 16 (x.issueAt w - x.slotOf w)) h x.idx _)).trans h

/-- A word halts no calm core in TOLERANT mode, nor where nothing is in flight. -/
theorem CX.follows_vIssue (w : Nat) : x.Follows (x.tol = true ∨ x.c.flights = []) (x.vIssue w) := by
  rw [CX.vIssue_eq]
  split
  · exact .refl x
  · split
    · exact .of_frame rfl (x.c.keeps_count _ _ _ (by decide))
    · extract_lets y
      have hy : x.Follows (x.tol = true ∨ x.c.flights = []) y := by
        refine (x.follows_arrived w).trans ((CX.follows_sentinel _ _ _).mono ?_)
        rintro (htol | hflights)
        · exact .inl ((x.follows_arrived (safe := True) w).tol.trans htol)
        · exact .inr fun r _ => Core.pending_none (CX.flights_arrived hflights w) r
      split
      · exact hy
      · exact hy.trans (y.follows_vGo _ _ _)

/-! ### Broadcasts -/

theorem CX.follows_scaleDelay (t : Nat) : x.Follows safe (x.scaleDelay t) := by
  unfold CX.scaleDelay
  dsimp only
  split
  · exact .refl x
  · exact .of_frame rfl (x.c.keeps_count _ _ _ (by decide))

theorem CX.follows_takeLine (old : List (Nat × Nat × List Byte)) (row l : Nat) : x.Follows safe (CX.takeLine old row x l) := by
  unfold CX.takeLine
  split
  · exact .of_frame rfl (.refl _)
  · exact (x.follows_readLocal (32 * l) 32).trans (.of_frame rfl (.refl _))

theorem CX.follows_readRow (row lo hi : Nat) (held : Bool) : x.Follows safe (x.readRow row lo hi held).1 :=
  .trans (y := { x with lines := x.lines.filter fun e => e.1 != row }) (.of_frame rfl (.refl _))
    (.foldl (fun y l => y.follows_takeLine _ row l) _ _)

theorem CX.follows_readScale (b : Nat) : x.Follows safe (x.readScale b).1 := by
  unfold CX.readScale
  extract_lets r
  have hr : x.Follows safe r.1 := by
    simp only [r]
    split
    · split
      · exact .refl x
      · exact x.follows_readLocal _ _
    · exact x.follows_readLocal _ _
  exact hr.trans (.of_frame rfl (.refl _))

theorem CX.follows_readBlockScale (p : PassGeo) (b : Nat) : x.Follows safe (x.readBlockScale p b).1 := by
  unfold CX.readBlockScale
  split
  · exact x.follows_readScale b
  · exact .refl x

theorem CX.follows_fpFire (r : Run) (p : PassGeo) (g mv : Nat) (sc : Option Nat) : x.Follows safe (x.fpFire r p g mv sc) :=
  .of_frame rfl ((x.c.keeps_flag _).trans ⟨rfl, rfl⟩)

/-- A broadcast halts no calm core whose slots hold no flaw. -/
theorem CX.follows_bcastFp (r : Run) (p : PassGeo) (g : Nat) : x.Follows (x.c.slotFlaws = []) (x.bcastFp r p g) := by
  rw [CX.bcastFp_eq]
  extract_lets b k0 sw by_ rd rs
  have hrs : ∀ safe, x.Follows safe rs.1 := fun _ =>
    (((x.follows_landAll _).trans (CX.follows_readRow _ _ _ _ _)).trans (CX.follows_scaleDelay _ _)).trans (CX.follows_readBlockScale _ _ _)
  exact ((hrs _).trans ((CX.follows_slotRead _ _ _ _ _).mono (hrs True).slotFlaws)).trans (CX.follows_fpFire _ _ _ _ _ _)

theorem CX.follows_bcastLimb (r : Run) (p : PassGeo) (g : Nat) : x.Follows (x.c.slotFlaws = []) (x.bcastLimb r p g) := by
  rw [CX.bcastLimb_eq]
  extract_lets b k0 by_ rd y
  have hrd : ∀ safe, x.Follows safe rd.1 := fun _ => (x.follows_landAll _).trans (CX.follows_readRow _ _ _ _ _)
  exact ((hrd _).trans ((CX.follows_slotRead _ _ _ _ _).mono (hrd True).slotFlaws)).trans (.of_frame rfl (y.c.keeps_limbFired _ _))

theorem CX.follows_bcast (r : Run) (p : PassGeo) (g : Nat) :
    x.Follows (x.c.slotFlaws = []) (if p.cls = .limb then x.bcastLimb r p g else x.bcastFp r p g) := by
  split
  · exact x.follows_bcastLimb r p g
  · exact x.follows_bcastFp r p g

/-! ### Passes -/

theorem CX.follows_passEnter (r : Run) (p : PassGeo) :
    x.Follows (x.c.pendSlot p.slot = false ∧ (x.tol = true ∨ x.c.flights = [])) (x.passEnter r p) := by
  match hpend : x.c.pendSlot p.slot, hbad : x.c.passBad r p, htol : x.tol with
  | true, _, _ =>
    rw [CX.passEnter_pending hpend]
    exact CX.follows_hazard (by simp) x (40 + p.slot) 2 0 2 1
  | false, [], _ =>
    rw [CX.passEnter_quiet hpend hbad]
    exact .refl x
  | false, k :: l, true =>
    rw [CX.passEnter_tolerant hpend hbad htol]
    exact .of_frame rfl (x.c.keeps_passHazards _ _)
  | false, k :: l, false =>
    have hflights : x.c.flights ≠ [] := fun h => by simp [Core.passBad, h] at hbad
    rw [CX.passEnter_strict hpend hbad htol]
    exact CX.follows_hazard (by simp [hflights]) x k 0 0 1 0

theorem CX.follows_atIter (r : Run) (j : Nat) : x.Follows safe (x.atIter r j) := .of_frame rfl (.refl _)

/-- The events of a pass halt no calm core whose slots hold no flaw, in TOLERANT mode or where there is no word. -/
theorem CX.follows_passLoop (r : Run) (p : PassGeo) (words : List Nat) (fuel g j k : Nat) :
    x.Follows (x.c.slotFlaws = [] ∧ (x.tol = true ∨ words = [])) (x.passLoop r p words fuel g j k) := by
  induction fuel generalizing x g j k with
  | zero => exact .refl x
  | succ fuel ih =>
    have hnext : ∀ y g j k, x.Follows (x.c.slotFlaws = [] ∧ (x.tol = true ∨ words = [])) y →
        x.Follows (x.c.slotFlaws = [] ∧ (x.tol = true ∨ words = [])) (y.passLoop r p words fuel g j k) := fun y g j k hy =>
      hy.trans ((ih y g j k).mono fun h => ⟨hy.slotFlaws h.1, h.2.imp_left fun htol => hy.tol.trans htol⟩)
    unfold CX.passLoop
    extract_lets wordLeft y w z z'
    have hy : ∀ safe, x.Follows safe y := fun _ => x.follows_atIter r j
    split
    · exact .refl x
    · split
      · exact hnext _ _ _ _ ((x.follows_bcast r p g).mono And.left)
      · split
        next hword =>
          have hz : x.Follows (x.c.slotFlaws = [] ∧ (x.tol = true ∨ words = [])) z' := by
            refine (hy _).trans ((y.follows_vIssue w).mono fun h => .inl (h.2.resolve_right ?_))
            rintro rfl
            simp [wordLeft] at hword
          split
          · exact hnext _ _ _ _ hz
          · exact hnext _ _ _ _ hz
        next => exact .refl x

theorem CX.follows_lateScales (p : PassGeo) : x.Follows safe (x.lateScales p) := .foldl (fun y _ => y.follows_scaleDelay _) _ _

theorem CX.follows_drain : x.Follows safe x.drain := x.follows_storesDone.trans (.of_frame rfl (Core.keeps_land _ _ _))

end

end Sys2Proof.Machine
end

section
/-! A whole PASS or CHAIN (O12). -/

namespace Sys2Proof.Machine

/-! ### The drain (R81) -/

theorem Core.flights_landOne (c : Core) (desc : Nat) (f : Flight) : (c.landOne desc f).flights = c.flights := by
  by_cases h : c.landedSeq f.reg ≤ f.seq
  · rw [c.landOne_kept desc h]
    unfold Core.setR
    split <;> rfl
  · rw [c.landOne_discarded desc (by omega), Core.hzlog_eq]
    rfl

/-- No due cycle lies beyond the last. -/
theorem due_le_foldl_max {l : List Flight} {f : Flight} (h : f ∈ l) (t : Nat) : f.due ≤ l.foldl (fun a f => max a f.due) t := by
  have hmono : ∀ (l : List Flight) t, t ≤ l.foldl (fun a f => max a f.due) t := fun l t =>
    List.foldlRecOn l _ (motive := (t ≤ ·)) (Nat.le_refl t) fun a ha f _ => le_max_of_le_left ha
  induction l generalizing t with
  | nil => cases h
  | cons g l ih =>
    rw [List.foldl_cons]
    rcases List.mem_cons.1 h with rfl | hl
    · exact (le_max_right t f.due).trans (hmono l _)
    · exact ih hl _

/-- Once a run has drained, no result is in flight. -/
theorem CX.flights_drain (x : CX) : x.drain.c.flights = [] := by
  refine Core.land_induct (motive := fun d => d.flights = []) _ _ _ ?_ fun d f hd => (d.flights_landOne _ f).trans hd
  refine List.filter_eq_nil_iff.2 fun f hf => ?_
  have hdue : f.due ≤ x.storesDone.c.drainAt 0 := due_le_foldl_max hf 0
  simp [hdue]

section
variable (x : CX) (r : Run)

theorem CX.flights_runPass : (x.runPass r).c.flights = [] := CX.flights_drain _

theorem CX.flights_runChain : (x.runChain r).c.flights = [] := CX.flights_drain _

/-! ### What a whole run keeps -/

/-- No hazard can halt a pass: no flaw in its slots, its slot filled, and TOLERANT mode or no chain and nothing in flight (R75, R79, R83). -/
structure CX.PassSafe (x : CX) (r : Run) : Prop where
  slotFlaws : x.c.slotFlaws = []
  filled : x.c.pendSlot (x.c.passSlot r.desc) = false
  hazards : x.tol = true ∨ r.chain.getD [] = [] ∧ x.c.flights = []

theorem CX.follows_runPass : x.Follows (x.PassSafe r) (x.runPass r) := by
  rw [CX.runPass_eq]
  extract_lets p y
  have hfetch : ∀ safe, x.Follows safe (x.fetching r p) := fun _ => .of_frame rfl (.refl _)
  have henter : x.Follows (x.PassSafe r) ((x.fetching r p).passEnter r p) :=
    (hfetch _).trans ((CX.follows_passEnter _ r p).mono fun h => ⟨h.filled, h.hazards.imp_right And.right⟩)
  have hy : x.Follows (x.PassSafe r) y :=
    henter.trans ((CX.follows_passLoop _ r p _ _ 0 0 0).mono fun h => ⟨henter.slotFlaws h.slotFlaws, h.hazards.imp henter.tol.trans And.left⟩)
  split
  · exact hy.trans y.follows_drain
  · exact (hy.trans (y.follows_lateScales p)).trans (CX.follows_drain _)

theorem CX.follows_runWords (ws : List Nat) : x.Follows (x.tol = true) (x.runWords ws) := by
  induction ws generalizing x with
  | nil => exact .refl x
  | cons w ws ih =>
    have hw : x.Follows (x.tol = true) (x.vIssue w) := (x.follows_vIssue w).mono .inl
    exact hw.trans ((ih _).mono hw.tol.trans)

theorem CX.follows_chainLoop (words : List Nat) (n j : Nat) : x.Follows (x.tol = true) (x.chainLoop r words n j) := by
  induction n generalizing x j with
  | zero => exact .refl x
  | succ n ih =>
    have hwords : x.Follows (x.tol = true) ((x.atIter r j).runWords words) := (x.follows_atIter r j).trans ((x.atIter r j).follows_runWords words)
    rw [CX.chainLoop]
    split
    · exact .refl x
    · exact hwords.trans ((ih _ _).mono hwords.tol.trans)

/-- No hazard can halt a chain: TOLERANT mode, or one word in one iteration and nothing in flight (R83). -/
def CX.ChainSafe (x : CX) (r : Run) : Prop := x.tol = true ∨ (∃ w, r.chain = some [w]) ∧ r.total = 1 ∧ x.c.flights = []

theorem CX.follows_runChain : x.Follows (x.ChainSafe r) (x.runChain r) := by
  have hloop := x.follows_chainLoop r (r.chain.getD []) r.total 0
  refine .trans ⟨hloop.gi, hloop.tol, hloop.slotFlaws, ?_⟩ (CX.follows_drain _)
  rintro (htol | ⟨⟨w, hchain⟩, htotal, hflights⟩) hx
  · exact hloop.calm htol hx
  · rw [hchain, htotal, CX.chainLoop, if_neg (by simp [hx.halted])]
    exact ((x.follows_atIter r 0).trans ((CX.follows_vIssue _ w).mono fun _ => .inr hflights)).calm trivial hx

end

end Sys2Proof.Machine

namespace Sys2Proof.Claims
open Sys2Proof.Machine

/-- A context whose descriptor is marked as run. -/
def marked (x : CX) : CX := { x with c := markComp x.c }

/-- A compute descriptor has run: it is ready to complete, the core holds what the run `x` gives, with nothing left in flight, and no other core changed. -/
def Ran (s t : State) (gi : Nat) (r : Run) (x : CX) : Prop :=
  (∃ q, (t.core gi).comp = some q ∧ q.desc = r.desc ∧ q.done = true ∧ q.iter = r.total) ∧ (t.core gi).flights = [] ∧
    (∀ k, (t.core gi).getV k = x.c.getV k) ∧ (∀ k, (t.core gi).getA k = x.c.getA k) ∧ t.mem = x.mem ∧
    OnlyIn [.mem, .flaws, .cores] s t ∧ otherCores gi s t

variable {s u : State} {gi : Nat} {r r' : Run} {x : CX}

/-- The context of a run that nothing halted, put back with its descriptor marked as run. -/
theorem ran_of_uncx (hu : OnlyIn [.cores] s u) (hcores : otherCores gi s u) (hdesc : r'.desc = r.desc) (htotal : r'.total = r.total) (hgi : x.gi = gi)
    (hflights : x.c.flights = []) (hrun : x.c.halted = false) (hfaults : x.faults = []) :
    Ran s (u.uncx (marked (x.withComp (some r')))) gi r x := by
  have hmark : (marked (x.withComp (some r'))).c = x.c.withComp (some { r' with done := true, iter := r'.total }) :=
    if_neg (by rw [show (x.withComp (some r')).c.halted = x.c.halted from rfl, hrun]; simp)
  have hquiet : (marked (x.withComp (some r'))).faults = [] := hfaults
  rw [Ran, State.core_uncx hquiet hgi, hmark]
  refine ⟨⟨_, rfl, hdesc, rfl, htotal⟩, hflights, fun _ => rfl, fun _ => rfl, ?_, (hu.mono (by simp)).trans (State.uncx_onlyIn hquiet),
    fun gj hj => (State.uncx_otherCores hquiet hgi gj hj).trans (hcores gj hj)⟩
  rw [State.uncx_quiet hquiet]
  rfl

/-- A PASS that meets no hazard runs to its end (R127). -/
theorem pass_runs (hready : (s.core gi).compReady opPass = some r) (hx : x = (s.cx gi r).runPass r) (hrun : x.c.halted = false) (hfaults : x.faults = []) :
    Runs (.pass gi []) s fun t => Ran s t gi r x := by
  let r' := r.withSlot ((s.core gi).passSlot r.desc)
  let u := s.modCore gi fun c => { c with comp := some r' }
  have hcx : u.cx gi r' = (s.cx gi r).withComp (some r') := by
    unfold State.cx
    rw [show u.core gi = (s.core gi).withComp (some r') from s.core_modCore_same gi _]
    rfl
  have hrunPass : (u.cx gi r').runPass r' = x.withComp (some r') := by rw [hcx, Run.withSlot_runPass, CX.withComp_runPass, hx]
  have hexec : exec (.pass gi []) s = .next (u.uncx (marked (x.withComp (some r')))) := by
    show execPass gi [] s = _
    unfold execPass
    rw [hready, ← hrunPass]
    rfl
  subst hx
  exact ⟨_, hexec, ran_of_uncx (s.setCore_onlyIn gi _) (s.setCore_otherCores gi _) rfl rfl ((s.cx gi r).follows_runPass r).gi
    (CX.flights_runPass _ r) hrun hfaults⟩

/-- A CHAIN that meets no hazard runs to its end (R128). -/
theorem chain_runs (hready : (s.core gi).compReady opChain = some r) (hx : x = (s.cx gi r).runChain r) (hrun : x.c.halted = false) (hfaults : x.faults = []) :
    Runs (.chain gi []) s fun t => Ran s t gi r x := by
  have hcomp : x.c.comp = some r := by
    rw [hx, CX.comp_of_withComp (s.cx gi r) (f := (·.runChain r)) fun y q => y.withComp_runChain q r]
    exact (Core.compReady_some hready).2
  have hself : x.withComp (some r) = x := by rw [← hcomp]; rfl
  have hexec : exec (.chain gi []) s = .next (s.uncx (marked (x.withComp (some r)))) := by
    show execChain gi [] s = _
    unfold execChain
    rw [hready, hself, hx]
    rfl
  subst hx
  exact ⟨_, hexec, ran_of_uncx (fun p _ => Part.same_refl p s) (fun _ _ => rfl) rfl rfl ((s.cx gi r).follows_runChain r).gi (CX.flights_runChain _ r) hrun hfaults⟩

/-- A core that may run and meets no flaw starts a run calm. -/
theorem calm_cx {op : Nat} (hready : (s.core gi).compReady op = some r) (hflaws : s.flaws = []) : (s.cx gi r).Calm :=
  ⟨hflaws, rfl, rfl, (Core.compReady_some hready).1⟩

/-- Settles O12: a run neither reads nor writes the lane's own record (`withComp_runPass`, `withComp_runChain`), drains at its end, and halts no calm
core where no hazard can (`follows_runPass`, `follows_runChain`). -/
theorem computeLaneRuns : Obligations.ComputeLaneRuns := by
  unfold Obligations.ComputeLaneRuns
  refine ⟨?_, ?_, ?_⟩
  · rintro s gi r i x (⟨rfl, hready, hx⟩ | ⟨rfl, hready, hx⟩) hrun hfaults
    · exact pass_runs hready hx hrun hfaults
    · exact chain_runs hready hx hrun hfaults
  · intro s gi r hready hflaws hslots hpend hsafe
    have hcalm := ((s.cx gi r).follows_runPass r).calm
      ⟨hslots, hpend, hsafe.imp_right fun h => ⟨by rw [h.1]; rfl, h.2⟩⟩ (calm_cx hready hflaws)
    exact pass_runs hready rfl hcalm.core hcalm.faults
  · intro s gi r hready hflaws hsafe
    have hcalm := ((s.cx gi r).follows_runChain r).calm hsafe (calm_cx hready hflaws)
    exact chain_runs hready rfl hcalm.core hcalm.faults

end Sys2Proof.Claims
end

section
/-! The element rows of R93, and VLEAF (O7). -/

namespace Sys2Proof.Machine

/-! ### One element of a row (R88, R93) -/

theorem elem_lt (v w i : Nat) : elem v w i < 2 ^ w := bits_lt v (w * i) w

/-- Element `i` of the collected register is result `i`, whatever the mask (R99). -/
theorem elem_collect (mask w : Nat) {rs : List ER} {i : Nat} (hi : i < rs.length) : elem (collect mask w rs).1 w i = rs[i].1 % 2 ^ w := by
  rw [elem, collect, bits_packElems w _ i (by simpa using hi), List.getElem_map]

/-- The opcodes whose row is a simple operation on its elements: neither arithmetic nor a transcendental. -/
abbrev simpleRow (op : Nat) : Prop := 0x05 < op ∧ op < 0x60 ∧ op ≠ 0x18 ∧ op ≠ 0x19

/-- A simple operation's element is its function of the operands' elements. -/
theorem elem_elementWise {op et i r : Nat} (hop : simpleRow op) (hi : i < 512 / etBits et) (rm : RMode) (mask a b c : Nat)
    (hr : (simpleElem op et (elem a (etBits et) i) (elem b (etBits et) i) (elem c (etBits et) i)).1 = r) (hlt : r < 2 ^ etBits et) :
    elem (elementWise op et rm mask a b c).1 (etBits et) i = r := by
  obtain ⟨hlo, hhi, hdiv, hsqrt⟩ := hop
  have harith : ¬ (op ≤ 0x05 ∨ op = 0x18 ∨ op = 0x19) := by omega
  have htrans : ¬ 0x60 ≤ op := by omega
  unfold elementWise
  extract_lets w n
  rw [elem_collect mask w (by simpa using hi)]
  simp only [List.getElem_map, List.getElem_range, if_neg harith, if_neg htrans]
  rw [hr, Nat.mod_eq_of_lt hlt]

/-- A difference modulo `m` added to what was subtracted. -/
theorem sub_mod_add_mod {x y m : Nat} (hx : x < m) (hy : y < m) : ((x + (m - y % m)) % m + y) % m = x := by
  have hsum : x + (m - y) + y = x + m := by omega
  rw [Nat.mod_eq_of_lt hy, Nat.mod_add_mod, hsum, Nat.add_mod_right, Nat.mod_eq_of_lt hx]

/-! ### VLEAF (R106) -/

/-- A VLEAF of `n` operations takes both pipes for 16n cycles, and its result 4 more (R107). -/
theorem vTiming_leaf {w : Nat} (hop : vOp w = 0x70) (n : Nat) : vTiming w n = (.both, 16 * n, 16 * n + 4) := by
  simp [vTiming, hop]

section
variable {x : CX} {w : Nat}

/-- A legal VLEAF runs where its bytes hold an accepted program (R94, R106). -/
theorem CX.vRuns_leaf (hop : vOp w = 0x70) (hlegal : x.vLegal w = true) : x.vRuns w = (x.leafOf w).isSome := by
  simp [CX.vRuns, hlegal, hop]

theorem CX.leafN_some {p : Leaf} (hop : vOp w = 0x70) (hp : x.leafOf w = some p) : x.leafN w = p.ops.length := by
  rw [CX.leafN, if_pos hop, hp]
  rfl

/-- With no flaw, reading its program changes nothing (R79). -/
theorem CX.leafRead_clean (h : x.flaws = []) (w : Nat) : x.leafRead w = x := by
  rw [CX.leafRead, CX.readLocal_clean h]

/-- With no store delayed, the program is what memory holds. -/
theorem CX.leafBytes_none (h : x.stores = []) (w : Nat) :
    x.leafBytes w = mgets x.mem (localBase x.gi + x.c.prm (vImm w)) (16384 - x.c.prm (vImm w)) := by
  rw [CX.leafBytes, CX.storesDone_none h]

/-- A legal VLEAF whose bytes hold no accepted program is ignored (R94, R106). -/
theorem CX.vIssue_leaf_none (hrun : x.halted = false) (hop : vOp w = 0x70) (hlegal : x.vLegal w = true) (hp : x.leafOf w = none) :
    x.vIssue w = x.vIgnored w := by
  have hruns : x.vRuns w = false := by rw [CX.vRuns_leaf hop hlegal, hp, Option.isSome_none]
  rw [CX.vIssue_eq, if_neg (by simp [hrun]), if_pos (by simp [hruns])]

variable (hstores : x.stores = [])
include hstores

/-- Which program a VLEAF names depends on no clock. -/
theorem CX.leafOf_clocked (k : VClock) (w : Nat) : (x.clocked k).leafOf w = x.leafOf w := by
  rw [CX.leafOf, CX.leafOf, CX.leafBytes_none (x := x.clocked k) hstores, CX.leafBytes_none hstores]
  rfl

/-- What the results of any word depend on is no clock, where no store is delayed. -/
theorem CX.vCompute_clocked_none (k : VClock) (w : Nat) : (x.clocked k).vCompute w = x.vCompute w := by
  simp only [CX.vCompute, CX.leafOf_clocked hstores k w]
  rfl

/-- A legal VLEAF that issues puts its program's result in flight, and writes no part of its context but the core and its clock. -/
theorem CX.vIssue_leaf {p : Leaf} (hflaws : x.flaws = []) (hrun : x.halted = false) (hop : vOp w = 0x70) (hlegal : x.vLegal w = true)
    (hp : x.leafOf w = some p) (hsources : ∀ r ∈ (x.atWord w).vSources w, (x.atWord w).c.pending r = false) :
    let y := x.atWord w
    ∃ k, x.vIssue w =
      ({ y with c := y.c.finished w (x.issueAt w + (16 * p.ops.length + 4)) (y.accIdx w) (y.vCompute w) } : CX).clocked k := by
  intro y
  have hruns : x.vRuns w = true := by rw [CX.vRuns_leaf hop hlegal, hp, Option.isSome_some]
  obtain ⟨k, hk⟩ := y.piped_clocked w (x.issueAt w) p.ops.length
  refine ⟨k, ?_⟩
  have hgo : y.vGo w (x.issueAt w) p.ops.length = (y.clocked k).vFinish w (x.issueAt w) (16 * p.ops.length + 4) := by
    rw [CX.vGo, hk, hop, vTiming_leaf hop]
    rfl
  have hread : (y.clocked k).leafRead w = y.clocked k := CX.leafRead_clean (x := y.clocked k) hflaws w
  rw [CX.vIssue_ready hstores hrun hruns hsources, CX.leafN_some hop hp, hgo, CX.vFinish_parts, if_pos hop, hread]
  dsimp only
  rw [CX.vCompute_clocked_none (x := y) hstores]
  rfl
end

/-- The ignored word counts in CORE_VSTAT.ILLEGAL, which saturates (R108). -/
theorem CX.illegal_vIgnored (x : CX) (w : Nat) :
    rf (x.vIgnored w).c.regs .CORE_VSTAT 0 16 8 = min (rf x.c.regs .CORE_VSTAT 0 16 8 + 1) 255 :=
  rf_satField_same _ _ _ _ _ _ (by omega)

end Sys2Proof.Machine

namespace Sys2Proof.Claims
open Sys2Proof.Machine

/-- Each of the nine simple rows, element by element (R93). -/
theorem simpleRows_elements {et i : Nat} (hi : i < 512 / etBits et) (mask a b c : Nat) (m : RMode) :
    let w := etBits et
    let x := elem a w i
    let y := elem b w i
    let r := fun op => elem (elementWise op et m mask a b c).1 w i
    r 0x0E = (if elem c w i ≠ 0 then x else y) ∧ r 0x0F = x ∧ r 0x10 = x &&& y ∧ r 0x11 = x ||| y ∧ r 0x12 = x ^^^ y ∧
      r 0x13 = x * 2 ^ (y % w) % 2 ^ w ∧ r 0x15 = x / 2 ^ (y % w) ∧ r 0x16 = (x + y) % 2 ^ w ∧ (r 0x17 + y) % 2 ^ w = x := by
  intro w x y r
  have hx : x < 2 ^ w := elem_lt a w i
  have hy : y < 2 ^ w := elem_lt b w i
  have hmod : ∀ n, n % 2 ^ w < 2 ^ w := fun n => Nat.mod_lt n (Nat.two_pow_pos w)
  have hrow : ∀ {op v : Nat}, simpleRow op → (simpleElem op et x y (elem c w i)).1 = v → v < 2 ^ w → r op = v := fun hop hv hlt =>
    elem_elementWise hop hi m mask a b c hv hlt
  have hsub : r 0x17 = (x + (2 ^ w - y % 2 ^ w)) % 2 ^ w := hrow (by decide) rfl (hmod _)
  refine ⟨hrow (by decide) rfl ?_, hrow (by decide) rfl hx, hrow (by decide) rfl (Nat.and_lt_two_pow x hy), hrow (by decide) rfl (Nat.or_lt_two_pow hx hy),
    hrow (by decide) rfl (Nat.xor_lt_two_pow hx hy), hrow (by decide) rfl (hmod _), hrow (by decide) rfl (lt_of_le_of_lt (Nat.div_le_self _ _) hx),
    hrow (by decide) rfl (hmod _), ?_⟩
  · split
    · exact hx
    · exact hy
  · rw [hsub, sub_mod_add_mod hx hy]

section
variable {s : State} {gi w : Nat} (hrun : (s.core gi).halted = false) (hlegal : (s.vctx gi).vLegal (vword 0x70 w) = true)
include hrun hlegal

/-- A VLEAF with an accepted program puts its result in flight (R106, R107). -/
theorem vleaf_flies {p : Leaf} (hflaws : s.flaws = []) (hp : (s.vctx gi).leafOf (vword 0x70 w) = some p)
    (hsources : ∀ r ∈ (atIssue s gi 0x70 w).vSources (vword 0x70 w), (atIssue s gi 0x70 w).c.pending r = false) :
    let y := atIssue s gi 0x70 w
    let t := s.vword gi 0x70 w
    (t.core gi).flights = y.c.flights ++
        inFlight y.c ((s.vctx gi).issueAt (vword 0x70 w) + (16 * p.ops.length + 4)) (y.vCompute (vword 0x70 w)).1 ∧
      OnlyIn [.cores] s t ∧ otherCores gi s t := by
  obtain ⟨k, hk⟩ := CX.vIssue_leaf (s.vctx_stores gi) hflaws hrun (vOp_putBits w (by decide)) hlegal hp hsources
  intro y t
  have ht : t = s.unvctx _ := congrArg s.unvctx hk
  rw [ht, show (State.unvctx ..).core gi = _ from State.core_unvctx rfl rfl]
  exact ⟨(y.c.finished_results _ _ _ _).1, State.unvctx_onlyIn_cores rfl rfl rfl, State.unvctx_otherCores rfl rfl⟩

/-- A VLEAF with none counts as illegal, and nothing flies (R94, R106). -/
theorem vleaf_counts (hp : (s.vctx gi).leafOf (vword 0x70 w) = none) :
    let t := s.vword gi 0x70 w
    (t.core gi).flights = (s.core gi).flights ∧
      rf (t.core gi).regs .CORE_VSTAT 0 16 8 = min (rf (s.core gi).regs .CORE_VSTAT 0 16 8 + 1) 255 ∧ OnlyIn [.cores] s t ∧ otherCores gi s t := by
  have hignored := CX.vIssue_leaf_none (x := s.vctx gi) hrun (vOp_putBits w (by decide)) hlegal hp
  intro t
  have ht : t = s.unvctx _ := congrArg s.unvctx hignored
  rw [ht, show (State.unvctx ..).core gi = _ from State.core_unvctx rfl rfl]
  exact ⟨rfl, (s.vctx gi).illegal_vIgnored (vword 0x70 w), State.unvctx_onlyIn_cores rfl rfl rfl, State.unvctx_otherCores rfl rfl⟩
end

/-- Settles O7: the rows element by element (`simpleRows_elements`), and a VLEAF by whether its bytes hold a program (`vleaf_flies`, `vleaf_counts`). -/
theorem vectorElementsAndVleaf : Obligations.VectorElementsAndVleaf := by
  unfold Obligations.VectorElementsAndVleaf
  refine ⟨fun et mask a b c i m _ hi => simpleRows_elements hi mask a b c m, fun gi w s hflaws hrun hlegal hsources => ⟨s.vword gi 0x70 w, rfl, ?_⟩⟩
  match hp : (s.vctx gi).leafOf (vword 0x70 w) with
  | some p =>
    obtain ⟨hflights, honly, hothers⟩ := vleaf_flies hrun hlegal hflaws hp hsources
    refine ⟨?_, nofun, honly, hothers⟩
    rintro _ ⟨rfl⟩
    exact hflights
  | none =>
    obtain ⟨hflights, hcount, honly, hothers⟩ := vleaf_counts hrun hlegal hp
    exact ⟨nofun, fun _ => ⟨hflights, hcount⟩, honly, hothers⟩

end Sys2Proof.Claims
end

section
/-! DESC_ENGINE_STOP (O11): what a stop of the descriptor engine leaves. -/

namespace Sys2Proof.Machine

section
variable (s : State) (gi : Nat)

theorem Core.state_setState (c : Core) {v : Nat} (h : v < 4) : (c.setState v).state = v :=
  (rf_sf_same c.regs .CORE_DSTAT 0 0 2 v (by omega)).trans (Nat.mod_eq_of_lt h)

@[simp] theorem State.cluster_setCore (c : Core) (ci : Nat) : (s.setCore gi c).cluster ci = s.cluster ci := rfl

@[simp] theorem State.core_irq (ci gj : Nat) : (s.irq ci).core gj = s.core gj := rfl

@[simp] theorem State.net_irq (ci : Nat) : (s.irq ci).net = s.net := rfl

@[simp] theorem State.regs_irq (ci : Nat) : ((s.irq ci).cluster ci).regs = (s.cluster ci).regs := by
  rw [State.irq, State.cluster_modCluster_same]
  split <;> rfl

theorem State.regs_setCf (ci : Nat) (r : Reg) (i lo w v : Nat) :
    ((s.setCf ci r i lo w v).cluster ci).regs = sf (s.cluster ci).regs r i lo w v := by
  rw [State.setCf, State.cluster_modCluster_same]

/-- The cluster's record of a core fault: one more, and the first one's core and kind (R139). -/
def State.faultNoted (kind : Nat) : State :=
  let t := s.satC (coreCi gi) .CLU_FAULT 0 8 8 1
  if rf (t.cluster (coreCi gi)).regs .CLU_FAULT 0 31 1 = 1 then t
  else ((t.setCf (coreCi gi) .CLU_FAULT 0 0 6 (coreK gi)).setCf (coreCi gi) .CLU_FAULT 0 6 2 kind).setCf (coreCi gi) .CLU_FAULT 0 31 1 1

theorem State.coreFault_eq (kind stop : Nat) :
    s.coreFault gi kind stop = ((s.faultNoted gi kind).notice (.cluster (coreCi gi)) (0x0108 + kind) (coreK gi) stop).irq (coreCi gi) := rfl

/-- A noted fault is valid. -/
theorem State.faultNoted_valid (kind : Nat) : rf ((s.faultNoted gi kind).cluster (coreCi gi)).regs .CLU_FAULT 0 31 1 = 1 := by
  unfold State.faultNoted
  dsimp only
  split
  · assumption
  · exact (congrArg (rf · .CLU_FAULT 0 31 1) (State.regs_setCf _ _ _ _ _ _ _)).trans (rf_sf_one _ _ _ _ (by omega))

theorem State.same_faultNoted {p : Part} (kind : Nat) (h : p.outside [.clusters]) : p.same s (s.faultNoted gi kind) := by
  unfold State.faultNoted
  dsimp only
  split
  · exact (same_satC h).2 (p.same_refl s)
  · exact (same_setCf h).2 ((same_setCf h).2 ((same_setCf h).2 ((same_satC h).2 (p.same_refl s))))

theorem State.core_faultNoted (kind gj : Nat) : (s.faultNoted gi kind).core gj = s.core gj := by
  rw [State.core, State.core, s.same_faultNoted gi (p := .cores) kind (by simp)]

theorem coreK_lt : coreK gi < 64 := by unfold coreK; omega

/-- A core fault leaves every core, sends its notice and sets CLU_FAULT.VALID (R139). -/
theorem State.core_coreFault (kind stop gj : Nat) : (s.coreFault gi kind stop).core gj = s.core gj := s.core_faultNoted gi kind gj

theorem State.net_coreFault {kind stop : Nat} (hkind : kind < 4) (hstop : stop < 2 ^ 16) : (s.coreFault gi kind stop).net =
    s.net ++ [⟨.cluster (coreCi gi), .hub, .tc0, s.stepNo % 256, .urg 9 (0x0108 + kind + coreK gi * 2 ^ 16 + stop * 2 ^ 32)⟩] := by
  have hk := coreK_lt gi
  have hhub : (s.faultNoted gi kind).hub = s.hub := s.same_faultNoted gi (p := .hub) kind (by simp)
  have hnet : (s.faultNoted gi kind).net = s.net := s.same_faultNoted gi (p := .net) kind (by simp)
  have hstag : (s.faultNoted gi kind).stag = s.stepNo % 256 := by
    rw [State.stag, State.stepNo, State.stepNo, State.h, State.h, hhub]
    rfl
  rw [State.coreFault_eq, State.net_irq]
  show (s.faultNoted gi kind).net ++ [_] = _
  rw [hnet, hstag, Nat.mod_eq_of_lt (show 0x0108 + kind < 2 ^ 16 by omega), Nat.mod_eq_of_lt (show coreK gi < 2 ^ 16 by omega), Nat.mod_eq_of_lt hstop]

theorem State.valid_coreFault (kind stop : Nat) : rf ((s.coreFault gi kind stop).cluster (coreCi gi)).regs .CLU_FAULT 0 31 1 = 1 := by
  rw [State.coreFault_eq, State.regs_irq]
  exact s.faultNoted_valid gi kind

/-! ### A stop -/

/-- The core with a stop in progress (R113). -/
def Core.stopping (c : Core) (status : Nat) : Core := { c with stop := status, regs := sf c.regs .CORE_DSTAT 0 16 16 status }

theorem Core.state_stopping (c : Core) (status : Nat) : (c.stopping status).state = c.state :=
  rf_sf_field c.regs .CORE_DSTAT 0 16 16 status 0 2 (by omega) (by omega)

variable {s gi}

theorem State.stopEngine_eq (hstop : (s.core gi).stop = 0) (status : Nat) :
    s.stopEngine gi status = (s.setCore gi ((s.core gi).stopping status)).settleStop gi := if_neg (by simp [hstop])

/-- With something issued still to complete, the stop waits. -/
theorem State.stopEngine_waits (hstop : (s.core gi).stop = 0) (status : Nat) (hbusy : (s.core gi).quietLanes = false) :
    s.stopEngine gi status = s.setCore gi ((s.core gi).stopping status) := by
  rw [State.stopEngine_eq hstop, State.settleStop, State.core_setCore_same]
  exact if_neg fun h => Bool.false_ne_true (hbusy.symm.trans h.2.1)

/-- With nothing issued left, STATE becomes STOPPED and DESC_FAULT is raised. -/
theorem State.stopEngine_stops (hstop : (s.core gi).stop = 0) {status : Nat} (hstatus : 0 < status) (hstate : (s.core gi).state ≠ 2)
    (hquiet : (s.core gi).quietLanes = true) : s.stopEngine gi status =
      ((s.setCore gi ((s.core gi).stopping status)).setCore gi (((s.core gi).stopping status).setState 2)).coreFault gi 3 status := by
  rw [State.stopEngine_eq hstop, State.settleStop, State.core_setCore_same]
  exact if_pos ⟨by show status ≠ 0; omega, hquiet, by rwa [Core.state_stopping]⟩

end

theorem Core.mayIssue_iff (c : Core) : c.mayIssue = true ↔ (c.state = 1 ∧ c.halted = false ∧ c.haltReq = false) ∧ c.stop = 0 := by
  simp [Core.mayIssue, Core.active, and_assoc]

/-- While a stop is in progress nothing issues. -/
theorem Core.mayIssue_of_stop {c : Core} (h : 0 < c.stop) : c.mayIssue = false := by
  simp [Core.mayIssue, Nat.pos_iff_ne_zero.1 h]

end Sys2Proof.Machine

namespace Sys2Proof.Claims
open Machine

/-- The engine stops on a failing entry that is the oldest, or past the list's memory (R113). -/
theorem descEngineStop_gives {s : State} {gi st : Nat} (hmay : (s.core gi).mayIssue = true) (hst : 0 < st)
    (h : (∃ e rest, (s.core gi).win = e :: rest ∧ e.bad = st) ∨ ((s.core gi).win = [] ∧ (s.core gi).beyond = true ∧ st = St.HANDLE_RANGE)) :
    Gives (.descEngineStop gi) s (s.stopEngine gi st) := by
  show execDescEngineStop gi s = _
  obtain ⟨e, rest, hwin, rfl⟩ | ⟨hwin, hbeyond, rfl⟩ := h
  · simp [execDescEngineStop, hmay, hwin, Nat.pos_iff_ne_zero.1 hst]
  · simp [execDescEngineStop, hmay, hwin, hbeyond]

/-- Settles O11: the stop waits, or is complete, as the lanes stand. -/
theorem engineStops : Obligations.EngineStops := by
  unfold Obligations.EngineStops
  intro s gi st hmay h hst hlt
  have hgives := descEngineStop_gives hmay hst h
  obtain ⟨⟨hstate, -, -⟩, hstop⟩ := (s.core gi).mayIssue_iff.1 hmay
  have hstatus : rf ((s.core gi).stopping st).regs .CORE_DSTAT 0 16 16 = st :=
    (rf_sf_same _ _ _ _ _ _ (by omega)).trans (Nat.mod_eq_of_lt hlt)
  cases hquiet : (s.core gi).quietLanes
  case false =>
    rw [State.stopEngine_waits hstop st hquiet] at hgives
    refine ⟨_, hgives, ?_, ?_, ?_, fun _ => ⟨?_, rfl⟩, fun h => absurd h (by simp), (s.setCore_onlyIn gi _).mono (by simp), s.setCore_otherCores gi _⟩
    all_goals rw [State.core_setCore_same]
    · rfl
    · exact hstatus
    · exact Core.mayIssue_of_stop hst
    · rw [Core.state_stopping, hstate]
  case true =>
    rw [State.stopEngine_stops hstop hst (by omega) hquiet] at hgives
    refine ⟨_, hgives, ?_, ?_, ?_, fun h => absurd h (by simp), fun _ => ⟨?_, ?_, ?_⟩, fun p hp => ?_, fun gj hj => ?_⟩
    · rw [State.core_coreFault, State.core_setCore_same]
      rfl
    · rw [State.core_coreFault, State.core_setCore_same]
      exact (rf_sf_field _ _ _ _ _ _ _ _ (by omega) (by omega)).trans hstatus
    · rw [State.core_coreFault, State.core_setCore_same]
      exact Core.mayIssue_of_stop hst
    · rw [State.core_coreFault, State.core_setCore_same]
      exact Core.state_setState _ (by omega)
    · exact State.net_coreFault _ gi (by omega) hlt
    · exact State.valid_coreFault _ gi _ _
    · have hout : p ≠ .cores ∧ p ≠ .clusters ∧ p ≠ .net := by simpa using hp
      simp [hout]
    · rw [State.core_coreFault, State.core_setCore_other _ _ _ _ hj, State.core_setCore_other _ _ _ _ hj]

end Sys2Proof.Claims
end

section
/-! CHAIN_BODY_LOAD, DESC_COMPLETE and NOP (O10): what completion leaves when nothing waits for it. -/

namespace Sys2Proof.Machine

section
variable (c : Core)

/-! ### What landing leaves of the descriptor engine -/

/-- The descriptor engine's side of a core: its fetch unit, window, lanes, stop and debug HALT. -/
def Core.engine : Nat × Bool × Bool × Option (Nat × Nat) × List WinEntry × Option Run × List Run × List Run × Nat × Bool :=
  (c.fetch, c.fetchEnd, c.beyond, c.rep, c.win, c.comp, c.tq, c.idle, c.stop, c.haltReq)

theorem Core.engine_landOne (desc : Nat) (f : Flight) : (c.landOne desc f).engine = c.engine := by
  unfold Core.landOne Core.setR
  split
  · split <;> rfl
  · rw [Core.hzlog_eq]
    rfl

theorem Core.engine_settle (desc : Nat) : (c.settle desc).engine = c.engine :=
  c.land_induct (motive := fun d => d.engine = c.engine) desc _ rfl fun d f hd => (d.engine_landOne desc f).trans hd

/-- Settling leaves the token counters (R81, R124). -/
theorem Core.tok_settle (desc : Nat) {k : Nat} (hk : k < 32) : rg (c.settle desc).regs .CORE_TOK k = rg c.regs .CORE_TOK k := by
  refine c.rg_land desc _ ?_ ?_ ?_ <;> simp only [Reg.offset, Reg.info] <;> omega

end

/-! ### Completion (R123, R423) -/

section
variable {s : State} {gi : Nat}

/-- With no trace session open nothing is traced. -/
theorem State.traceAt_untraced (h : Claims.untraced s) (gi kind idx : Nat) : s.traceAt gi kind idx = s :=
  if_neg fun hopen => hopen.2.1 h

theorem State.settleStop_running (h : (s.core gi).stop = 0) : s.settleStop gi = s := if_neg fun hstop => hstop.1 h

theorem Core.settleHalt_unasked {c : Core} (h : c.haltReq = false) : c.settleHalt = c := if_neg fun hreq => by simp [h] at hreq

theorem State.signal_none {d j : Nat} (h : dSigKind d j = 0) : s.signal gi d j = s := by
  simp only [State.signal, h]

theorem State.signal_token {d j : Nat} (h : dSigKind d j = 1) : s.signal gi d j = s.addToken gi (dSigTok d j) (dSigInc d j) := by
  simp only [State.signal, h]

/-- A token that stays within 65,535 takes its increment. -/
theorem State.addToken_fits {t n : Nat} (h : rf (s.core gi).regs .CORE_TOK t 0 16 + n ≤ 65535) :
    s.addToken gi t n = s.modCore gi fun c => { c with regs := sg c.regs .CORE_TOK t (rf c.regs .CORE_TOK t 0 16 + n) } := by
  rw [State.addToken, if_neg (by omega), Nat.min_eq_left h]
  rfl

/-- A completion without signals, with no stop and no debug HALT waiting for it. -/
theorem State.complete_silent {r : Run} (htrace : Claims.untraced s) (hsig : Claims.noSignals r.desc) (hstop : (s.core gi).stop = 0)
    (hreq : (s.core gi).haltReq = false) : s.complete gi r = s.setCore gi (s.core gi) := by
  rw [State.complete, State.traceAt_untraced htrace, State.signal_none hsig.1, State.signal_none hsig.2, State.settleStop_running hstop,
    State.modCore, Core.settleHalt_unasked hreq]

/-- The core after a completion that signals one of its own tokens. -/
def Core.tokenAdded (c : Core) (t n : Nat) : Core := { c with regs := sg c.regs .CORE_TOK t (rf c.regs .CORE_TOK t 0 16 + n) }

theorem Core.rf_tokenAdded (c : Core) {t n : Nat} (h : rf c.regs .CORE_TOK t 0 16 + n ≤ 65535) :
    rf (c.tokenAdded t n).regs .CORE_TOK t 0 16 = rf c.regs .CORE_TOK t 0 16 + n := by
  show bits (rg (sg c.regs .CORE_TOK t (rf c.regs .CORE_TOK t 0 16 + n)) .CORE_TOK t) 0 16 = _
  rw [rg_sg_same, bits]
  omega

/-- A completion whose first signal is a token of its own core. -/
theorem State.complete_token {r : Run} (htrace : Claims.untraced s) (hsig0 : dSigKind r.desc 0 = 1) (hsig1 : dSigKind r.desc 1 = 0)
    (hstop : (s.core gi).stop = 0) (hreq : (s.core gi).haltReq = false)
    (hfits : rf (s.core gi).regs .CORE_TOK (dSigTok r.desc 0) 0 16 + dSigInc r.desc 0 ≤ 65535) :
    let c := (s.core gi).tokenAdded (dSigTok r.desc 0) (dSigInc r.desc 0)
    s.complete gi r = (s.setCore gi c).setCore gi c := by
  dsimp only
  rw [State.complete, State.traceAt_untraced htrace, State.signal_token hsig0, State.addToken_fits hfits, State.signal_none hsig1]
  rw [State.settleStop_running (by rw [State.core_modCore_same]; exact hstop), State.modCore,
    Core.settleHalt_unasked (by rw [State.core_modCore_same]; exact hreq), State.core_modCore_same]
  rfl

end

end Sys2Proof.Machine

namespace Sys2Proof.Claims
open Machine

section
variable {s : State} {gi : Nat}

/-- What a command leaves that writes one core, in one place or in two. -/
theorem runs_of_setCore {i : Instr} {c d : Core} (h : Gives i s ((s.setCore gi c).setCore gi d)) :
    Runs i s fun t => t.core gi = d ∧ OnlyIn [.cores] s t ∧ otherCores gi s t :=
  ⟨_, h, State.core_setCore_same _ gi d, OnlyIn.trans (s.setCore_onlyIn gi c) (State.setCore_onlyIn _ gi d),
    fun _ hj => (State.core_setCore_other _ _ _ _ hj).trans (s.core_setCore_other _ _ _ hj)⟩

/-- The chain words are those latched at issue (R443). -/
theorem chainBodyLoad_loads (s : State) (gi : Nat) (r : Run) (hcomp : (s.core gi).comp = some r) (hchain : r.chain = none)
    (hrun : (s.core gi).halted = false) (hflaws : s.flaws = []) (hgot : r.got.length = 8 * dClen r.desc) :
    Runs (.chainBodyLoad gi []) s fun t =>
      (t.core gi).comp = some { r with chain := some ((List.range (dClen r.desc)).map fun k => leNat ((r.got.drop (8 * k)).take 8)) } ∧
      OnlyIn [.cores] s t ∧ otherCores gi s t := by
  let words := (List.range (dClen r.desc)).map fun k => leNat ((r.got.drop (8 * k)).take 8)
  have hgives : Gives (.chainBodyLoad gi []) s
      ((s.setCore gi (s.core gi)).setCore gi { s.core gi with comp := some { r with chain := some words } }) := by
    show execChainBodyLoad gi [] s = _
    simp only [execChainBodyLoad, State.strikes, List.foldl_nil, hcomp, hchain, hrun, State.extRead_clean hflaws, State.core_setCore_same]
    simp only [State.rd, ← hgot, mgets_msets]
    rfl
  obtain ⟨t, ht, hcore, hrest⟩ := runs_of_setCore hgives
  exact ⟨t, ht, by rw [hcore], hrest⟩

/-- A compute descriptor that has run completes, and its token is signalled (R123). -/
theorem descComplete_compute (s : State) (gi : Nat) (r : Run) (htrace : untraced s) (hstop : (s.core gi).stop = 0) (hreq : (s.core gi).haltReq = false)
    (hrun : (s.core gi).halted = false) (hcomp : (s.core gi).comp = some r) (hdone : r.done = true) (hsig0 : dSigKind r.desc 0 = 1)
    (hsig1 : dSigKind r.desc 1 = 0) (hfits : rf (s.core gi).regs .CORE_TOK (dSigTok r.desc 0) 0 16 + dSigInc r.desc 0 ≤ 65535) :
    Runs (.descComplete gi) s fun t => (t.core gi).comp = none ∧ (t.core gi).tq = (s.core gi).tq ∧
      rf (t.core gi).regs .CORE_TOK (dSigTok r.desc 0) 0 16 = rf (s.core gi).regs .CORE_TOK (dSigTok r.desc 0) 0 16 + dSigInc r.desc 0 ∧
      OnlyIn [.cores] s t ∧ otherCores gi s t := by
  let c : Core := { (s.core gi).settle r.idx with comp := none }
  have hengine := (s.core gi).engine_settle r.idx
  simp only [Core.engine, Prod.mk.injEq] at hengine
  obtain ⟨-, -, -, -, -, -, htq, -, hstop', hreq'⟩ := hengine
  have htok : rf c.regs .CORE_TOK (dSigTok r.desc 0) 0 16 = rf (s.core gi).regs .CORE_TOK (dSigTok r.desc 0) 0 16 :=
    congrArg (bits · 0 16) ((s.core gi).tok_settle r.idx (bits_lt _ _ 5))
  have hc : (s.setCore gi c).core gi = c := s.core_setCore_same gi c
  have hgives : Gives (.descComplete gi) s ((s.setCore gi c).complete gi r) := by
    show execDescComplete gi s = _
    simp only [execDescComplete, hrun, hcomp, hdone]
    rfl
  have hcomplete := State.complete_token (s := s.setCore gi c) (gi := gi) htrace hsig0 hsig1 (by rw [hc]; exact hstop'.trans hstop)
    (by rw [hc]; exact hreq'.trans hreq) (by rw [hc, htok]; exact hfits)
  rw [hcomplete, hc] at hgives
  refine ⟨_, hgives, ?_, ?_, ?_, ?_, fun gj hj => ?_⟩
  · rw [State.core_setCore_same]; rfl
  · rw [State.core_setCore_same]; exact htq
  · rw [State.core_setCore_same, Core.rf_tokenAdded _ (by rw [htok]; exact hfits), htok]
  · exact OnlyIn.trans (s.setCore_onlyIn gi c) (OnlyIn.trans (State.setCore_onlyIn _ gi _) (State.setCore_onlyIn _ gi _))
  · rw [State.core_setCore_other _ _ _ _ hj, State.core_setCore_other _ _ _ _ hj, State.core_setCore_other _ _ _ _ hj]

/-- An entry that leaves its queue and completes without signals. -/
theorem runs_of_complete {i : Instr} {c : Core} {r : Run} (htrace : untraced s) (hstop : c.stop = 0) (hreq : c.haltReq = false)
    (hsig : noSignals r.desc) (h : Gives i s ((s.setCore gi c).complete gi r)) :
    Runs i s fun t => t.core gi = c ∧ OnlyIn [.cores] s t ∧ otherCores gi s t := by
  rw [State.complete_silent (s := s.setCore gi c) htrace hsig (by rw [State.core_setCore_same]; exact hstop)
    (by rw [State.core_setCore_same]; exact hreq), State.core_setCore_same] at h
  exact runs_of_setCore h

variable (s gi) (r : Run) (rest : List Run) (htrace : untraced s) (hstop : (s.core gi).stop = 0) (hreq : (s.core gi).haltReq = false)
  (hrun : (s.core gi).halted = false) (hsig : noSignals r.desc)
include htrace hstop hreq hrun hsig

/-- The head of the transfer queue completes where nothing else does (R120). -/
theorem descComplete_transfer (hcomp : (s.core gi).comp = none) (hidle : (s.core gi).idle = []) (htq : (s.core gi).tq = r :: rest)
    (hdone : r.done = true) :
    Runs (.descComplete gi) s fun t => t.core gi = { s.core gi with tq := rest } ∧ OnlyIn [.cores] s t ∧ otherCores gi s t := by
  have hgives : Gives (.descComplete gi) s ((s.setCore gi { s.core gi with tq := rest }).complete gi r) := by
    show execDescComplete gi s = _
    simp only [execDescComplete, State.completeTq, hrun, hcomp, hidle, htq, hdone]
    rfl
  exact runs_of_complete htrace hstop hreq hsig hgives

/-- With nothing in the compute lane, an entry that ran nothing completes (R125). -/
theorem descComplete_idle (hcomp : (s.core gi).comp = none) (hidle : (s.core gi).idle = r :: rest) :
    Runs (.descComplete gi) s fun t => t.core gi = { s.core gi with idle := rest } ∧ OnlyIn [.cores] s t ∧ otherCores gi s t := by
  have hgives : Gives (.descComplete gi) s ((s.setCore gi { s.core gi with idle := rest }).complete gi r) := by
    show execDescComplete gi s = _
    simp only [execDescComplete, State.completeIdle, hrun, hcomp, hidle]
    rfl
  exact runs_of_complete htrace hstop hreq hsig hgives

/-- The oldest NOP completes (R120). -/
theorem nop_completes (hidle : (s.core gi).idle = r :: rest) (hop : dOp r.desc = opNop) :
    Runs (.nop gi) s fun t => t.core gi = { s.core gi with idle := rest } ∧ OnlyIn [.cores] s t ∧ otherCores gi s t := by
  have hgives : Gives (.nop gi) s ((s.setCore gi { s.core gi with idle := rest }).complete gi r) := by
    show execNop gi s = _
    simp only [execNop, State.completeIdle, hrun, hidle, hop]
    rfl
  exact runs_of_complete htrace hstop hreq hsig hgives

end

/-- Settles O10: each command on its own. -/
theorem descriptorsComplete : Obligations.DescriptorsComplete :=
  ⟨chainBodyLoad_loads, descComplete_compute,
    fun s gi r rest htrace hstop hreq hrun hcomp hidle htq hdone hsig =>
      descComplete_transfer s gi r rest htrace hstop hreq hrun hsig hcomp hidle htq hdone,
    fun s gi r rest htrace hstop hreq hrun hcomp hidle hsig => descComplete_idle s gi r rest htrace hstop hreq hrun hsig hcomp hidle,
    fun s gi r rest htrace hstop hreq hrun hidle hop hsig => nop_completes s gi r rest htrace hstop hreq hrun hsig hidle hop⟩

end Sys2Proof.Claims
end

section
/-! LIST_ENTRY_FETCH, REPEAT and DESC_ISSUE (O9): what fetch reads, and what an issue latches. -/

namespace Sys2Proof.Machine

section
variable {s t : State} {gi : Nat}

/-! ### Fetch (R109, R113) -/

/-- The static failure of an entry is of memory and of the list in use. -/
theorem State.entryBad_congr (hmem : t.mem = s.mem) (hcore : t.core gi = s.core gi) (i d : Nat) : t.entryBad gi i d = s.entryBad gi i d := by
  have hrd : ∀ a n, t.rdN a n = s.rdN a n := fun a n => by rw [State.rdN, State.rd, hmem]; rfl
  simp only [State.entryBad, State.repeatLegal, hcore, hrd] <;> rfl

/-- The read of an entry: its bytes, and the state with its unit's ECC accounted (R79, R168). -/
def State.entryRead (s : State) (gi a : Nat) : List Byte × State :=
  if bit (s.core gi).list 13 then s.storeRead (coreCi gi) a 64 else s.extRead gi a 64

theorem State.entryRead_clean (hflaws : s.flaws = []) (gi a : Nat) : (s.entryRead gi a).1 = s.rd a 64 ∧
    OnlyIn [.cores, .clusters] s (s.entryRead gi a).2 ∧ ∀ gj, (s.entryRead gi a).2.core gj = s.core gj := by
  unfold State.entryRead
  split
  · rw [State.storeRead_clean hflaws]
    exact ⟨rfl, (s.setCluster_onlyIn _ _).mono (by simp), fun _ => rfl⟩
  · rw [State.extRead_clean hflaws]
    exact ⟨rfl, (s.setCore_onlyIn gi _).mono (by simp), s.core_setCore_self gi⟩

/-- The core with an entry taken into its window. -/
def Core.fetched (c : Core) (d bad : Nat) : Core :=
  { c with win := c.win ++ [⟨c.fetch, d, bad⟩], fetch := c.fetch + 1, fetchEnd := lastEntry c.list c.fetch d && c.rep.isNone }

/-- The core after a REPEAT whose remaining repetitions are `n` (R129). -/
def Core.repeated (c : Core) (d n : Nat) : Core :=
  if n = 0 then { c with rep := none, fetch := c.fetch + 1, fetchEnd := lastEntry c.list c.fetch d }
  else { c with rep := some (c.fetch, n - 1), fetch := c.fetch - dBack d }

/-- The repetitions a REPEAT finds left: those of its first arrival, or its count latched now (R129). -/
def Core.repsLeft (c : Core) (d : Nat) : Nat :=
  match c.rep with
  | some e => e.2
  | none => if dCsrc d 0 then c.prm (dCp d 0) % 2 ^ 16 else dN d 0

end

/-! ### Issue (R119-R126) -/

section
variable (c : Core) (e : WinEntry) (body : List Byte)

/-- What an issuing descriptor latches (R112, R119, R125, R443). -/
def Core.latched : Run :=
  ⟨e.idx, e.desc, c.latchCounts e.desc, c.handles, decide (rf c.regs .CORE_CFG 0 0 1 = 1), if dChained e.desc then none else some [], 0, false,
    if dOp e.desc = opFill ∨ dOp e.desc = opFillT then c.fillSlotOf e.desc else 0, body, false⟩

/-- The core once the entry has left the window with its waits consumed and HZMODE_EFF set (R122). -/
def Core.departed : Core :=
  { (c.leave e).consume e.desc with
    regs := sf ((c.leave e).consume e.desc).regs .CORE_STAT 0 4 1 (b2n (decide (rf c.regs .CORE_CFG 0 0 1 = 1))) }

/-- An entry runs something where it is no NOP, its predicate holds and it has an iteration (R125). -/
def Core.runsNothing : Prop := dOp e.desc = opNop ∨ c.pred e.desc = false ∨ (c.latchCounts e.desc).foldl (· * ·) 1 = 0

variable {c e}

theorem Core.issue_idle (h : c.runsNothing e) : c.issue e body =
    { c.departed e with idle := (c.departed e).idle ++ [{ c.latched e body with done := true }] } := if_pos h

theorem Core.issue_compute (h : ¬ c.runsNothing e) (hop : opCompute (dOp e.desc) = true) : c.issue e body =
    { (c.departed e).settle e.idx with comp := some (c.latched e body), clock := ⟨none, 0, 0, 0, 0⟩ } := (if_neg h).trans (if_pos hop)

theorem Core.issue_transfer (h : ¬ c.runsNothing e) (hop : opCompute (dOp e.desc) = false) : c.issue e body =
    { c.departed e with tq := (c.departed e).tq ++ [c.latched e body] } := (if_neg h).trans (if_neg (by simp [hop]))

variable (c e)

/-- Consuming waits writes token counters alone. -/
theorem Core.consume_eq (d : Nat) : c.consume d = { c with regs := (c.consume d).regs } := by
  refine List.foldlRecOn _ _ (motive := fun x : Core => x = { c with regs := x.regs }) rfl fun x hx j _ => ?_
  split
  · rw [hx]
  · exact hx

/-- The token that one enabled wait alone names falls by that wait's count. -/
theorem Core.tok_consume {d j : Nat} (hj : j < 3) (hen : dWaitEn d j = true) (hothers : ∀ k, k < 3 → k ≠ j → dWaitEn d k = false) :
    rf (c.consume d).regs .CORE_TOK (dWaitTok d j) 0 16 = rf c.regs .CORE_TOK (dWaitTok d j) 0 16 - dWaitCnt d j := by
  have hregs : (c.consume d).regs = sg c.regs .CORE_TOK (dWaitTok d j) (rf c.regs .CORE_TOK (dWaitTok d j) 0 16 - dWaitCnt d j) := by
    obtain rfl | rfl | rfl : j = 0 ∨ j = 1 ∨ j = 2 := by omega
    · simp [Core.consume, List.range_succ, hen, hothers 1, hothers 2]
    · simp [Core.consume, List.range_succ, hen, hothers 0, hothers 2]
    · simp [Core.consume, List.range_succ, hen, hothers 0, hothers 1]
  have hlt : rf c.regs .CORE_TOK (dWaitTok d j) 0 16 < 2 ^ 16 := bits_lt _ 0 16
  rw [hregs, rf, rg_sg_same, bits]
  omega

theorem Core.engine_departed : (c.departed e).engine = ({ c with win := c.win.erase e } : Core).engine := by
  rw [Core.departed, Core.consume_eq]
  rfl

/-- An issue leaves the token counters as its waits left them. -/
theorem Core.tok_issue {k : Nat} (hk : k < 32) : rg (c.issue e body).regs .CORE_TOK k = rg ((c.leave e).consume e.desc).regs .CORE_TOK k := by
  have hdep : rg (c.departed e).regs .CORE_TOK k = rg ((c.leave e).consume e.desc).regs .CORE_TOK k :=
    rg_sf_other _ _ _ _ _ _ _ _ (by simp only [Reg.offset, Reg.info]; omega)
  by_cases hnone : c.runsNothing e
  · rw [Core.issue_idle body hnone]
    exact hdep
  · cases hop : opCompute (dOp e.desc)
    · rw [Core.issue_transfer body hnone hop]
      exact hdep
    · rw [Core.issue_compute body hnone hop]
      exact ((c.departed e).tok_settle e.idx hk).trans hdep

/-- After settling, no result is in flight (R81). -/
theorem Core.flights_settle (desc : Nat) : (c.settle desc).flights = [] := by
  refine c.land_induct (motive := fun d => d.flights = []) desc _ ?_ fun d f hd => (d.flights_landOne desc f).trans hd
  refine List.filter_eq_nil_iff.2 fun f hf => ?_
  have hdue : f.due ≤ c.drainAt 0 := due_le_foldl_max hf 0
  simp [hdue]

end

end Sys2Proof.Machine

namespace Sys2Proof.Claims
open Machine

/-- The next entry enters the window (R109). -/
theorem listEntryFetch_fetches (s : State) (gi a : Nat) (hmay : (s.core gi).mayFetch = true) (hflaws : s.flaws = [])
    (ha : listAddr gi (s.core gi).list (s.core gi).fetch = some a)
    (hrep : dOp (s.rdN a 64) ≠ opRepeat ∨ s.entryBad gi (s.core gi).fetch (s.rdN a 64) ≠ 0) :
    Runs (.listEntryFetch gi []) s fun t =>
      (t.core gi).win = (s.core gi).win ++ [⟨(s.core gi).fetch, s.rdN a 64, s.entryBad gi (s.core gi).fetch (s.rdN a 64)⟩] ∧
      (t.core gi).fetch = (s.core gi).fetch + 1 ∧
      (t.core gi).fetchEnd = (lastEntry (s.core gi).list (s.core gi).fetch (s.rdN a 64) && (s.core gi).rep.isNone) ∧
      OnlyIn [.cores, .clusters] s t ∧ otherCores gi s t := by
  obtain ⟨hbytes, honly, hcores⟩ := State.entryRead_clean hflaws gi a
  let bad := s.entryBad gi (s.core gi).fetch (s.rdN a 64)
  have hgives : Gives (.listEntryFetch gi []) s ((s.entryRead gi a).2.setCore gi ((s.core gi).fetched (s.rdN a 64) bad)) := by
    have hd : leNat (s.entryRead gi a).1 = s.rdN a 64 := congrArg leNat hbytes
    have hbad := State.entryBad_congr (honly .mem (by simp)) (hcores gi) (s.core gi).fetch (s.rdN a 64)
    have hread : (if bit (s.core gi).list 13 then s.storeRead (coreCi gi) a 64 else s.extRead gi a 64) = s.entryRead gi a := rfl
    show execListEntryFetch gi [] s = _
    simp only [execListEntryFetch, State.strikes, List.foldl_nil, hmay, ha, Bool.not_true, Bool.false_eq_true, if_false, hread, hd, hcores gi, hbad]
    exact if_neg fun h => hrep.elim (· h.1) (· h.2)
  refine ⟨_, hgives, ?_, ?_, ?_, OnlyIn.trans honly ((State.setCore_onlyIn _ gi _).mono (by simp)), fun gj hj => ?_⟩
  · rw [State.core_setCore_same]; rfl
  · rw [State.core_setCore_same]; rfl
  · rw [State.core_setCore_same]; rfl
  · exact (State.core_setCore_other _ _ _ _ hj).trans (hcores gj)

/-- An entry beyond the list's memory is noted (R113). -/
theorem listEntryFetch_beyond (s : State) (gi : Nat) (hmay : (s.core gi).mayFetch = true)
    (ha : listAddr gi (s.core gi).list (s.core gi).fetch = none) :
    Gives (.listEntryFetch gi []) s (s.modCore gi fun c => { c with beyond := true }) := by
  show execListEntryFetch gi [] s = _
  simp only [execListEntryFetch, State.strikes, List.foldl_nil, hmay, ha, Bool.not_true, Bool.false_eq_true, if_false]
  rfl

/-- A legal REPEAT sends FETCH back, or passes on (R129). -/
theorem repeatEntry_repeats (s : State) (gi a n : Nat) (hmay : (s.core gi).mayFetch = true)
    (ha : listAddr gi (s.core gi).list (s.core gi).fetch = some a) (hop : dOp (s.rdN a 64) = opRepeat)
    (hbad : s.entryBad gi (s.core gi).fetch (s.rdN a 64) = 0) (hn : (s.core gi).repsLeft (s.rdN a 64) = n) :
    Runs (.repeatEntry gi) s fun t =>
      (n = 0 → (t.core gi).rep = none ∧ (t.core gi).fetch = (s.core gi).fetch + 1) ∧
      (0 < n → (t.core gi).rep = some ((s.core gi).fetch, n - 1) ∧ (t.core gi).fetch = (s.core gi).fetch - dBack (s.rdN a 64)) ∧
      (t.core gi).win = (s.core gi).win ∧ OnlyIn [.cores] s t ∧ otherCores gi s t := by
  have hgives : Gives (.repeatEntry gi) s (s.setCore gi ((s.core gi).repeated (s.rdN a 64) n)) := by
    show execRepeatEntry gi s = _
    rw [Core.repsLeft] at hn
    cases hrep : (s.core gi).rep with
    | none | some =>
      simp only [hrep] at hn
      simp only [execRepeatEntry, hmay, ha, hop, hbad, hrep, hn, Bool.not_true, Bool.false_eq_true, if_false, ne_eq,
        not_true_eq_false, or_self]
      exact (apply_ite (fun c => Host.Outcome.next (s.setCore gi c)) (n = 0) _ _).symm
  refine ⟨_, hgives, ?_, ?_, ?_, s.setCore_onlyIn gi _, s.setCore_otherCores gi _⟩
  all_goals rw [State.core_setCore_same, Core.repeated]
  · intro h
    rw [if_pos h]
    exact ⟨rfl, rfl⟩
  · intro h
    rw [if_neg (by omega)]
    exact ⟨rfl, rfl⟩
  · split <;> rfl

/-- The oldest ready entry issues into its lane (R121, R122). -/
theorem descIssue_issues (s : State) (gi : Nat) (e : WinEntry) (hmay : (s.core gi).mayIssue = true) (htrace : untraced s)
    (hready : s.ready gi = some e) (hstatus : s.issueStatus gi e.desc = 0) :
    let c := s.core gi
    let n := (c.latchCounts e.desc).foldl (· * ·) 1
    Runs (.descIssue gi) s fun t =>
      (t.core gi).win = c.win.erase e ∧ OnlyIn [.cores] s t ∧ otherCores gi s t ∧
      (dOp e.desc = opNop ∨ c.pred e.desc = false ∨ n = 0 →
        (t.core gi).comp = c.comp ∧ (t.core gi).tq = c.tq ∧ (t.core gi).idle.length = c.idle.length + 1) ∧
      (dOp e.desc ≠ opNop → c.pred e.desc = true → 0 < n → opCompute (dOp e.desc) = true →
        ∃ r, (t.core gi).comp = some r ∧ r.idx = e.idx ∧ r.desc = e.desc ∧ r.counts = c.latchCounts e.desc ∧ r.hs = c.handles ∧
          r.iter = 0 ∧ r.done = false ∧ r.got = s.chainBytes gi e.desc ∧ (dOp e.desc = opFill → r.slot = c.fillSlotOf e.desc) ∧
          (t.core gi).flights = [] ∧ (t.core gi).tq = c.tq) ∧
      (dOp e.desc ≠ opNop → c.pred e.desc = true → 0 < n → opCompute (dOp e.desc) = false →
        ∃ r, (t.core gi).tq = c.tq ++ [r] ∧ r.idx = e.idx ∧ r.desc = e.desc ∧ r.counts = c.latchCounts e.desc ∧ r.hs = c.handles ∧
          r.iter = 0 ∧ (t.core gi).comp = c.comp) ∧
      (∀ j, j < 3 → dWaitEn e.desc j = true → (∀ k, k < 3 → k ≠ j → dWaitEn e.desc k = false) →
        rf (t.core gi).regs .CORE_TOK (dWaitTok e.desc j) 0 16 = rf c.regs .CORE_TOK (dWaitTok e.desc j) 0 16 - dWaitCnt e.desc j) := by
  intro c n
  let body := s.chainBytes gi e.desc
  have hgives : Gives (.descIssue gi) s (s.setCore gi (c.issue e body)) := by
    show execDescIssue gi s = _
    simp only [execDescIssue, hmay, hready, hstatus, Bool.not_true, Bool.false_eq_true, if_false, ne_eq, not_true_eq_false]
    exact congrArg Host.Outcome.next (State.traceAt_untraced (s := s.setCore gi (c.issue e body)) htrace gi 0 e.idx)
  have hdep := c.engine_departed e
  have hset := ((c.departed e).engine_settle e.idx).trans hdep
  simp only [Core.engine, Prod.mk.injEq] at hdep hset
  obtain ⟨-, -, -, -, hwin, hcomp, htq, hidle, -, -⟩ := hdep
  obtain ⟨-, -, -, -, hwin', -, htq', -, -, -⟩ := hset
  have hnone : ∀ {p : Prop}, dOp e.desc ≠ opNop → c.pred e.desc = true → 0 < n → (¬ c.runsNothing e → p) → p := fun hop hpred hn go =>
    go (by rintro (h | h | h); exacts [hop h, by simp [hpred] at h, by omega])
  refine ⟨_, hgives, ?_, s.setCore_onlyIn gi _, s.setCore_otherCores gi _, fun h => ?_, fun hop hpred hn hlane => ?_,
    fun hop hpred hn hlane => ?_, fun j hj hen hothers => ?_⟩
  all_goals rw [State.core_setCore_same]
  · by_cases h : c.runsNothing e
    · rw [Core.issue_idle body h]
      exact hwin
    · cases hlane : opCompute (dOp e.desc)
      · rw [Core.issue_transfer body h hlane]
        exact hwin
      · rw [Core.issue_compute body h hlane]
        exact hwin'
  · rw [Core.issue_idle body h]
    exact ⟨hcomp, htq, by simp [hidle]⟩
  · rw [hnone hop hpred hn fun h => Core.issue_compute body h hlane]
    exact ⟨_, rfl, rfl, rfl, rfl, rfl, rfl, rfl, rfl, fun h => if_pos (.inl h), (c.departed e).flights_settle e.idx, htq'⟩
  · rw [hnone hop hpred hn fun h => Core.issue_transfer body h hlane]
    exact ⟨_, congrArg (· ++ [c.latched e body]) htq, rfl, rfl, rfl, rfl, rfl, hcomp⟩
  · exact (congrArg (bits · 0 16) (c.tok_issue e body (bits_lt _ _ 5))).trans ((c.leave e).tok_consume hj hen hothers)

/-- Settles O9: fetch, REPEAT and issue, each on its own. -/
theorem entriesFetchAndIssue : Obligations.EntriesFetchAndIssue := by
  refine ⟨listEntryFetch_fetches, listEntryFetch_beyond, fun s gi a n hmay ha hop hbad hn => ?_, descIssue_issues⟩
  refine repeatEntry_repeats s gi a n hmay ha hop hbad (Eq.trans ?_ hn)
  unfold Core.repsLeft
  cases (s.core gi).rep <;> rfl

end Sys2Proof.Claims
end

section
/-! The transfer engine (O14): copies, read and write requests, and channels. -/

namespace Sys2Proof.Machine

section
variable {s : State}

/-! ### What a write of memory leaves of the cores (R79) -/

/-- A core but for its pending write-backs. -/
def Core.butWb (c : Core) : Core := { c with wb := [] }

theorem State.butWb_cancelWb (s : State) (a n gj : Nat) : ((s.cancelWb a n).core gj).butWb = (s.core gj).butWb := by
  unfold State.cancelWb
  split
  · next gi _ _ =>
    split
    · rfl
    · by_cases hj : gj = gi
      · rw [hj, State.core_modCore_same]
        rfl
      · rw [State.modCore, State.core_setCore_other _ _ _ _ hj]
  · split <;> rfl
  · rfl

theorem State.butWb_wr (s : State) (a : Nat) (bs : List Byte) (gj : Nat) : ((s.wr a bs).core gj).butWb = (s.core gj).butWb := by
  have hplace : ∀ (t : State) a bs, ((t.wrPlace a bs).core gj).butWb = (t.core gj).butWb := fun t a bs => State.butWb_cancelWb _ _ _ gj
  unfold State.wr
  split
  · rfl
  split
  · exact hplace _ _ _
  · refine List.foldlRecOn _ _ (motive := fun t : State => (t.core gj).butWb = (s.core gj).butWb) rfl fun t ht g _ => ?_
    split
    · exact (hplace _ _ _).trans ht
    · exact ht

/-- Bytes copied to one mapped place, and every other byte (R151). -/
theorem mget_wr_copy (s : State) {u : State} (hmem : u.mem = s.mem) {a b n : Nat} (hrange : memRange b n = true) :
    (∀ k, k < n → mget (u.wr b (s.rd a n)).mem (b + k) = mget s.mem (a + k)) ∧
      ∀ k, k < b ∨ b + n ≤ k → mget (u.wr b (s.rd a n)).mem k = mget s.mem k := by
  have hlen : (s.rd a n).length = n := mgets_length s.mem a n
  rw [State.wr_mem u b _ (hlen.symm ▸ hrange), hmem]
  refine ⟨fun k hk => ?_, fun k hk => mget_msets_outside s.mem (by rwa [hlen])⟩
  rw [mget_msets, if_pos (by omega), Nat.add_sub_cancel_left, State.rd, mgets]
  simp [List.getD, hk]

/-- A send context that exists reads as what was written to it. -/
theorem Core.sendCtx_setSend (c : Core) {k : Nat} (x : SendCtx) (h : k < c.send.length) : (c.setSend k x).sendCtx k = x := by
  simp [Core.setSend, Core.sendCtx, h]

/-- A receive context that exists reads as what was written to it. -/
theorem Core.recvCtx_setRecv (c : Core) {k : Nat} (x : RecvCtx) (h : k < c.recv.length) : (c.setRecv k x).recvCtx k = x := by
  simp [Core.setRecv, Core.recvCtx, h]

end

end Sys2Proof.Machine

namespace Sys2Proof.Claims
open Machine

/-- A command that changes one core and injects one packet. -/
theorem runs_of_inject {i : Instr} {s u : State} {gi : Nat} {src dst : Endpoint} {cls : TClass} {body : Payload} (hu : OnlyIn [.cores] s u) (hcores : otherCores gi s u)
    (h : Gives i s (u.inject src dst cls body)) :
    Runs i s fun t => t.core gi = u.core gi ∧ t.net = s.net ++ [⟨src, dst, cls, s.stepNo % 256, body⟩] ∧ OnlyIn [.cores, .net] s t ∧ otherCores gi s t := by
  have hhub : u.hub = s.hub := hu .hub (by simp)
  have hstag : u.stag = s.stepNo % 256 := by rw [State.stag, State.stepNo, State.h_of_hub hhub, State.h_of_hub hhub]; rfl
  refine ⟨_, h, rfl, ?_, fun p hp => ?_, hcores⟩
  · show u.net ++ [⟨src, dst, cls, u.stag, body⟩] = _
    rw [hstag, hu .net (by simp)]
  · exact (same_inject (by simp [Part.outside] at hp ⊢; exact hp.2)).2 (hu p (by simp at hp ⊢; exact hp.1))

/-! ### LOAD and STORE (R151) -/

/-- A LOAD from outside local memory asks for its bytes. -/
theorem load_requests (s : State) (gi : Nat) (r : Run) (hready : (s.core gi).tqReady opLoad = some r) (hwait : r.wait = false)
    (hspace : hSpace (hget r.hs (dH r.desc 0)) = true) (hinject : s.mayInject gi = true) :
    Runs (.load gi) s fun t => (t.core gi).tq = { r with wait := true } :: (s.core gi).tq.drop 1 ∧
      t.net = s.net ++ [⟨.core gi, s.endpointOf (r.localAt 0), .tc2q, s.stepNo % 256, .mrd (r.localAt 0) (dLen r.desc / 32) (r.iter % 2 ^ 16)⟩] ∧
      OnlyIn [.cores, .net] s t ∧ otherCores gi s t := by
  let c := (s.core gi).setTq { r with wait := true }
  have hgives : Gives (.load gi) s ((s.setCore gi c).inject (.core gi) (s.endpointOf (r.localAt 0)) .tc2q
      (.mrd (r.localAt 0) (dLen r.desc / 32) (r.iter % 2 ^ 16))) := by
    show execLoad gi s = _
    simp only [execLoad, hready, hwait, hspace, hinject, if_true, Bool.false_eq_true, if_false]
    rfl
  obtain ⟨t, ht, hcore, hrest⟩ := runs_of_inject (s.setCore_onlyIn gi c) (s.setCore_otherCores gi c) hgives
  exact ⟨t, ht, by rw [hcore, State.core_setCore_same]; rfl, hrest⟩

/-- A transfer within local memory copies its bytes and goes on. -/
theorem local_copies (s : State) (gi : Nat) (r : Run) (i : Instr)
    (hi : i = .load gi ∧ (s.core gi).tqReady opLoad = some r ∧ hSpace (hget r.hs (dH r.desc 0)) = false ∨
      i = .store gi ∧ (s.core gi).tqReady opStore = some r ∧ hSpace (hget r.hs (dH r.desc 1)) = false)
    (hwait : r.wait = false) (hflaws : s.flaws = []) (hrun : (s.core gi).halted = false)
    (hrange : memRange (localBase gi + r.localAt 1) (dLen r.desc) = true) :
    Runs i s fun t => (t.core gi).tq = r.advance :: (s.core gi).tq.drop 1 ∧
      (∀ k, k < dLen r.desc → mget t.mem (localBase gi + r.localAt 1 + k) = mget s.mem (localBase gi + r.localAt 0 + k)) ∧
      (∀ b, (b < localBase gi + r.localAt 1 ∨ localBase gi + r.localAt 1 + dLen r.desc ≤ b) → mget t.mem b = mget s.mem b) ∧ t.net = s.net ∧
      OnlyIn [.mem, .flaws, .cores, .clusters] s t := by
  let u := s.setCore gi (s.core gi)
  let v := u.wr (localBase gi + r.localAt 1) (s.rd (localBase gi + r.localAt 0) (dLen r.desc))
  have hv : (v.core gi).butWb = (s.core gi).butWb := (u.butWb_wr _ _ gi).trans (congrArg Core.butWb (s.core_setCore_same gi _))
  have hhalted : (v.core gi).halted = false := (congrArg Core.halted hv :).trans hrun
  have hgives : Gives i s (v.modCore gi fun c => c.setTq r.advance) := by
    rw [← State.goOn_running hhalted]
    obtain ⟨rfl, hready, hspace⟩ | ⟨rfl, hready, hspace⟩ := hi
    · show execLoad gi s = _
      simp only [execLoad, hready, hwait, hspace, State.extRead_clean hflaws, Bool.false_eq_true, if_false]
      rfl
    · show execStore gi s = _
      simp only [execStore, hready, hwait, hspace, State.extRead_clean hflaws, Bool.false_eq_true, if_false]
      rfl
  obtain ⟨hcopied, houtside⟩ := mget_wr_copy s (u := u) rfl (a := localBase gi + r.localAt 0) hrange
  have honly : OnlyIn [.mem, .flaws, .cores, .clusters] s v := fun p hp => by
    have hout : p ≠ .mem ∧ p ≠ .flaws ∧ p ≠ .cores ∧ p ≠ .clusters := by simpa using hp
    simp [v, u, hout]
  refine ⟨_, hgives, ?_, hcopied, houtside, honly .net (by simp), OnlyIn.trans honly ((State.setCore_onlyIn v gi _).mono (by simp))⟩
  rw [State.core_modCore_same]
  have htq : (v.core gi).tq = (s.core gi).tq := (congrArg Core.tq hv :)
  exact congrArg (fun l : List Run => r.advance :: l.drop 1) htq

/-- A STORE to a place outside local memory sends its bytes. -/
theorem store_sends (s : State) (gi : Nat) (r : Run) (hready : (s.core gi).tqReady opStore = some r) (hwait : r.wait = false)
    (hspace : hSpace (hget r.hs (dH r.desc 1)) = true) (hinject : s.mayInject gi = true) (hflaws : s.flaws = [])
    (hrun : (s.core gi).halted = false) :
    Runs (.store gi) s fun t => (t.core gi).tq = { r with wait := true } :: (s.core gi).tq.drop 1 ∧
      t.net = s.net ++ [⟨.core gi, s.endpointOf (r.localAt 1), .tc2q, s.stepNo % 256,
        .mwr (r.localAt 1) (s.rd (localBase gi + r.localAt 0) (dLen r.desc))⟩] ∧
      OnlyIn [.cores, .net] s t ∧ otherCores gi s t := by
  let u := s.setCore gi (s.core gi)
  let v := u.modCore gi fun c => c.setTq { r with wait := true }
  have hu : u.core gi = s.core gi := s.core_setCore_same gi _
  have hgives : Gives (.store gi) s (v.inject (.core gi) (s.endpointOf (r.localAt 1)) .tc2q
      (.mwr (r.localAt 1) (s.rd (localBase gi + r.localAt 0) (dLen r.desc)))) := by
    have hgo := State.goOn_running (s := u) ((congrArg Core.halted hu).trans hrun) { r with wait := true }
    show execStore gi s = _
    simp only [execStore, hready, hwait, hspace, hinject, State.extRead_clean hflaws, if_true, Bool.false_eq_true, if_false]
    rw [hgo]
  obtain ⟨t, ht, hcore, hrest⟩ := runs_of_inject (u := v) (gi := gi) (OnlyIn.trans (s.setCore_onlyIn gi _) (State.setCore_onlyIn u gi _))
    (fun gj hj => (State.core_setCore_other u _ _ _ hj).trans (s.core_setCore_other _ _ _ hj)) hgives
  exact ⟨t, ht, by rw [hcore, State.core_modCore_same, hu]; rfl, hrest⟩

/-! ### Channels (R152) -/

/-- A SEND with a credit goes ahead. -/
theorem send_ahead (s : State) (gi : Nat) (r : Run) (hready : (s.core gi).tqReady opSend = some r) (hwait : r.wait = false)
    (hcredit : 1 ≤ ((s.core gi).sendCtx (dCh r.desc)).credit) :
    Gives (.send gi) s (s.modCore gi fun c => c.setTq { r with wait := true }) := by
  show execSend gi s = _
  simp only [execSend, hready, hwait, hcredit, and_self, if_true]
  rfl

/-- The message goes to the bound receiver, with the next SEQ, and takes a credit. -/
theorem sendInject_sends (s : State) (gi : Nat) (r : Run) (hready : (s.core gi).tqReady opSend = some r) (hwait : r.wait = true)
    (hcredit : 1 ≤ ((s.core gi).sendCtx (dCh r.desc)).credit) (hch : dCh r.desc < (s.core gi).send.length) (hinject : s.mayInject gi = true)
    (hflaws : s.flaws = []) (hrun : (s.core gi).halted = false) :
    let x := (s.core gi).sendCtx (dCh r.desc)
    let b := rg (s.core gi).regs .CORE_SCTX (dCh r.desc)
    Runs (.sendInject gi) s fun t => (t.core gi).tq = r.advance :: (s.core gi).tq.drop 1 ∧
      ((t.core gi).sendCtx (dCh r.desc)).credit = x.credit - 1 ∧ ((t.core gi).sendCtx (dCh r.desc)).seq = (x.seq + 1) % 2 ^ 16 ∧
      t.net = s.net ++ [⟨.core gi, .core (coreOf (bits b 0 7 + 128 * bits b 7 6) (bits b 13 6)), if dTc2 r.desc then .tc2q else .tc1, s.stepNo % 256,
        .msg (bits b 19 2) x.seq (s.rd (localBase gi + r.localAt 0) (dLen r.desc))⟩] ∧ OnlyIn [.cores, .net] s t ∧ otherCores gi s t := by
  intro x b
  let y : SendCtx := { x with credit := x.credit - 1, seq := (x.seq + 1) % 2 ^ 16 }
  let u := (s.setCore gi (s.core gi)).modCore gi fun c => c.setSend (dCh r.desc) y
  let v := u.modCore gi fun c => c.setTq r.advance
  have hu : u.core gi = (s.core gi).setSend (dCh r.desc) y := by rw [State.core_modCore_same, State.core_setCore_same]
  have hgives : Gives (.sendInject gi) s (v.inject (.core gi) (.core (coreOf (bits b 0 7 + 128 * bits b 7 6) (bits b 13 6)))
      (if dTc2 r.desc then .tc2q else .tc1) (.msg (bits b 19 2) x.seq (s.rd (localBase gi + r.localAt 0) (dLen r.desc)))) := by
    have hgo := State.goOn_running (s := u) ((congrArg Core.halted hu).trans hrun) r.advance
    show execSendInject gi s = _
    simp only [execSendInject, hready, hwait, hcredit, hinject, State.extRead_clean hflaws, and_self, if_true]
    rw [hgo]
  obtain ⟨t, ht, hcore, hrest⟩ := runs_of_inject (u := v) (gi := gi)
    (OnlyIn.trans (OnlyIn.trans (s.setCore_onlyIn gi _) (State.setCore_onlyIn _ gi _)) (State.setCore_onlyIn u gi _))
    (fun gj hj => (State.core_setCore_other u _ _ _ hj).trans ((State.core_setCore_other _ _ _ _ hj).trans (s.core_setCore_other _ _ _ hj))) hgives
  have hcore' : t.core gi = ((s.core gi).setSend (dCh r.desc) y).setTq r.advance := by rw [hcore, State.core_modCore_same, hu]
  have hctx : (t.core gi).sendCtx (dCh r.desc) = y := by
    rw [hcore']
    exact (s.core gi).sendCtx_setSend y hch
  exact ⟨t, ht, by rw [hcore']; rfl, by rw [hctx], by rw [hctx], hrest⟩

/-- A POST, at once or after waiting, arms its buffer and returns a credit. -/
theorem post_arms (s : State) (gi : Nat) (r : Run) (i : Instr) (hready : (s.core gi).tqReady opPost = some r)
    (hi : i = .post gi ∧ r.wait = false ∨ i = .postArm gi ∧ r.wait = true) (hinject : s.mayInject gi = true)
    (hroom : ((s.core gi).recvCtx (dCh r.desc)).armed.length < 8) (hch : dCh r.desc < (s.core gi).recv.length) :
    let b := rg (s.core gi).regs .CORE_RCTX (dCh r.desc)
    Runs i s fun t => (t.core gi).tq = r.advance :: (s.core gi).tq.drop 1 ∧
      ((t.core gi).recvCtx (dCh r.desc)).armed = ((s.core gi).recvCtx (dCh r.desc)).armed ++ [(r.localAt 0, dLen r.desc)] ∧
      t.net = s.net ++ [⟨.core gi, .core (coreOf (bits b 0 7 + 128 * bits b 7 6) (bits b 13 6)), .tc1, s.stepNo % 256, .credit (bits b 19 2) 1⟩] ∧
      OnlyIn [.cores, .net] s t ∧ otherCores gi s t := by
  intro b
  let x := (s.core gi).recvCtx (dCh r.desc)
  let y : RecvCtx := { x with armed := x.armed ++ [(r.localAt 0, dLen r.desc)] }
  let c := ((s.core gi).setRecv (dCh r.desc) y).setTq r.advance
  have hgives : Gives i s ((s.setCore gi c).inject (.core gi) (.core (coreOf (bits b 0 7 + 128 * bits b 7 6) (bits b 13 6))) .tc1
      (.credit (bits b 19 2) 1)) := by
    obtain ⟨rfl, hwait⟩ | ⟨rfl, hwait⟩ := hi
    · show execPost gi s = _
      simp only [execPost, hready, hwait, hinject, hroom, Bool.false_eq_true, if_true]
      rfl
    · show execPostArm gi s = _
      simp only [execPostArm, hready, hwait, hinject, hroom, and_self, if_true]
      rfl
  obtain ⟨t, ht, hcore, hrest⟩ := runs_of_inject (s.setCore_onlyIn gi c) (s.setCore_otherCores gi c) hgives
  rw [State.core_setCore_same] at hcore
  refine ⟨t, ht, by rw [hcore]; rfl, ?_, hrest⟩
  rw [hcore]
  exact congrArg RecvCtx.armed ((s.core gi).recvCtx_setRecv y hch)

/-- With eight buffers armed a POST waits. -/
theorem post_waits (s : State) (gi : Nat) (r : Run) (hready : (s.core gi).tqReady opPost = some r) (hwait : r.wait = false)
    (hinject : s.mayInject gi = true) (hfull : 8 ≤ ((s.core gi).recvCtx (dCh r.desc)).armed.length) :
    Gives (.post gi) s (s.modCore gi fun c => c.setTq { r with wait := true }) := by
  show execPost gi s = _
  simp only [execPost, hready, hwait, hinject, Nat.not_lt.2 hfull, Bool.false_eq_true, or_self, if_false, Bool.true_eq_false]
  rfl

/-- Settles O14: each command on its own. -/
theorem transfersAndChannels : Obligations.TransfersAndChannels :=
  ⟨load_requests, local_copies, store_sends, send_ahead, sendInject_sends, post_arms, post_waits⟩

end Sys2Proof.Claims
end

section
/-! CSP_MEMORY_ACCESS (O5): where a CSP's addresses lead, and what its loads and stores do there. -/

namespace Sys2Proof

theorem getD_toLe {n i : Nat} (h : i < n) (v : Nat) : (toLe n v).getD i 0 = BitVec.ofNat 8 (v / 256 ^ i) := by
  induction n generalizing v i with
  | zero => omega
  | succ n ih =>
    cases i with
    | zero => simp [toLe]
    | succ i =>
      rw [toLe, List.getD_cons_succ, ih (by omega), Nat.div_div_eq_div_mul, pow_succ, Nat.mul_comm]

end Sys2Proof

namespace Sys2Proof.Machine

section
variable {s : State} {ci a len : Nat}

/-- The lengths of a CSP's loads and stores. -/
abbrev CspLen (len : Nat) : Prop := len = 1 ∨ len = 2 ∨ len = 4

/-- A number that `len` divides stays so past a base that 4 divides. -/
theorem CspLen.add_mod (h : CspLen len) (halign : a % len = 0) {b : Nat} (hb : b % 4 = 0) : (b + a) % len = 0 := by
  obtain rfl | rfl | rfl := h <;> omega

/-- The address of an access leads to no register window. -/
theorem cspPlace_unmapped {x : Nat} (h : ¬ (0x30000000 ≤ x ∧ x < 0x30400000 ∧ 0x4000 ≤ x % 0x10000 ∧ x % 0x10000 < 0x5000))
    (h4 : ¬ (0x40000000 ≤ x ∧ x < 0x40001000)) (h5 : ¬ (0x50000000 ≤ x ∧ x < 0x50001000)) : (cspPlace ci (x / 4 * 4)).mapped = false := by
  rw [cspPlace, if_neg (by omega), if_neg (by omega), if_neg (by omega)]
  rfl

/-- An access is made where the CSP runs and the address is aligned and of no register (R138). -/
theorem cspAccess_made (hup : s.agentUp (.csp ci) = true) (hlen : CspLen len) (halign : a % len = 0)
    (hplace : (cspPlace ci (a / 4 * 4)).mapped = false) :
    (s.agentUp (.csp ci) && (len == 1 || len == 2 || len == 4) && a % len == 0 && !(cspPlace ci (a / 4 * 4)).mapped) = true := by
  simp [hup, halign, hplace, or_assoc, hlen]

/-- A running CSP belongs to a cluster that exists. -/
theorem State.lt_of_cspUp (h : s.agentUp (.csp ci) = true) : ci < nClusters := by
  simp only [State.agentUp, State.cspUp, Bool.and_eq_true, decide_eq_true_eq] at h
  exact h.1.1.1.1

/-! ### Where an address leads (R138, R162) -/

theorem cspMem_own (h : a < 0x8000) : cspMem ci a = .own a := if_pos h

theorem cspMem_store (h : a < 0x80000) : cspMem ci (0x20000000 + a) = .store (storeBase ci + a) := by
  rw [cspMem, if_neg (by omega), if_neg (by omega), if_pos (by omega), Nat.add_sub_cancel_left]

theorem cspMem_core {j : Nat} (hj : j < 64) (h : a < 0x4000) :
    cspMem ci (0x30000000 + 0x10000 * j + a) = .core (coreOf ci j) (localBase (coreOf ci j) + a) := by
  have hj' : (0x30000000 + 0x10000 * j + a - 0x30000000) / 0x10000 = j := by omega
  have ha : (0x30000000 + 0x10000 * j + a) % 0x10000 = a := by omega
  rw [cspMem, if_neg (by omega), if_neg (by omega), if_neg (by omega), if_pos (by omega)]
  simp only [hj', ha]

theorem placeOf_store (hci : ci < nClusters) (h : a < 0x80000) : placeOf (storeBase ci + a) = .store ci a := by
  unfold nClusters at hci
  unfold placeOf storeBase nClusters
  have hdiv : (0x010000000000 + 0x100000 * ci + a - 0x010000000000) / 0x100000 = ci := by omega
  have hmod : (0x010000000000 + 0x100000 * ci + a - 0x010000000000) % 0x100000 = a := by omega
  rw [if_neg (by omega), if_pos (by omega)]
  simp only [hdiv, hmod, h, if_true]

/-! ### What an access leaves -/

/-- A write to mapped memory of a cluster's store leaves the cores (R168). -/
theorem State.wr_store_onlyIn (s : State) {bs : List Byte} (hrange : memRange (storeBase ci + a) bs.length = true)
    (hplace : placeOf (storeBase ci + a) = .store ci a) : OnlyIn [.mem, .flaws, .clusters] s (s.wr (storeBase ci + a) bs) := by
  intro p hp
  have hout : p ≠ .mem ∧ p ≠ .flaws ∧ p ≠ .clusters := by simpa using hp
  unfold State.wr
  split
  · exact p.same_refl s
  · rw [State.wrPlace, State.cancelWb, hplace]
    simp [hout]

/-- With no snapshot open nothing is staged (R360). -/
theorem State.wrS_unstaged (h : s.hrv ≠ 2) (x : Nat) (bs : List Byte) : s.wrS x bs = s.wr x bs := by
  rw [State.wrS, State.stage, if_neg (by simp [h])]

theorem State.loaded_gave (s : State) (ci v : Nat) : ((s.gave (.csp ci) v).cluster ci).loaded = v := by
  rw [State.gave, State.cluster_modCluster_same]

theorem State.gave_onlyIn (s : State) (ci v : Nat) : OnlyIn [.clusters] s (s.gave (.csp ci) v) := s.setCluster_onlyIn ci _

end

end Sys2Proof.Machine

namespace Sys2Proof.Claims
open Machine

section
variable {s : State} {ci : Nat} (hup : s.agentUp (.csp ci) = true) {a len : Nat} (hlen : CspLen len) (halign : a % len = 0)
include hup hlen halign

/-- Instruction memory (R138). -/
theorem cspMemoryAccess_own (ha : a < 0x8000) :
    Gives (.cspMemoryAccess ci a len none []) s (s.gave (.csp ci) ((s.cluster ci).cspRead a len)) ∧
      ∀ v, Runs (.cspMemoryAccess ci a len (some v) []) s fun t => OnlyIn [.clusters] s t ∧
        ∀ k, Sparse.get (fun _ => (0 : Byte)) (t.cluster ci).csp k =
          if a ≤ k ∧ k < a + len then BitVec.ofNat 8 (v / 256 ^ (k - a)) else Sparse.get (fun _ => (0 : Byte)) (s.cluster ci).csp k := by
  have hmade := cspAccess_made hup hlen halign (cspPlace_unmapped (by omega) (by omega) (by omega))
  refine ⟨?_, fun v => ⟨s.modCluster ci fun c => c.cspWrite a (toLe len v), ?_, s.setCluster_onlyIn ci _, fun k => ?_⟩⟩
  · show execCspMemoryAccess ci a len none [] s = _
    simp only [execCspMemoryAccess, hmade, cspMem_own ha, State.strikes, List.foldl_nil, if_true]
  · show execCspMemoryAccess ci a len (some v) [] s = _
    simp only [execCspMemoryAccess, hmade, cspMem_own ha, State.strikes, List.foldl_nil, if_true]
  · rw [State.cluster_modCluster_same]
    refine (mget_msets (s.cluster ci).csp a k (toLe len v)).trans ?_
    rw [toLe_length]
    split
    · exact getD_toLe (by omega) v
    · rfl

/-- Loads of the cluster's store (R168). -/
theorem cspMemoryAccess_storeRead (hflaws : s.flaws = []) (ha : a < 0x80000) :
    Runs (.cspMemoryAccess ci (0x20000000 + a) len none []) s fun t =>
      (t.cluster ci).loaded = s.rdN (storeBase ci + a) len ∧ OnlyIn [.clusters] s t := by
  have hmade := cspAccess_made hup hlen (hlen.add_mod halign (b := 0x20000000) rfl) (cspPlace_unmapped (by omega) (by omega) (by omega))
  let u := s.setCluster ci (s.cluster ci)
  refine ⟨u.gave (.csp ci) (s.rdN (storeBase ci + a) len), ?_, u.loaded_gave ci _, OnlyIn.trans (s.setCluster_onlyIn ci _) (u.gave_onlyIn ci _)⟩
  show execCspMemoryAccess ci (0x20000000 + a) len none [] s = _
  simp only [execCspMemoryAccess, hmade, cspMem_store ha, State.strikes, List.foldl_nil, if_true, State.storeRead_clean hflaws]
  rfl

/-- Loads of a core's local memory (R79). -/
theorem cspMemoryAccess_coreRead (hflaws : s.flaws = []) {j : Nat} (hj : j < 64) (ha : a < 0x4000) :
    Runs (.cspMemoryAccess ci (0x30000000 + 0x10000 * j + a) len none []) s fun t =>
      (t.cluster ci).loaded = s.rdN (localBase (coreOf ci j) + a) len ∧ OnlyIn [.clusters, .cores] s t := by
  have hmade := cspAccess_made hup hlen (hlen.add_mod halign (b := 0x30000000 + 0x10000 * j) (by omega))
    (cspPlace_unmapped (by omega) (by omega) (by omega))
  let u := s.setCore (coreOf ci j) (s.core (coreOf ci j))
  refine ⟨u.gave (.csp ci) (s.rdN (localBase (coreOf ci j) + a) len), ?_, u.loaded_gave ci _,
    OnlyIn.trans ((s.setCore_onlyIn _ _).mono (by simp)) ((u.gave_onlyIn ci _).mono (by simp))⟩
  show execCspMemoryAccess ci (0x30000000 + 0x10000 * j + a) len none [] s = _
  simp only [execCspMemoryAccess, hmade, cspMem_core hj ha, State.strikes, List.foldl_nil, if_true, State.extRead_clean hflaws]
  rfl

/-- Stores to the cluster's store. -/
theorem cspMemoryAccess_storeWrite (v : Nat) (ha : a < 0x80000) (hhrv : s.hrv ≠ 2) :
    Runs (.cspMemoryAccess ci (0x20000000 + a) len (some v) []) s fun t => OnlyIn [.mem, .flaws, .clusters] s t ∧
      ∀ k, mget t.mem k = if storeBase ci + a ≤ k ∧ k < storeBase ci + a + len then BitVec.ofNat 8 (v / 256 ^ (k - (storeBase ci + a))) else mget s.mem k := by
  have hmade := cspAccess_made hup hlen (hlen.add_mod halign (b := 0x20000000) rfl) (cspPlace_unmapped (by omega) (by omega) (by omega))
  have hci := State.lt_of_cspUp hup
  have hend : a + len - 1 < 0x80000 ∧ 0 < len := by obtain rfl | rfl | rfl := hlen <;> omega
  have hrange : memRange (storeBase ci + a) (toLe len v).length = true := by
    rw [toLe_length, memRange, placeOf_store hci ha, show storeBase ci + a + len - 1 = storeBase ci + (a + len - 1) by omega, placeOf_store hci hend.1]
    exact beq_self_eq_true ci
  refine ⟨s.wr (storeBase ci + a) (toLe len v), ?_, s.wr_store_onlyIn hrange (placeOf_store hci ha), fun k => ?_⟩
  · show execCspMemoryAccess ci (0x20000000 + a) len (some v) [] s = _
    simp only [execCspMemoryAccess, hmade, cspMem_store ha, State.strikes, List.foldl_nil, if_true, State.wrS_unstaged hhrv]
  · rw [State.wr_mem _ _ _ hrange, mget_msets, toLe_length]
    split
    · exact getD_toLe (by omega) v
    · rfl

/-- In a Grafter's region a store to a core's local memory is discarded (R213). -/
theorem cspMemoryAccess_inRegion (v : Nat) {j : Nat} (hj : j < 64) (ha : a < 0x4000) (hregion : s.inRegion ci = true) :
    Gives (.cspMemoryAccess ci (0x30000000 + 0x10000 * j + a) len (some v) []) s s := by
  have hmade := cspAccess_made hup hlen (hlen.add_mod halign (b := 0x30000000 + 0x10000 * j) (by omega))
    (cspPlace_unmapped (by omega) (by omega) (by omega))
  show execCspMemoryAccess ci (0x30000000 + 0x10000 * j + a) len (some v) [] s = _
  simp only [execCspMemoryAccess, hmade, cspMem_core hj ha, State.strikes, List.foldl_nil, if_true, hregion]

end

/-- An address that names nothing. -/
theorem cspMemoryAccess_nothing {s : State} {ci : Nat} (hup : s.agentUp (.csp ci) = true) (v : Nat) :
    Gives (.cspMemoryAccess ci 0x60000000 4 none []) s (s.gave (.csp ci) 0) ∧ Gives (.cspMemoryAccess ci 0x60000000 4 (some v) []) s s := by
  have hmade := cspAccess_made (a := 0x60000000) hup (.inr (.inr rfl)) rfl (cspPlace_unmapped (by omega) (by omega) (by omega))
  have hmem : cspMem ci 0x60000000 = .nothing := rfl
  refine ⟨?_, ?_⟩
  · show execCspMemoryAccess ci 0x60000000 4 none [] s = _
    simp only [execCspMemoryAccess, hmade, hmem, State.strikes, List.foldl_nil, if_true]
  · show execCspMemoryAccess ci 0x60000000 4 (some v) [] s = _
    simp only [execCspMemoryAccess, hmade, hmem, State.strikes, List.foldl_nil, if_true]

/-- Settles O5: each kind of address on its own. -/
theorem cspMemoryAccess : Obligations.CspMemoryAccess :=
  fun _ _ hup => ⟨fun _ _ hlen halign ha => cspMemoryAccess_own hup hlen halign ha,
    fun _ _ hlen halign hflaws => ⟨fun ha => cspMemoryAccess_storeRead hup hlen halign hflaws ha,
      fun _ hj ha => cspMemoryAccess_coreRead hup hlen halign hflaws hj ha⟩,
    fun _ _ v hlen halign ha hhrv => cspMemoryAccess_storeWrite hup hlen halign v ha hhrv,
    fun _ _ _ v hlen halign ha hj hregion => cspMemoryAccess_inRegion hup hlen halign v hj ha hregion,
    cspMemoryAccess_nothing hup⟩

end Sys2Proof.Claims
end

section
/-! Patches, the phase switch, the launch time, the issue ramp and the Sieve's commands (O22). -/

namespace Sys2Proof.Machine

/-! ### Families of units -/

section
variable {α : Type}

/-- A unit is mapped as often as it is listed. -/
theorem Fam.get_mapAt_count [DecidableEq α] (units : List Nat) (g : α → α) (f : Fam α) (i : Nat) : (f.mapAt units g).get i = g^[units.count i] (f.get i) := by
  induction units generalizing f with
  | nil => rfl
  | cons j units ih =>
    have hcons : f.mapAt (j :: units) g = (f.set j (g (f.get j))).mapAt units g := rfl
    rw [hcons, ih]
    by_cases h : i = j
    · rw [h, Fam.get_set_same, List.count_cons_self, Function.iterate_succ_apply]
    · rw [Fam.get_set_other _ _ _ _ h, List.count_cons_of_ne (Ne.symm h)]

/-- A key reads as a default, or as an entry of the map. -/
theorem Sparse.get_eq_or_mem (d : Nat → α) (m : List (Nat × α)) (k : Nat) : Sparse.get d m k = d k ∨ (k, Sparse.get d m k) ∈ m := by
  induction m with
  | nil => exact .inl rfl
  | cons e m ih =>
    obtain ⟨j, v⟩ := e
    by_cases h : k = j
    · simp [Sparse.get, h]
    · simp only [Sparse.get, h, if_false]
      exact ih.imp_right (List.mem_cons_of_mem _)

/-- A unit that satisfies the test is listed. -/
theorem Fam.mem_units {n i : Nat} {p : α → Bool} {f : Fam α} (hi : i < n) (h : p (f.get i) = true) : i ∈ f.units n p := by
  unfold Fam.units
  split
  · exact List.mem_filter.2 ⟨List.mem_range.2 hi, h⟩
  · next hd =>
    obtain he | he := Sparse.get_eq_or_mem (fun _ => f.dflt) f.exc i
    · exact absurd (he ▸ h) hd
    · exact List.mem_map.2 ⟨(i, f.get i), List.mem_filter.2 ⟨he, by simp [hi, h]⟩, rfl⟩

end

/-! ### Broadcast patches (R135) -/

/-- A patched core's shadow parameters: the patch's values, and the others as they were. -/
theorem Core.rg_patchShadow (c : Core) (first : Nat) (vals : List Nat) (k : Nat) : rg (c.patchShadow first vals).regs .CORE_PRMS k =
    if first ≤ k ∧ k < first + vals.length then vals.getD (k - first) 0 % 2 ^ 32 else rg c.regs .CORE_PRMS k :=
  rg_foldl_sg c.regs .CORE_PRMS first k (vals.getD · 0) vals.length

/-- Patching again changes nothing more. -/
theorem Core.rg_patchShadow_iterate (c : Core) (first : Nat) (vals : List Nat) (k : Nat) {n : Nat} (h : 0 < n) :
    rg ((Core.patchShadow first vals)^[n] c).regs .CORE_PRMS k = rg (c.patchShadow first vals).regs .CORE_PRMS k := by
  induction n with
  | zero => omega
  | succ n ih =>
    rw [Function.iterate_succ_apply', Core.rg_patchShadow, Core.rg_patchShadow]
    split
    · rfl
    · next hk =>
      obtain rfl | hn := Nat.eq_zero_or_pos n
      · rfl
      · rw [ih hn, Core.rg_patchShadow, if_neg hk]

/-- A shadow parameter bank after a patch: every value of the patch in place, every other parameter as before. -/
theorem Core.shadow_patched {c d : Core} {first : Nat} {vals : List Nat}
    (h : ∀ k, rg d.regs .CORE_PRMS k = rg (c.patchShadow first vals).regs .CORE_PRMS k) :
    (∀ j, j < vals.length → rg d.regs .CORE_PRMS (first + j) = vals.getD j 0 % 2 ^ 32) ∧
      ∀ k, k < 64 → (k < first ∨ first + vals.length ≤ k) → rg d.regs .CORE_PRMS k = rg c.regs .CORE_PRMS k := by
  refine ⟨fun j hj => ?_, fun k _ hk => ?_⟩
  · rw [h, Core.rg_patchShadow, if_pos (by omega), Nat.add_sub_cancel_left]
  · rw [h, Core.rg_patchShadow, if_neg (by omega)]

/-! ### The phase switch (R197) -/

section
variable (s : State)

/-- The list selected on every core. -/
def State.selected (sel : Nat) : State := { s with cores := s.cores.map fun c => { c with regs := sf c.regs .CORE_LSEL 0 0 2 sel } }

/-- The phase-entry flag's patch, and its return at the next boundary. -/
def State.entryFlagged : State :=
  let t := if s.hf .STEP_CFG 0 13 1 = 1 then s.addPatch (s.hf .STEP_CFG 0 7 6) [1] else s
  { t with step := { t.step with prePatch := t.step.prePatch || t.hf .STEP_CFG 0 13 1 == 1 } }

/-- The list of the phase that begins. -/
def State.phaseList : Nat := if s.hf .STEP_CFG 0 1 1 = 1 then s.hf .STEP_CFG 0 5 2 else s.hf .STEP_CFG 0 3 2

/-- The state the phase switch leaves. -/
def State.phaseSwitched : State :=
  ((((s.selected s.phaseList).statPatch (s.hf .STEP_CFG 0 1 1 = 1)).entryFlagged).setHf .STEP_CFG 0 2 1 (s.hf .STEP_CFG 0 1 1)).afterAction 5

theorem State.rf_selected {sel : Nat} (h : sel < 4) (gi : Nat) : rf ((s.selected sel).core gi).regs .CORE_LSEL 0 0 2 = sel := by
  have hcore : (s.selected sel).core gi = { s.core gi with regs := sf (s.core gi).regs .CORE_LSEL 0 0 2 sel } := Fam.get_map _ _ _
  rw [hcore]
  exact (rf_sf_same _ _ _ _ _ _ (by omega)).trans (Nat.mod_eq_of_lt h)

theorem State.phaseList_lt : s.phaseList < 4 := by
  unfold State.phaseList
  split <;> exact bits_lt _ _ 2

variable {s}

theorem State.statPatch_onlyIn (gen : Bool) : OnlyIn [.step] s (s.statPatch gen) := fun p hp => (same_statPatch hp).2 (p.same_refl s)

theorem State.entryFlagged_onlyIn : OnlyIn [.step] s s.entryFlagged := by
  intro p hp
  have hout : p ≠ .step := by simpa using hp
  unfold State.entryFlagged
  simp [hout]

theorem State.mem_patches_entryFlagged (h : s.hf .STEP_CFG 0 13 1 = 1) : ⟨none, s.hf .STEP_CFG 0 7 6, [1]⟩ ∈ s.entryFlagged.step.patches := by
  unfold State.entryFlagged
  rw [if_pos h]
  exact List.mem_append_right _ (List.mem_singleton.2 rfl)

end

/-! ### The issue ramp (R398) -/

/-- Releasing a released cluster changes nothing. -/
theorem Cluster.release_iterate (c : Cluster) {n : Nat} (h : 0 < n ∨ c.released = true) :
    (fun c : Cluster => { c with released := true })^[n] c = { c with released := true } := by
  induction n with
  | zero =>
    have hrel : c.released = true := h.resolve_left (by omega)
    cases c
    cases hrel
    rfl
  | succ n ih =>
    rw [Function.iterate_succ_apply']
    obtain rfl | hn := Nat.eq_zero_or_pos n
    · rfl
    · rw [ih (.inl hn)]

end Sys2Proof.Machine

namespace Sys2Proof.Claims
open Machine

/-- Cores written, and the oldest patch no longer waiting. -/
theorem patchTaken_onlyIn (s : State) (cores : Fam Core) (rest : List Patch) :
    OnlyIn [.cores, .step] s { s with cores := cores, step := { s.step with patches := rest } } := by
  intro p hp
  have hout : p ≠ .cores ∧ p ≠ .step := by simpa using hp
  simp [hout]

/-- A patch without a rectangle lands in every core. -/
theorem broadcastPatchLand_all (s : State) (p : Patch) (rest : List Patch) (hp : s.step.patches = p :: rest) (hrect : p.rect = none) :
    Runs .broadcastPatchLand s fun t => t.step = { s.step with patches := rest } ∧ OnlyIn [.cores, .step] s t ∧
      ∀ gi, t.core gi = (s.core gi).patchShadow p.first p.vals ∧
        (∀ j, j < p.vals.length → rg (t.core gi).regs .CORE_PRMS (p.first + j) = p.vals.getD j 0 % 2 ^ 32) ∧
        ∀ k, k < 64 → (k < p.first ∨ p.first + p.vals.length ≤ k) → rg (t.core gi).regs .CORE_PRMS k = rg (s.core gi).regs .CORE_PRMS k := by
  have hgives : Gives .broadcastPatchLand s
      { s with cores := s.cores.map (Core.patchShadow p.first p.vals), step := { s.step with patches := rest } } := by
    show execBroadcastPatchLand s = _
    simp only [execBroadcastPatchLand, hp, hrect]
  refine ⟨_, hgives, rfl, patchTaken_onlyIn s _ rest, fun gi => ?_⟩
  have hcore := Fam.get_map (Core.patchShadow p.first p.vals) s.cores gi
  exact ⟨hcore, Core.shadow_patched fun k => congrArg (fun c : Core => rg c.regs .CORE_PRMS k) hcore⟩

/-- A patch with a rectangle lands in the cores it names alone. -/
theorem broadcastPatchLand_rect (s : State) (p : Patch) (rest : List Patch) (x0 y0 x1 y1 m : Nat) (hp : s.step.patches = p :: rest)
    (hrect : p.rect = some (x0, y0, x1, y1, m)) :
    Runs .broadcastPatchLand s fun t => t.step = { s.step with patches := rest } ∧ OnlyIn [.cores, .step] s t ∧
      (∀ gi, gi ∉ rectCores x0 y0 x1 y1 m → t.core gi = s.core gi) ∧
      ∀ gi, gi ∈ rectCores x0 y0 x1 y1 m →
        (∀ j, j < p.vals.length → rg (t.core gi).regs .CORE_PRMS (p.first + j) = p.vals.getD j 0 % 2 ^ 32) ∧
        ∀ k, k < 64 → (k < p.first ∨ p.first + p.vals.length ≤ k) → rg (t.core gi).regs .CORE_PRMS k = rg (s.core gi).regs .CORE_PRMS k := by
  let cores := s.cores.mapAt (rectCores x0 y0 x1 y1 m) (Core.patchShadow p.first p.vals)
  have hgives : Gives .broadcastPatchLand s { s with cores := cores, step := { s.step with patches := rest } } := by
    show execBroadcastPatchLand s = _
    simp only [execBroadcastPatchLand, hp, hrect]
    rfl
  refine ⟨_, hgives, rfl, patchTaken_onlyIn s _ rest, fun gi hgi => Fam.get_mapAt_other _ _ s.cores gi hgi, fun gi hgi => ?_⟩
  have hcore := Fam.get_mapAt_count (rectCores x0 y0 x1 y1 m) (Core.patchShadow p.first p.vals) s.cores gi
  exact Core.shadow_patched fun k => (congrArg (fun c : Core => rg c.regs .CORE_PRMS k) hcore).trans
    ((s.core gi).rg_patchShadow_iterate p.first p.vals k (List.count_pos_iff.2 hgi))

theorem broadcastPatchLand_none (s : State) (h : s.step.patches = []) : Gives .broadcastPatchLand s s := by
  show execBroadcastPatchLand s = _
  simp only [execBroadcastPatchLand, h]

/-- At action 5 the phase's list is selected, and REPLAY is next. -/
theorem phaseSwitch_switches (s : State) (h : s.atAction 5 = true) : Runs .phaseSwitch s fun t =>
    let gen := s.hf .STEP_CFG 0 1 1
    t.hf .STEP_CFG 0 2 1 = gen ∧ t.step.phase = .boundary 6 ∧ OnlyIn [.cores, .step, .hub] s t ∧
      (s.hf .STEP_CFG 0 13 1 = 1 → ⟨none, s.hf .STEP_CFG 0 7 6, [1]⟩ ∈ t.step.patches) ∧
      ∀ gi, rf (t.core gi).regs .CORE_LSEL 0 0 2 = if gen = 1 then s.hf .STEP_CFG 0 5 2 else s.hf .STEP_CFG 0 3 2 := by
  have hgives : Gives .phaseSwitch s s.phaseSwitched := if_pos h
  let u := (s.selected s.phaseList).statPatch (s.hf .STEP_CFG 0 1 1 = 1)
  have hselected : OnlyIn [.cores] s (s.selected s.phaseList) := fun p hp => by
    have hout : p ≠ .cores := by simpa using hp
    unfold State.selected
    simp [hout]
  have hu : OnlyIn [.cores, .step] s u :=
    OnlyIn.trans (hselected.mono (by simp)) ((State.statPatch_onlyIn _).mono (by simp))
  have hv : OnlyIn [.cores, .step] s u.entryFlagged := OnlyIn.trans hu (State.entryFlagged_onlyIn.mono (by simp))
  have hcores : u.entryFlagged.cores = (s.selected s.phaseList).cores :=
    (State.entryFlagged_onlyIn .cores (by simp)).trans ((State.statPatch_onlyIn _) .cores (by simp))
  refine ⟨_, hgives, ?_, rfl, fun p hp => ?_, fun hflag => ?_, fun gi => ?_⟩
  · exact (State.hf_setHf_same _ _ _ _ _ _ (by omega)).trans (Nat.mod_eq_of_lt (bits_lt _ _ 1))
  · have hout : p ≠ .cores ∧ p ≠ .step ∧ p ≠ .hub := by simpa using hp
    have hkept := hv p (by simp [hout])
    unfold State.phaseSwitched State.afterAction
    simp [hout, hkept, u]
  · have hflag' : u.hf .STEP_CFG 0 13 1 = 1 := (State.hf_of_hub (hu .hub (by simp)) _ _ _ _).trans hflag
    have hmem := State.mem_patches_entryFlagged hflag'
    rwa [State.hf_of_hub (hu .hub (by simp))] at hmem
  · have hcore : s.phaseSwitched.core gi = (s.selected s.phaseList).core gi := congrArg (fun f : Fam Core => f.get gi) hcores
    rw [hcore]
    exact s.rf_selected s.phaseList_lt gi

/-- A launch time that has come clears ARM (R316). -/
theorem launchTime_clears (s : State) (harm : s.hf .SDL_LAUNCHHI 0 31 1 = 1) (hat : s.atAction 6 = true) (htime : s.launchTime ≤ s.sundial) :
    Runs .launchTime s fun t => t.hf .SDL_LAUNCHHI 0 31 1 = 0 ∧ OnlyIn [.hub] s t :=
  ⟨_, if_pos ⟨harm, hat, htime⟩, State.hf_setHf_same _ _ _ _ _ _ (by omega), fun p hp => (same_setHf hp).2 (p.same_refl s)⟩

/-- A ramp group whose time has come is released, all of it and no other. -/
theorem rampGroupRelease_releases (s : State) (g : Nat) (hg : g < 8) (htime : 625 * g ≤ 2 * (s.sundial - s.step.ramp)) :
    Runs (.rampGroupRelease g) s fun t => OnlyIn [.clusters] s t ∧
      (∀ ci, ci < nClusters → (ci % 128 + ci / 128) % 8 = g → t.cluster ci = { s.cluster ci with released := true }) ∧
      ∀ ci, (ci % 128 + ci / 128) % 8 ≠ g → t.cluster ci = s.cluster ci := by
  let units := (s.clusters.units nClusters fun c => !c.released).filter fun ci => (ci % 128 + ci / 128) % 8 == g
  let release := fun c : Cluster => { c with released := true }
  have hcluster : ∀ ci, (s.clusters.mapAt units release).get ci = release^[units.count ci] (s.cluster ci) := fun ci =>
    Fam.get_mapAt_count units release s.clusters ci
  refine ⟨{ s with clusters := s.clusters.mapAt units release }, if_pos ⟨hg, htime⟩, fun p hp => ?_, fun ci hci hgroup => ?_, fun ci hgroup => ?_⟩
  · have hout : p ≠ .clusters := by simpa using hp
    simp [hout]
  · refine (hcluster ci).trans (Cluster.release_iterate _ ?_)
    by_cases hrel : (s.cluster ci).released = true
    · exact .inr hrel
    · exact .inl (List.count_pos_iff.2 (List.mem_filter.2 ⟨Fam.mem_units hci (by simpa [State.cluster] using hrel), by simpa using hgroup⟩))
  · have hnot : ci ∉ units := fun h => hgroup (by simpa using (List.mem_filter.1 h).2)
    exact (hcluster ci).trans (by rw [List.count_eq_zero.2 hnot]; rfl)

/-- RESUME leaves the halt and clears CONSEC (R261). -/
theorem sieveResume_resumes (s : State) (h : s.hf .SIV_STAT 0 4 1 = 1) :
    Runs .sieveResume s fun t => t.hf .SIV_STAT 0 4 1 = 0 ∧ t.hf .SIV_STAT 0 8 8 = 0 ∧ OnlyIn [.hub] s t := by
  refine ⟨_, if_pos h, ?_, State.hf_setHf_same _ _ _ _ _ _ (by omega), fun p hp => (same_setHf hp).2 ((same_setHf hp).2 (p.same_refl s))⟩
  rw [State.hf_setHf_field _ _ _ _ _ _ _ _ (by omega) (by omega)]
  exact State.hf_setHf_same _ _ _ _ _ _ (by omega)

/-- A remembered WCLR empties the window (R260). -/
theorem windowClear_empties (s : State) (h : s.sieve.clear = true) :
    s.windowClear.sieve = { s.sieve with window := [], clear := false } ∧ s.windowClear.hf .SIV_STAT 0 3 1 = 0 := by
  rw [State.windowClear, if_pos h]
  exact ⟨rfl, State.hf_setHf_same _ _ _ _ _ _ (by omega)⟩

/-- Settles O22: each command on its own. -/
theorem patchesAndPhases : Obligations.PatchesAndPhases :=
  ⟨fun s p rest hp _ hrect => broadcastPatchLand_all s p rest hp hrect,
    fun s p rest x0 y0 x1 y1 m hp _ hrect => broadcastPatchLand_rect s p rest x0 y0 x1 y1 m hp hrect, broadcastPatchLand_none, phaseSwitch_switches,
    launchTime_clears, rampGroupRelease_releases, fun _ _ hearly => if_neg fun h => by omega, sieveResume_resumes, fun _ => rfl, windowClear_empties⟩

end Sys2Proof.Claims
end

section
/-! Completion and error notices (O27). -/

namespace Sys2Proof.Machine

/-! ### Notices that meet no flit error -/

/-- A completion notice that counts, in a step whose gradients are counted. -/
theorem State.gradNotice_counts {s : State} {i : Nat} (hphase : s.step.phase = .running) (hlearn : s.generate = false)
    (htrained : lTrained (s.layer i) = true) (hshort : s.gradReady i = false) (hheld : s.coll.held = []) :
    s.gradNotice i = { s with step := { s.step with gdone := countAt s.step.gdone i } } := by
  have hcounts : (s.step.phase == .running && !s.generate && lTrained (s.layer i) && !s.gradReady i) = true := by
    simp [hphase, hlearn, htrained, hshort]
  rw [State.gradNotice, if_pos hcounts]
  exact State.settleColl_of_held hheld

/-- A completion notice that does not count is noted. -/
theorem State.gradNotice_noted {s : State} {i : Nat}
    (h : s.step.phase ≠ .running ∨ s.generate = true ∨ lTrained (s.layer i) = false ∨ s.gradReady i = true) : s.gradNotice i = s.setHf .STEP_STAT 0 0 1 1 := by
  have hnot : ¬(s.step.phase == .running && !s.generate && lTrained (s.layer i) && !s.gradReady i) = true := by
    obtain h | h | h | h := h <;> simp [h]
  exact if_neg hnot

/-- A direction notice that counts. -/
theorem State.dirNotice_counts {s : State} {i : Nat} (hphase : s.step.phase = .running) (hlearn : s.generate = false)
    (htrained : lTrained (s.layer i) = true) (hdirected : lDirected (s.layer i) = true) (hshort : s.dirReady i = false) :
    s.dirNotice i = { s with step := { s.step with ddone := countAt s.step.ddone i } } := by
  have hcounts : (s.step.phase == .running && !s.generate && lTrained (s.layer i) && lDirected (s.layer i) && !s.dirReady i) = true := by
    simp [hphase, hlearn, htrained, hdirected, hshort]
  exact if_pos hcounts

/-- An urgent packet that meets no flit error is taken with its argument. -/
theorem State.takeUrgent_clean {s t : State} {n code arg : Nat} {p : Packet} (htake : s.takePacket n = some (p, t)) (hbody : p.body = .urg code arg) :
    s.takeUrgent n code [] = some (p, some arg, t) := by
  simp [State.takeUrgent, htake, hbody, State.flits, State.meets]

/-- An error notice of an endpoint other than a stack, or of an error of a stack that its re-read may mend. -/
theorem execErrorNotice_fault {s t : State} {n arg : Nat} {p : Packet} (htake : s.takePacket n = some (p, t)) (hbody : p.body = .urg 9 arg)
    (h : (∀ k, p.src ≠ .hbm k) ∨ bits arg 0 16 ≠ St.HBM_UNCORRECTABLE) :
    let u := (t.noticeEvent p.src (bits arg 0 16) (bits arg 16 16) (bits arg 32 16)).chargeUe p.src (bits arg 0 16) (bits arg 16 16)
    execErrorNotice n [] s = if u.step.decided then .next u.lateFault else .next (u.decideReplay (bits arg 0 16)) := by
  simp only [execErrorNotice, State.takeUrgent_clean htake hbody]
  split
  next k hsrc hst => exact absurd (of_decide_eq_true hst) (h.resolve_left (not_forall_not.2 ⟨k, hsrc⟩))
  · rfl

/-- An error notice of an uncorrectable unit. -/
theorem execErrorNotice_hbm {s t : State} {n arg k : Nat} {p : Packet} (htake : s.takePacket n = some (p, t)) (hbody : p.body = .urg 9 arg)
    (hsrc : p.src = .hbm k) (hst : bits arg 0 16 = St.HBM_UNCORRECTABLE) : execErrorNotice n [] s = .next (t.hbmNotice k) := by
  simp only [execErrorNotice, State.takeUrgent_clean htake hbody, hsrc, hst, decide_true]

/-- The oldest uncorrectable unit of a stack is handled, and leaves the list of those noticed. -/
theorem State.hbmNotice_of_ue {s : State} {k w : Nat} {persist : Bool} (h : (s.rel.ues.find? fun e => e.1 == k) = some (k, w, persist)) :
    let u := { s with rel := { s.rel with ues := s.rel.ues.erase (k, w, persist) } }.noticeEvent (.hbm k) St.HBM_UNCORRECTABLE 0 w
    s.hbmNotice k = if persist then (u.hbmLoss w).permFault else if u.step.decided then u.lateFault else u.decideReplay St.HBM_UNCORRECTABLE := by
  simp only [State.hbmNotice, State.ueOf, h]

end Sys2Proof.Machine

namespace Sys2Proof.Claims
open Machine

/-- Settles O27: a completion notice counts exactly under the test it makes, and an error notice is handled by its source and status. -/
theorem noticesReachTheHub : Obligations.NoticesReachTheHub := by
  refine ⟨?_, ?_, ?_, ?_⟩
  · intro s t n i htake hphase hlearn htrained hshort hheld
    have hexec : execGdoneNotice n [] s = .next (t.gradNotice i) := by simp only [execGdoneNotice, htake]
    exact hexec.trans (congrArg Host.Outcome.next (State.gradNotice_counts hphase hlearn htrained hshort hheld))
  · intro s t n i htake hnot
    have hexec : execGdoneNotice n [] s = .next (t.gradNotice i) := by simp only [execGdoneNotice, htake]
    exact hexec.trans (congrArg Host.Outcome.next (State.gradNotice_noted hnot))
  · intro s t n i htake hphase hlearn htrained hdirected hshort
    have hexec : execDdoneNotice n [] s = .next (t.dirNotice i) := by simp only [execDdoneNotice, htake]
    exact hexec.trans (congrArg Host.Outcome.next (State.dirNotice_counts hphase hlearn htrained hdirected hshort))
  · intro s t n arg p htake hbody
    refine ⟨fun h => ⟨fun hdecided => ?_, fun hdecided => ?_⟩, fun k w persist hsrc hst hue => ⟨fun hp => ?_, fun hp hdecided => ?_, fun hp hdecided => ?_⟩⟩
    · exact (execErrorNotice_fault htake hbody h).trans (if_pos hdecided)
    · exact (execErrorNotice_fault htake hbody h).trans (if_neg (by simp [hdecided]))
    all_goals
      refine (execErrorNotice_hbm htake hbody hsrc hst).trans (congrArg Host.Outcome.next ((State.hbmNotice_of_ue hue).trans ?_))
    · exact if_pos hp
    · exact (if_neg (by simp [hp])).trans (if_pos hdecided)
    · exact (if_neg (by simp [hp])).trans (if_neg (by simp [hdecided]))

end Sys2Proof.Claims
end

section
/-! SET_GRID on a module whose links have not trained (O32). -/

namespace Sys2Proof.Machine

/-- Without a trained link and outside a job the grid in force is one module, whatever LNK_GRID holds (R26). -/
theorem State.xl_of_unlinked {s : State} (hjob : s.step.job = false) (hunlinked : s.unlinked = true) : s.xl = 1 := by
  simp [State.xl, State.solo, hjob, hunlinked]

end Sys2Proof.Machine

namespace Sys2Proof.Claims
open Machine

/-- A SET_GRID of two modules in a row, with the map entries 0x40 and 0x41. -/
def gridOfTwo : Cmd := ⟨0xD042, 7, 2, [2#8, 1#8, 64#8, 65#8] ++ List.replicate 62 0#8⟩

/-- Reset, with no Dorhel link trained, and the command in the queue. -/
def unlinkedGridOfTwo : State := { State.reset with mb := { State.reset.mb with cmds := [gridOfTwo] } }

/-- The command is carried out, and the module has no job and no trained link afterwards either. -/
theorem setGrid_unlinkedGridOfTwo {t : State} (ht : exec .setGrid unlinkedGridOfTwo = .next t) : t.step.job = false ∧ t.unlinked = true := by
  have hafter : (match execSetGrid unlinkedGridOfTwo with | .next t => !t.step.job && t.unlinked | _ => false) = true := by decide +kernel
  have hexec : execSetGrid unlinkedGridOfTwo = .next t := ht
  rw [hexec] at hafter
  simpa using hafter

/-- Refutes O32: in `unlinkedGridOfTwo` SET_GRID writes a grid of two, but a module without a trained link is a group of one (R26), so the grid
in force stays one module wide. -/
theorem not_shortCommandsAct : ¬ Obligations.ShortCommandsAct := by
  intro h
  obtain ⟨-, -, -, hgrid, -⟩ := h
  have hwaits : Waits unlinkedGridOfTwo 0xD042 gridOfTwo := by unfold Waits; decide +kernel
  have hdistinct : ∀ r q, r < q → q < 2 * 1 → gridOfTwo.field (2 + r) 1 % 64 ≠ gridOfTwo.field (2 + q) 1 % 64 := fun r q hrq hq => by
    obtain ⟨rfl, rfl⟩ : r = 0 ∧ q = 1 := by omega
    decide
  obtain ⟨t, ht, -, hxl, -⟩ := hgrid unlinkedGridOfTwo gridOfTwo 2 1 hwaits (by decide +kernel) (by decide +kernel) (by decide) (by decide)
    (by decide) (by decide) (by decide) hdistinct (by decide +kernel) (by decide +kernel)
  obtain ⟨hjob, hunlinked⟩ := setGrid_unlinkedGridOfTwo ht
  exact absurd (hxl.symm.trans (State.xl_of_unlinked hjob hunlinked)) (by decide)

end Sys2Proof.Claims
end

section
/-! The end of a step's lists, the Rake's closing and the norm all-reduce (O24). -/

namespace Sys2Proof.Machine

/-! ### The course of a step -/

/-- The step's record agrees on how far the step has come: its phase and decision, the job's stop, the votes and the group payload. -/
structure SameCourse (s t : State) : Prop where
  phase : t.step.phase = s.step.phase
  decided : t.step.decided = s.step.decided
  commit : t.step.commit = s.step.commit
  stopping : t.step.stopping = s.step.stopping
  votes : t.step.votes = s.step.votes
  group : t.step.group = s.step.group

section
variable {s t u : State}

theorem SameCourse.refl (s : State) : SameCourse s s := ⟨rfl, rfl, rfl, rfl, rfl, rfl⟩

theorem SameCourse.trans (hst : SameCourse s t) (htu : SameCourse t u) : SameCourse s u :=
  ⟨htu.phase.trans hst.phase, htu.decided.trans hst.decided, htu.commit.trans hst.commit, htu.stopping.trans hst.stopping,
    htu.votes.trans hst.votes, htu.group.trans hst.group⟩

theorem SameCourse.of_step (h : t.step = s.step) : SameCourse s t := by constructor <;> rw [h]

theorem SameCourse.foldl {α : Type} {l : List α} {f : State → α → State} (h : ∀ v x, SameCourse v (f v x)) : SameCourse s (l.foldl f s) :=
  List.foldlRecOn (motive := SameCourse s) l f (.refl s) fun v hv x _ => hv.trans (h v x)

/-! ### What keeps the course: the vote's effects (R235), and what a boundary begins with (R23) -/

theorem SameCourse.actVote (s : State) (k g : Nat) (j : GJob) : SameCourse s (s.actVote k g j) := by
  unfold State.actVote
  extract_lets d
  split
  next w _ =>
    extract_lets s1 s2 s3
    have h1 : s1.step = s.step := (same_putRoot (p := .step) (by simp)).2 rfl
    have h2 : s2.step = s1.step := (same_setFactorField (p := .step) (by simp)).2 ((same_setFactorField (p := .step) (by simp)).2 rfl)
    have h3 : s3.step = s2.step := by
      unfold s3
      split
      · exact (same_grfCount (p := .step) (by simp)).2 rfl
      · rfl
    exact (SameCourse.of_step (h3.trans (h2.trans h1))).trans ⟨rfl, rfl, rfl, rfl, rfl, rfl⟩
  · exact .of_step ((same_staleCount (p := .step) (by simp)).2 rfl)

theorem SameCourse.combineVote (s : State) (mn mx : Nat) : SameCourse s (s.combineVote mn mx) := by
  unfold State.combineVote
  split
  · exact .refl s
  · refine SameCourse.trans (t := { s with step := { s.step with voted := true } }) ⟨rfl, rfl, rfl, rfl, rfl, rfl⟩ (.foldl fun v f => ?_)
    extract_lets k i g v1 v2
    have h1 : SameCourse v v1 := by
      unfold v1
      split
      · exact .of_step ((same_grfCount (p := .step) (by simp)).2 rfl)
      · exact .refl v
    have h2 : SameCourse v1 v2 := by
      unfold v2
      split
      · split
        · exact (SameCourse.actVote _ _ _ _).trans (.of_step ((same_setJob (p := .step) (by simp)).2 rfl))
        · exact .refl v1
      · exact .refl v1
    refine (h1.trans h2).trans (.foldl fun w j => ?_)
    split
    · exact (SameCourse.actVote _ _ _ _).trans (.of_step ((same_setGrafter (p := .step) (by simp)).2 rfl))
    · exact .refl w

theorem SameCourse.staleCheck (s : State) : SameCourse s s.staleCheck := by
  refine .foldl fun v e => ?_
  extract_lets f w
  have hw : SameCourse v w := .of_step ((same_event (p := .step) (by simp)).2 rfl)
  split
  · split
    · exact hw.trans ⟨rfl, rfl, rfl, rfl, rfl, rfl⟩
    · exact hw
  · exact .refl v

theorem SameCourse.addPatch (s : State) (first : Nat) (vals : List Nat) : SameCourse s (s.addPatch first vals) := ⟨rfl, rfl, rfl, rfl, rfl, rfl⟩

theorem SameCourse.ite {c : Prop} [Decidable c] (ht : SameCourse s t) (hu : SameCourse s u) : SameCourse s (if c then t else u) := by
  split
  · exact ht
  · exact hu

theorem SameCourse.boundaryPatches (s : State) : SameCourse s s.boundaryPatches := by
  unfold State.boundaryPatches
  extract_lets s1 x y s2 s3 s4
  have h1 : SameCourse s s1 := .foldl fun v e => .addPatch v _ _
  have h2 : SameCourse s1 s2 := .ite ⟨rfl, rfl, rfl, rfl, rfl, rfl⟩ (.refl s1)
  have h3 : SameCourse s2 s3 := .ite (.addPatch s2 _ _) (.refl s2)
  have h4 : SameCourse s3 s4 := .ite (.addPatch s3 _ _) (.refl s3)
  exact (h1.trans (h2.trans (h3.trans h4))).trans (.ite (.addPatch s4 _ _) (.refl s4))

theorem SameCourse.auditBegin (s : State) : SameCourse s s.auditBegin := by
  unfold State.auditBegin
  extract_lets s1 k
  exact .ite ⟨rfl, rfl, rfl, rfl, rfl, rfl⟩ ⟨rfl, rfl, rfl, rfl, rfl, rfl⟩

/-- A boundary begins at its first action, and nothing else of the course changes. -/
theorem SameCourse.openBoundary (s : State) : SameCourse { s with step := { s.step with phase := .boundary 1 } } s.openBoundary := by
  unfold State.openBoundary
  extract_lets x s1 y s2
  have h1 : SameCourse { s with step := { s.step with phase := .boundary 1 } } s1 := ⟨rfl, rfl, rfl, rfl, rfl, rfl⟩
  have h2 : SameCourse s1 s2 := ⟨rfl, rfl, rfl, rfl, rfl, rfl⟩
  have hcleared : SameCourse s2 s2.windowClear := .of_step ((same_windowClear (p := .step) (by simp)).2 rfl)
  exact (h1.trans (h2.trans hcleared)).trans ((SameCourse.staleCheck _).trans ((SameCourse.boundaryPatches _).trans (.auditBegin _)))

/-- A job that was not told to stop goes on through the boundary. -/
theorem SameCourse.beginBoundary (h : s.step.stopping = false) :
    SameCourse { s with step := { s.step with phase := .boundary 1 } } s.beginBoundary := by
  unfold State.beginBoundary
  extract_lets x s1
  have hs1 : s1.step = s.step := by
    unfold s1
    split
    · exact (same_sampleN (p := .step) (by simp)).2 rfl
    · rfl
  rw [if_neg (by simp [hs1, h])]
  refine SameCourse.trans ?_ (.openBoundary s1)
  exact .of_step (congrArg (fun x : StepState => { x with phase := .boundary 1 }) hs1)

end

/-! ### The end of the lists (R130) -/

section
variable {s : State}

theorem State.settleLists_waits (h : s.listsDone = false ∨ s.step.phase ≠ .running ∨ s.generate = false ∧ s.shortLayer = none) : s.settleLists = s := by
  unfold State.settleLists
  split
  next hdue =>
    simp only [Bool.and_eq_true, beq_iff_eq] at hdue
    obtain ⟨⟨⟨⟨hphase, hdone⟩, -⟩, -⟩, -⟩ := hdue
    obtain h | h | ⟨hgen, hshort⟩ := h
    · exact absurd (h.symm.trans hdone) (by simp)
    · exact absurd hphase h
    · rw [if_neg (by simp [hgen]), hshort]
  · rfl

theorem State.settleLists_generate (hphase : s.step.phase = .running) (hdone : s.listsDone = true) (hfaulted : s.step.faulted = false)
    (hheld : s.step.held = 0) (hdecided : s.step.decided = false) (hgen : s.generate = true) : s.settleLists = s.endGenerate := by
  have hdue : (s.step.phase == .running && s.listsDone && !s.step.faulted && s.step.held == 0 && !s.step.decided) = true := by
    simp [hphase, hdone, hfaulted, hheld, hdecided]
  rw [State.settleLists, if_pos hdue, if_pos hgen]

/-- A GENERATE step ends decided, with nothing to commit, and its boundary begins (R198). -/
theorem State.endGenerate_course (h : s.step.stopping = false) :
    s.endGenerate.step.phase = .boundary 1 ∧ s.endGenerate.step.decided = true ∧ s.endGenerate.step.commit = false := by
  unfold State.endGenerate
  extract_lets s1 s2 x s3
  let d := { s2 with step := { s2.step with decided := true, commit := false, final := [], counted := 0, late := 3 } }
  have hclosed : d.closeReports.step = d.step := (same_closeReports (p := .step) (by simp)).2 rfl
  have hopen : SameCourse d s3 := (SameCourse.of_step hclosed).trans ⟨rfl, rfl, rfl, rfl, rfl, rfl⟩
  have hjournal : ((s3.putJournal 3).putJdone s3.stepNo).step = s3.step :=
    (same_putJdone (p := .step) (by simp)).2 ((same_putJournal (p := .step) (by simp)).2 rfl)
  have hkept := hopen.trans (.of_step hjournal)
  have hbegun := SameCourse.beginBoundary (hkept.stopping.trans h)
  exact ⟨hbegun.phase, hbegun.decided.trans hkept.decided, hbegun.commit.trans hkept.commit⟩

end

/-! ### The Rake's closing (R254, R343) -/

/-- A core after the counters of R87 have been read. -/
def Core.counted (c : Core) : Core := { c with regs := sf (sg (sg c.regs .CORE_HZCNT 0 0) .CORE_BKCNT 0 0) .CORE_ECC 0 0 16 0 }

theorem Core.ce_counted (c : Core) : c.counted.ce = 0 := rf_sf_same _ _ _ _ _ _ (by omega)

theorem Core.hzcnt_counted (c : Core) : rg c.counted.regs .CORE_HZCNT = 0 := by
  rw [Core.counted, sf, rg_sg_other _ _ _ _ _ _ (by decide), rg_sg_other _ _ _ _ _ _ (by decide), rg_sg_same,
    Nat.zero_mod]

/-- Every core's counters are read. -/
theorem State.core_closeReports (s : State) (gi : Nat) : ∃ c : Core, s.closeReports.core gi = c.counted :=
  ⟨_, Fam.get_map Core.counted _ gi⟩

/-! ### The norm all-reduce (R255) -/

/-- The state in which the module takes part: its vote is latched and in its payload. -/
def State.normVoted (s : State) : State :=
  let v := packVote (s.takeVote.step.votes.getD [])
  { s.takeVote with
    step := { s.takeVote.step with own := { s.takeVote.step.own with vmin := v, vmax := v } }, coll := { s.takeVote.coll with normOn := true } }

theorem State.normBegin_eq (s : State) : s.normBegin =
    s.normVoted.normStep (smallStart (s.normVoted.ring false) (s.normVoted.ring true) s.normVoted.myCol s.normVoted.myRow s.normVoted.step.own.toList) := rfl

theorem State.votes_normVoted (s : State) : s.normVoted.step.votes.isSome = true := by
  show s.takeVote.step.votes.isSome = true
  unfold State.takeVote
  split
  next v hv => simp [hv]
  · rfl

/-- The registers of R255 are written in turn. -/
def State.putNorm (s : State) (g : Norm) : State :=
  let s := (List.range 10).foldl (fun (t : State) i => t.setH .RKE_SQ i (bits g.sq (32 * i) 32)) s
  (s.setH .RKE_STAT 0 (min g.nf 0x7FFF + min g.abs 0x7FFF * 2 ^ 15 + b2n g.sat * 2 ^ 30)).setH .RKE_DROP 0 (min g.drop (2 ^ 32 - 1))

theorem State.normDone_eq (s : State) (g : Norm) : s.normDone g =
    ({ s with step := { s.step with group := some g }, coll := { s.coll with normOn := false, normAcc := none } }.putNorm g).combineVote g.vmin g.vmax := rfl

theorem same_putNorm {p : Part} {s t : State} {g : Norm} (h : p.outside [.hub]) : p.same s (t.putNorm g) ↔ p.same s t := by
  simp_all [State.putNorm]

theorem State.hub_foldl_setH (s : State) (r : Reg) (v : Nat → Nat) (l : List Nat) :
    (l.foldl (fun (t : State) i => t.setH r i (v i)) s).hub = l.foldl (fun g i => sg g r i (v i)) s.hub :=
  (List.foldl_hom State.hub fun _ _ => rfl).symm

/-- RKE_SQ reads as the payload's sum, by words. -/
theorem State.sq_putNorm (s : State) (g : Norm) {i : Nat} (hi : i < 10) : (s.putNorm g).h .RKE_SQ i = bits g.sq (32 * i) 32 := by
  have hrun := rg_foldl_sg s.hub .RKE_SQ 0 i (fun i => bits g.sq (32 * i) 32) 10
  rw [if_pos (by omega)] at hrun
  simp only [Nat.zero_add, Nat.sub_zero] at hrun
  unfold State.putNorm
  extract_lets t
  rw [State.h_setH_other _ _ _ _ _ _ (by simp only [Reg.offset, Reg.info]; omega), State.h_setH_other _ _ _ _ _ _ (by simp only [Reg.offset, Reg.info]; omega)]
  rw [State.h, State.hub_foldl_setH, hrun]
  exact Nat.mod_eq_of_lt (bits_lt _ _ _)

/-- The group payload here: it is kept, the all-reduce is over, and neither the votes nor the frames held change. -/
theorem State.normDone_outcome (s : State) (g : Norm) : (s.normDone g).step.votes = s.step.votes ∧ (s.normDone g).step.group = some g ∧
    (s.normDone g).coll.held = s.coll.held := by
  rw [State.normDone_eq]
  let d := { s with step := { s.step with group := some g }, coll := { s.coll with normOn := false, normAcc := none } }
  have hstep : (d.putNorm g).step = d.step := (same_putNorm (p := .step) (by simp)).2 rfl
  have hcoll : (d.putNorm g).coll = d.coll := (same_putNorm (p := .coll) (by simp)).2 rfl
  have hvoted : ((d.putNorm g).combineVote g.vmin g.vmax).coll = (d.putNorm g).coll := (same_combineVote (p := .coll) (by simp)).2 rfl
  have hcourse := (SameCourse.of_step hstep).trans (.combineVote (d.putNorm g) g.vmin g.vmax)
  exact ⟨hcourse.votes, hcourse.group, (congrArg Coll.held (hvoted.trans hcoll) :)⟩

/-- What a norm all-reduce does next leaves the all-reduce under way, or ends it with the group payload. -/
theorem State.normStep_outcome {s : State} (hon : s.coll.normOn = true) (r : Small) : (s.normStep r).step.votes = s.step.votes ∧
    (s.normStep r).coll.held = s.coll.held ∧ ((s.normStep r).coll.normOn = true ∨ (s.normStep r).step.group.isSome = true) := by
  unfold State.normStep
  extract_lets s1 x s2
  have hstep : s1.step = s.step := (same_smallSend (p := .step) (by simp)).2 rfl
  have hcoll : s1.coll = s.coll := (same_smallSend (p := .coll) (by simp)).2 rfl
  have h2 : s2.step = s.step ∧ s2.coll.held = s.coll.held ∧ s2.coll.normOn = s.coll.normOn := by
    unfold s2
    split
    · exact ⟨hstep, (congrArg Coll.held hcoll :), (congrArg Coll.normOn hcoll :)⟩
    · exact ⟨hstep, congrArg Coll.held hcoll, congrArg Coll.normOn hcoll⟩
  obtain ⟨hstep2, hheld2, hon2⟩ := h2
  split
  next v _ =>
    obtain ⟨hvotes, hgroup, hheld⟩ := s2.normDone_outcome (normOf v)
    exact ⟨hvotes.trans (congrArg StepState.votes hstep2), hheld.trans hheld2, .inr (by rw [hgroup]; rfl)⟩
  · exact ⟨congrArg StepState.votes hstep2, hheld2, .inl (hon2.trans hon)⟩

/-- The vote latched and the module taking part: the frames held are those held before. -/
theorem State.normBegin_outcome (s : State) : s.normBegin.step.votes.isSome = true ∧ s.normBegin.coll.held = s.coll.held ∧
    (s.normBegin.coll.normOn = true ∨ s.normBegin.step.group.isSome = true) := by
  rw [State.normBegin_eq]
  obtain ⟨hvotes, hheld, hover⟩ := State.normStep_outcome (s := s.normVoted) rfl
    (smallStart (s.normVoted.ring false) (s.normVoted.ring true) s.normVoted.myCol s.normVoted.myRow s.normVoted.step.own.toList)
  have hcoll : s.takeVote.coll = s.coll := (same_takeVote (p := .coll) (by simp)).2 rfl
  exact ⟨hvotes ▸ s.votes_normVoted, hheld.trans (congrArg Coll.held hcoll :), hover⟩

/-! ### A group of one -/

theorem normOf_toList (n : Norm) : normOf n.toList = n := by
  obtain ⟨sq, nf, abs, drop, sat, flags, vmin, vmax⟩ := n
  cases sat <;> rfl

/-- A group of one has its result at once, and sends nothing. -/
theorem smallStart_alone (x y : Nat) (v : List Nat) : smallStart 1 1 x y v = ⟨[], none, some v⟩ := rfl

theorem State.combineVote_of_voted {s : State} (h : s.step.voted = true) (mn mx : Nat) : s.combineVote mn mx = s := if_pos h

/-- In a group of one whose vote is latched and was combined, the all-reduce gives the module's own payload back. -/
theorem State.normBegin_alone {s : State} {v : List Nat} (hvotes : s.step.votes = some v) (hvoted : s.step.voted = true) (hx : s.ring false = 1)
    (hy : s.ring true = 1) :
    let g : Norm := { s.step.own with vmin := packVote v, vmax := packVote v }
    s.normBegin = { s with step := { s.step with own := g, group := some g }, coll := { s.coll with normOn := false, normAcc := none } }.putNorm g := by
  intro g
  have htake : s.takeVote = s := by simp only [State.takeVote, hvotes]
  have hbegun : s.normVoted = { s with step := { s.step with own := g }, coll := { s.coll with normOn := true } } := by
    rw [State.normVoted, htake, hvotes]
    rfl
  have hringx : s.normVoted.ring false = 1 := by rw [hbegun]; exact hx
  have hringy : s.normVoted.ring true = 1 := by rw [hbegun]; exact hy
  have hown : s.normVoted.step.own = g := by rw [hbegun]
  rw [State.normBegin_eq, hringx, hringy, smallStart_alone, hown]
  show s.normVoted.normDone (normOf g.toList) = _
  rw [normOf_toList, State.normDone_eq, hbegun]
  refine State.combineVote_of_voted ?_ _ _
  have hstep : ∀ d : State, (d.putNorm g).step = d.step := fun d => (same_putNorm (p := .step) (by simp)).2 rfl
  rw [hstep]
  exact hvoted

end Sys2Proof.Machine

namespace Sys2Proof.Claims
open Machine

/-- The Rake closes over the module's own fields. -/
theorem rakeClose_gives {s : State} (hphase : s.step.phase = .running) (hdone : s.listsDone = true) (hgen : s.generate = false)
    (hfaulted : s.step.faulted = false) (hheld : s.step.held = 0) (hclosed : s.step.closed = false) (hdecided : s.step.decided = false) :
    let own : Norm := { sq := s.rake.acc, nf := s.rake.nf, abs := s.rake.abs, drop := s.rake.drop, sat := s.rake.sat, flags := s.fpflags, vmin := 0, vmax := 0 }
    let t := s.closeReports.setHf .RKE_FPFLAGS 0 0 5 s.fpflags
    Gives .rakeClose s { t with rake := Rake.init, step := { t.step with closed := true, own := own } } := by
  have hdue : (s.step.phase == .running && s.listsDone && !s.generate && !s.step.faulted && s.step.held == 0 && !s.step.closed && !s.step.decided) = true := by
    simp [hphase, hdone, hgen, hfaulted, hheld, hclosed, hdecided]
  exact if_pos hdue

/-- The all-reduce begins, and with no frame held nothing else is taken in. -/
theorem normAllreduce_gives {s : State} (hphase : s.step.phase = .running) (hclosed : s.step.closed = true) (hgroup : s.step.group = none)
    (hfaulted : s.step.faulted = false) (hheld : s.step.held = 0) (hexch : s.step.exch = none) (hdue : s.step.due = none)
    (hoff : s.coll.normOn = false) (hframes : s.coll.held = []) : Gives .normAllreduce s s.normBegin := by
  obtain ⟨-, hkept, -⟩ := s.normBegin_outcome
  have hready : s.normReady = true := by simp [State.normReady, hphase, hclosed, hgroup, hfaulted, hheld, hexch, hdue, hoff]
  have hexec : execNormAllreduce s = .next s.normBegin.settleColl := if_pos hready
  rw [State.settleColl_of_held (hkept.trans hframes)] at hexec
  exact hexec

/-- The core that has completed its list, counted in its cluster. -/
def listReported (s : State) (gi : Nat) : State :=
  ((s.setCore gi ((s.core gi).setState 0)).setCf (coreCi gi) .CLU_STAT 0 0 7 (min (rf (s.cluster (coreCi gi)).regs .CLU_STAT 0 0 7 + 1) 64)).irq (coreCi gi)

theorem listComplete_gives {s : State} {gi : Nat} (h : (s.core gi).listDone = true) : Gives (.listComplete gi) s (listReported s gi).settleLists :=
  if_pos h

theorem listReported_core (s : State) (gi : Nat) : (listReported s gi).core gi = (s.core gi).setState 0 := by
  unfold listReported
  exact State.core_setCore_same s gi _

theorem listReported_count (s : State) (gi : Nat) : rf ((listReported s gi).cluster (coreCi gi)).regs .CLU_STAT 0 0 7 =
    min (rf (s.cluster (coreCi gi)).regs .CLU_STAT 0 0 7 + 1) 64 := by
  unfold listReported
  rw [State.regs_irq, State.regs_setCf, rf_sf_same _ _ _ _ _ _ (by omega)]
  omega

theorem listReported_onlyIn (s : State) (gi : Nat) : OnlyIn [.cores, .clusters] s (listReported s gi) := fun p hp => by
  unfold listReported
  simp only [List.mem_cons, List.not_mem_nil, or_false, not_or] at hp
  simp [hp]

theorem listReported_otherCores (s : State) (gi : Nat) : otherCores gi s (listReported s gi) := by
  unfold listReported
  exact s.setCore_otherCores gi _

/-- Settles O24: the last list ends a GENERATE step, the Rake closes, and the all-reduce begins, each from what it gives. -/
theorem listsAndRakeClose : Obligations.ListsAndRakeClose := by
  refine ⟨?_, ?_, ?_, ?_, ?_⟩
  · intro s gi hlist u hwaits
    have hgives := listComplete_gives hlist
    rw [State.settleLists_waits (s := listReported s gi) hwaits] at hgives
    have hwin : (s.core gi).win = [] := by
      simp only [Core.listDone, Bool.and_eq_true, List.isEmpty_iff] at hlist
      obtain ⟨⟨⟨-, hwin⟩, -⟩, -⟩ := hlist
      exact hwin
    refine ⟨_, hgives, ?_, ?_, listReported_count s gi, listReported_onlyIn s gi, listReported_otherCores s gi⟩
    · rw [listReported_core]
      exact Core.state_setState _ (by omega)
    · rw [listReported_core]
      exact hwin
  · intro s gi hlist u hdone hphase hfaulted hheld hdecided hstopping hgen
    have hgives := listComplete_gives hlist
    rw [State.settleLists_generate (s := listReported s gi) hphase hdone hfaulted hheld hdecided hgen] at hgives
    exact ⟨_, hgives, State.endGenerate_course (s := listReported s gi) hstopping⟩
  · intro s hphase hdone hgen hfaulted hheld hclosed hdecided
    have hgives := rakeClose_gives hphase hdone hgen hfaulted hheld hclosed hdecided
    have hcores := s.core_closeReports
    generalize s.closeReports = u at hgives hcores
    refine ⟨_, hgives, rfl, rfl, rfl, rfl, rfl, rfl, rfl, rfl, State.hf_setHf_same u _ _ _ _ _ (by omega), fun gi => ?_⟩
    obtain ⟨c, hc⟩ := hcores gi
    show (u.core gi).ce = 0 ∧ rg (u.core gi).regs .CORE_HZCNT = 0
    rw [hc]
    exact ⟨c.ce_counted, c.hzcnt_counted⟩
  · intro s hphase hclosed hgroup hfaulted hheld hexch hdue hoff hframes
    obtain ⟨hvotes, -, hover⟩ := s.normBegin_outcome
    exact ⟨_, normAllreduce_gives hphase hclosed hgroup hfaulted hheld hexch hdue hoff hframes, hvotes, hover⟩
  · intro s v hphase hclosed hgroup hfaulted hheld hexch hdue hoff hvotes hvoted hx hy hframes
    have hgives := normAllreduce_gives hphase hclosed hgroup hfaulted hheld hexch hdue hoff hframes
    rw [State.normBegin_alone hvotes hvoted hx hy] at hgives
    have hsame : ∀ (p : Part) (d : State) (g : Norm), p.outside [.hub] → p.same d (d.putNorm g) := fun p d g h => (same_putNorm h).2 (p.same_refl d)
    refine ⟨_, hgives, congrArg StepState.group (hsame .step _ _ (by simp)), congrArg Coll.normOn (hsame .coll _ _ (by simp)),
      fun i hi => State.sq_putNorm _ _ hi, fun p hp => ?_⟩
    simp only [List.mem_cons, List.not_mem_nil, or_false, not_or] at hp
    exact (same_putNorm (by simp [hp])).2 (by simp [hp])

end Sys2Proof.Claims
end

section
/-! Packets that are delivered and meet no flit error (O17, O19, O20). -/

namespace Sys2Proof.Machine

section
variable {s t : State}

@[simp] theorem State.flits_nil (s : State) (p : Packet) : s.flits p [] = (s, false) := rfl

@[simp] theorem State.flipped_nil (s : State) (p : Packet) (data : List Byte) : s.flipped p [] data = data := rfl

theorem State.takePacket_onlyIn {n : Nat} {p : Packet} (h : s.takePacket n = some (p, t)) : OnlyIn [.net] s t :=
  fun q hq => (takePacket_same hq h).2 (q.same_refl s)

/-- Taking a packet removes it from the net, and nothing else. -/
theorem State.takePacket_eq {n : Nat} {p : Packet} (h : s.takePacket n = some (p, t)) : t = { s with net := s.net.eraseIdx n } := by
  unfold State.takePacket at h
  split at h
  · obtain ⟨_, -, hq⟩ := Option.map_eq_some_iff.1 h
    exact (Prod.mk.inj hq).2.symm
  · cases h

end

end Sys2Proof.Machine
end

section
/-! Memory packets (O17): what a read by DPA returns over mapped and unmapped addresses, and where writes and responses land. -/

namespace Sys2Proof.Machine

/-! ### The address map (R162) -/

section
variable {a n : Nat}

/-- The addresses of HBM, of the cluster stores and of local memory. -/
def memAddr (a : Nat) : Prop :=
  a < 0x008000000000 ∨ (0x010000000000 ≤ a ∧ a < 0x010140000000 ∧ a % 0x100000 < 0x80000) ∨
    (0x020000000000 ≤ a ∧ a < 0x020500000000 ∧ a % 0x10000 < 0x4000)

/-- The map by its bounds. -/
theorem placeOf_eq (a : Nat) : placeOf a =
    if a < 0x008000000000 then .hbm a
    else if 0x010000000000 ≤ a ∧ a < 0x010140000000 then
      if (a - 0x010000000000) % 0x100000 < 0x80000 then .store ((a - 0x010000000000) / 0x100000) ((a - 0x010000000000) % 0x100000) else .unmapped
    else if 0x020000000000 ≤ a ∧ a < 0x020500000000 then
      if (a - 0x020000000000) % 0x10000 < 0x4000 then .localMem ((a - 0x020000000000) / 0x10000) ((a - 0x020000000000) % 0x10000) else .unmapped
    else if 0x030000000000 ≤ a ∧ a < 0x030010000000 then .reg (a - 0x030000000000)
    else .unmapped := rfl

theorem placeOf_eq_store {c o : Nat} (h : placeOf a = .store c o) :
    0x010000000000 ≤ a ∧ a < 0x010140000000 ∧ a % 0x100000 < 0x80000 ∧ c = (a - 0x010000000000) / 0x100000 := by
  rw [placeOf_eq] at h
  split_ifs at h
  cases h
  omega

theorem placeOf_eq_localMem {c o : Nat} (h : placeOf a = .localMem c o) :
    0x020000000000 ≤ a ∧ a < 0x020500000000 ∧ a % 0x10000 < 0x4000 ∧ c = (a - 0x020000000000) / 0x10000 := by
  rw [placeOf_eq] at h
  split_ifs at h
  cases h
  omega

theorem isMem_placeOf (a : Nat) : (placeOf a).isMem = true ↔ memAddr a := by
  rw [placeOf_eq, memAddr]
  split_ifs <;> simp only [Place.isMem, Bool.false_eq_true, true_iff, false_iff] <;> omega

/-- Where a place is no memory. -/
theorem not_isMem_placeOf (h : ¬ memAddr a) : (placeOf a).isMem = false := Bool.eq_false_iff.2 (mt (isMem_placeOf a).1 h)

/-- Every address of a range of one place is of its memory (R163). -/
theorem isMem_of_memRange (h : memRange a n = true) {i : Nat} (hi : i < n) : (placeOf (a + i)).isMem = true := by
  rw [isMem_placeOf, memAddr]
  unfold memRange at h
  split at h
  · next hlo hhi =>
    have := lt_of_placeOf_hbm hhi
    omega
  · next hlo hhi =>
    obtain ⟨h1, -, h3, hc⟩ := placeOf_eq_store hlo
    obtain ⟨-, h5, h6, hd⟩ := placeOf_eq_store hhi
    have := eq_of_beq h
    omega
  · next hlo hhi =>
    obtain ⟨h1, -, h3, hc⟩ := placeOf_eq_localMem hlo
    obtain ⟨-, h5, h6, hd⟩ := placeOf_eq_localMem hhi
    have := eq_of_beq h
    omega
  · cases h

/-- A range of one place begins in its memory. -/
theorem isMem_of_memRange_start (h : memRange a n = true) : (placeOf a).isMem = true := by
  unfold memRange at h
  split at h
  · next hlo _ => rw [hlo, Place.isMem]
  · next hlo _ => rw [hlo, Place.isMem]
  · next hlo _ => rw [hlo, Place.isMem]
  · cases h

/-- A segment is the range, cut at the end of its place: at a multiple of 16 KiB, before which all is memory or none. -/
theorem segment_eq_min (a n : Nat) : ∃ len b, segment a n = (min n len, b) ∧ 0 < len ∧ (a + len) % 0x4000 = 0 ∧
    ∀ i, i < len → (placeOf (a + i)).isMem = b := by
  unfold segment
  split
  · next hp =>
    have := lt_of_placeOf_hbm hp
    exact ⟨_, _, rfl, by omega, by omega, fun i hi => (isMem_placeOf _).2 (.inl (by omega))⟩
  · next hp =>
    obtain ⟨h1, h2, h3, -⟩ := placeOf_eq_store hp
    exact ⟨_, _, rfl, by omega, by omega, fun i hi => (isMem_placeOf _).2 (.inr (.inl (by omega)))⟩
  · next hp =>
    obtain ⟨h1, h2, h3, -⟩ := placeOf_eq_localMem hp
    exact ⟨_, _, rfl, by omega, by omega, fun i hi => (isMem_placeOf _).2 (.inr (.inr (by omega)))⟩
  · next hhbm hstore hlocal =>
    have hno : ¬ memAddr a := by
      rw [← isMem_placeOf]
      match hp : placeOf a with
      | .hbm x => exact absurd hp (hhbm x)
      | .store c o => exact absurd hp (hstore c o)
      | .localMem c o => exact absurd hp (hlocal c o)
      | .reg o => simp [Place.isMem]
      | .unmapped => simp [Place.isMem]
    rw [memAddr] at hno
    exact ⟨_, _, rfl, by omega, by omega, fun i hi => not_isMem_placeOf (by rw [memAddr]; omega)⟩

end

/-! ### What a read returns (R163) -/

/-- The bytes of `[a, a + n)` in memory, and zeros at the addresses without memory. -/
def bytesAt (m : Mem) (a n : Nat) : List Byte := (List.range n).map fun i => if (placeOf (a + i)).isMem then mget m (a + i) else 0#8

section
variable {m : Mem} {a n : Nat}

theorem bytesAt_length (m : Mem) (a n : Nat) : (bytesAt m a n).length = n := by simp [bytesAt]

theorem bytesAt_getD {i : Nat} (h : i < n) : (bytesAt m a n).getD i 0#8 = if (placeOf (a + i)).isMem then mget m (a + i) else 0#8 := by
  simp [bytesAt, List.getD, h]

theorem bytesAt_append (m : Mem) (a k n : Nat) : bytesAt m a k ++ bytesAt m (a + k) n = bytesAt m a (k + n) := by
  simp [bytesAt, List.range_add, Nat.add_assoc]

theorem bytesAt_of_isMem (h : ∀ i, i < n → (placeOf (a + i)).isMem = true) : bytesAt m a n = mgets m a n :=
  List.map_congr_left fun i hi => if_pos (h i (List.mem_range.1 hi))

theorem bytesAt_of_not_isMem (h : ∀ i, i < n → (placeOf (a + i)).isMem = false) : bytesAt m a n = List.replicate n 0#8 := by
  rw [bytesAt, List.map_congr_left fun i hi => if_neg (by simp [h i (List.mem_range.1 hi)]), List.map_const', List.length_range]

end

/-- A read without errors leaves the state as it was, but for how the cores and clusters are listed. -/
structure ReadAlike (s u : State) : Prop where
  only : OnlyIn [.cores, .clusters] s u
  core : ∀ gi, u.core gi = s.core gi
  cluster : ∀ ci, u.cluster ci = s.cluster ci

namespace ReadAlike

variable {s t u : State}

theorem refl (s : State) : ReadAlike s s := ⟨fun p _ => p.same_refl s, fun _ => rfl, fun _ => rfl⟩

theorem trans (hst : ReadAlike s t) (htu : ReadAlike t u) : ReadAlike s u :=
  ⟨hst.only.trans htu.only, fun gi => (htu.core gi).trans (hst.core gi), fun ci => (htu.cluster ci).trans (hst.cluster ci)⟩

theorem mem (h : ReadAlike s u) : u.mem = s.mem := h.only .mem (by simp)

theorem flaws (h : ReadAlike s u) : u.flaws = s.flaws := h.only .flaws (by simp)

theorem setCore_self (s : State) (gi : Nat) : ReadAlike s (s.setCore gi (s.core gi)) :=
  ⟨(s.setCore_onlyIn gi _).mono (by simp), s.core_setCore_self gi, fun _ => rfl⟩

theorem setCluster_self (s : State) (ci : Nat) : ReadAlike s (s.setCluster ci (s.cluster ci)) := by
  refine ⟨(s.setCluster_onlyIn ci _).mono (by simp), fun _ => rfl, fun cj => ?_⟩
  by_cases h : cj = ci
  · rw [h, State.cluster_setCluster_same]
  · exact s.cluster_setCluster_other _ _ _ h

end ReadAlike

section
variable {s : State} {a n : Nat}

/-- A read of one mapped place, with no flaw outstanding and no HBM error. -/
theorem State.readPlaceAt_clean (hflaws : s.flaws = []) (hmem : (placeOf a).isMem = true) :
    (s.readPlaceAt a n []).1 = mgets s.mem a n ∧ ReadAlike s (s.readPlaceAt a n []).2 := by
  unfold State.readPlaceAt
  match hp : placeOf a with
  | .hbm x => exact ⟨rfl, .refl s⟩
  | .store ci off =>
    simp only [State.storeRead_clean hflaws]
    exact ⟨rfl, .setCluster_self s ci⟩
  | .localMem gi off =>
    simp only [State.extRead_clean hflaws]
    exact ⟨rfl, .setCore_self s gi⟩
  | .reg off => simp [hp, Place.isMem] at hmem
  | .unmapped => simp [hp, Place.isMem] at hmem

/-- One segment of a read: its bytes after those read before it. -/
def readSegment (r : List Byte × State) (g : Nat × Nat × Bool) : List Byte × State :=
  if g.2.2 then (r.1 ++ (r.2.readPlaceAt g.1 g.2.1 []).1, (r.2.readPlaceAt g.1 g.2.1 []).2) else (r.1 ++ List.replicate g.2.1 0#8, r.2)

theorem readAt_eq_foldl (s : State) (a n : Nat) :
    s.readAt a n [] = if memRange a n then s.readPlaceAt a n [] else (segments a n).foldl readSegment ([], s) := rfl

theorem readSegment_bytes {r : List Byte × State} {b : Bool} (hflaws : r.2.flaws = []) (hn : 0 < n) (hb : ∀ i, i < n → (placeOf (a + i)).isMem = b) :
    (readSegment r (a, n, b)).1 = r.1 ++ bytesAt r.2.mem a n ∧ ReadAlike r.2 (readSegment r (a, n, b)).2 := by
  cases b with
  | true =>
    obtain ⟨hbytes, halike⟩ := State.readPlaceAt_clean (n := n) hflaws (hb 0 hn)
    exact ⟨congrArg (r.1 ++ ·) (hbytes.trans (bytesAt_of_isMem hb).symm), halike⟩
  | false => exact ⟨congrArg (r.1 ++ ·) (bytesAt_of_not_isMem hb).symm, .refl _⟩

/-- The segments of a range, read in order, give its bytes: each but the last ends at a multiple of 16 KiB, so that `f` of them suffice. -/
theorem foldl_readSegment {f : Nat} {r : List Byte × State} (hflaws : r.2.flaws = []) (hf : n = 0 ∨ a % 0x4000 + n ≤ 0x4000 * f) :
    ((segmentsFrom f a n).foldl readSegment r).1 = r.1 ++ bytesAt r.2.mem a n ∧ ReadAlike r.2 ((segmentsFrom f a n).foldl readSegment r).2 := by
  induction f generalizing a n r with
  | zero =>
    obtain rfl : n = 0 := by omega
    exact ⟨(List.append_nil _).symm, .refl _⟩
  | succ f ih =>
    by_cases hn : n = 0
    · rw [hn]
      exact ⟨(List.append_nil _).symm, .refl _⟩
    obtain ⟨len, b, hsegment, hpos, hend, hmem⟩ := segment_eq_min a n
    have hsegments : segmentsFrom (f + 1) a n = (a, min n len, b) :: segmentsFrom f (a + min n len) (n - min n len) := by
      rw [segmentsFrom, if_neg hn]
      simp only [hsegment]
    obtain ⟨hbytes, halike⟩ := readSegment_bytes (n := min n len) hflaws (by omega) fun i hi => hmem i (by omega)
    obtain ⟨hrest, hlast⟩ := ih (a := a + min n len) (n := n - min n len) (halike.flaws.trans hflaws) (by omega)
    rw [hsegments, List.foldl_cons]
    refine ⟨?_, halike.trans hlast⟩
    rw [hrest, hbytes, halike.mem, List.append_assoc, bytesAt_append, Nat.add_sub_cancel' (by omega)]

/-- A read by DPA with no flaw outstanding and no HBM error. -/
theorem State.readAt_bytes (hflaws : s.flaws = []) (a n : Nat) : (s.readAt a n []).1 = bytesAt s.mem a n ∧ ReadAlike s (s.readAt a n []).2 := by
  rw [readAt_eq_foldl]
  split
  · next hrange =>
    rw [bytesAt_of_isMem fun i hi => isMem_of_memRange hrange hi]
    exact State.readPlaceAt_clean hflaws (isMem_of_memRange_start hrange)
  · exact foldl_readSegment hflaws (.inr (by omega))

/-! ### What a write leaves -/

theorem mget_wr (s : State) {bs : List Byte} (hrange : memRange a bs.length = true) (k : Nat) :
    mget (s.wr a bs).mem k = if h : a ≤ k ∧ k - a < bs.length then bs[k - a]'h.2 else mget s.mem k := by
  rw [State.wr_mem s a bs hrange]
  exact Sparse.get_setRun _ _ _ _ _

theorem State.wr_onlyIn (s : State) (a : Nat) (bs : List Byte) : OnlyIn [.mem, .flaws, .cores, .clusters] s (s.wr a bs) :=
  fun p hp => (same_wr hp).2 (p.same_refl s)

end

end Sys2Proof.Machine
namespace Sys2Proof.Claims
open Machine

section
variable (s t : State) (n : Nat) (p : Packet) (htake : s.takePacket n = some (p, t))
include htake

/-- A read is answered with the bytes its address names. -/
theorem mrd_answered (addr flits tag : Nat) (hbody : p.body = .mrd addr flits tag) (hflaws : s.flaws = []) :
    Runs (.mrd n [] [] []) s fun u => OnlyIn [.net, .cores, .clusters] s u ∧ (∀ gi, u.core gi = s.core gi) ∧ (∀ ci, u.cluster ci = s.cluster ci) ∧
      ∃ d : List Byte, u.net = t.net ++ [⟨p.dst, p.src, .tc2r, s.stepNo % 256, .mrsp tag d⟩] ∧ d.length = 32 * flits ∧
        ∀ i, i < 32 * flits → d.getD i 0#8 = if (placeOf (addr + i)).isMem then mget s.mem (addr + i) else 0#8 := by
  have htaken := State.takePacket_onlyIn htake
  have hmem : t.mem = s.mem := htaken .mem (by simp)
  obtain ⟨hbytes, halike⟩ := State.readAt_bytes ((htaken .flaws (by simp)).trans hflaws) addr (32 * flits)
  rw [hmem] at hbytes
  let r := t.readAt addr (32 * flits) []
  have hread : OnlyIn [.net, .cores, .clusters] s r.2 := (htaken.mono (by simp)).trans (halike.only.mono (by simp))
  have hgives : Gives (.mrd n [] [] []) s (r.2.inject p.dst p.src .tc2r (.mrsp tag r.1)) := by
    show execMrd n [] [] [] s = _
    simp only [execMrd, htake, hbody, State.flits_nil, Bool.false_eq_true, if_false]
    rfl
  have hstag : r.2.stag = s.stepNo % 256 := by
    have hhub : r.2.hub = s.hub := hread .hub (by simp)
    rw [State.stag, State.stepNo, State.h_of_hub hhub, State.h_of_hub hhub]
    rfl
  refine ⟨_, hgives, fun q hq => ?_, fun gi => ?_, fun ci => ?_, bytesAt s.mem addr (32 * flits), ?_, bytesAt_length _ _ _, fun i hi => bytesAt_getD hi⟩
  · exact (same_inject (by simp [Part.outside] at hq ⊢; exact hq.1)).2 (hread q hq)
  · exact (halike.core gi).trans (congrArg (Fam.get · gi) (htaken .cores (by simp) :))
  · exact (halike.cluster ci).trans (congrArg (Fam.get · ci) (htaken .clusters (by simp) :))
  · show r.2.net ++ [⟨p.dst, p.src, .tc2r, r.2.stag, .mrsp tag r.1⟩] = _
    rw [hstag, hbytes, halike.only .net (by simp)]

/-- A write lands at its address. -/
theorem mwr_lands (addr : Nat) (data : List Byte) (hbody : p.body = .mwr addr data) (hsrc : ∀ gi, p.src ≠ .core gi)
    (hrange : memRange addr data.length = true) (hhrv : s.hrv ≠ 2) :
    Runs (.mwr n []) s fun u => OnlyIn [.mem, .flaws, .cores, .clusters, .net] s u ∧ u.net = t.net ∧
      ∀ a, mget u.mem a = if h : addr ≤ a ∧ a - addr < data.length then data[a - addr]'h.2 else mget s.mem a := by
  have htaken := State.takePacket_onlyIn htake
  have hnotice : ¬ (addr = 0x030000000000 + Reg.offset .STEP_GDONE 0 ∨ addr = 0x030000000000 + Reg.offset .UPD_DDONE 0) := by
    have hmem := isMem_of_memRange_start hrange
    rintro (rfl | rfl)
    · exact absurd hmem (by decide)
    · exact absurd hmem (by decide)
  have hclosed : t.hrv ≠ 2 := by rwa [State.hrv, State.hf, htaken .hub (by simp)]
  have hgives : Gives (.mwr n []) s (t.wr addr data) := by
    show execMwr n [] s = _
    simp only [execMwr, htake, hbody, hnotice, State.flits_nil, State.flipped_nil, State.wrS_unstaged hclosed, Bool.false_eq_true, if_false]
  refine ⟨_, hgives, (htaken.mono (by simp)).trans ((t.wr_onlyIn addr data).mono (by simp)), t.wr_onlyIn addr data .net (by simp), fun a => ?_⟩
  rw [mget_wr t hrange, htaken .mem (by simp)]

/-- A response lands at its LOAD's place, and the LOAD goes on. -/
theorem mrsp_lands (tag gi : Nat) (data : List Byte) (r : Run) (hbody : p.body = .mrsp tag data) (hdst : p.dst = .core gi)
    (hload : (s.core gi).awaiting opLoad = some r) (hrange : memRange (localBase gi + r.localAt 1) data.length = true) :
    Runs (.mrsp n []) s fun u => OnlyIn [.mem, .flaws, .cores, .clusters, .net] s u ∧ u.net = t.net ∧
      (u.core gi).tq = r.advance :: (s.core gi).tq.drop 1 ∧
      ∀ a, mget u.mem a = if h : localBase gi + r.localAt 1 ≤ a ∧ a - (localBase gi + r.localAt 1) < data.length
        then data[a - (localBase gi + r.localAt 1)]'h.2 else mget s.mem a := by
  have htaken := State.takePacket_onlyIn htake
  have htcore : t.core gi = s.core gi := congrArg (Fam.get · gi) (htaken .cores (by simp) :)
  let v := t.wr (localBase gi + r.localAt 1) data
  have hv : (v.core gi).butWb = (s.core gi).butWb := (t.butWb_wr _ data gi).trans (congrArg Core.butWb htcore)
  have hserved : v.served gi opLoad = v.modCore gi fun c => c.setTq r.advance := by
    have hawaits : (v.core gi).awaiting opLoad = some r := (congrArg (Core.awaiting · opLoad) hv :).trans hload
    rw [State.served, hawaits]
  have hgives : Gives (.mrsp n []) s (v.modCore gi fun c => c.setTq r.advance) := by
    show execMrsp n [] s = _
    simp only [execMrsp, htake, hbody, hdst, State.flits_nil, State.flipped_nil, htcore, hload, Bool.false_eq_true, if_false]
    rw [← hserved]
  have hwritten := t.wr_onlyIn (localBase gi + r.localAt 1) data
  refine ⟨_, hgives, ?_, hwritten .net (by simp), ?_, fun a => ?_⟩
  · exact ((htaken.mono (by simp)).trans (hwritten.mono (by simp))).trans ((v.setCore_onlyIn gi _).mono (by simp))
  · rw [State.core_modCore_same]
    exact congrArg (fun l : List Run => r.advance :: l.drop 1) (congrArg Core.tq hv :)
  · rw [State.modCore_mem, mget_wr t hrange, htaken .mem (by simp)]

end

/-- Settles O17: a read, a write and a response, each on its own. -/
theorem memoryPacketsAreServed : Obligations.MemoryPacketsAreServed :=
  ⟨fun s t n addr flits tag p htake => mrd_answered s t n p htake addr flits tag,
    fun s t n addr data p htake hbody hsrc _ => mwr_lands s t n p htake addr data hbody hsrc,
    fun s t n tag gi data p r htake hbody hdst hload _ => mrsp_lands s t n p htake tag gi data r hbody hdst hload⟩

end Sys2Proof.Claims
end

section
/-! A message for a buffer armed past its core's local memory (O18): a POST arms the position its handle gives, of which BASE has 48 bits (R114), and
R162 puts core 1's local memory 64 KiB after core 0's. -/

namespace Sys2Proof.Claims
open Machine

/-- A message of one byte on channel 0 of core 0. -/
def byteMessage : Packet := ⟨.core 8, .core 0, .tc2q, 0, .msg 0 0 [1#8]⟩

/-- Reset, with a buffer of 32 bytes armed on channel 0 of core 0 at 64 KiB, a corrected word waiting at the same place for its write-back into core
1's local memory (R79), and a message for the buffer. -/
def farBuffer : State :=
  { (State.reset.modCore 0 fun c => c.setRecv 0 { RecvCtx.init with armed := [(0x10000, 32)] }).modCore 1 (fun c => { c with wb := [localBase 1 / 8] })
    with net := [byteMessage] }

theorem takePacket_farBuffer : farBuffer.takePacket 0 = some (byteMessage, { farBuffer with net := [] }) :=
  if_pos (by decide +kernel : (firstOnPath farBuffer.net 0 && !farBuffer.stuck 0) = true)

theorem wb_farBuffer : (farBuffer.core 1).wb = [localBase 1 / 8] := by decide +kernel

/-- The message's byte lands in core 1's local memory and cancels the write-back that core 1 has pending. -/
theorem msg_farBuffer {t : State} (ht : exec (.msg 0 []) farBuffer = .next t) : (t.core 1).wb = [] := by
  have hafter : (match execMsg 0 [] farBuffer with | .next t => (t.core 1).wb.isEmpty | _ => false) = true := by decide +kernel
  have hexec : execMsg 0 [] farBuffer = .next t := ht
  rw [hexec] at hafter
  exact List.isEmpty_iff.1 hafter

/-- Refutes O18: in `farBuffer` a message of core 0 changes core 1, whose pending write-back it cancels, where every core but the receiver's was to stay. -/
theorem not_channelPacketsLand : ¬ Obligations.ChannelPacketsLand := by
  intro h
  obtain ⟨hmsg, -⟩ := h
  obtain ⟨t, ht, -, -, -, -, -, hothers⟩ := hmsg farBuffer _ 0 0 0 0 0x10000 32 [1#8] byteMessage [] takePacket_farBuffer rfl rfl rfl (by decide)
    (by decide +kernel) (by decide +kernel) (by decide +kernel) (by decide +kernel) (by decide +kernel) (by decide) (by decide) (by decide)
    (by decide +kernel)
  have hstays : (t.core 1).wb = [localBase 1 / 8] := (congrArg Core.wb (hothers 1 (by decide))).trans wb_farBuffer
  rw [msg_farBuffer ht] at hstays
  exact absurd hstays (by simp)

end Sys2Proof.Claims
end

section
/-! Register packets and the 1 ms limit (O19). -/

namespace Sys2Proof.Machine

section
variable {s t : State} {n off v : Nat} {p : Packet}

/-! ### At an endpoint (R151) -/

theorem State.flippedWord_nil (s : State) (p : Packet) (h : v < 2 ^ 32) : s.flippedWord p [] v = v := by
  rw [State.flippedWord, State.flipped_nil, leNat_toLe]
  exact Nat.mod_eq_of_lt h

section
variable {e : Endpoint} (htake : s.takePacket n = some (p, t)) (hdst : p.dst = e) (hno : ∀ gi, e ≠ .core gi) (hlit : s.dark (windowOf e off) = false)
include htake hdst hno hlit

/-- An endpoint other than a core answers a read with what the register reads as. -/
theorem execRegrd_endpoint (hbody : p.body = .regRd off) : execRegrd n [] s =
    .next ((t.readPlace .host (windowOf e off)).2.inject e p.src .tc1 (.regRsp (t.readPlace .host (windowOf e off)).1)) := by
  simp only [execRegrd, htake, hbody, hdst, hlit, State.flits_nil, Bool.false_eq_true, if_false]

/-- An endpoint other than a core makes a write. -/
theorem execRegwr_endpoint {be : Nat} (hbody : p.body = .regWr off v be) (hv : v < 2 ^ 32) :
    execRegwr n [] s = .next (t.writePlace .host (windowOf e off) v be) := by
  simp only [execRegwr, htake, hbody, hdst, hlit, State.flits_nil, State.flippedWord_nil s p hv, Bool.false_eq_true, if_false]

end

/-! ### At a core (R138, R157) -/

/-- A read of the handle table is answered with its word. -/
theorem State.deliver1_handleRead (t : State) (gi : Nat) (hbody : p.body = .regRd off) (h : off < 0x800) : t.deliver1 gi p =
    some (t.inject (.core gi) p.src .tc1 (.regRsp (bits (hget (t.core gi).handles (off / 32)) (8 * (off % 32)) 32))) := by
  have hslot : coreSlotOff off = off := Nat.mod_eq_of_lt (by omega)
  simp only [State.deliver1, hbody, hslot, State.readCoreReg, h, if_true]

/-- A packet that finds none waiting at the ejection is delivered. -/
theorem State.arrive1_delivered {u : State} {gi : Nat} (hfree : (t.core gi).eject = []) (h : t.deliver1 gi p = some u) : t.arrive1 gi p = u := by
  simp [State.arrive1, hfree, h]

/-- With none waiting nothing more is delivered. -/
theorem State.drainEject_empty {gi : Nat} (h : (t.core gi).eject = []) (k : Nat) : t.drainEject gi k = t := by
  cases k with
  | zero => rfl
  | succ k => simp [State.drainEject, h]

/-! ### At the host (R324, R386) -/

/-- The first access refused is logged: where it led, why, and that it is valid. -/
theorem State.mbx_rwErr (s : State) (addr kind : Nat) (write : Bool) (h : rf s.mbx .MBX_RWERRHI 0 31 1 = 0) : (s.rwErr addr kind write).mbx =
    sg (sg s.mbx .MBX_RWERRLO 0 (addr % 2 ^ 32)) .MBX_RWERRHI 0 (addr / 2 ^ 32 % 2 ^ 16 + kind % 4 * 2 ^ 16 + b2n write * 2 ^ 18 + 2 ^ 31) := by
  refine ((same_event (p := .mbx) (by simp)).2 (Part.same_refl _ _)).trans ?_
  rw [if_neg (by omega)]

/-- An unmapped read is logged with kind 0. -/
theorem State.rwErr_unmapped (s : State) (addr : Nat) (h : rf s.mbx .MBX_RWERRHI 0 31 1 = 0) :
    rf (s.rwErr addr 0 false).mbx .MBX_RWERRHI 0 16 2 = 0 ∧ rf (s.rwErr addr 0 false).mbx .MBX_RWERRHI 0 31 1 = 1 := by
  rw [rf, rf, s.mbx_rwErr addr 0 false h, rg_sg_same]
  simp only [bits, b2n, Bool.false_eq_true, if_false]
  omega

end

end Sys2Proof.Machine

namespace Sys2Proof.Claims
open Machine

/-- A core's word of the handle table is read. -/
theorem regrd_handle (s t : State) (n off gi : Nat) (p : Packet) (htake : s.takePacket n = some (p, t)) (hbody : p.body = .regRd off)
    (hdst : p.dst = .core gi) (hlit : s.diesOff = false) (hfree : (s.core gi).eject = []) (hoff : off < 0x800) :
    Gives (.regrd n []) s (t.inject (.core gi) p.src .tc1 (.regRsp (bits (hget (s.core gi).handles (off / 32)) (8 * (off % 32)) 32))) := by
  obtain rfl := State.takePacket_eq htake
  let t : State := { s with net := s.net.eraseIdx n }
  have hdelivered := State.arrive1_delivered (t := t) hfree (t.deliver1_handleRead gi hbody hoff)
  have hdark : s.dark (windowOf (.core gi) off) = false := hlit
  show execRegrd n [] s = _
  simp only [execRegrd, htake, hbody, hdst, hdark, State.flits_nil, Bool.false_eq_true, if_false]
  exact congrArg Host.Outcome.next ((congrArg (State.drainEject · gi 64) hdelivered).trans (State.drainEject_empty (by exact hfree) 64))

section
variable (s t : State) (n v : Nat) (p : Packet) (htake : s.takePacket n = some (p, t)) (hbody : p.body = .regRsp v) (hdst : p.dst = .hub)
include htake hbody hdst

/-- A response completes the read that waits for its endpoint, with the bytes it asked for. -/
theorem regrsp_completes (hv : v < 2 ^ 32) {tick a be : Nat} {rest : List (Endpoint × Nat × Nat × Nat)}
    (hreads : s.host.reads = (p.src, a, be, tick) :: rest) :
    Gives (.regrsp n []) s { t with host := { t.host with reads := rest, readData := lanes be v } } := by
  obtain rfl := State.takePacket_eq htake
  show execRegrsp n [] s = _
  simp only [execRegrsp, htake, hbody, hdst, State.flits_nil, State.flippedWord_nil s p hv, hreads, List.findIdx?_cons, beq_self_eq_true, if_true,
    Bool.false_eq_true, if_false]
  rfl

/-- A response that none awaits is discarded. -/
theorem regrsp_discarded (hreads : s.host.reads = []) : Gives (.regrsp n []) s t := by
  obtain rfl := State.takePacket_eq htake
  show execRegrsp n [] s = _
  simp only [execRegrsp, htake, hbody, hdst, State.flits_nil, hreads, List.findIdx?_nil, Bool.false_eq_true, if_false]

end

/-- The oldest host read ends with zeros after 1 ms, and is logged. -/
theorem regResponseTimeout_ends (s : State) (e : Endpoint) (a be tick : Nat) (rest : List (Endpoint × Nat × Nat × Nat))
    (hreads : s.host.reads = (e, a, be, tick) :: rest) (hdue : tick + 250000 ≤ s.sundial) :
    Runs .regResponseTimeout s fun t => t.host.reads = rest ∧ t.host.readData = 0 ∧
      (rf s.mbx .MBX_RWERRHI 0 31 1 = 0 → rf t.mbx .MBX_RWERRHI 0 16 2 = 0 ∧ rf t.mbx .MBX_RWERRHI 0 31 1 = 1) := by
  let t : State := { s with host := { s.host with reads := rest } }
  have hhost : (t.rwErr a 0 false).host = t.host := (same_rwErr (p := .host) (by simp)).2 (Part.same_refl _ _)
  let u := t.rwErr a 0 false
  refine ⟨{ u with host := { u.host with readData := 0 } }, ?_, congrArg HostSide.reads hhost, rfl, t.rwErr_unmapped a⟩
  show execRegResponseTimeout s = _
  rw [execRegResponseTimeout, hreads]
  exact if_pos hdue

/-- Settles O19: a read and a write at an endpoint and at a core, a response awaited and one that is not, and the limit. -/
theorem registerPackets : Obligations.RegisterPackets :=
  ⟨fun _ _ _ _ _ _ htake hbody hdst hno hlit => execRegrd_endpoint htake hdst hno hlit hbody,
    fun s t n off gi p htake hbody hdst hlit hfree hoff _ => regrd_handle s t n off gi p htake hbody hdst hlit hfree hoff,
    fun _ _ _ _ _ _ _ _ htake hbody hdst hv hno hlit => execRegwr_endpoint htake hdst hno hlit hbody hv,
    fun s t n v _ _ _ p _ htake hbody hdst hv hreads => regrsp_completes s t n v p htake hbody hdst hv hreads,
    regrsp_discarded, regResponseTimeout_ends⟩

end Sys2Proof.Claims
end

section
/-! Urgent traffic (O20): HALT and RESUME, QUIESCE, barriers, the Sundial values of the Grafters, policing. -/

namespace Sys2Proof.Machine

section
variable {s : State}

/-! ### HALT and RESUME (R154, R421) -/

/-- A halted core stays as it is, with its cause. -/
theorem Core.debugHalt_of_halted {c : Core} (h : c.halted = true) : c.debugHalt = c := if_pos h

/-- A running core with nothing issued halts at once with CAUSE DEBUG. -/
theorem Core.debugHalted_debugHalt {c : Core} (hrun : c.halted = false) (hquiet : c.quietLanes = true) : c.debugHalt.debugHalted = true := by
  have hhalt : c.debugHalt = { c with haltReq := false, regs := sf (sf c.regs .CORE_STAT 0 0 1 1) .CORE_STAT 0 1 3 4 } := by
    rw [Core.debugHalt, if_neg (by simp [hrun])]
    exact if_pos ⟨rfl, hquiet, hrun⟩
  have hbit : rf (sf (sf c.regs .CORE_STAT 0 0 1 1) .CORE_STAT 0 1 3 4) .CORE_STAT 0 0 1 = 1 := by
    rw [rf_sf_field _ _ _ _ _ _ _ _ (by omega) (by omega), rf_sf_same _ _ _ _ _ _ (by omega)]
    rfl
  have hcause : rf (sf (sf c.regs .CORE_STAT 0 0 1 1) .CORE_STAT 0 1 3 4) .CORE_STAT 0 1 3 = 4 := rf_sf_same _ _ _ _ _ _ (by omega)
  simp [hhalt, Core.debugHalted, Core.halted, hbit, hcause]

/-- The same, however often the HALT reaches it. -/
theorem Core.debugHalted_iterate {c : Core} (hrun : c.halted = false) (hquiet : c.quietLanes = true) {n : Nat} (h : 0 < n) :
    (Core.debugHalt^[n] c).debugHalted = true := by
  obtain ⟨m, rfl⟩ := Nat.exists_eq_succ_of_ne_zero h.ne'
  have hfirst := Core.debugHalted_debugHalt hrun hquiet
  have hstays : c.debugHalt.debugHalt = c.debugHalt := Core.debugHalt_of_halted (Bool.and_eq_true _ _ ▸ hfirst).1
  rw [Function.iterate_succ_apply, Function.iterate_fixed hstays]
  exact hfirst

/-- A core is not halted, and holds no cause of a halt. -/
def Core.unhalted (c : Core) : Prop := c.halted = false ∧ rf c.regs .CORE_STAT 0 1 3 = 0

/-- RESUME ends a debug halt. -/
theorem Core.unhalted_debugResume {c : Core} (h : c.debugHalted = true) : c.debugResume.unhalted := by
  have hcause : rf c.regs .CORE_STAT 0 1 3 = 4 := of_decide_eq_true (Bool.and_eq_true _ _ ▸ h).2
  have hresume : c.debugResume = { c with haltReq := false, regs := sf (sf c.regs .CORE_STAT 0 0 1 0) .CORE_STAT 0 1 3 0 } := if_pos hcause
  rw [hresume]
  refine ⟨?_, rf_sf_same _ _ _ _ _ _ (by omega)⟩
  have hbit : rf (sf (sf c.regs .CORE_STAT 0 0 1 0) .CORE_STAT 0 1 3 0) .CORE_STAT 0 0 1 = 0 := by
    rw [rf_sf_field _ _ _ _ _ _ _ _ (by omega) (by omega), rf_sf_same _ _ _ _ _ _ (by omega)]
    rfl
  simp [Core.halted, hbit]

/-- A core that is not halted stays so. -/
theorem Core.unhalted.debugResume {c : Core} (h : c.unhalted) : c.debugResume.unhalted := by
  obtain ⟨hrun, hcause⟩ := h
  have hresume : c.debugResume = { c with haltReq := false } := if_neg (by simp [hcause])
  rw [hresume]
  exact ⟨hrun, hcause⟩

theorem Core.unhalted_iterate {c : Core} (hc : c.debugHalted = true) {n : Nat} (h : 0 < n) : (Core.debugResume^[n] c).unhalted := by
  obtain ⟨m, rfl⟩ := Nat.exists_eq_succ_of_ne_zero h.ne'
  rw [Function.iterate_succ_apply]
  exact Function.Iterate.rec Core.unhalted (Core.unhalted_debugResume hc) (fun _ => Core.unhalted.debugResume) m

/-- With no flit error an urgent packet of the hub reaches every core it is sent to, as often as its target names it, and no other. -/
theorem State.core_multicast (s : State) (u : UrgTarget) (code arg : Nat) (f : Core → Core) (gi : Nat) :
    (s.multicast u code arg [] f).core gi = f^[(u.cores.filter (· < nCores)).count gi] (s.core gi) := by
  simp [State.multicast, State.core, Fam.get_mapAt_count]

theorem State.multicast_onlyIn (s : State) (u : UrgTarget) (code arg : Nat) (f : Core → Core) : OnlyIn [.cores] s (s.multicast u code arg [] f) := by
  have hstate : s.multicast u code arg [] f = { s with cores := (s.multicast u code arg [] f).cores } := rfl
  intro p hp
  have hout : p ≠ .cores := by simpa using hp
  rw [hstate]
  simp [hout]

theorem State.core_multicast_other (s : State) {u : UrgTarget} (code arg : Nat) (f : Core → Core) {gi : Nat} (h : ¬ (gi ∈ u.cores ∧ gi < nCores)) :
    (s.multicast u code arg [] f).core gi = s.core gi := by
  rw [State.core_multicast, List.count_eq_zero_of_not_mem (by simpa using h), Function.iterate_zero_apply]

theorem UrgTarget.count_pos {u : UrgTarget} {gi : Nat} (hmem : gi ∈ u.cores) (hgi : gi < nCores) : 0 < (u.cores.filter (· < nCores)).count gi :=
  List.count_pos_iff.2 (by simpa using ⟨hmem, hgi⟩)

/-! ### QUIESCE (R155, R156) -/

/-- A Grafter or a stack is listed when it stops injecting, and listed when it reports. -/
theorem State.quiesces_rest {e : Endpoint} (hreach : e.quiesces = true) (hno : ∀ ci, e ≠ .cluster ci) :
    s.isQuiet e = s.quietG.contains e ∧ s.hush e = (if s.quietG.contains e then s else { s with quietG := s.quietG ++ [e] }) ∧
      s.reported e = if s.quiescedG.contains e then s else { s with quiescedG := s.quiescedG ++ [e] } := by
  cases e with
  | cluster ci => exact absurd rfl (hno ci)
  | core gi => cases hreach
  | hub => cases hreach
  | grafter k => exact ⟨rfl, rfl, rfl⟩
  | hbm k => exact ⟨rfl, rfl, rfl⟩

/-- An endpoint that still injects stops, and one that has stopped and drained reports. -/
theorem execQuiesceUrgent_clean {e : Endpoint} (hq : s.quiesce.isSome = true) (hreach : e.quiesces = true) :
    execQuiesceUrgent e [] s = .next (if s.isQuiet e then (if s.drained e then s.reported e else s) else s.hush e) := by
  obtain ⟨q, hq⟩ := Option.isSome_iff_exists.1 hq
  simp only [execQuiesceUrgent, hq, hreach, Bool.true_eq_false, if_false, State.flits_nil, Bool.false_eq_true]
  split <;> rfl

/-- An operation's end is told to its tickets alone. -/
theorem State.endOp_onlyIn (s : State) (opcode status : Nat) : OnlyIn [.mb, .msix] s (s.endOp opcode status) := fun p hp => by
  have hout : p ≠ .mb ∧ p ≠ .msix := by simpa using hp
  simp [hout]

end

end Sys2Proof.Machine
namespace Sys2Proof.Claims
open Machine

section
variable (s : State)

/-- HALT: the cores it names that have nothing issued stop, and the others stay as they are. -/
theorem halt_stops (u : UrgTarget) (reason : Nat) : Runs (.halt u reason []) s fun t => OnlyIn [.cores] s t ∧
    (∀ gi, ¬ (gi ∈ u.cores ∧ gi < nCores) → t.core gi = s.core gi) ∧
    ∀ gi, gi ∈ u.cores → gi < nCores → (s.core gi).halted = false → (s.core gi).quietLanes = true → (t.core gi).debugHalted = true := by
  refine ⟨s.multicast u 0x01 reason [] Core.debugHalt, rfl, s.multicast_onlyIn _ _ _ _, fun gi h => s.core_multicast_other _ _ _ h,
    fun gi hmem hgi hrun hquiet => ?_⟩
  rw [State.core_multicast]
  exact Core.debugHalted_iterate hrun hquiet (UrgTarget.count_pos hmem hgi)

/-- RESUME: the cores it names that a debug halt holds go on. -/
theorem resume_starts (u : UrgTarget) : Runs (.resume u []) s fun t => OnlyIn [.cores] s t ∧
    (∀ gi, ¬ (gi ∈ u.cores ∧ gi < nCores) → t.core gi = s.core gi) ∧
    ∀ gi, gi ∈ u.cores → gi < nCores → (s.core gi).debugHalted = true → (t.core gi).halted = false ∧ rf (t.core gi).regs .CORE_STAT 0 1 3 = 0 := by
  refine ⟨s.multicast u 0x02 0 [] Core.debugResume, rfl, s.multicast_onlyIn _ _ _ _, fun gi h => s.core_multicast_other _ _ _ h,
    fun gi hmem hgi hhalt => ?_⟩
  rw [State.core_multicast]
  exact Core.unhalted_iterate hhalt (UrgTarget.count_pos hmem hgi)

/-- A cluster reached by a QUIESCE stops injecting. -/
theorem quiesceUrgent_cluster_stops (ci : Nat) (hq : s.quiesce.isSome = true) (hci : ci < nClusters) (hloud : (s.cluster ci).quiet = false) :
    Gives (.quiesceUrgent (.cluster ci) []) s (s.modCluster ci fun c => { c with quiet := true }) :=
  (execQuiesceUrgent_clean (e := .cluster ci) hq (decide_eq_true hci)).trans (by simp [State.isQuiet, hloud, State.hush])

/-- A cluster that has stopped and drained reports. -/
theorem quiesceUrgent_cluster_reports (ci : Nat) (hq : s.quiesce.isSome = true) (hci : ci < nClusters) (hquiet : (s.cluster ci).quiet = true)
    (hdrained : s.drained (.cluster ci) = true) :
    Runs (.quiesceUrgent (.cluster ci) []) s fun t => (t.cluster ci).quiesced = true ∧ OnlyIn [.clusters] s t := by
  refine ⟨s.reported (.cluster ci), (execQuiesceUrgent_clean (e := .cluster ci) hq (decide_eq_true hci)).trans ?_, ?_, s.setCluster_onlyIn ci _⟩
  · simp [State.isQuiet, hquiet, hdrained]
  · rw [State.reported, State.cluster_modCluster_same]

/-- A Grafter or a stack does the same. -/
theorem quiesceUrgent_rest (e : Endpoint) (hq : s.quiesce.isSome = true) (hreach : e.quiesces = true) (hno : ∀ ci, e ≠ .cluster ci) :
    (s.quietG.contains e = false → Gives (.quiesceUrgent e []) s { s with quietG := s.quietG ++ [e] }) ∧
      (s.quietG.contains e = true → s.drained e = true → s.quiescedG.contains e = false →
        Gives (.quiesceUrgent e []) s { s with quiescedG := s.quiescedG ++ [e] }) := by
  obtain ⟨hquiet, hhush, hreported⟩ := State.quiesces_rest (s := s) hreach hno
  refine ⟨fun hloud => (execQuiesceUrgent_clean hq hreach).trans ?_, fun hstopped hdrained hnew => (execQuiesceUrgent_clean hq hreach).trans ?_⟩
  · rw [hquiet, hhush, hloud]
    rfl
  · rw [hquiet, hreported, hstopped, hdrained, hnew]
    rfl

/-- The hub has the combined report, once nothing is in flight. -/
theorem quiesced_completes (q : Quiesce) (hq : s.quiesce = some q) (hdone : q.done = false) (hall : s.allQuiesced = true) (hempty : s.trellisEmpty = true) :
    Runs .quiesced s fun t => t.quiesce = some { q with done := true } ∧ OnlyIn [.quiesce, .gauge, .mb, .msix] s t := by
  let t := { s with quiesce := some { q with done := true } }
  let u := t.sampleUs 62 (t.sundial - q.start)
  have hgives : Gives .quiesced s (u.endOp 0xD011 St.OK) := by
    show execQuiesced s = _
    rw [execQuiesced, hq]
    exact if_pos ⟨hdone, hall, hempty⟩
  have hend := u.endOp_onlyIn 0xD011 St.OK
  refine ⟨_, hgives, (hend .quiesce (by simp) :), fun p hp => ?_⟩
  have hout : p ≠ .quiesce ∧ p ≠ .gauge ∧ p ≠ .mb ∧ p ≠ .msix := by simpa using hp
  simp [u, t, hout]

/-- A QUIESCE without its combined report is late after its limit. -/
theorem quiesceTimeout_late (q : Quiesce) (hq : s.quiesce = some q) (hdone : q.done = false) (hearly : q.late = false)
    (hdue : q.start + 250 * s.hf .TRL_QCFG 0 0 16 ≤ s.sundial) : Runs .quiesceTimeout s fun t => t.quiesce = some { q with late := true } := by
  let t := ({ s with quiesce := some { q with late := true } } : State).event St.QUIESCE_TIMEOUT 0 0 q.id
  have hgives : Gives .quiesceTimeout s (t.endOp 0xD011 St.QUIESCE_TIMEOUT) := by
    show execQuiesceTimeout s = _
    rw [execQuiesceTimeout, hq]
    exact if_pos ⟨hdone, hearly, hdue⟩
  have hevent : t.quiesce = some { q with late := true } := (same_event (p := .quiesce) (by simp)).2 (Part.same_refl _ _)
  exact ⟨_, hgives, (t.endOp_onlyIn _ _ .quiesce (by simp)).trans hevent⟩

/-! ### Barriers (R155) -/

/-- A cluster arrives at a barrier. -/
theorem barrierArrive_arrives (ci id : Nat) (hci : ci < nClusters) :
    Runs (.barrierArrive ci id []) s fun t => (t.cluster ci).arrived = some id ∧ OnlyIn [.clusters, .barrier] s t := by
  let t := s.modCluster ci fun c => { c with arrived := some id }
  have harrived : (t.cluster ci).arrived = some id := congrArg Cluster.arrived (s.cluster_modCluster_same ci _)
  refine ⟨if t.clusters.all nClusters (fun c => c.arrived == some id) then { t with barrier := some id } else t, ?_, ?_, fun p hp => ?_⟩
  · exact if_neg (Nat.not_le.2 hci)
  · split
    · exact harrived
    · exact harrived
  · have hout : p ≠ .clusters ∧ p ≠ .barrier := by simpa using hp
    simp [t, hout]

/-- The barrier is released to every cluster. -/
theorem barrierRelease_releases (id : Nat) (hbarrier : s.barrier = some id) :
    Runs .barrierRelease s fun t => t.barrier = none ∧ (∀ ci, (t.cluster ci).arrived = none) ∧ OnlyIn [.clusters, .barrier] s t := by
  refine ⟨{ s with barrier := none, clusters := s.clusters.map fun c => { c with arrived := none } }, ?_, rfl, fun ci => ?_, fun p hp => ?_⟩
  · show execBarrierRelease s = _
    simp only [execBarrierRelease, hbarrier]
  · simp [State.cluster]
  · have hout : p ≠ .clusters ∧ p ≠ .barrier := by simpa using hp
    simp [hout]

/-! ### The Sundial's values (R316) -/

/-- A Sundial value reaches its Grafter. -/
theorem sdlSync_slews (t : State) (n k arg : Nat) (p : Packet) (htake : s.takePacket n = some (p, t)) (hbody : p.body = .urg 8 arg)
    (hdst : p.dst = .grafter k) (hk : k < s.grafters.length) :
    Runs (.sdlSync n []) s fun u => (u.grafter k).slew = (arg : Int) - s.copyOf k ∧ OnlyIn [.grafters, .net] s u ∧ u.net = t.net := by
  have hgives : Gives (.sdlSync n []) s (t.setGrafter k { t.grafter k with slew := (arg : Int) - t.copyOf k }) := by
    show execSdlSync n [] s = _
    simp only [execSdlSync, State.takeUrgent_clean htake hbody, hdst]
  obtain rfl := State.takePacket_eq htake
  refine ⟨_, hgives, ?_, fun p hp => ?_, rfl⟩
  · simp [State.setGrafter, State.grafter, hk]
    rfl
  · have hout : p ≠ .grafters ∧ p ≠ .net := by simpa using hp
    simp [hout]

/-- Packets injected in a row stand last in the net, in their order. -/
theorem foldl_inject {α : Type} (src : Endpoint) (dst : α → Endpoint) (cls : TClass) (body : α → Payload) (l : List α) :
    l.foldl (fun t k => t.inject src (dst k) cls (body k)) s = { s with net := s.net ++ l.map fun k => ⟨src, dst k, cls, s.stag, body k⟩ } := by
  induction l generalizing s with
  | nil => simp
  | cons k l ih =>
    rw [List.foldl_cons, ih, List.map_cons, List.append_cons]
    rfl

/-- The hub's count goes to every Grafter. -/
theorem sdlSyncSend_sends : Runs .sdlSyncSend s fun t => OnlyIn [.net] s t ∧
    t.net = s.net ++ (List.range 8).map fun k => ⟨.hub, .grafter k, .tc0, s.stepNo % 256, .urg 8 (s.sundial + s.hf .SDL_GCOMP k 0 12)⟩ := by
  refine ⟨_, congrArg Host.Outcome.next (foldl_inject s .hub .grafter .tc0 _ _), fun p hp => ?_, rfl⟩
  have hout : p ≠ .net := by simpa using hp
  simp [hout]

/-! ### Policing (R154, R161) -/

/-- An urgent packet of a code that R154 gives waits, and its wait is counted. -/
theorem tc0PoliceAdmit_counts (n ci cycles c a : Nat) (p : Packet) (hp : s.net[n]? = some p) (hbody : p.body = .urg c a) (hlo : 1 ≤ c) (hhi : c ≤ 9) :
    Gives (.tc0PoliceAdmit n ci cycles) s (s.satC ci .TRL_STAT 0 18 14 cycles) := by
  show execTc0PoliceAdmit n ci cycles s = _
  simp only [execTc0PoliceAdmit, hp, hbody, hlo, hhi, and_self, if_true]

/-- One of a reserved code is discarded. -/
theorem tc0PoliceAdmit_discards (n ci cycles a : Nat) (p : Packet) (hp : s.net[n]? = some p) (hbody : p.body = .urg 10 a) :
    Runs (.tc0PoliceAdmit n ci cycles) s fun t => t.net = s.net.eraseIdx n ∧ OnlyIn [.net, .clusters] s t := by
  let t := s.satC ci .TRL_STAT 0 18 14 cycles
  refine ⟨{ t.setCf ci .TRL_STAT 0 17 1 1 with net := t.net.eraseIdx n }, ?_, by rw [State.satC_net], fun p hp => ?_⟩
  · show execTc0PoliceAdmit n ci cycles s = _
    simp only [execTc0PoliceAdmit, hp, hbody]
    exact if_neg (by omega)
  · have hout : p ≠ .net ∧ p ≠ .clusters := by simpa using hp
    simp [t, hout]

end

/-- Settles O20: each command on its own. -/
theorem urgentTraffic : Obligations.UrgentTraffic :=
  ⟨halt_stops, resume_starts, quiesceUrgent_cluster_stops, quiesceUrgent_cluster_reports, quiesceUrgent_rest, quiesced_completes, quiesceTimeout_late,
    barrierArrive_arrives, barrierRelease_releases, sdlSync_slews, sdlSyncSend_sends, tc0PoliceAdmit_counts, tc0PoliceAdmit_discards⟩

end Sys2Proof.Claims
end

section
/-! What every step keeps (O60), operation by operation in the order of the model: canonical memory, the units the module has, and the bounds
of the event logs and of the mailbox queue. An operation that changes none of the fields the invariant speaks of has its lemma from its frame. -/

namespace Sys2Proof.Machine

/-- If the answer is a next state, it meets the invariant. -/
def Keeps (o : Out) : Prop := ∀ t, o = .next t → t.Inv

/-- The state `o` holds, if any, meets the invariant. -/
def KeepsOf (o : Option State) : Prop := ∀ u, o = some u → u.Inv

/-- The fields the invariant speaks of. -/
def invParts : List Part := [.mem, .mb, .grafters, .links, .logs]

/-- A Grafter has its four slots (R213). -/
def Grafter.whole (g : Grafter) : Prop := g.slots.length = 4

theorem State.inv_iff (s : State) : s.Inv ↔ Memory.wf s.mem = true ∧ (s.mb.slots.length = 8 ∧ s.mb.tickets.length = 8 ∧ s.mb.cmds.length ≤ 32) ∧
    (s.grafters.length = 8 ∧ ∀ g ∈ s.grafters, g.whole) ∧ s.links.ports.length = 4 ∧
    ∀ l < 4, (s.logs.filter fun e => e.log == l).length ≤ 256 := by
  simp [State.Inv, State.shaped, State.bounded, Grafter.whole]
  tauto

section
variable {s t : State}

theorem State.Inv.mem (h : s.Inv) : Memory.wf s.mem = true := h.1

/-- The invariant depends on five fields only. -/
theorem Part.inv_congr (h : ∀ p ∈ invParts, p.same s t) : t.Inv ↔ s.Inv := by
  have hmem : t.mem = s.mem := h .mem (by decide)
  have hmb : t.mb = s.mb := h .mb (by decide)
  have hgrf : t.grafters = s.grafters := h .grafters (by decide)
  have hlinks : t.links = s.links := h .links (by decide)
  have hlogs : t.logs = s.logs := h .logs (by decide)
  rw [State.inv_iff, State.inv_iff, hmem, hmb, hgrf, hlinks, hlogs]

/-- An operation whose frame leaves the five fields alone leaves the invariant as it is. -/
theorem Part.inv_frame (h : ∀ p : Part, p ∈ invParts → (p.same s t ↔ p.same s s)) : t.Inv ↔ s.Inv :=
  Part.inv_congr fun p hp => (h p hp).2 (Part.same_refl p s)

@[simp ↓] theorem State.inv_ite {c : Prop} [Decidable c] : (if c then s else t).Inv ↔ Choice c s.Inv t.Inv := by unfold Choice; split <;> simp_all

@[simp ↓] theorem State.inv_ite_snd {β : Type} {a b : β × State} {c : Prop} [Decidable c] :
    (if c then a else b).2.Inv ↔ Choice c a.2.Inv b.2.Inv := by unfold Choice; split <;> simp_all

@[simp ↓] theorem keeps_next : Keeps (.next t) ↔ t.Inv := by simp [Keeps]

@[simp ↓] theorem keeps_ite {o o' : Out} {c : Prop} [Decidable c] : Keeps (if c then o else o') ↔ Choice c (Keeps o) (Keeps o') := by
  unfold Choice; split <;> simp_all

@[simp ↓] theorem keepsOf_none : KeepsOf none ↔ True := by simp [KeepsOf]

@[simp ↓] theorem keepsOf_some : KeepsOf (some t) ↔ t.Inv := by simp [KeepsOf]

@[simp ↓] theorem keepsOf_ite {o o' : Option State} {c : Prop} [Decidable c] :
    KeepsOf (if c then o else o') ↔ Choice c (KeepsOf o) (KeepsOf o') := by unfold Choice; split <;> simp_all

@[simp ↓] theorem keepsOf_map {α : Type} {o : Option α} {f : α → State} (h : ∀ a, (f a).Inv) : KeepsOf (o.map f) ↔ True := by
  cases o <;> simp_all [KeepsOf]

theorem KeepsOf.getD {o : Option State} (h : KeepsOf o) (ht : t.Inv) : (o.getD t).Inv := by
  cases o with
  | none => exact ht
  | some u => exact h u rfl

theorem State.inv_foldl {α : Type} {l : List α} {f : State → α → State} (h : t.Inv) (hf : ∀ u x, u.Inv → (f u x).Inv) : (l.foldl f t).Inv :=
  List.foldlRecOn l f h fun u hu x _ => hf u x hu

@[simp ↓] theorem State.inv_foldl_iff {α : Type} {l : List α} {f : State → α → State} (hf : ∀ u x, (f u x).Inv ↔ u.Inv) :
    (l.foldl f t).Inv ↔ t.Inv := by
  induction l generalizing t with
  | nil => rfl
  | cons x l ih => rw [List.foldl_cons, ih, hf]

theorem State.inv_foldl_snd {α β : Type} {l : List α} {f : β × State → α → β × State} {x : β} (h : t.Inv)
    (hf : ∀ u a, u.2.Inv → (f u a).2.Inv) :
    (l.foldl f (x, t)).2.Inv :=
  List.foldlRecOn (motive := fun u : β × State => u.2.Inv) l f h fun u hu a _ => hf u a hu

theorem State.inv_foldl_fst {α β : Type} {l : List α} {f : State × β → α → State × β} {x : β} (h : t.Inv)
    (hf : ∀ u a, u.1.Inv → (f u a).1.Inv) :
    (l.foldl f (t, x)).1.Inv :=
  List.foldlRecOn (motive := fun u : State × β => u.1.Inv) l f h fun u hu a _ => hf u a hu

/-- A state with other fields updated, the counts of units as before: the fields the invariant speaks of are those of `t`. -/
@[simp ↓] theorem State.inv_mk {x0 x1 x2 x3 x4 x5 x6 x7 x8 x9 x10 x11 x12 x13 x14 x15 x16 x17 x18 x19 x20 x21 x22 x23 x24 x25 x26 x27 x28 x29 x30 x31 x32
    x33 x34 x35 x36 x37 x38 x39 x40} (hmem : x0 = t.mem) (hgrf : x22 = t.grafters) (hports : x24.ports.length = t.links.ports.length)
    (hslots : x28.slots.length = t.mb.slots.length) (htickets : x28.tickets.length = t.mb.tickets.length) (hcmds : x28.cmds = t.mb.cmds)
    (hlogs : x36 = t.logs) :
    State.Inv ⟨x0, x1, x2, x3, x4, x5, x6, x7, x8, x9, x10, x11, x12, x13, x14, x15, x16, x17, x18, x19, x20, x21, x22, x23, x24, x25, x26, x27, x28, x29,
      x30, x31, x32, x33, x34, x35, x36, x37, x38, x39, x40, t.pending⟩ ↔ t.Inv := by
  simp only [State.inv_iff, hmem, hgrf, hports, hslots, htickets, hcmds, hlogs]

/-- A state whose memory is another canonical one. -/
@[simp ↓] theorem State.inv_mk_mem {x0 x1 x2 x3 x4 x5 x6 x7 x8 x9 x10 x11 x12 x13 x14 x15 x16 x17 x18 x19 x20 x21 x22 x23 x24 x25 x26 x27 x28 x29 x30 x31 x32
    x33 x34 x35 x36 x37 x38 x39 x40} (h : t.Inv) (hmem : Memory.wf x0 = true) (hgrf : x22 = t.grafters) (hlinks : x24 = t.links) (hmb : x28 = t.mb)
    (hlogs : x36 = t.logs) :
    State.Inv ⟨x0, x1, x2, x3, x4, x5, x6, x7, x8, x9, x10, x11, x12, x13, x14, x15, x16, x17, x18, x19, x20, x21, x22, x23, x24, x25, x26, x27, x28, x29,
      x30, x31, x32, x33, x34, x35, x36, x37, x38, x39, x40, t.pending⟩ := by
  simp only [State.inv_iff, hmem, hgrf, hlinks, hmb, hlogs, true_and]
  exact ((State.inv_iff t).1 h).2

end
end Sys2Proof.Machine
end

section
/-! A core's engine keeps memory canonical (O60): its stores are the only writes of the context it runs in. -/

namespace Sys2Proof.Machine

/-- The context's memory is canonical in `y` if it is in `x`. -/
def CX.Canon (x y : CX) : Prop := Memory.wf x.mem = true → Memory.wf y.mem = true

theorem CX.Canon.of_mem {x y : CX} (h : y.mem = x.mem) : x.Canon y := fun hx => h ▸ hx

theorem CX.Canon.refl (x : CX) : x.Canon x := id

theorem CX.Canon.trans {x y z : CX} (hxy : x.Canon y) (hyz : y.Canon z) : x.Canon z := hyz ∘ hxy

theorem CX.Canon.foldl {α : Type} {f : CX → α → CX} (h : ∀ (x : CX) a, x.Canon (f x a)) (l : List α) (x : CX) : x.Canon (l.foldl f x) :=
  List.foldlRecOn l f (motive := x.Canon) (.refl x) fun y hy a _ => hy.trans (h y a)

section
variable (x : CX)

/-! ### Local memory and the slots -/

theorem CX.canon_writeLocal (a : Nat) (bs : List Byte) : x.Canon (x.writeLocal a bs) := CX.writeLocal_wf a bs

theorem CX.canon_stores (l : List (Nat × Nat × List Byte)) : x.Canon (l.foldl (fun (x : CX) e => x.writeLocal e.2.1 e.2.2) x) :=
  .foldl (fun y e => y.canon_writeLocal e.2.1 e.2.2) l x

theorem CX.canon_landStores (t : Nat) : x.Canon (x.landStores t) :=
  CX.canon_stores { x with stores := x.stores.drop (x.stores.takeWhile fun e => decide (e.1 ≤ t)).length } _

theorem CX.canon_storesDone : x.Canon x.storesDone := CX.canon_stores { x with stores := [] } x.stores

theorem CX.canon_landAll (t : Nat) : x.Canon (x.landAll t) := CX.canon_landStores { x with c := x.c.land x.idx t } t

theorem CX.readLocal_mem (a n : Nat) : (x.readLocal a n).1.mem = x.mem := by
  unfold CX.readLocal
  dsimp only
  split <;> rfl

theorem CX.slotRead_mem (slot lo hi : Nat) (scale : Option Nat) : (x.slotRead slot lo hi scale).mem = x.mem := by
  rw [CX.slotRead_eq]
  split
  · rfl
  · split <;> rfl

/-! ### Words -/

theorem CX.vFinish_mem (w t lat : Nat) : (x.vFinish w t lat).mem = x.mem := by
  rw [CX.vFinish_parts]
  split
  · exact x.readLocal_mem _ _
  · rfl

theorem CX.canon_vMemRun (w t : Nat) : x.Canon (x.vMemRun w t) := by
  rw [CX.vMemRun_eq]
  split
  · exact .of_mem rfl
  · exact CX.canon_landStores ((x.stalled w t).storeAt w (x.servedAt w t)) t

theorem CX.canon_vGo (w t n : Nat) : x.Canon (x.vGo w t n) := by
  unfold CX.vGo
  extract_lets y
  have hy : x.Canon y := .of_mem (x.pipeBusy_sameMemory _ _).1
  split
  · exact hy
  · split
    · exact hy.trans (y.canon_vMemRun w t)
    · exact hy.trans (.of_mem (y.vFinish_mem w t _))

theorem CX.canon_arrived (w : Nat) : x.Canon (x.arrived w) :=
  CX.canon_landAll { x with c := x.c.count .CORE_VSTAT 0 16 (x.issueAt w - x.slotOf w) } _

theorem CX.canon_vIssue (w : Nat) : x.Canon (x.vIssue w) := by
  rw [CX.vIssue_eq]
  split
  · exact .refl x
  · split
    · exact .of_mem rfl
    · extract_lets y
      have hy : x.Canon y := (x.canon_arrived w).trans (.of_mem (CX.sentinel_sameMemory _ _ _).1)
      split
      · exact hy
      · exact hy.trans (y.canon_vGo _ _ _)

/-! ### Broadcasts -/

theorem CX.scaleDelay_mem (t : Nat) : (x.scaleDelay t).mem = x.mem := by
  unfold CX.scaleDelay
  dsimp only
  split <;> rfl

theorem CX.readRow_mem (row lo hi : Nat) (held : Bool) : (x.readRow row lo hi held).1.mem = x.mem := by
  rw [CX.readRow_eq]
  refine List.foldlRecOn _ _ (motive := fun y : CX => y.mem = x.mem) rfl fun y hy l _ => Eq.trans ?_ hy
  unfold CX.takeLine
  split
  · rfl
  · exact y.readLocal_mem _ _

theorem CX.readScale_mem (b : Nat) : (x.readScale b).1.mem = x.mem := by
  unfold CX.readScale
  dsimp only
  split
  · split
    · rfl
    · exact x.readLocal_mem _ _
  · exact x.readLocal_mem _ _

theorem CX.readBlockScale_mem (p : PassGeo) (b : Nat) : (x.readBlockScale p b).1.mem = x.mem := by
  unfold CX.readBlockScale
  split
  · exact x.readScale_mem b
  · rfl

theorem CX.canon_bcastFp (r : Run) (p : PassGeo) (g : Nat) : x.Canon (x.bcastFp r p g) := by
  rw [CX.bcastFp_eq]
  refine (x.canon_landAll (g * p.ival)).trans (.of_mem ?_)
  dsimp only
  exact (CX.slotRead_mem _ _ _ _ _).trans ((CX.readBlockScale_mem _ _ _).trans ((CX.scaleDelay_mem _ _).trans (CX.readRow_mem _ _ _ _ _)))

theorem CX.canon_bcastLimb (r : Run) (p : PassGeo) (g : Nat) : x.Canon (x.bcastLimb r p g) := by
  rw [CX.bcastLimb_eq]
  exact (x.canon_landAll (g * p.ival)).trans (.of_mem ((CX.slotRead_mem _ _ _ _ _).trans (CX.readRow_mem _ _ _ _ _)))

/-! ### Passes, chains and element mode -/

theorem CX.passEnter_mem (r : Run) (p : PassGeo) : (x.passEnter r p).mem = x.mem := by
  simp only [CX.passEnter]
  split
  · rfl
  · split
    · rfl
    · split <;> rfl

theorem CX.canon_passLoop (r : Run) (p : PassGeo) (words : List Nat) (fuel g j k : Nat) : x.Canon (x.passLoop r p words fuel g j k) := by
  induction fuel generalizing x g j k with
  | zero => exact .refl x
  | succ fuel ih =>
    unfold CX.passLoop
    extract_lets wordLeft y w z z'
    have hz : x.Canon z := by
      simp only [z]
      split
      · exact x.canon_bcastLimb r p g
      · exact x.canon_bcastFp r p g
    have hz' : x.Canon z' := y.canon_vIssue w
    split
    · exact .refl x
    · split
      · exact hz.trans (ih _ _ _ _)
      · split
        · split
          · exact hz'.trans (ih _ _ _ _)
          · exact hz'.trans (ih _ _ _ _)
        · exact .refl x

theorem CX.canon_drain : x.Canon x.drain := x.canon_storesDone

theorem CX.canon_runPass (r : Run) : x.Canon (x.runPass r) := by
  rw [CX.runPass_eq]
  extract_lets p y
  have hy : x.Canon y := .trans (.of_mem ((x.fetching r p).passEnter_mem r p)) (CX.canon_passLoop _ _ _ _ _ _ _ _)
  split
  · exact hy.trans y.canon_drain
  · exact (hy.trans (.foldl (fun z _ => .of_mem (z.scaleDelay_mem _)) _ y)).trans (CX.canon_drain _)

theorem CX.canon_runWords (ws : List Nat) : x.Canon (x.runWords ws) := by
  induction ws generalizing x with
  | nil => exact .refl x
  | cons w ws ih => exact (x.canon_vIssue w).trans (ih _)

theorem CX.canon_chainLoop (r : Run) (words : List Nat) (n j : Nat) : x.Canon (x.chainLoop r words n j) := by
  induction n generalizing x j with
  | zero => exact .refl x
  | succ n ih =>
    rw [CX.chainLoop]
    split
    · exact .refl x
    · exact ((x.atIter r j).canon_runWords words).trans (ih _ _)

theorem CX.canon_runChain (r : Run) : x.Canon (x.runChain r) := (x.canon_chainLoop r (r.chain.getD []) r.total 0).trans (CX.canon_drain _)

theorem CX.canon_elemStep (d t : Nat) : x.Canon (x.elemStep d t) := by
  unfold CX.elemStep
  extract_lets j f landed srcs hit y a rs c c'
  have hy : x.Canon y := (x.canon_landAll t).trans (.of_mem (CX.sentinel_sameMemory _ _ _).1)
  split
  · exact hy
  · exact hy

theorem CX.canon_elemLoop (d n t : Nat) : x.Canon (x.elemLoop d n t) := by
  induction n generalizing x t with
  | zero => exact .refl x
  | succ n ih =>
    rw [CX.elemLoop]
    split
    · exact .refl x
    · exact (x.canon_elemStep d t).trans (ih _ _)

theorem CX.canon_runElem (r : Run) : x.Canon (x.runElem r) := (x.canon_elemLoop r.desc r.total 0).trans (CX.canon_drain _)

theorem CX.startFill_mem (r : Run) (transposed : Bool) (slot : Nat) : (x.startFill r transposed slot).mem = x.mem :=
  (CX.readLocal_mem _ _ _).trans (x.readLocal_mem _ _)

end
end Sys2Proof.Machine
end

section
/-! What each operation of the model keeps (O60). -/

namespace Sys2Proof.Machine
section
variable {t : State}

/-! ### The operations that write no field the invariant speaks of -/

@[simp ↓] theorem inv_setH {r : Reg} {i v : Nat} : (t.setH r i v).Inv ↔ t.Inv := Part.inv_frame (by simp [invParts])
@[simp ↓] theorem inv_setHf {r : Reg} {i lo w v : Nat} : (t.setHf r i lo w v).Inv ↔ t.Inv := Part.inv_frame (by simp [invParts])
@[simp ↓] theorem inv_satH {r : Reg} {i lo w n : Nat} : (t.satH r i lo w n).Inv ↔ t.Inv := Part.inv_frame (by simp [invParts])
@[simp ↓] theorem inv_setCore {gi : Nat} {c : Core} : (t.setCore gi c).Inv ↔ t.Inv := Part.inv_frame (by simp [invParts])
@[simp ↓] theorem inv_modCore {gi : Nat} {f : Core → Core} : (t.modCore gi f).Inv ↔ t.Inv := Part.inv_frame (by simp [invParts])
@[simp ↓] theorem inv_setCluster {ci : Nat} {c : Cluster} : (t.setCluster ci c).Inv ↔ t.Inv := Part.inv_frame (by simp [invParts])
@[simp ↓] theorem inv_modCluster {ci : Nat} {f : Cluster → Cluster} : (t.modCluster ci f).Inv ↔ t.Inv := Part.inv_frame (by simp [invParts])
@[simp ↓] theorem inv_satC {ci : Nat} {r : Reg} {i lo w n : Nat} : (t.satC ci r i lo w n).Inv ↔ t.Inv := Part.inv_frame (by simp [invParts])
@[simp ↓] theorem inv_setCf {ci : Nat} {r : Reg} {i lo w v : Nat} : (t.setCf ci r i lo w v).Inv ↔ t.Inv := Part.inv_frame (by simp [invParts])
@[simp ↓] theorem inv_setStepNo {n : Nat} : (t.setStepNo n).Inv ↔ t.Inv := Part.inv_frame (by simp [invParts])
@[simp ↓] theorem inv_draw {w : Nat} : (t.draw w).2.Inv ↔ t.Inv := Part.inv_frame (by simp [invParts])
@[simp ↓] theorem inv_cancelWb {a n : Nat} : (t.cancelWb a n).Inv ↔ t.Inv := Part.inv_frame (by simp [invParts])
@[simp ↓] theorem inv_raiseMsix {v : Nat} : (t.raiseMsix v).Inv ↔ t.Inv := Part.inv_frame (by simp [invParts])
@[simp ↓] theorem inv_sample {ch x kind idx : Nat} : (t.sample ch x kind idx).Inv ↔ t.Inv := Part.inv_frame (by simp [invParts])
@[simp ↓] theorem inv_sampleN {ch n : Nat} : (t.sampleN ch n).Inv ↔ t.Inv := Part.inv_frame (by simp [invParts])
@[simp ↓] theorem inv_sampleUs {ch n : Nat} : (t.sampleUs ch n).Inv ↔ t.Inv := Part.inv_frame (by simp [invParts])
@[simp ↓] theorem inv_closeWindow {cause : Nat} : (t.closeWindow cause).Inv ↔ t.Inv := Part.inv_frame (by simp [invParts])
@[simp ↓] theorem inv_notable {bs : List Byte} : (t.notable bs).Inv ↔ t.Inv := Part.inv_frame (by simp [invParts])
@[simp ↓] theorem inv_inject {src dst : Endpoint} {cls : TClass} {body : Payload} : (t.inject src dst cls body).Inv ↔ t.Inv :=
  Part.inv_frame (by simp [invParts])
@[simp ↓] theorem inv_notice {src : Endpoint} {status detail extra : Nat} : (t.notice src status detail extra).Inv ↔ t.Inv :=
  Part.inv_frame (by simp [invParts])
@[simp ↓] theorem inv_irq {ci : Nat} : (t.irq ci).Inv ↔ t.Inv := Part.inv_frame (by simp [invParts])
@[simp ↓] theorem inv_allCsp {e n : Nat} : (t.allCsp e n).Inv ↔ t.Inv := Part.inv_frame (by simp [invParts])
@[simp ↓] theorem inv_coreFault {gi kind stop : Nat} : (t.coreFault gi kind stop).Inv ↔ t.Inv := Part.inv_frame (by simp [invParts])
@[simp ↓] theorem inv_addToken {gi t' n : Nat} : (t.addToken gi t' n).Inv ↔ t.Inv := Part.inv_frame (by simp [invParts])
@[simp ↓] theorem inv_extRead {gi a n : Nat} : (t.extRead gi a n).2.Inv ↔ t.Inv := Part.inv_frame (by simp [invParts])
@[simp ↓] theorem inv_storeRead {ci a n : Nat} : (t.storeRead ci a n).2.Inv ↔ t.Inv := Part.inv_frame (by simp [invParts])
@[simp ↓] theorem inv_beginCommit {key old : Nat} : (t.beginCommit key old).Inv ↔ t.Inv := Part.inv_frame (by simp [invParts])
@[simp ↓] theorem inv_goOn {gi : Nat} {r : Run} : (t.goOn gi r).Inv ↔ t.Inv := Part.inv_frame (by simp [invParts])
@[simp ↓] theorem inv_writeCoreReg {gi off v : Nat} : (t.writeCoreReg gi off v).Inv ↔ t.Inv := Part.inv_frame (by simp [invParts])
@[simp ↓] theorem inv_readCoreReg {gi off : Nat} : (t.readCoreReg gi off).2.Inv ↔ t.Inv := Part.inv_frame (by simp [invParts])
@[simp ↓] theorem inv_flits {q : Packet} {fs : List FlitErr} : (t.flits q fs).1.Inv ↔ t.Inv := Part.inv_frame (by simp [invParts])
@[simp ↓] theorem inv_chFault {gi b k : Nat} : (t.chFault gi b k).Inv ↔ t.Inv := Part.inv_frame (by simp [invParts])
@[simp ↓] theorem inv_landCredit {gi k n : Nat} : (t.landCredit gi k n).Inv ↔ t.Inv := Part.inv_frame (by simp [invParts])
@[simp ↓] theorem inv_frontRelease {k : Nat} : (t.frontRelease k).Inv ↔ t.Inv := Part.inv_frame (by simp [invParts])
@[simp ↓] theorem inv_startQuiesce {id : Nat} : (t.startQuiesce id).Inv ↔ t.Inv := Part.inv_frame (by simp [invParts])
@[simp ↓] theorem inv_endQuiesce : (t.endQuiesce).Inv ↔ t.Inv := Part.inv_frame (by simp [invParts])
@[simp ↓] theorem inv_setPstate {q v : Nat} : (t.setPstate q v).Inv ↔ t.Inv := Part.inv_frame (by simp [invParts])
@[simp ↓] theorem inv_setFactor {i v : Nat} : (t.setFactor i v).Inv ↔ t.Inv := Part.inv_frame (by simp [invParts])
@[simp ↓] theorem inv_setFactorField {i lo w v : Nat} : (t.setFactorField i lo w v).Inv ↔ t.Inv := Part.inv_frame (by simp [invParts])
@[simp ↓] theorem inv_queueRow {row : Nat} : (t.queueRow row).Inv ↔ t.Inv := Part.inv_frame (by simp [invParts])
@[simp ↓] theorem inv_hbmCe {unit : Nat} : (t.hbmCe unit).Inv ↔ t.Inv := Part.inv_frame (by simp [invParts])
@[simp ↓] theorem inv_hbmUe {unit : Nat} : (t.hbmUe unit).Inv ↔ t.Inv := Part.inv_frame (by simp [invParts])
@[simp ↓] theorem inv_served {gi op : Nat} : (t.served gi op).Inv ↔ t.Inv := Part.inv_frame (by simp [invParts])
@[simp ↓] theorem inv_limbSat {k i : Nat} : (t.limbSat k i).Inv ↔ t.Inv := Part.inv_frame (by simp [invParts])
@[simp ↓] theorem inv_addGot {i k n : Nat} : (t.addGot i k n).Inv ↔ t.Inv := Part.inv_frame (by simp [invParts])
@[simp ↓] theorem inv_addSent {i n : Nat} : (t.addSent i n).Inv ↔ t.Inv := Part.inv_frame (by simp [invParts])
@[simp ↓] theorem inv_addFinal {ls : List Nat} : (t.addFinal ls).Inv ↔ t.Inv := Part.inv_frame (by simp [invParts])
@[simp ↓] theorem inv_dropPartials {i off n : Nat} : (t.dropPartials i off n).Inv ↔ t.Inv := Part.inv_frame (by simp [invParts])
@[simp ↓] theorem inv_tileArrive {id : TileId} {v : List Int} : (t.tileArrive id v).Inv ↔ t.Inv := Part.inv_frame (by simp [invParts])
@[simp ↓] theorem inv_discarded {n : Nat} : (t.discarded n).Inv ↔ t.Inv := Part.inv_frame (by simp [invParts])
@[simp ↓] theorem inv_foldDone {x : Exchange} : (t.foldDone x).Inv ↔ t.Inv := Part.inv_frame (by simp [invParts])
@[simp ↓] theorem inv_foldWait {x : Exchange} : (t.foldWait x).1.Inv ↔ t.Inv := Part.inv_frame (by simp [invParts])
@[simp ↓] theorem inv_setStatK {k : Nat} : (t.setStatK k).Inv ↔ t.Inv := Part.inv_frame (by simp [invParts])
@[simp ↓] theorem inv_boundaryPatches : (t.boundaryPatches).Inv ↔ t.Inv := Part.inv_frame (by simp [invParts])
@[simp ↓] theorem inv_auditBegin : (t.auditBegin).Inv ↔ t.Inv := Part.inv_frame (by simp [invParts])
@[simp ↓] theorem inv_mergeLayers : (t.mergeLayers).Inv ↔ t.Inv := Part.inv_frame (by simp [invParts])
@[simp ↓] theorem inv_windowClear : (t.windowClear).Inv ↔ t.Inv := Part.inv_frame (by simp [invParts])
@[simp ↓] theorem inv_afterAction {k : Nat} : (t.afterAction k).Inv ↔ t.Inv := Part.inv_frame (by simp [invParts])
@[simp ↓] theorem inv_replayAll {step : Bool} {f : Core → Core} : (t.replayAll step f).Inv ↔ t.Inv := Part.inv_frame (by simp [invParts])
@[simp ↓] theorem inv_latchSieve : (t.latchSieve).Inv ↔ t.Inv := Part.inv_frame (by simp [invParts])
@[simp ↓] theorem inv_frontGoAt {who : Agent} {ci k entry tick : Nat} : (t.frontGoAt who ci k entry tick).Inv ↔ t.Inv :=
  Part.inv_frame (by simp [invParts])
@[simp ↓] theorem inv_frontGo {who : Agent} {ci k entry : Nat} : (t.frontGo who ci k entry).Inv ↔ t.Inv := Part.inv_frame (by simp [invParts])
@[simp ↓] theorem inv_openFactors : (t.openFactors).Inv ↔ t.Inv := Part.inv_frame (by simp [invParts])
@[simp ↓] theorem inv_auditAbandon {i : Nat} : (t.auditAbandon i).Inv ↔ t.Inv := Part.inv_frame (by simp [invParts])
@[simp ↓] theorem inv_gatherStat {i : Nat} : (t.gatherStat i).Inv ↔ t.Inv := Part.inv_frame (by simp [invParts])
@[simp ↓] theorem inv_auditRun {i off n : Nat} {crcs : List Nat} : (t.auditRun i off n crcs).Inv ↔ t.Inv := Part.inv_frame (by simp [invParts])
@[simp ↓] theorem inv_dirNotice {i : Nat} : (t.dirNotice i).Inv ↔ t.Inv := Part.inv_frame (by simp [invParts])
@[simp ↓] theorem inv_permLog {q : Permute} {status : Nat} : (t.permLog q status).Inv ↔ t.Inv := Part.inv_frame (by simp [invParts])
@[simp ↓] theorem inv_ueOf {k : Nat} : (t.ueOf k).2.Inv ↔ t.Inv := Part.inv_frame (by simp [invParts])
@[simp ↓] theorem inv_restart : (t.restart).Inv ↔ t.Inv := Part.inv_frame (by simp [invParts])
@[simp ↓] theorem inv_sensed : (t.sensed).Inv ↔ t.Inv := Part.inv_frame (by simp [invParts])
@[simp ↓] theorem inv_unstage : (t.unstage).Inv ↔ t.Inv := Part.inv_frame (by simp [invParts])
@[simp ↓] theorem inv_unhold : (t.unhold).Inv ↔ t.Inv := Part.inv_frame (by simp [invParts])
@[simp ↓] theorem inv_takeShared {v : List Nat} : (t.takeShared v).Inv ↔ t.Inv := Part.inv_frame (by simp [invParts])
@[simp ↓] theorem inv_dropStat : (t.dropStat).Inv ↔ t.Inv := Part.inv_frame (by simp [invParts])
@[simp ↓] theorem inv_hvItemDone {i : HItem} {rest : List HItem} {part : List Byte} : (t.hvItemDone i rest part).Inv ↔ t.Inv :=
  Part.inv_frame (by simp [invParts])
@[simp ↓] theorem inv_takeJournal {j : List Byte} : (t.takeJournal j).Inv ↔ t.Inv := Part.inv_frame (by simp [invParts])
@[simp ↓] theorem inv_noBist : (t.noBist).Inv ↔ t.Inv := Part.inv_frame (by simp [invParts])
@[simp ↓] theorem inv_gaugeReset {reach : Nat} : (t.gaugeReset reach).Inv ↔ t.Inv := Part.inv_frame (by simp [invParts])
@[simp ↓] theorem inv_hold_ {src : Nat} : (t.hold_ src).Inv ↔ t.Inv := Part.inv_frame (by simp [invParts])
@[simp ↓] theorem inv_drop_ {src : Nat} : (t.drop_ src).Inv ↔ t.Inv := Part.inv_frame (by simp [invParts])
@[simp ↓] theorem inv_loseCommits : (t.loseCommits).Inv ↔ t.Inv := Part.inv_frame (by simp [invParts])
@[simp ↓] theorem inv_wearUp {key : Nat} : (t.wearUp key).Inv ↔ t.Inv := Part.inv_frame (by simp [invParts])
@[simp ↓] theorem inv_computeUp : (t.computeUp).Inv ↔ t.Inv := Part.inv_frame (by simp [invParts])
@[simp ↓] theorem inv_wake {dies : List Nat} : (t.wake dies).Inv ↔ t.Inv := Part.inv_frame (by simp [invParts])
@[simp ↓] theorem inv_levelEff {d : Nat} : (t.levelEff d).Inv ↔ t.Inv := Part.inv_frame (by simp [invParts])
@[simp ↓] theorem inv_endSession : (t.endSession).Inv ↔ t.Inv := Part.inv_frame (by simp [invParts])
@[simp ↓] theorem inv_newNonce : (t.newNonce.2).Inv ↔ t.Inv := Part.inv_frame (by simp [invParts])
@[simp ↓] theorem inv_verify {kind : Nat} {tok : List Byte} : (t.verify kind tok).2.Inv ↔ t.Inv := Part.inv_frame (by simp [invParts])
@[simp ↓] theorem inv_commitImage {img : List Byte} : (t.commitImage img).Inv ↔ t.Inv := Part.inv_frame (by simp [invParts])
@[simp ↓] theorem inv_tdo {bs : List Byte} : (t.tdo bs).Inv ↔ t.Inv := Part.inv_frame (by simp [invParts])
@[simp ↓] theorem inv_tapIdle : (t.tapIdle).Inv ↔ t.Inv := Part.inv_frame (by simp [invParts])
@[simp ↓] theorem inv_answerFac {r : Option (List Byte)} : (t.answerFac r).Inv ↔ t.Inv := Part.inv_frame (by simp [invParts])
@[simp ↓] theorem inv_cml : (t.cml).Inv ↔ t.Inv := Part.inv_frame (by simp [invParts])
@[simp ↓] theorem inv_disarm : (t.disarm).Inv ↔ t.Inv := Part.inv_frame (by simp [invParts])
@[simp ↓] theorem inv_levelsEff : (t.levelsEff).Inv ↔ t.Inv := Part.inv_frame (by simp [invParts])
@[simp ↓] theorem inv_readPair {who : Agent} {pair v : Nat} {hi : Bool} : (t.readPair who pair v hi).2.Inv ↔ t.Inv :=
  Part.inv_frame (by simp [invParts])
@[simp ↓] theorem inv_coldWrite {v : Nat} : (t.coldWrite v).Inv ↔ t.Inv := Part.inv_frame (by simp [invParts])
@[simp ↓] theorem inv_readHub {who : Agent} {r : Reg} {i : Nat} : (t.readHub who r i).2.Inv ↔ t.Inv := Part.inv_frame (by simp [invParts])
@[simp ↓] theorem inv_readCluster {ci off : Nat} : (t.readCluster ci off).2.Inv ↔ t.Inv := Part.inv_frame (by simp [invParts])
@[simp ↓] theorem inv_writeCore {who : Agent} {gi off v : Nat} : (t.writeCore who gi off v).Inv ↔ t.Inv := Part.inv_frame (by simp [invParts])
@[simp ↓] theorem inv_writeFront {off v : Nat} : (t.writeFront off v).Inv ↔ t.Inv := Part.inv_frame (by simp [invParts])
@[simp ↓] theorem inv_gave {who : Agent} {v : Nat} : (t.gave who v).Inv ↔ t.Inv := Part.inv_frame (by simp [invParts])
@[simp ↓] theorem inv_scoped {scope idx : Nat} {f : Core → Core} : (t.scoped scope idx f).Inv ↔ t.Inv := Part.inv_frame (by simp [invParts])

/-! ### The operations that write a field the invariant speaks of -/

@[simp ↓] theorem inv_wrPlace {a : Nat} {bs : List Byte} (h : t.Inv) : (t.wrPlace a bs).Inv := by
  simp [State.wrPlace, h, Memory.wf_msets, h.mem]

@[simp ↓] theorem inv_wr {a : Nat} {bs : List Byte} (h : t.Inv) : (t.wr a bs).Inv := by
  unfold State.wr
  split
  · exact h
  · split
    · exact inv_wrPlace h
    · refine State.inv_foldl h fun u g hu => ?_
      split
      · exact inv_wrPlace hu
      · exact hu

@[simp ↓] theorem inv_strikes {us : List Upset} (h : t.Inv) : (t.strikes us).Inv := by
  unfold State.strikes
  refine State.inv_foldl h fun u x hu => ?_
  simp [hu, strike_wf, hu.mem]

/-- A full log drops the newer record (R339). -/
theorem log_append_le {logs : List Event} {e : Event} (h : (logs.filter fun x => x.log == e.log).length < 256) (l : Nat) :
    ((logs ++ [e]).filter fun x => x.log == l).length ≤ 256 ↔ (logs.filter fun x => x.log == l).length ≤ 256 := by
  rw [List.filter_append, List.length_append]
  by_cases hl : e.log = l
  · subst hl
    simp
    omega
  · simp [hl]

theorem inv_logs {logs : List Event}
    (h : ∀ l, (logs.filter fun x => x.log == l).length ≤ 256 ↔ (t.logs.filter fun x => x.log == l).length ≤ 256) :
    State.Inv { t with logs := logs } ↔ t.Inv := by simp only [State.inv_iff, h]

@[simp ↓] theorem inv_logEvent {e : Event} : (t.logEvent e).Inv ↔ t.Inv := by
  unfold State.logEvent
  split
  · next hroom => simp [inv_logs (log_append_le hroom)]
  · exact Iff.rfl

@[simp ↓] theorem inv_event {status kind idx arg : Nat} : (t.event status kind idx arg).Inv ↔ t.Inv := by
  unfold State.event
  split
  · exact Iff.rfl
  · simp

@[simp ↓] theorem inv_setSlot {k : Nat} {x : Slot} : (t.setSlot k x).Inv ↔ t.Inv := by simp [State.setSlot]

@[simp ↓] theorem inv_setTicket {n : Nat} {x : Ticket} : (t.setTicket n x).Inv ↔ t.Inv := by simp [State.setTicket]

@[simp ↓] theorem inv_setPort {p : Nat} {x : Port} : (t.setPort p x).Inv ↔ t.Inv := by simp [State.setPort]

/-- A Grafter put back with as many slots as it had. -/
@[simp ↓] theorem inv_setGrafter {k : Nat} {g : Grafter} (hg : g.slots.length = (t.grafter k).slots.length) : (t.setGrafter k g).Inv ↔ t.Inv := by
  suffices hw : (∀ x ∈ t.grafters.set k g, x.whole) ↔ ∀ x ∈ t.grafters, x.whole by
    simp only [State.inv_iff, State.setGrafter, List.length_set, hw]
  unfold State.grafter at hg
  unfold Grafter.whole
  simp only [List.forall_mem_iff_getElem, List.length_set, List.getElem_set]
  refine forall₂_congr fun i hi => ?_
  split
  · next hk =>
    subst hk
    rw [hg, List.getD_eq_getElem _ _ hi]
  · rfl

theorem inv_grafters {f : Grafter → Grafter} (hf : ∀ g : Grafter, (f g).slots.length = g.slots.length) :
    State.Inv { t with grafters := t.grafters.map f } ↔ t.Inv := by
  simp only [State.inv_iff, List.length_map, Grafter.whole, List.forall_mem_map, hf]

@[simp ↓] theorem inv_uncx {x : CX} (h : t.Inv) (hx : Memory.wf x.mem = true) : (t.uncx x).Inv := by
  unfold State.uncx
  simp [h, hx]

@[simp ↓] theorem inv_forget {q : Nat → Bool} (h : t.Inv) : (t.forget q).Inv := by
  unfold State.forget
  exact State.inv_mk_mem h (State.forget_wf q h.mem) rfl rfl rfl rfl

/-! ### Operations of `Ops` -/

@[simp ↓] theorem inv_unvctx {x : CX} (h : t.Inv) (hx : Memory.wf x.mem = true) : (t.unvctx x).Inv := inv_uncx h hx

@[simp ↓] theorem inv_runComp {gi : Nat} {ups : List Upset} {r : Run} {f : CX → CX} (hf : ∀ x : CX, x.Canon (f x)) (h : t.Inv) :
    (t.runComp gi ups r f).Inv :=
  inv_uncx (inv_strikes h) (hf _ (inv_strikes h).mem)

/-! ### Operations of `Shed` -/

@[simp ↓] theorem inv_rwErr {addr kind : Nat} {write : Bool} : (t.rwErr addr kind write).Inv ↔ t.Inv := by simp [State.rwErr]

@[simp ↓] theorem inv_rwpH {r : Reg} {i v : Nat} : (t.rwpH r i v).Inv ↔ t.Inv := by simp [State.rwpH]

@[simp ↓] theorem inv_rwpHf {r : Reg} {i lo w v : Nat} : (t.rwpHf r i lo w v).Inv ↔ t.Inv := by simp [State.rwpHf]

@[simp ↓] theorem inv_rwpC {ci : Nat} {r : Reg} {v : Nat} : (t.rwpC ci r v).Inv ↔ t.Inv := by simp [State.rwpC]

@[simp ↓] theorem inv_answer {k tag status : Nat} {data : List Byte} : (t.answer k tag status data).Inv ↔ t.Inv := by simp [State.answer]

@[simp ↓] theorem inv_endTicket {n status : Nat} : (t.endTicket n status).Inv ↔ t.Inv := by simp [State.endTicket]

@[simp ↓] theorem inv_endOp {opcode status : Nat} : (t.endOp opcode status).Inv ↔ t.Inv := by simp [State.endOp]

@[simp ↓] theorem inv_abandon {status : Nat} : (t.abandon status).Inv ↔ t.Inv := by
  simp only [State.abandon]
  split <;> simp

@[simp ↓] theorem inv_stageUnit {u : Nat} (h : t.Inv) : (t.stageUnit u).Inv := by
  simp only [State.stageUnit]
  split <;> simp [h]

@[simp ↓] theorem inv_stage {a n : Nat} (h : t.Inv) : (t.stage a n).Inv := by
  simp only [State.stage]
  split
  · exact State.inv_foldl h fun u i hu => inv_stageUnit hu
  · exact h

@[simp ↓] theorem inv_wrS {a : Nat} {bs : List Byte} (h : t.Inv) : (t.wrS a bs).Inv := by simp [State.wrS, h]

@[simp ↓] theorem inv_completion {cdpa status tag ticket len : Nat} (h : t.Inv) : (t.completion cdpa status tag ticket len).Inv := by
  simp [State.completion, h]

/-! ### Operations of `Engine` -/

@[simp ↓] theorem inv_elem {gi eop : Nat} (h : t.Inv) : (t.elem gi eop).Inv := by
  unfold State.elem
  split
  · exact h
  · next r _ =>
    split
    · exact inv_runComp (fun x => CX.canon_runElem x r) h
    · exact h

@[simp ↓] theorem inv_fill {gi : Nat} {ups : List Upset} {op : Nat} (h : t.Inv) : (t.fill gi ups op).Inv := by
  unfold State.fill
  extract_lets c
  split
  · exact h
  · split
    · exact h
    · next r _ _ =>
      refine inv_uncx (inv_strikes h) ?_
      dsimp only
      rw [CX.startFill_mem]
      exact (inv_strikes h).mem

/-! ### Operations of `Trellis` -/

@[simp ↓] theorem inv_landMsg {gi k seq stag : Nat} {data : List Byte} (h : t.Inv) : (t.landMsg gi k seq stag data).Inv := by
  simp only [State.landMsg]
  split <;> simp_all

@[simp ↓] theorem inv_landToken {gi k tseq inc stag : Nat} (h : t.Inv) : KeepsOf (t.landToken gi k tseq inc stag) := by
  simp [State.landToken, h]

@[simp ↓] theorem inv_deliver1 {gi : Nat} {q : Packet} (h : t.Inv) : KeepsOf (t.deliver1 gi q) := by
  unfold State.deliver1; split <;> simp [h]

@[simp ↓] theorem inv_drainEject {gi n : Nat} (h : t.Inv) : (t.drainEject gi n).Inv := by
  induction n generalizing t with
  | zero => exact h
  | succ n ih =>
    unfold State.drainEject
    split
    · exact h
    · next q rest _ =>
      split
      · exact h
      · next u e => exact ih (by simp [inv_deliver1 h u e])

@[simp ↓] theorem inv_arrive1 {gi : Nat} {q : Packet} (h : t.Inv) : (t.arrive1 gi q).Inv := by
  unfold State.arrive1
  split
  · split
    · next u e => exact inv_deliver1 h u e
    · simp [h]
  · simp [h]

@[simp ↓] theorem inv_arriveAt {u : State} {gi : Nat} {q : Packet} {flits : List FlitErr} (h : t.Inv) : Keeps (u.arriveAt t gi q flits) := by
  have hf : (t.flits q flits).1.Inv := by simp [h]
  unfold State.arriveAt
  extract_lets r v
  have hv : v.Inv := by
    unfold v
    split
    · exact inv_arrive1 hf
    · exact inv_landMsg hf
    · exact inv_arrive1 hf
  split
  · exact keeps_next.2 hf
  · exact keeps_next.2 (inv_drainEject hv)

/-! ### Operations of `Links` -/

@[simp ↓] theorem inv_transmit {q : Nat} {f : Frame} : (t.transmit q f).Inv ↔ t.Inv := by simp [State.transmit]

@[simp ↓] theorem inv_route {f : Frame} : (t.route f).Inv ↔ t.Inv := by
  simp only [State.route]
  split <;> simp

@[simp ↓] theorem inv_sendTo {x y tag vc : Nat} {b : FrameBody} : (t.sendTo x y tag vc b).Inv ↔ t.Inv := by simp [State.sendTo]

@[simp ↓] theorem inv_nakFrame {q : Nat} : (t.nakFrame q).Inv ↔ t.Inv := by simp [State.nakFrame]

@[simp ↓] theorem inv_takeFrame {k lseq : Nat} {hello : Bool} {go : State → State} (hgo : ∀ u, u.Inv → (go u).Inv) (h : t.Inv) :
    (t.takeFrame k lseq hello go).Inv := by
  unfold State.takeFrame
  split
  · extract_lets x
    split
    · simp [h]
    · exact hgo _ (by simp [h])
  · exact h

@[simp ↓] theorem inv_replayFrom {q i : Nat} : (t.replayFrom q i).Inv ↔ t.Inv := by simp [State.replayFrom]

@[simp ↓] theorem inv_laneSwap {q lane : Nat} : (t.laneSwap q lane).Inv ↔ t.Inv := by
  simp only [State.laneSwap]
  split <;> simp

@[simp ↓] theorem inv_laneLost {q lane : Nat} : (t.laneLost q lane).Inv ↔ t.Inv := by simp [State.laneLost]

/-! ### Operations of `Discovery` -/

@[simp ↓] theorem inv_updateRoot : t.updateRoot.Inv ↔ t.Inv := by simp [State.updateRoot]

@[simp ↓] theorem inv_learnTag {h' : HelloMsg} : (t.learnTag h').Inv ↔ t.Inv := by simp [State.learnTag]

@[simp ↓] theorem inv_setCoord {x y xs ys : Nat} : (t.setCoord x y xs ys).Inv ↔ t.Inv := by
  simp only [State.setCoord]
  split <;> simp

@[simp ↓] theorem inv_spread {but : Option Nat} {d : DiscMsg} : (t.spread but d).Inv ↔ t.Inv := by simp [State.spread]

@[simp ↓] theorem inv_discFail : t.discFail.Inv ↔ t.Inv := by simp [State.discFail]

@[simp ↓] theorem inv_discDone {t' : List DiscEntry} {xs ys : Nat} : (t.discDone t' xs ys).Inv ↔ t.Inv := by
  simp only [State.discDone]
  split <;> simp

@[simp ↓] theorem inv_trained {q : Nat} {v1 : Bool} : (t.trained q v1).Inv ↔ t.Inv := by simp [State.trained]

@[simp ↓] theorem inv_trainPorts {offers : List (Option Bool)} : (t.trainPorts offers).Inv ↔ t.Inv := by
  simp only [State.trainPorts]
  refine State.inv_foldl_iff fun u x => ?_
  (repeat' split) <;> simp

@[simp ↓] theorem inv_discipline {off : Int} : (t.discipline off).Inv ↔ t.Inv := by
  unfold State.discipline
  extract_lets sat s1 s2 d s3 now gs links
  have h3 : s3.Inv ↔ t.Inv := by simp [s3, d, s2, s1]
  split
  · rw [← h3, ← inv_grafters (t := s3) (f := fun g => { g with skew := g.skew + (s3.sundial : Int) - now }) fun g => rfl]
    simp only [State.inv_iff, gs, links]
  · simp [h3, links]

/-! ### Operations of `Owner` -/

@[simp ↓] theorem inv_putShards {rs : List (Nat × Nat × RowRun)} (h : t.Inv) : (t.putShards rs).Inv := by
  unfold State.putShards
  extract_lets base u
  have hu : u.Inv := State.inv_foldl h fun v e hv => inv_wrS hv
  simp [hu]

@[simp ↓] theorem inv_buildShards {area : Nat} (h : t.Inv) : (t.buildShards area).Inv := by simp [State.buildShards, h]

@[simp ↓] theorem inv_putWeight {l e code : Nat} (h : t.Inv) : (t.putWeight l e code).Inv := by simp [State.putWeight, h]

@[simp ↓] theorem inv_putWeights {l e : Nat} {codes : List Nat} (h : t.Inv) : (t.putWeights l e codes).Inv :=
  State.inv_foldl h fun _ _ hu => inv_putWeight hu

@[simp ↓] theorem inv_padXpose {l : Nat} (h : t.Inv) : (t.padXpose l).Inv := by
  unfold State.padXpose
  split
  · extract_lets rs cs u
    have hu : u.Inv := State.inv_foldl h fun v r hv => State.inv_foldl hv fun w c hw => inv_wrS hw
    exact State.inv_foldl hu fun v r hv => State.inv_foldl hv fun w c hw => inv_wrS hw
  · exact h

@[simp ↓] theorem inv_putFloats {a : Nat} {xs : List Nat} (h : t.Inv) : (t.putFloats a xs).Inv := by simp [State.putFloats, h]

@[simp ↓] theorem inv_scramble {a n : Nat} (h : t.Inv) : (t.scramble a n).Inv := by simp [State.scramble, h]

@[simp ↓] theorem inv_forgetHbm (h : t.Inv) : t.forgetHbm.Inv := by simp [State.forgetHbm, h]

/-! ### Operations of `FactorTab` -/

@[simp ↓] theorem inv_writeTile {mat exps t' : Nat} {v : List Int} {e : Int} (h : t.Inv) : (t.writeTile mat exps t' v e).Inv := by
  simp [State.writeTile, h]

@[simp ↓] theorem inv_writeWq {mat exps : Nat} {m : Mat} {n c : Nat} (h : t.Inv) : (t.writeWq mat exps m n c).Inv :=
  State.inv_foldl h fun _ _ hu => inv_writeTile hu

/-! ### Operations of `Memory` -/

@[simp ↓] theorem inv_hbmLoss {unit : Nat} : (t.hbmLoss unit).Inv ↔ t.Inv := by simp [State.hbmLoss]

theorem strikeUnit_wf {m : Mem} {u mask : Nat} (h : Memory.wf m = true) : Memory.wf (strikeUnit m u mask) = true := Memory.wf_msets _ _ h

theorem healUnits_wf {es : List HbmErr} {bad m : Mem} (h : Memory.wf m = true) : Memory.wf (healUnits es bad m) = true := by
  refine List.foldlRecOn es _ (motive := fun m => Memory.wf m = true) h fun m hm e _ => ?_
  split
  · exact Memory.wf_msets _ _ hm
  · exact hm

@[simp ↓] theorem inv_hbmMeets {e : HbmErr} (h : t.Inv) : (t.hbmMeets e).Inv := by
  unfold State.hbmMeets
  split
  · simp [h]
  · extract_lets k v
    have hv : v.Inv := by simp [v, h]
    exact State.inv_mk_mem hv (strikeUnit_wf hv.mem) rfl rfl rfl rfl

/-- What the units' errors leave of memory once the reads are over. -/
theorem inv_heal {es : List HbmErr} {bad : Mem} (h : t.Inv) : State.Inv { t with mem := healUnits es bad t.mem } :=
  State.inv_mk_mem h (healUnits_wf h.mem) rfl rfl rfl rfl

theorem inv_hbmMeetsAll {es : List HbmErr} (h : t.Inv) : (es.foldl State.hbmMeets t).Inv := State.inv_foldl h fun _ _ hu => inv_hbmMeets hu

@[simp ↓] theorem inv_hbmRun {es : List HbmErr} {go : State → Out} (hgo : ∀ u, u.Inv → Keeps (go u)) (h : t.Inv) : Keeps (t.hbmRun es go) := by
  unfold State.hbmRun
  split
  · exact hgo t h
  · extract_lets v
    have hv : Keeps (go v) := hgo v (inv_hbmMeetsAll h)
    split
    · next u e => exact keeps_next.2 (inv_heal (hv u e))
    · exact hv

@[simp ↓] theorem inv_readHbm {a n : Nat} {es : List HbmErr} (h : t.Inv) : (t.readHbm a n es).2.Inv := inv_heal (inv_hbmMeetsAll h)

@[simp ↓] theorem inv_readPlaceAt {a n : Nat} {es : List HbmErr} (h : t.Inv) : (t.readPlaceAt a n es).2.Inv := by
  simp only [State.readPlaceAt]
  split <;> simp [h]

@[simp ↓] theorem inv_readAt {a n : Nat} {es : List HbmErr} (h : t.Inv) : (t.readAt a n es).2.Inv := by
  unfold State.readAt
  split
  · exact inv_readPlaceAt h
  · refine State.inv_foldl_snd h fun u g hu => ?_
    split
    · exact inv_readPlaceAt hu
    · exact hu

/-! ### Operations of `Grafter` -/

@[simp ↓] theorem inv_subLo {who : Agent} {k v : Nat} : (t.subLo who k v).Inv ↔ t.Inv := by
  simp only [State.subLo]
  (repeat' split) <;> simp

@[simp ↓] theorem inv_submit {who : Agent} {k v : Nat} : (t.submit who k v).Inv ↔ t.Inv := by
  simp only [State.submit]
  split <;> simp

@[simp ↓] theorem inv_grfRecord {j : GJob} {status lrank : Nat} {w : Option (Nat × Mat × Dy)} (h : t.Inv) : (t.grfRecord j status lrank w).Inv := by
  simp only [State.grfRecord]
  split <;> simp_all

@[simp ↓] theorem inv_grfOut {d : Nat} {m : Mat} {n c : Nat} (h : t.Inv) : (t.grfOut d m n c).Inv := by
  simp only [State.grfOut]
  split <;> simp_all

@[simp ↓] theorem inv_putRoot {j : GJob} {w : Nat × Mat × Dy} (h : t.Inv) : (t.putRoot j w).Inv := by
  simp only [State.putRoot]
  split <;> simp_all

@[simp ↓] theorem inv_setJob {k i : Nat} {j : Option GJob} : (t.setJob k i j).Inv ↔ t.Inv := by simp [State.setJob]

@[simp ↓] theorem inv_grfCount {k : Nat} {r : Reg} {lo : Nat} : (t.grfCount k r lo).Inv ↔ t.Inv := by simp [State.grfCount]

@[simp ↓] theorem inv_vecOut {d : Nat} {cols : List WVec} (h : t.Inv) : (t.vecOut d cols).Inv := by simp [State.vecOut, h]

@[simp ↓] theorem inv_settleJob {k i : Nat} {j : GJob} (h : t.Inv) : (t.settleJob k i j).Inv := by
  simp only [State.settleJob]
  (repeat' split) <;> simp [h]

@[simp ↓] theorem inv_stopJob {k i : Nat} {j : GJob} {why : Nat} (h : t.Inv) : (t.stopJob k i j why).Inv := by simp [State.stopJob, h]

@[simp ↓] theorem inv_grfWork {k i d : Nat} (h : t.Inv) : (t.grfWork k i d).Inv := by simp [State.grfWork, h]

@[simp ↓] theorem inv_beginJob {k i : Nat} {b : Begin} {again : GJob → Begin} (h : t.Inv) : (t.beginJob k i b again).Inv := by
  simp only [State.beginJob]
  (repeat' split) <;> simp [h]

@[simp ↓] theorem inv_rangeJob {k i : Nat} {joined : Bool} {j : GJob} (h : t.Inv) : (t.rangeJob k i joined j).Inv := by
  simp [State.rangeJob, h]

@[simp ↓] theorem inv_warmRoot {k i : Nat} {j : GJob} (h : t.Inv) : (t.warmRoot k i j).Inv := by
  simp only [State.warmRoot]
  split <;> simp [h]

@[simp ↓] theorem inv_startJob {k i : Nat} {sub : Submitted} {d : Nat} (h : t.Inv) : (t.startJob k i sub d).Inv := by
  simp only [State.startJob]
  (repeat' split) <;> simp [h]

@[simp ↓] theorem inv_overrun {k i : Nat} {j : GJob} (h : t.Inv) : (t.overrun k i j).Inv := by simp [State.overrun, h]

@[simp ↓] theorem inv_grfAbort {k v : Nat} (h : t.Inv) : (t.grfAbort k v).Inv := by
  simp only [State.grfAbort]
  (repeat' split) <;> simp [h]

@[simp ↓] theorem inv_voteQueue {k : Nat} (h : t.Inv) : (t.voteQueue k).Inv := by
  refine State.inv_foldl h fun u sub hu => ?_
  dsimp only
  split
  · have hv : (u.setGrafter k (Grafter.letIn { u.grafter k with queue := (u.grafter k).queue.erase sub })).Inv := by simp [Grafter.letIn, hu]
    split <;> simp [hv]
  · exact hu

@[simp ↓] theorem inv_voteStop (h : t.Inv) : t.voteStop.Inv := by
  refine State.inv_foldl h fun u k hu => inv_voteQueue (State.inv_foldl hu fun v i hv => ?_)
  split
  · split
    · exact inv_stopJob hv
    · exact hv
  · exact hv

@[simp ↓] theorem inv_takeVote (h : t.Inv) : t.takeVote.Inv := by
  simp only [State.takeVote]
  split <;> simp_all

@[simp ↓] theorem inv_staleCount {k d : Nat} : (t.staleCount k d).Inv ↔ t.Inv := by simp [State.staleCount]

@[simp ↓] theorem inv_actVote {k g : Nat} {j : GJob} (h : t.Inv) : (t.actVote k g j).Inv := by
  simp only [State.actVote]
  split <;> simp [h]

@[simp ↓] theorem inv_combineVote {mn mx : Nat} (h : t.Inv) : (t.combineVote mn mx).Inv := by
  unfold State.combineVote
  split
  · exact h
  · refine State.inv_foldl (by simp [h]) fun u f hu => ?_
    extract_lets k i g v w
    have hv : v.Inv := by simp [v, hu]
    have hw : w.Inv := by
      unfold w
      split
      · split <;> simp [hv]
      · exact hv
    refine State.inv_foldl hw fun x j hx => ?_
    split
    · simp [hx]
    · exact hx

@[simp ↓] theorem inv_voteRecord {j : GJob} {g : Nat} (h : t.Inv) : (t.voteRecord j g).Inv := by simp [State.voteRecord, h]

@[simp ↓] theorem inv_publishRoots (h : t.Inv) : t.publishRoots.Inv := by
  unfold State.publishRoots
  extract_lets s1 _ s2
  have h2 : s2.Inv := by
    have h1 : s1.Inv := State.inv_foldl h fun u b hu => by simp [hu]
    simp [s2, h1]
  refine State.inv_foldl h2 fun u k hu => ?_
  extract_lets v gone g w
  have hv : v.Inv := State.inv_foldl hu fun x i hx => by
    split
    · split <;> simp [hx]
    · exact hx
  have hw : w.Inv := by simp [w, g, hv]
  exact State.inv_foldl hw fun x j hx => inv_voteRecord hx

@[simp ↓] theorem inv_endVotes (h : t.Inv) : t.endVotes.Inv := by
  refine State.inv_foldl h fun u k hu => ?_
  extract_lets v
  have hv : v.Inv := State.inv_foldl hu fun x sub hx => by
    extract_lets d g y
    split
    · have hy : y.Inv := by simp [y, g, Grafter.letIn, hx]
      simp [hy]
    · exact hx
  refine State.inv_foldl hv fun x i hx => ?_
  split
  · split <;> simp [hx]
  · exact hx

/-! ### Operations of `Ring` -/

@[simp ↓] theorem inv_sendNext {axis plus : Bool} {c : CollMsg} : (t.sendNext axis plus c).Inv ↔ t.Inv := by
  simp only [State.sendNext]
  split <;> simp

@[simp ↓] theorem inv_gatherSend {c : CollMsg} : (t.gatherSend c).Inv ↔ t.Inv := by simp [State.gatherSend]

@[simp ↓] theorem inv_gatherOn {c : CollMsg} : (t.gatherOn c).Inv ↔ t.Inv := by simp [State.gatherOn]

@[simp ↓] theorem inv_gatherLand {i off : Nat} {codes : List (Nat × Nat)} (h : t.Inv) : (t.gatherLand i off codes).Inv := by
  simp [State.gatherLand, h]

@[simp ↓] theorem inv_gatherRun {i : Nat} {r : RowRun} {xs : List Nat} (h : t.Inv) : (t.gatherRun i r xs).Inv := by
  simp only [State.gatherRun]
  simp_all

@[simp ↓] theorem inv_rsLand {i q j off : Nat} {vals : List Nat} (h : t.Inv) : (t.rsLand i q j off vals).Inv := by simp [State.rsLand, h]

@[simp ↓] theorem inv_rsSecond {i q j off : Nat} {vals : List Nat} (h : t.Inv) : (t.rsSecond i q j off vals).Inv := by
  simp [State.rsSecond, h]

@[simp ↓] theorem inv_rsFrame {c : CollMsg} (h : t.Inv) : KeepsOf (t.rsFrame c) := by
  simp only [State.rsFrame]
  split
  · simp_all
  · split <;> simp_all

@[simp ↓] theorem inv_rsStart {i q : Nat} {r : RowRun} (h : t.Inv) : (t.rsStart i q r).Inv := by simp [State.rsStart, h]

@[simp ↓] theorem inv_smallSend {c : CollMsg} {r : Machine.Small} : (t.smallSend c r).Inv ↔ t.Inv := by simp [State.smallSend]

@[simp ↓] theorem inv_normDone {g : Machine.Norm} (h : t.Inv) : (t.normDone g).Inv := by
  simp only [State.normDone]
  simp_all

@[simp ↓] theorem inv_normStep {r : Machine.Small} (h : t.Inv) : (t.normStep r).Inv := by
  simp only [State.normStep]
  (repeat' split) <;> simp [h]

@[simp ↓] theorem inv_normFrame {c : CollMsg} (h : t.Inv) : KeepsOf (t.normFrame c) := by simp [State.normFrame, h]

/-! ### Operations of `Factor` -/

@[simp ↓] theorem inv_tileLand {x : Exchange} {layer q j : Nat} {id : TileId} {v : List Int} : (t.tileLand x layer q j id v).Inv ↔ t.Inv := by
  simp [State.tileLand]

@[simp ↓] theorem inv_tileSecond {x : Exchange} {layer q j : Nat} {id : TileId} {v : List Int} : (t.tileSecond x layer q j id v).Inv ↔ t.Inv := by
  simp [State.tileSecond]

@[simp ↓] theorem inv_tileStart {x : Exchange} {layer q j : Nat} {id : TileId} {v : List Int} : (t.tileStart x layer q j id v).Inv ↔ t.Inv := by
  simp [State.tileStart]

@[simp ↓] theorem inv_exchScanned {x : Exchange} {g : List Scan} : (t.exchScanned x g).Inv ↔ t.Inv := by
  unfold State.exchScanned
  extract_lets y _ _ s1 s2
  have h2 : s2.Inv ↔ t.Inv := by simp [s2, s1]
  simp [h2]

@[simp ↓] theorem inv_scanStep {x : Exchange} {r : Machine.Small} : (t.scanStep x r).Inv ↔ t.Inv := by
  simp only [State.scanStep]
  (repeat' split) <;> simp

@[simp ↓] theorem inv_scanFrame {c : CollMsg} (h : t.Inv) : KeepsOf (t.scanFrame c) := by unfold State.scanFrame; split <;> simp_all

@[simp ↓] theorem inv_tileFrame {c : CollMsg} (h : t.Inv) : KeepsOf (t.tileFrame c) := by
  simp only [State.tileFrame]
  split
  · simp_all
  · split <;> simp_all

@[simp ↓] theorem inv_tileGatherFrame {c : CollMsg} (h : t.Inv) : KeepsOf (t.tileGatherFrame c) := by simp [State.tileGatherFrame, h]

@[simp ↓] theorem inv_exchBegin {m : Nat} : (t.exchBegin m).Inv ↔ t.Inv := by simp [State.exchBegin]

@[simp ↓] theorem inv_copyBlock {fidx side blk l : Nat} (h : t.Inv) : (t.copyBlock fidx side blk l).Inv := by simp [State.copyBlock, h]

@[simp ↓] theorem inv_keepFactors {x : Exchange} (h : t.Inv) : (t.keepFactors x).Inv :=
  State.inv_foldl h fun _ _ hu => State.inv_foldl hu fun _ _ hv => State.inv_foldl hv fun _ _ hw => inv_copyBlock hw

@[simp ↓] theorem inv_publishFactors (h : t.Inv) : t.publishFactors.Inv := by
  simp only [State.publishFactors]
  split <;> simp_all

/-! ### Operations of `Boundary` -/

@[simp ↓] theorem inv_staleCheck : t.staleCheck.Inv ↔ t.Inv := by
  simp only [State.staleCheck]
  refine State.inv_foldl_iff fun u x => ?_
  split <;> simp

@[simp ↓] theorem inv_endJob : t.endJob.Inv ↔ t.Inv := by simp [State.endJob]

@[simp ↓] theorem inv_openBoundary : t.openBoundary.Inv ↔ t.Inv := by
  unfold State.openBoundary
  extract_lets _ s1 _ s2
  have h1 : s1.Inv ↔ t.Inv := by simp [s1]
  have h2 : s2.Inv ↔ t.Inv := by
    rw [← h1, ← inv_grafters (t := s1) (f := Grafter.applyRgn) fun g => rfl]
    simp only [State.inv_iff, s2]
  simp [h2]

@[simp ↓] theorem inv_beginBoundary : t.beginBoundary.Inv ↔ t.Inv := by simp [State.beginBoundary]

@[simp ↓] theorem inv_applyReplay (h : t.Inv) : t.applyReplay.Inv := by
  unfold State.applyReplay
  extract_lets was owed n s1 s2 s3 s4 s5 _ s6 gen _ stat bad s7 s8 _ s9 s10
  have h3 : s3.Inv := by simp [s3, s2, s1, h]
  have h4 : s4.Inv := by simp [s4, h3]
  have h6 : s6.Inv := by simp [s6, s5, h4]
  have h10 : s10.Inv := by simp [s10, s9, s8, s7, h6]
  simp [h10]

/-! ### Operations of `Fronts` -/

@[simp ↓] theorem inv_startStream {k : Nat} {hbm : List HbmErr} (h : t.Inv) : (t.startStream k hbm).Inv := by
  simp only [State.startStream]
  split <;> simp [h]

/-! ### Operations of `Sieve` -/

@[simp ↓] theorem inv_retireCore {gi : Nat} : (t.retireCore gi).Inv ↔ t.Inv := by simp [State.retireCore]

@[simp ↓] theorem inv_chargeCore {gi n : Nat} : (t.chargeCore gi n).Inv ↔ t.Inv := by simp [State.chargeCore]

@[simp ↓] theorem inv_closeReports : t.closeReports.Inv ↔ t.Inv := by
  simp only [State.closeReports]
  simp

@[simp ↓] theorem inv_putJournal {outcome : Nat} (h : t.Inv) : (t.putJournal outcome).Inv :=
  inv_wrS (inv_wrS (inv_wrS (inv_wrS (inv_wrS h))))

@[simp ↓] theorem inv_putJdone {n : Nat} (h : t.Inv) : (t.putJdone n).Inv := by simp [State.putJdone, h]

@[simp ↓] theorem inv_hold {status arg : Nat} : (t.hold status arg).Inv ↔ t.Inv := by simp [State.hold]

@[simp ↓] theorem inv_endGenerate (h : t.Inv) : t.endGenerate.Inv := by
  unfold State.endGenerate
  extract_lets s0 s1 _ s2
  have h2 : s2.Inv := by simp [s2, s1, s0, h]
  simp [h2]

@[simp ↓] theorem inv_settleLists (h : t.Inv) : t.settleLists.Inv := by
  simp only [State.settleLists]
  (repeat' split) <;> simp [h]

@[simp ↓] theorem inv_normBegin (h : t.Inv) : t.normBegin.Inv := by simp [State.normBegin, h]

@[simp ↓] theorem inv_sendReplayReq {cause : Nat} : (t.sendReplayReq cause).Inv ↔ t.Inv := by
  simp only [State.sendReplayReq]
  refine State.inv_foldl_iff fun u x => ?_
  split <;> simp

@[simp ↓] theorem inv_replayDue {cause : Nat} : (t.replayDue cause).Inv ↔ t.Inv := by
  simp only [State.replayDue]
  split <;> simp

@[simp ↓] theorem inv_decideReplay {cause : Nat} : (t.decideReplay cause).Inv ↔ t.Inv := by simp [State.decideReplay]

@[simp ↓] theorem inv_settleSweep (h : t.Inv) : t.settleSweep.Inv := by
  simp only [State.settleSweep]
  split <;> simp [h]

@[simp ↓] theorem inv_commitStep {gn c out : Nat} (h : t.Inv) : (t.commitStep gn c out).Inv := by
  unfold State.commitStep
  extract_lets v bc ls k s1 grow auto up cur s2 window _ s3 s4 s5 got _ _ s6 _ s7 u _ s8
  have h5 : s5.Inv := by simp [s5, s4, s3, s2, s1, h]
  have h6 : s6.Inv := by simp [s6, h5]
  have h7 : s7.Inv := by
    unfold s7
    split
    · split <;> simp [h6]
    · exact h6
  have h8 : s8.Inv := by simp [s8, u, h7]
  simp [h8]

@[simp ↓] theorem inv_skipWith {code : Nat} {nf : Bool} (h : t.Inv) : (t.skipWith code nf).Inv := by
  unfold State.skipWith
  extract_lets s1 n s2 cur down s3 _ _ s4 s5 s6 s7 s8
  have h6 : s6.Inv := by simp [s6, s5, s4, s3, s2, s1, h]
  have h7 : s7.Inv := by simp [s7, h6]
  simp [s8, h7]

@[simp ↓] theorem inv_skipStep {out : Nat} (h : t.Inv) : (t.skipStep out).Inv := by simp [State.skipStep, h]

@[simp ↓] theorem inv_sieveDecision {g : Machine.Norm} (h : t.Inv) : (t.sieveDecision g).Inv := by
  simp only [State.sieveDecision]
  (repeat' split) <;> simp [h]

/-! ### Operations of `Sweep` -/

@[simp ↓] theorem inv_putState {d : Decision} {r : Rec} {g : List Nat} (h : t.Inv) : (t.putState d r g).Inv :=
  inv_wrS (inv_putFloats (inv_putFloats h))

@[simp ↓] theorem inv_putMaster {d : Decision} {r : Rec} {g : List Nat} (h : t.Inv) : (t.putMaster d r g).Inv := by
  simp [State.putMaster, h]

@[simp ↓] theorem inv_putStepWord {d : Decision} {r : Rec} (h : t.Inv) : (t.putStepWord d r).Inv := by simp [State.putStepWord, h]

@[simp ↓] theorem inv_sweepRec {d : Decision} {r : Rec} {e : List HbmErr} (h : t.Inv) : (t.sweepRec d r e).Inv :=
  inv_putStepWord (inv_putMaster (inv_putState (inv_readAt h)))

@[simp ↓] theorem inv_rederive {i off : Nat} {xs : List Nat} (h : t.Inv) : (t.rederive i off xs).Inv := by simp [State.rederive, h]

@[simp ↓] theorem inv_gatherTake {k : Nat} (h : t.Inv) : (t.gatherTake k).Inv := by simp [State.gatherTake, h]

@[simp ↓] theorem inv_recoverRec {d : Decision} {i : Nat} (h : t.Inv) : (t.recoverRec d i).Inv := by simp [State.recoverRec, h]

@[simp ↓] theorem inv_recoverAll (h : t.Inv) : t.recoverAll.Inv := by
  unfold State.recoverAll
  extract_lets d idx s1 own _ s2
  have h1 : s1.Inv := State.inv_foldl h fun u i hu => inv_recoverRec hu
  have h2 : s2.Inv := by simp [s2, h1]
  simp [h2]

@[simp ↓] theorem inv_crcFrame {c : CollMsg} (h : t.Inv) : KeepsOf (t.crcFrame c) := by simp [State.crcFrame, h]

/-! ### Operations of `Collectives` -/

@[simp ↓] theorem inv_gradGatherFrame {c : CollMsg} (h : t.Inv) : (t.gradGatherFrame c).Inv := by simp [State.gradGatherFrame, h]

@[simp ↓] theorem inv_takeColl {c : CollMsg} (h : t.Inv) : KeepsOf (t.takeColl c) := by unfold State.takeColl; split <;> simp_all

@[simp ↓] theorem inv_retryHeld {n : Nat} (h : t.Inv) : (State.retryHeld n t).Inv := by
  induction n generalizing t with
  | zero => exact h
  | succ n ih =>
    unfold State.retryHeld
    split
    · exact h
    · next c _ =>
      extract_lets _ u
      have hu : u.Inv := by simp [u, h]
      exact ih ((inv_takeColl hu).getD hu)

@[simp ↓] theorem inv_settleColl (h : t.Inv) : t.settleColl.Inv := by simp [State.settleColl, h]

@[simp ↓] theorem inv_splitCheck {c : CollMsg} : (t.splitCheck c).Inv ↔ t.Inv := by simp [State.splitCheck]

@[simp ↓] theorem inv_collArrive {c : CollMsg} (h : t.Inv) : (t.collArrive c).Inv := by
  unfold State.collArrive
  split
  · split
    · next u e => exact inv_settleColl (inv_takeColl h u e)
    · simp [h]
  · simp [h]

@[simp ↓] theorem inv_takeReq {cause : Nat} : (t.takeReq cause).Inv ↔ t.Inv := by simp [State.takeReq]

@[simp ↓] theorem inv_settleReq : t.settleReq.Inv ↔ t.Inv := by
  simp only [State.settleReq]
  split <;> simp

@[simp ↓] theorem inv_scrambleRest {i : Nat} (h : t.Inv) : (t.scrambleRest i).Inv := by
  unfold State.scrambleRest
  split
  · exact State.inv_foldl h fun u r hu => inv_scramble hu
  · exact h

@[simp ↓] theorem inv_gradNotice {i : Nat} (h : t.Inv) : (t.gradNotice i).Inv := by simp [State.gradNotice, h]

@[simp ↓] theorem inv_mgmtAll {q : Permute} {m : MgmtMsg} : (t.mgmtAll q m).Inv ↔ t.Inv := by simp [State.mgmtAll]

@[simp ↓] theorem inv_permOver {q : Permute} : (t.permOver q).Inv ↔ t.Inv := by
  simp only [State.permOver]
  split <;> simp

@[simp ↓] theorem inv_permEnd {status : Nat} : (t.permEnd status).Inv ↔ t.Inv := by
  simp only [State.permEnd]
  split <;> simp

@[simp ↓] theorem inv_permFault : t.permFault.Inv ↔ t.Inv := by
  simp only [State.permFault]
  split <;> simp

@[simp ↓] theorem inv_lateFault : t.lateFault.Inv ↔ t.Inv := by simp [State.lateFault]

@[simp ↓] theorem inv_noticeEvent {src : Endpoint} {st detail extra : Nat} : (t.noticeEvent src st detail extra).Inv ↔ t.Inv := by
  simp only [State.noticeEvent]
  split <;> simp

@[simp ↓] theorem inv_chargeUe {src : Endpoint} {st detail : Nat} : (t.chargeUe src st detail).Inv ↔ t.Inv := by
  simp only [State.chargeUe]
  split <;> simp

@[simp ↓] theorem inv_hbmNotice {k : Nat} : (t.hbmNotice k).Inv ↔ t.Inv := by
  simp only [State.hbmNotice]
  split <;> simp

/-! ### Operations of `Mailbox` -/

/-- The queue without its front command. -/
theorem inv_takeCmd {op : Nat} {c : Cmd} {u : State} (h : t.Inv) (e : t.takeCmd op = some (c, u)) : u.Inv := by
  unfold State.takeCmd at e
  split at e
  · next c' rest hq =>
    split at e
    · cases e
      rw [State.inv_iff] at h ⊢
      obtain ⟨hmem, ⟨hslots, htickets, hcmds⟩, hrest⟩ := h
      exact ⟨hmem, ⟨hslots, htickets, le_trans (by simp [hq]) hcmds⟩, hrest⟩
    · cases e
  · cases e

@[simp ↓] theorem inv_reply {c : Cmd} {status : Nat} {data : List Byte} : (t.reply c status data).Inv ↔ t.Inv := by simp [State.reply]

@[simp ↓] theorem inv_failTicket {n status : Nat} : (t.failTicket n status).Inv ↔ t.Inv := by simp [State.failTicket]

@[simp ↓] theorem inv_short {op : Nat} {go : Cmd → State → State} (hgo : ∀ c u, u.Inv → (go c u).Inv) (h : t.Inv) : Keeps (t.short op go) := by
  unfold State.short
  split
  · next c u e => exact keeps_next.2 (hgo c u (inv_takeCmd h e))
  · simp [h]

@[simp ↓] theorem inv_openTicket {n : Nat} {c : Cmd} : (t.openTicket n c).Inv ↔ t.Inv := by
  unfold State.openTicket
  extract_lets s1 m s2
  have h1 : s1.Inv ↔ t.Inv := by simp [s1]
  have h2 : s2.Inv ↔ s1.Inv := by simp [s2, m]
  simp [h1, h2]

@[simp ↓] theorem inv_long {op : Nat} {refuse : Cmd → State → Option Nat} {go : Cmd → Nat → State → State}
    (hgo : ∀ c n u, u.Inv → (go c n u).Inv) (h : t.Inv) :
    Keeps (t.long op refuse go) := by
  unfold State.long
  split
  · simp [h]
  · next c u e =>
    have hu := inv_takeCmd h e
    split
    · simp [hu]
    · split
      · simp [hu]
      · split
        · simp [hu]
        · exact keeps_next.2 (hgo _ _ _ (inv_openTicket.2 hu))

@[simp ↓] theorem inv_finish {n : Nat} {c : Cmd} {cdpa status len : Nat} (h : t.Inv) : (t.finish n c cdpa status len).Inv := by
  simp [State.finish, h]

@[simp ↓] theorem inv_cxlRun {op : Nat} {go : List Byte → State → Nat × List Byte × State} (hgo : ∀ b u, u.Inv → (go b u).2.2.Inv) (h : t.Inv) :
    Keeps (t.cxlRun op go) := by
  unfold State.cxlRun
  split
  · split
    · simp [hgo _ _ h]
    · simp [h]
  · simp [h]

@[simp ↓] theorem inv_setCap {c : Cmd} : (t.setCap c).Inv ↔ t.Inv := by simp [State.setCap]

/-! ### Operations of `Tables` -/

@[simp ↓] theorem inv_tableRead {c : Cmd} {n : Nat} {entry : Nat → Nat} (h : t.Inv) : (t.tableRead c n entry).Inv := by
  simp [State.tableRead, h]

/-! ### Operations of `Job` -/

@[simp ↓] theorem inv_jobStart {area launch : Nat} (h : t.Inv) : (t.jobStart area launch).Inv := by simp [State.jobStart, h]

theorem inv_takeResume {k a : Nat} {c : Cmd} {u : State} (h : t.Inv) (e : t.takeResume k = some (a, c, u)) : u.Inv := by
  unfold State.takeResume at e
  split at e
  · next hc =>
    dsimp only at e
    split at e
    · cases e
      exact inv_takeCmd h hc
    · cases e
  · cases e

@[simp ↓] theorem inv_startDiscovery : t.startDiscovery.Inv ↔ t.Inv := by simp [State.startDiscovery]

/-! ### Operations of `Permute` -/

@[simp ↓] theorem inv_putMap {bank : Nat} {map : List Nat} : (t.putMap bank map).Inv ↔ t.Inv := by
  simp only [State.putMap]
  simp

@[simp ↓] theorem inv_putGrid {xl yl bank epoch : Nat} : (t.putGrid xl yl bank epoch).Inv ↔ t.Inv := by simp [State.putGrid]

@[simp ↓] theorem inv_sendMove {pm : Permute} {code dpa : Nat} {bs : List Byte} : (t.sendMove pm code dpa bs).Inv ↔ t.Inv := by
  simp [State.sendMove]

@[simp ↓] theorem inv_makePiece {pm : Permute} {new : Grid} {q : Piece} (h : t.Inv) : (t.makePiece pm new q).Inv := by
  unfold State.makePiece
  split
  · refine State.inv_foldl h fun u w hu => ?_
    split <;> simp [hu]
  · exact h

@[simp ↓] theorem inv_makeCopies {pm : Permute} {old new : Grid} {code : Nat} : (t.makeCopies pm old new code).Inv ↔ t.Inv := by
  simp only [State.makeCopies]
  split <;> simp

@[simp ↓] theorem inv_planVote {code : Nat} {h' : List Byte} : (t.planVote code h').Inv ↔ t.Inv := by
  simp only [State.planVote]
  split <;> simp

@[simp ↓] theorem inv_mgmtArrive {from_ : Nat} {m : MgmtMsg} : (t.mgmtArrive from_ m).Inv ↔ t.Inv := by
  simp only [State.mgmtArrive]
  split <;> simp

@[simp ↓] theorem inv_takeGrid {q : Permute} {new : Grid} (h : t.Inv) : (t.takeGrid q new).Inv := by
  simp only [State.takeGrid]
  simp_all

@[simp ↓] theorem inv_permEffects {replays : Nat} (h : t.Inv) : (t.permEffects replays).Inv := by simp [State.permEffects, h]

@[simp ↓] theorem inv_permCommit {q : Permute} {new : Grid} (h : t.Inv) : (t.permCommit q new).Inv := by simp [State.permCommit, h]

/-! ### Operations of `Spares` -/

@[simp ↓] theorem inv_swapInto {gi j : Nat} : (t.swapInto gi j).2.Inv ↔ t.Inv := by simp [State.swapInto]

@[simp ↓] theorem inv_swapCore {gi : Nat} : (t.swapCore gi).Inv ↔ t.Inv := by
  simp only [State.swapCore]
  split <;> simp

@[simp ↓] theorem inv_killSpare {ci j : Nat} : (t.killSpare ci j).Inv ↔ t.Inv := by simp [State.killSpare]

@[simp ↓] theorem inv_retirePhys {e : Nat × Nat} : (t.retirePhys e).Inv ↔ t.Inv := by
  simp only [State.retirePhys]
  split <;> simp

@[simp ↓] theorem inv_setPlan {die vstep div exh : Nat} : (t.setPlan die vstep div exh).Inv ↔ t.Inv := by simp [State.setPlan]

@[simp ↓] theorem inv_planPass {m : Margin} {die : Nat} {again : State → State} (hgo : ∀ u, (again u).Inv ↔ u.Inv) :
    (t.planPass m die again).Inv ↔ t.Inv := by simp [State.planPass, hgo]

@[simp ↓] theorem inv_planGen {die old : Nat} : (t.planGen die old).Inv ↔ t.Inv := by
  simp only [State.planGen]
  split <;> simp

@[simp ↓] theorem inv_slowDie {m : Margin} {die : Nat} : (t.slowDie m die).Inv ↔ t.Inv := by simp [State.slowDie]

@[simp ↓] theorem inv_replanDie {m : Margin} {die : Nat} : (t.replanDie m die).Inv ↔ t.Inv := by
  unfold State.replanDie
  split
  · rfl
  · rw [inv_planGen, inv_planPass fun u => by split <;> simp]

@[simp ↓] theorem inv_replan {m : Margin} : (t.replan m).Inv ↔ t.Inv := by simp [State.replan]

@[simp ↓] theorem inv_divide {m : Margin} : (t.divide m).Inv ↔ t.Inv := by simp [State.divide]

@[simp ↓] theorem inv_bistFail {u : TestUnit} : (t.bistFail u).Inv ↔ t.Inv := by simp [State.bistFail]

@[simp ↓] theorem inv_testFail {u : TestUnit} : (t.testFail u).Inv ↔ t.Inv := by
  simp only [State.testFail]
  split <;> simp

@[simp ↓] theorem inv_saved {save : Nat} (h : t.Inv) : (t.saved save).Inv := by simp [State.saved, h]

@[simp ↓] theorem inv_portsDown : t.portsDown.Inv ↔ t.Inv := by simp [State.portsDown]

@[simp ↓] theorem inv_testAll {set : Nat} {fails : List TestUnit} (h : t.Inv) : (t.testAll set fails).Inv := by simp [State.testAll, h]

@[simp ↓] theorem inv_bistUnit {u : TestUnit} : (t.bistUnit u).2.Inv ↔ t.Inv := by
  simp only [State.bistUnit]
  (repeat' split) <;> simp

/-! ### Operations of `Harvest` -/

@[simp ↓] theorem inv_openSnap {n : Nat} (h : t.Inv) : (t.openSnap n).Inv := by simp [State.openSnap, h]

@[simp ↓] theorem inv_hvPut {off : Nat} {bs : List Byte} : (t.hvPut off bs).Inv ↔ t.Inv := by simp [State.hvPut]

@[simp ↓] theorem inv_hvRead {a n : Nat} {e : List HbmErr} (h : t.Inv) : (t.hvRead a n e).2.Inv := by simp [State.hvRead, h]

@[simp ↓] theorem inv_hvDrain {i : HItem} {rest : List HItem} {n : Nat} {e : List HbmErr} (h : t.Inv) : (t.hvDrain i rest n e).Inv := by
  simp only [State.hvDrain]
  split <;> simp [h]

@[simp ↓] theorem inv_hvFinish : t.hvFinish.Inv ↔ t.Inv := by
  unfold State.hvFinish
  extract_lets s1 s2 s3 n s4 _ s5
  have h1 : s1.Inv ↔ t.Inv := by simp [s1]
  have h3 : s3.Inv ↔ t.Inv := by rw [inv_hvPut, inv_hvPut, h1]
  have h5 : s5.Inv ↔ s4.Inv := by simp [s5]
  rw [inv_endTicket, inv_setHf, inv_setHf, inv_setHf, h5, inv_sample, h3]

@[simp ↓] theorem inv_putRecord {a layer rows : Nat} {data : List Byte} (h : t.Inv) : (t.putRecord a layer rows data).Inv :=
  inv_wrS (inv_wrS (inv_wrS (inv_wrS h)))

@[simp ↓] theorem inv_putBlock {b : HBlock} (h : t.Inv) : (t.putBlock b).Inv := by
  unfold State.putBlock
  split
  · exact h
  · extract_lets runs s1 f1 f2
    have h1 : s1.Inv := State.inv_foldl_fst h fun u r hu => inv_wrS hu
    simp [h1]

@[simp ↓] theorem inv_toMembers {m : MgmtMsg} : (t.toMembers m).Inv ↔ t.Inv := by
  simp only [State.toMembers]
  refine State.inv_foldl_iff fun u x => ?_
  split <;> simp

@[simp ↓] theorem inv_putEntry {plan : List (Nat × Nat × RowRun)} {img : List Byte} {k : Nat} {en : List Byte} (h : t.Inv) :
    (t.putEntry plan img k en).Inv := by
  simp only [State.putEntry]
  (repeat' split) <;> simp [h]

@[simp ↓] theorem inv_regather (h : t.Inv) : t.regather.Inv := by
  refine State.inv_foldl h fun u sh hu => ?_
  simp [hu]

@[simp ↓] theorem inv_restoreDone (h : t.Inv) : t.restoreDone.Inv := by
  simp only [State.restoreDone]
  simp_all

@[simp ↓] theorem inv_settleRestore (h : t.Inv) : t.settleRestore.Inv := by
  unfold State.settleRestore
  split
  · extract_lets id' got s1 owed _ s2
    have h1 : s1.Inv := State.inv_foldl h fun u b hu => inv_putBlock hu
    simp [s2, h1]
  · exact h

@[simp ↓] theorem inv_forgetTargets {plan : List (Nat × Nat × RowRun)} (h : t.Inv) : (t.forgetTargets plan).Inv := by
  simp only [State.forgetTargets]
  simp_all

@[simp ↓] theorem inv_restoreEntries {plan : List (Nat × Nat × RowRun)} {img : List Byte} {n : Nat} (h : t.Inv) :
    (t.restoreEntries plan img n).Inv := by
  unfold State.restoreEntries
  extract_lets ens s1 owed _ s0 _ s2
  have h1 : s1.Inv := State.inv_foldl h fun u e hu => inv_putEntry hu
  have h0 : s0.Inv := inv_forgetTargets h
  split
  · simp [h1]
  · simp [s2, h0]

/-! ### Operations of `Reset` -/

@[simp ↓] theorem inv_zeroMem {q : Nat → Bool} (h : t.Inv) : (t.zeroMem q).Inv :=
  State.inv_mk_mem h (State.zeroMem_wf q h.mem) rfl rfl rfl rfl

@[simp ↓] theorem inv_abortOps {ops : List Nat} : (t.abortOps ops).Inv ↔ t.Inv := by simp [State.abortOps]

@[simp ↓] theorem inv_clearCore {gi : Nat} (h : t.Inv) : (t.clearCore gi).Inv := by simp [State.clearCore, h]

@[simp ↓] theorem inv_clearClusters {q : Nat → Bool} {f : Bool → Cluster → Cluster} (h : t.Inv) : (t.clearClusters q f).Inv := by
  simp [State.clearClusters, h]

/-- A Grafter put back as it comes out of reset. -/
theorem inv_setGrafter_init {k : Nat} (h : t.Inv) : (t.setGrafter k Grafter.init).Inv := by
  rw [State.inv_iff] at h ⊢
  obtain ⟨hmem, hmb, ⟨hlen, hg⟩, hrest⟩ := h
  refine ⟨hmem, hmb, ⟨(List.length_set ..).trans hlen, fun g hx => ?_⟩, hrest⟩
  obtain hx | rfl := List.mem_or_eq_of_mem_set hx
  · exact hg g hx
  · rfl

@[simp ↓] theorem inv_clearNarrow {dies clusters cores : List Nat} {cut : List Endpoint} (h : t.Inv) :
    (t.clearNarrow dies clusters cores cut).Inv := by
  unfold State.clearNarrow
  extract_lets s1 s2 s3 s4 lost s5 gone _ s6 _ s7 _ s8 s9
  split
  · exact h
  · have h1 : s1.Inv := State.inv_foldl (by simp [h]) fun u gi hu => inv_clearCore hu
    have h2 : s2.Inv := by simp [s2, h1]
    have h3 : s3.Inv := by simp [s3, h2]
    have h4 : s4.Inv := State.inv_foldl h3 fun u k hu => inv_setGrafter_init hu
    simp [s9, s8, s7, s6, s5, h4]

/-- The Grafters as they come out of reset. -/
theorem Grafter.whole_replicate : ∀ g ∈ List.replicate 8 Grafter.init, g.whole := fun g hg => by
  rw [List.eq_of_mem_replicate hg]
  rfl

@[simp ↓] theorem inv_clearFabric (h : t.Inv) : t.clearFabric.Inv := by
  rw [State.inv_iff] at h ⊢
  obtain ⟨hmem, hmb, -, hports, hlogs⟩ := h
  exact ⟨State.clearFabric_wf hmem, hmb, ⟨rfl, Grafter.whole_replicate⟩, hports, hlogs⟩

@[simp ↓] theorem inv_clearReach3 (h : t.Inv) : t.clearReach3.Inv := by simp [State.clearReach3, h]

theorem inv_clearWideAll (h : t.Inv) {u : State} (hmem : u.mem = t.mem) (hgrf : u.grafters = t.grafters) (hmb : u.mb = Mailbox.init)
    (hports : u.links.ports = Links.init.ports) (hlogs : u.logs = []) : u.Inv := by
  rw [State.inv_iff] at h ⊢
  obtain ⟨hm, -, hg, -, -⟩ := h
  rw [hmem, hgrf, hmb, hports, hlogs]
  exact ⟨hm, ⟨rfl, rfl, Nat.zero_le 32⟩, hg, rfl, fun l _ => Nat.zero_le 256⟩

@[simp ↓] theorem inv_clearWide {reach : Nat} (h : t.Inv) : (t.clearWide reach).Inv := by
  unfold State.clearWide
  extract_lets taint recov eoff s1 s2 links harvest s3 host s4 sec s5 _ s6 s7 _ _ s8 pwr
  have h1 : s1.Inv := by simp [s1, h]
  have h4 : s4.Inv := inv_clearWideAll h1 rfl rfl rfl rfl rfl
  have h7 : s7.Inv := by simp [s7, s6, s5, h4]
  simp [s8, h7]

@[simp ↓] theorem inv_request {src reach : Nat} {dies clusters cores : List Nat} {cut : List Endpoint} (h : t.Inv) :
    (t.request src reach dies clusters cores cut).Inv := by simp [State.request, h]

@[simp ↓] theorem inv_grantReset {c : Cmd} {reach idx : Nat} : (t.grantReset c reach idx).Inv ↔ t.Inv := by
  simp only [State.grantReset]
  split <;> simp

@[simp ↓] theorem inv_boot : t.boot.Inv ↔ t.Inv := by
  simp only [State.boot]
  split <;> simp

@[simp ↓] theorem inv_released : t.released.Inv ↔ t.Inv := by
  simp only [State.released]
  simp

@[simp ↓] theorem inv_phyUp (h : t.Inv) : t.phyUp.Inv := by simp [State.phyUp, h]

@[simp ↓] theorem inv_recoverStep (h : t.Inv) : t.recoverStep.Inv := by
  simp only [State.recoverStep]
  split <;> simp [h]

@[simp ↓] theorem inv_fabricUp (h : t.Inv) : t.fabricUp.Inv := by simp [State.fabricUp, h]

/-! ### Operations of `Power` -/

@[simp ↓] theorem inv_dropJob : t.dropJob.Inv ↔ t.Inv := by simp [State.dropJob]

@[simp ↓] theorem inv_enterNap (h : t.Inv) : t.enterNap.Inv := by
  rw [State.inv_iff] at h ⊢
  obtain ⟨hmem, hmb, -, hports, hlogs⟩ := h
  exact ⟨hmem, hmb, ⟨rfl, Grafter.whole_replicate⟩, hports, hlogs⟩

@[simp ↓] theorem inv_enterDark (h : t.Inv) : t.enterDark.Inv := by simp [State.enterDark, h]

@[simp ↓] theorem inv_enterOff (h : t.Inv) : t.enterOff.Inv := by simp [State.enterOff, h]

@[simp ↓] theorem inv_powerBegin {target ticket : Nat} (h : t.Inv) : (t.powerBegin target ticket).Inv := by simp [State.powerBegin, h]

@[simp ↓] theorem inv_powerGo {q : List (Nat × Nat)} (h : t.Inv) : (State.powerGo q t).Inv := by
  induction q generalizing t with
  | nil => simp [State.powerGo, h]
  | cons x rest ih =>
    obtain ⟨k, n⟩ := x
    unfold State.powerGo
    split
    · exact ih (by simp [h])
    · simp [h]

@[simp ↓] theorem inv_powerAsk {target ticket : Nat} (h : t.Inv) : (t.powerAsk target ticket).Inv := by simp [State.powerAsk, h]

@[simp ↓] theorem inv_powerDone {target : Nat} (h : t.Inv) : (t.powerDone target).Inv := by simp [State.powerDone, h]

@[simp ↓] theorem inv_goDark (h : t.Inv) : t.goDark.Inv := by simp [State.goDark, h]

@[simp ↓] theorem inv_throttleDie {q d t' : Nat} : (t.throttleDie q d t').Inv ↔ t.Inv := by simp [State.throttleDie]

/-! ### Operations of `Secure` -/

@[simp ↓] theorem inv_guarded {op : Nat} {q : Cmd → Bool} {go : Cmd → State → State} (hgo : ∀ c u, u.Inv → (go c u).Inv) (h : t.Inv) :
    Keeps (t.guarded op q go) := by
  unfold State.guarded
  split
  · next c u e =>
    have hu := inv_takeCmd h e
    simp [h, hu, hgo c u hu]
  · simp [h]

@[simp ↓] theorem inv_openSession {level path : Nat} : (t.openSession level path).Inv ↔ t.Inv := by simp [State.openSession]

@[simp ↓] theorem inv_unlock {path level : Nat} {tok : List Byte} : (t.unlock path level tok).2.Inv ↔ t.Inv := by
  have hv : (t.verify level tok).2.Inv ↔ t.Inv := by simp
  simp only [State.unlock]
  generalize t.verify level tok = v at hv ⊢
  obtain ⟨_ | st, u⟩ := v <;> simp_all

@[simp ↓] theorem inv_lifecycle {c : Cmd} {allowed : List Nat} {go : State → State} (hgo : ∀ u, u.Inv → (go u).Inv) (h : t.Inv) :
    (t.lifecycle c allowed go).Inv := by
  have hv : (t.verify (c.field 0 1) (c.body.drop 1)).2.Inv := by simp [h]
  simp only [State.lifecycle]
  generalize t.verify (c.field 0 1) (c.body.drop 1) = v at hv ⊢
  obtain ⟨_ | st, u⟩ := v
  · have hu : (go (u.endSession.reply c St.OK [])).Inv := hgo _ (by simpa using hv)
    simp [h, hu]
  · simp_all

@[simp ↓] theorem inv_forgetRwp : t.forgetRwp.Inv ↔ t.Inv := by
  unfold State.forgetRwp
  extract_lets s1
  have h1 : s1.Inv ↔ t.Inv := State.inv_foldl_iff fun u r => by split <;> simp
  simp [h1]

@[simp ↓] theorem inv_toReturned : t.toReturned.Inv ↔ t.Inv := by simp [State.toReturned]

@[simp ↓] theorem inv_provision : t.provision.Inv ↔ t.Inv := by simp [State.provision]

@[simp ↓] theorem inv_copyToC0 (h : t.Inv) : t.copyToC0.Inv := by simp [State.copyToC0, h]

@[simp ↓] theorem inv_stageImage {src len : Nat} (h : t.Inv) : (t.stageImage src len).2.Inv := by
  simp only [State.stageImage]
  split <;> simp_all

/-! ### Operations of `Recorder` -/

@[simp ↓] theorem inv_clearGauge {token : List Byte} : (t.clearGauge token).Inv ↔ t.Inv := by simp [State.clearGauge]

/-! ### Operations of `Regio` -/

@[simp ↓] theorem inv_readGrafter {who : Agent} {k off : Nat} : (t.readGrafter who k off).2.Inv ↔ t.Inv := by
  rw [State.readGrafter]
  (repeat' split) <;> simp

@[simp ↓] theorem inv_readShdr {i : Nat} : (t.readShdr i).2.Inv ↔ t.Inv := by
  simp only [State.readShdr]
  (repeat' split) <;> simp

@[simp ↓] theorem inv_readBar0 {off : Nat} : (t.readBar0 off).2.Inv ↔ t.Inv := by
  simp only [State.readBar0]
  (repeat' split) <;> simp

@[simp ↓] theorem inv_readPlace {who : Agent} {q : RegPlace} : (t.readPlace who q).2.Inv ↔ t.Inv := by
  simp only [State.readPlace]
  (repeat' split) <;> simp

@[simp ↓] theorem inv_writeHub {r : Reg} {i v : Nat} (h : t.Inv) : (t.writeHub r i v).Inv := by
  simp only [State.writeHub]
  (repeat' split) <;> simp [h]

@[simp ↓] theorem inv_writeGrafter {who : Agent} {k off v : Nat} (h : t.Inv) : (t.writeGrafter who k off v).Inv := by
  rw [State.writeGrafter]
  (repeat' split) <;> simp [h]

@[simp ↓] theorem inv_writeCluster {who : Agent} {ci off v be : Nat} : (t.writeCluster who ci off v be).Inv ↔ t.Inv := by
  simp only [State.writeCluster]
  (repeat' split) <;> simp

@[simp ↓] theorem inv_writeBar0 {off v : Nat} : (t.writeBar0 off v).Inv ↔ t.Inv := by
  rw [State.writeBar0]
  (repeat' split) <;> simp

@[simp ↓] theorem inv_writePlace {who : Agent} {q : RegPlace} {v be : Nat} (h : t.Inv) : (t.writePlace who q v be).Inv := by
  simp only [State.writePlace]
  (repeat' split) <;> simp [h]

/-! ### Operations of `RegAccess` -/

@[simp ↓] theorem inv_readNow {who : Agent} {q : RegPlace} {be : Nat} : (t.readNow who q be).Inv ↔ t.Inv := by simp [State.readNow]

@[simp ↓] theorem inv_hostRead {a : RegAddr} {q : RegPlace} {be : Nat} : (t.hostRead a q be).Inv ↔ t.Inv := by
  simp only [State.hostRead]
  (repeat' split) <;> simp

@[simp ↓] theorem inv_bar0Read {off be : Nat} : (t.bar0Read off be).Inv ↔ t.Inv := by
  simp only [State.bar0Read]
  split <;> simp

@[simp ↓] theorem inv_regRead {a : RegAddr} {be : Nat} : (t.regRead a be).Inv ↔ t.Inv := by
  simp only [State.regRead]
  split <;> simp

@[simp ↓] theorem inv_hostWrite {a : RegAddr} {q : RegPlace} {v be : Nat} (h : t.Inv) : (t.hostWrite a q v be).Inv := by
  simp only [State.hostWrite]
  (repeat' split) <;> simp [h]

@[simp ↓] theorem inv_regWrite {a : RegAddr} {v be : Nat} (h : t.Inv) : (t.regWrite a v be).Inv := by
  simp only [State.regWrite]
  split <;> simp [h]

@[simp ↓] theorem inv_drainHost {n : Nat} (h : t.Inv) : (t.drainHost n).Inv := by
  induction n generalizing t with
  | zero => exact h
  | succ n ih =>
    unfold State.drainHost
    split
    · exact h
    · split
      · exact h
      · extract_lets _ u
        have hu : u.Inv := by simp [u, h]
        refine ih ?_
        split <;> simp [hu]

@[simp ↓] theorem inv_hostDrained (h : t.Inv) : t.hostDrained.Inv := by simp [State.hostDrained, h]

@[simp ↓] theorem inv_access {who : Agent} {x : HostAcc} {go : State → State} (hgo : ∀ u, u.Inv → (go u).Inv) (h : t.Inv) :
    (t.access who x go).Inv := by
  unfold State.access
  have hd : t.hostDrained.Inv := inv_hostDrained h
  split
  · extract_lets u
    split
    · simp [u, hd]
    · exact hgo _ hd
  · exact hgo _ h

/-! ### Operations of `Debug` -/

@[simp ↓] theorem inv_debugOp {q : Nat → Bool} {refuse : Cmd → State → Option Nat} {go : Cmd → Nat → State → State}
    (hgo : ∀ c n u, u.Inv → (go c n u).Inv)
    (h : t.Inv) :
    Keeps (t.debugOp q refuse go) := by
  unfold State.debugOp
  split <;> simp_all

@[simp ↓] theorem inv_regWords {w n : Nat} : (t.regWords w n).2.Inv ↔ t.Inv := by
  induction n generalizing t w with
  | zero => rfl
  | succ n ih =>
    unfold State.regWords
    extract_lets q r u
    have hr : r.2.Inv ↔ t.Inv := by
      unfold r
      split <;> simp
    exact ih.trans hr

@[simp ↓] theorem inv_putWords {a : Nat} {bs : List Byte} {ps : List (Nat × RegPlace)} (h : t.Inv) : (t.putWords a bs ps).Inv := by
  refine State.inv_foldl h fun u e hu => ?_
  simp [hu]

theorem inv_pair {α : Type} {x : α} (h : t.Inv) : (x, t).2.Inv := h

@[simp ↓] theorem inv_memRead {c : Cmd} {e : List HbmErr} (h : t.Inv) : (t.memRead c e).2.Inv := by
  rw [State.memRead]
  split
  · split
    · exact h
    · split
      · exact inv_pair (inv_regWords.2 h)
      · exact inv_readAt h
  · exact h
  · exact h

@[simp ↓] theorem inv_memWrite {c : Cmd} {bs : List Byte} (h : t.Inv) : (t.memWrite c bs).Inv := by
  simp only [State.memWrite]
  split <;> simp [h]

/-! ### Operations of `HostMem` -/

@[simp ↓] theorem inv_unavailable : t.unavailable.Inv ↔ t.Inv := by simp [State.unavailable]

@[simp ↓] theorem inv_hostMeets {e : HbmErr} (h : t.Inv) : (t.hostMeets e).Inv := by
  unfold State.hostMeets
  split
  · simp [h]
  · extract_lets v
    have hv : v.Inv := by simp [v, h]
    exact State.inv_mk_mem hv (strikeUnit_wf hv.mem) rfl rfl rfl rfl

@[simp ↓] theorem inv_hostBytes {a n : Nat} {es : List HbmErr} (h : t.Inv) : (t.hostBytes a n es).2.Inv :=
  inv_heal (State.inv_foldl h fun _ _ hu => inv_hostMeets hu)

/-! ### Operations of `Slice` -/

@[simp ↓] theorem inv_dropTransition {n : Nat} (h : t.Inv) : (t.dropTransition n).Inv := by simp [State.dropTransition, h]

@[simp ↓] theorem inv_abortTicket {n : Nat} (h : t.Inv) : (t.abortTicket n).Inv := by
  simp only [State.abortTicket]
  split <;> simp [h]

/-! ### Operations of `Vector` -/

@[simp ↓] theorem inv_vword {gi op w : Nat} (h : t.Inv) : (t.vword gi op w).Inv :=
  inv_unvctx h (CX.canon_vIssue _ _ h.mem)

end
end Sys2Proof.Machine
end

section
/-! What each command keeps (O60), and with it every step. -/

namespace Sys2Proof.Machine
section
variable {s t : State}

/-! ### What is taken from the Trellis -/

theorem inv_takePacket {n : Nat} {q : Packet} {u : State} (h : t.Inv) (e : t.takePacket n = some (q, u)) : u.Inv := by
  unfold State.takePacket at e
  split at e
  · rw [Option.map_eq_some_iff] at e
    obtain ⟨x, -, hx⟩ := e
    cases hx
    simp [h]
  · cases e

theorem inv_takeUrgent {n code : Nat} {flits : List FlitErr} {q : Packet} {a : Option Nat} {u : State} (h : t.Inv)
    (e : t.takeUrgent n code flits = some (q, a, u)) : u.Inv := by
  unfold State.takeUrgent at e
  split at e
  · cases e
  · next hq =>
    have hv := inv_takePacket h hq
    split at e
    · split at e
      · cases e
        simp [hv]
      · cases e
    · cases e

theorem inv_takeNotice {n : Nat} {r : Reg} {flits : List FlitErr} {a : Option Nat} {u : State} (h : t.Inv)
    (e : t.takeNotice n r flits = some (a, u)) : u.Inv := by
  unfold State.takeNotice at e
  split at e
  · cases e
  · next hq =>
    have hv := inv_takePacket h hq
    split at e
    · split at e
      · cases e
        split <;> simp [hv]
      · cases e
    · cases e

/-! ### Commands of `Engine` -/

theorem listEntryFetch_inv {gi : Nat} {ups : List Upset} (h : s.Inv) : Keeps (execListEntryFetch gi ups s) := by
  simp only [execListEntryFetch]
  (repeat' split) <;> simp [h]

theorem chainBodyLoad_inv {gi : Nat} {ups : List Upset} (h : s.Inv) : Keeps (execChainBodyLoad gi ups s) := by
  simp only [execChainBodyLoad]
  split <;> simp [h]

theorem pass_inv {gi : Nat} {ups : List Upset} (h : s.Inv) : Keeps (execPass gi ups s) := by
  unfold execPass
  split
  · simp [h]
  · exact keeps_next.2 (inv_runComp (fun x => CX.canon_runPass x _) (by simp [h]))

theorem chain_inv {gi : Nat} {ups : List Upset} (h : s.Inv) : Keeps (execChain gi ups s) := by
  unfold execChain
  split
  · simp [h]
  · exact keeps_next.2 (inv_runComp (fun x => CX.canon_runChain x _) h)

theorem emul_inv {gi : Nat} (h : s.Inv) : Keeps (execEmul gi s) := by simp [execEmul, h]

theorem eadd_inv {gi : Nat} (h : s.Inv) : Keeps (execEadd gi s) := by simp [execEadd, h]

theorem efma_inv {gi : Nat} (h : s.Inv) : Keeps (execEfma gi s) := by simp [execEfma, h]

theorem fill_inv {gi : Nat} {ups : List Upset} (h : s.Inv) : Keeps (execFill gi ups s) := by simp [execFill, h]

theorem fillT_inv {gi : Nat} {ups : List Upset} (h : s.Inv) : Keeps (execFillT gi ups s) := by simp [execFillT, h]

theorem load_inv {gi : Nat} (h : s.Inv) : Keeps (execLoad gi s) := by
  simp only [execLoad]
  split <;> simp [h]

theorem store_inv {gi : Nat} (h : s.Inv) : Keeps (execStore gi s) := by
  simp only [execStore]
  split <;> simp [h]

theorem lmemEccWriteback_inv {gi : Nat} (h : s.Inv) : Keeps (execLmemEccWriteback gi s) := by
  unfold execLmemEccWriteback
  extract_lets c
  split
  · next w rest _ => exact keeps_next.2 (State.inv_mk_mem h (writeBack_wf _ _ h.mem) rfl rfl rfl rfl)
  · simp [h]

/-! ### Commands of `Trellis` -/

theorem msg_inv {n : Nat} {flits : List FlitErr} (h : s.Inv) : Keeps (execMsg n flits s) := by
  unfold execMsg
  split
  · simp [h]
  · next q u e =>
    have hu := inv_takePacket h e
    split <;> simp [h, hu]

theorem token_inv {n : Nat} {flits : List FlitErr} (h : s.Inv) : Keeps (execToken n flits s) := by
  unfold execToken
  split
  · simp [h]
  · next q u e =>
    have hu := inv_takePacket h e
    split <;> simp [h, hu]

theorem credit_inv {n : Nat} {flits : List FlitErr} (h : s.Inv) : Keeps (execCredit n flits s) := by
  unfold execCredit
  split
  · simp [h]
  · next q u e =>
    have hu := inv_takePacket h e
    split <;> simp [h, hu]

/-! ### Commands of `Links` -/

theorem frameForward_inv {k lseq : Nat} {f : Frame} (h : s.Inv) : Keeps (execFrameForward k lseq f s) := by
  simp only [execFrameForward]
  split <;> simp [h]

theorem ack_inv {k lseq : Nat} (h : s.Inv) : Keeps (execAck k lseq s) := by
  simp only [execAck]
  split <;> simp [h]

theorem nak_inv {k lseq : Nat} (h : s.Inv) : Keeps (execNak k lseq s) := by
  simp only [execNak]
  split <;> simp [h]

theorem badCrcFrame_inv {k : Nat} {crc : Bool} (h : s.Inv) : Keeps (execBadCrcFrame k crc s) := by simp [execBadCrcFrame, h]

theorem portRetrain_inv {k : Nat} {ok : Bool} (h : s.Inv) : Keeps (execPortRetrain k ok s) := by
  simp only [execPortRetrain]
  split <;> simp [h]

theorem laneSpare_inv {k lane : Nat} (h : s.Inv) : Keeps (execLaneSpare k lane s) := by simp [execLaneSpare, h]

theorem laneLoss_inv {k lane : Nat} (h : s.Inv) : Keeps (execLaneLoss k lane s) := by simp [execLaneLoss, h]

theorem laneWindow_inv {k lane symbols received : Nat} (h : s.Inv) : Keeps (execLaneWindow k lane symbols received s) := by
  simp [execLaneWindow, h]

theorem spareEyeCheck_inv {k : Nat} {ok : Bool} (h : s.Inv) : Keeps (execSpareEyeCheck k ok s) := by simp [execSpareEyeCheck, h]

theorem v1msg_inv {k peer : Nat} {data : List Byte} (h : s.Inv) : Keeps (execV1msg k peer data s) := by simp [execV1msg, h]

/-! ### Commands of `Discovery` -/

theorem helloSend_inv (h : s.Inv) : Keeps (execHelloSend s) := by simp [execHelloSend, h]

theorem hello_inv {k lseq : Nat} {h' : HelloMsg} (h : s.Inv) : Keeps (execHello k lseq h' s) := by
  simp only [execHello]
  simp [h]

theorem discoveryRootAssign_inv {ns : List Node} (h : s.Inv) : Keeps (execDiscoveryRootAssign ns s) := by
  simp only [execDiscoveryRootAssign]
  (repeat' split) <;> simp [h]

theorem disc_inv {k lseq : Nat} {d : DiscMsg} (h : s.Inv) : Keeps (execDisc k lseq d s) := by
  simp only [execDisc]
  split <;> simp [h]

theorem portRejoin_inv {k : Nat} {h' : Option HelloMsg} (h : s.Inv) : Keeps (execPortRejoin k h' s) := by
  simp only [execPortRejoin]
  (repeat' split) <;> simp [h]

theorem sundialSyncTimer_inv {ph : Nat} (h : s.Inv) : Keeps (execSundialSyncTimer ph s) := by
  simp only [execSundialSyncTimer]
  split <;> simp [h]

theorem syncReq_inv {k lseq t2 ph : Nat} (h : s.Inv) : Keeps (execSyncReq k lseq t2 ph s) := by simp [execSyncReq, h]

theorem syncResp_inv {k lseq t2 t3 t4 stamp : Nat} (h : s.Inv) : Keeps (execSyncResp k lseq t2 t3 t4 stamp s) := by
  refine keeps_next.2 (inv_takeFrame (fun u hu => ?_) h)
  simp [hu]

theorem parentLost_inv (h : s.Inv) : Keeps (execParentLost s) := by
  simp only [execParentLost]
  (repeat' split) <;> simp [h]

theorem rootLost_inv (h : s.Inv) : Keeps (execRootLost s) := by simp [execRootLost, h]

theorem sdlSync_inv {n : Nat} {flits : List FlitErr} (h : s.Inv) : Keeps (execSdlSync n flits s) := by
  unfold execSdlSync
  split
  · simp [h]
  · next q u e =>
    have hu := inv_takeUrgent h e
    simp [hu]
  · next q a u e =>
    have hu := inv_takeUrgent h e
    split <;> simp [h, hu]

/-! ### Commands of `Memory` -/

theorem mrd_inv {n : Nat} {ups : List Upset} {hbm : List HbmErr} {flits : List FlitErr} (h : s.Inv) : Keeps (execMrd n ups hbm flits s) := by
  unfold execMrd
  split
  · simp [h]
  · next q u e =>
    have hu := inv_takePacket h e
    split <;> simp [h, hu]

theorem mwr_inv {n : Nat} {flits : List FlitErr} (h : s.Inv) : Keeps (execMwr n flits s) := by
  unfold execMwr
  split
  · simp [h]
  · next q u e =>
    have hu := inv_takePacket h e
    (repeat' split) <;> simp [h, hu]

theorem mrsp_inv {n : Nat} {flits : List FlitErr} (h : s.Inv) : Keeps (execMrsp n flits s) := by
  unfold execMrsp
  split
  · simp [h]
  · next q u e =>
    have hu := inv_takePacket h e
    split
    · simp only []
      (repeat' split) <;> simp [hu]
    · simpa using hu
    · simp [h]

theorem quiesced_inv (h : s.Inv) : Keeps (execQuiesced s) := by
  simp only [execQuiesced]
  split <;> simp [h]

theorem quiesceTimeout_inv (h : s.Inv) : Keeps (execQuiesceTimeout s) := by
  simp only [execQuiesceTimeout]
  split <;> simp [h]

theorem cstoreEccWriteback_inv {ci : Nat} (h : s.Inv) : Keeps (execCstoreEccWriteback ci s) := by
  unfold execCstoreEccWriteback
  extract_lets c
  split
  · next w rest _ => exact keeps_next.2 (State.inv_mk_mem h (writeBack_wf _ _ h.mem) rfl rfl rfl rfl)
  · simp [h]

theorem rowRepair_inv {spare : Bool} (h : s.Inv) : Keeps (execRowRepair spare s) := by
  simp only [execRowRepair]
  split <;> simp [h]

theorem hbmPatrolScrub_inv {unit : Nat} {e : Option HbmErr} {last : Bool} (h : s.Inv) : Keeps (execHbmPatrolScrub unit e last s) := by
  unfold execHbmPatrolScrub
  split
  · simp [h]
  · extract_lets u t
    have hu : u.Inv := by simp [u, h]
    have ht : t.Inv := by
      unfold t
      split
      · exact h
      · simp [h]
      · split
        · exact inv_hbmLoss.2 (State.inv_mk_mem hu (strikeUnit_wf hu.mem) rfl rfl rfl rfl)
        · exact hu
    simp [ht]

theorem mramPatrolScrub_inv {slot rec : Nat} {bad : Option (List Byte)} (h : s.Inv) : Keeps (execMramPatrolScrub slot rec bad s) := by
  simp only [execMramPatrolScrub]
  split <;> simp [h]

/-! ### Commands of `Grafter` -/

theorem grfSubloWrite_inv {who : Agent} {k v : Nat} (h : s.Inv) : Keeps (execGrfSubloWrite who k v s) := by simp [execGrfSubloWrite, h]

theorem grfSubmit_inv {who : Agent} {k v : Nat} (h : s.Inv) : Keeps (execGrfSubmit who k v s) := by simp [execGrfSubmit, h]

theorem grafterJobStart_inv {k : Nat} {hbm : List HbmErr} (h : s.Inv) : Keeps (execGrafterJobStart k hbm s) := by
  refine inv_hbmRun (fun u hu => ?_) h
  extract_lets g
  split
  · simp [hu]
  · split
    · simp [hu]
    · extract_lets d v j w
      have hv : v.Inv := by simp [v, g, Grafter.dequeue, Grafter.letIn, hu]
      simp [w, hv]

theorem root_inv {k i : Nat} (h : s.Inv) : Keeps (execRoot k i s) := by
  simp only [execRoot]
  split <;> simp [h]

theorem orth_inv {k i : Nat} (h : s.Inv) : Keeps (execOrth k i s) := by
  simp only [execOrth]
  split <;> simp [h]

theorem chol_inv {k i : Nat} (h : s.Inv) : Keeps (execChol k i s) := by
  simp only [execChol]
  (repeat' split) <;> simp [h]

theorem trsv_inv {k i : Nat} (h : s.Inv) : Keeps (execTrsv k i s) := by
  simp only [execTrsv]
  split <;> simp [h]

theorem cg_inv {k i : Nat} (h : s.Inv) : Keeps (execCg k i s) := by
  simp only [execCg]
  (repeat' split) <;> simp [h]

theorem grafterIterationComplete_inv {k i : Nat} (h : s.Inv) : Keeps (execGrafterIterationComplete k i s) := by
  simp only [execGrafterIterationComplete]
  split <;> simp [h]

theorem jobDeadline_inv {k i : Nat} (h : s.Inv) : Keeps (execJobDeadline k i s) := by
  simp only [execJobDeadline]
  split <;> simp [h]

theorem grfAbort_inv {k v : Nat} (h : s.Inv) : Keeps (execGrfAbort k v s) := by simp [execGrfAbort, h]

/-! ### Commands of `Factor` -/

theorem factorFoldTile_inv {fidx side blk x : Nat} {hbm : List HbmErr} (h : s.Inv) : Keeps (execFactorFoldTile fidx side blk x hbm s) := by
  refine inv_hbmRun (fun u hu => ?_) h
  split
  · simp [hu]
  · simp only []
    split
    · split <;> simp [hu]
    · simp [hu]

/-! ### Commands of `Fronts` -/

theorem rakeSq_inv {gi : Nat} {ups : List Upset} {hbm : List HbmErr} (h : s.Inv) : Keeps (execRakeSq gi ups hbm s) := by
  simp only [execRakeSq]
  split <;> simp [h]

/-! ### Commands of `Sieve` -/

theorem listComplete_inv {gi : Nat} (h : s.Inv) : Keeps (execListComplete gi s) := by
  simp only [execListComplete]
  split <;> simp [h]

theorem rakeClose_inv (h : s.Inv) : Keeps (execRakeClose s) := by
  simp only [execRakeClose]
  split <;> simp [h]

/-! ### Commands of `Sweep` -/

theorem sweepRecord_inv {i : Nat} {hbm : List HbmErr} (h : s.Inv) : Keeps (execSweepRecord i hbm s) := by
  simp only [execSweepRecord]
  split <;> simp [h]

theorem recoverySweep_inv {hbm : List HbmErr} (h : s.Inv) : Keeps (execRecoverySweep hbm s) := by
  refine inv_hbmRun (fun u hu => ?_) h
  simp [hu]

theorem workingCopyAudit_inv {hbm : List HbmErr} (h : s.Inv) : Keeps (execWorkingCopyAudit hbm s) := by
  refine inv_hbmRun (fun u hu => ?_) h
  split
  · simp [hu]
  · dsimp only
    split
    · exact keeps_next.2 (State.inv_foldl (by simp [hu]) fun v e hv => by simp [hv])
    · simp [hu]

theorem auditRepair_inv {codes : List (Nat × Nat)} {hbm : List HbmErr} (h : s.Inv) : Keeps (execAuditRepair codes hbm s) := by
  refine inv_hbmRun (fun u hu => ?_) h
  split
  · simp only []
    split <;> split <;> simp [hu]
  · simp [hu]

/-! ### Commands of `Collectives` -/

theorem collFrame_inv {k lseq : Nat} {f : Frame} {hbm : List HbmErr} (h : s.Inv) : Keeps (execCollFrame k lseq f hbm s) := by
  refine inv_hbmRun (fun u hu => ?_) h
  split
  · split
    · refine keeps_next.2 (inv_takeFrame (fun v hv => ?_) hu)
      simp [hv]
    · simp [hu]
  · simp [hu]

theorem normAllreduce_inv (h : s.Inv) : Keeps (execNormAllreduce s) := by simp [execNormAllreduce, h]

theorem sieveDecide_inv (h : s.Inv) : Keeps (execSieveDecide s) := by
  simp only [execSieveDecide]
  split <;> simp [h]

theorem factorExchange_inv {hbm : List HbmErr} (h : s.Inv) : Keeps (execFactorExchange hbm s) := by
  refine inv_hbmRun (fun u hu => ?_) h
  (repeat' split) <;> simp [hu]

theorem gather_inv {hbm : List HbmErr} (h : s.Inv) : Keeps (execGather hbm s) := by
  refine inv_hbmRun (fun u hu => ?_) h
  (repeat' split) <;> simp [hu]

theorem replay_inv (h : s.Inv) : Keeps (execReplay s) := by
  simp only [execReplay]
  (repeat' split) <;> simp [h]

theorem reduceScatterLayer_inv {hbm : List HbmErr} (h : s.Inv) : Keeps (execReduceScatterLayer hbm s) := by
  refine inv_hbmRun (fun u hu => ?_) h
  split
  · simp [hu]
  · dsimp only
    split
    · refine keeps_next.2 (inv_settleColl (State.inv_foldl (by simp [hu]) fun v r hv => State.inv_foldl hv fun w q hw => ?_))
      exact inv_rsStart hw
    · simp [hu]

theorem rsLanded_inv (h : s.Inv) : Keeps (execRsLanded s) := by
  simp only [execRsLanded]
  split <;> simp [h]

theorem gdoneNotice_inv {n : Nat} {flits : List FlitErr} (h : s.Inv) : Keeps (execGdoneNotice n flits s) := by
  unfold execGdoneNotice
  split
  · simp [h]
  · next u e =>
    have hu := inv_takeNotice h e
    simp [hu]
  · next i u e =>
    have hu := inv_takeNotice h e
    simp [hu]

theorem errorNotice_inv {n : Nat} {flits : List FlitErr} (h : s.Inv) : Keeps (execErrorNotice n flits s) := by
  unfold execErrorNotice
  split
  · simp [h]
  · next q u e =>
    have hu := inv_takeUrgent h e
    simp [hu]
  · next q a u e =>
    have hu := inv_takeUrgent h e
    simp only []
    (repeat' split) <;> simp [hu]

theorem replayReq_inv {k lseq : Nat} {f : Frame} (h : s.Inv) : Keeps (execReplayReq k lseq f s) := by
  unfold execReplayReq
  split
  · split
    · refine keeps_next.2 (inv_takeFrame (fun v hv => ?_) h)
      simp [hv]
    · simp [h]
  · simp [h]

theorem stepReplay_inv (h : s.Inv) : Keeps (execStepReplay s) := by simp [execStepReplay, h]

/-! ### Commands of `Mailbox` -/

/-- A command the doorbell takes finds a place in the queue. -/
theorem lt_of_ngumalRet_eq_retOk {op : Nat} {payload : List Byte} (h : s.ngumalRet op payload = retOk) : s.mb.cmds.length < 32 := by
  unfold State.ngumalRet at h
  extract_lets w at h
  split at h
  · cases h
  · split at h
    · cases h
    · split at h
      · cases h
      · next hfull => omega

theorem inv_queued {c : Cmd} (h : t.Inv) (hroom : t.mb.cmds.length < 32) : State.Inv { t with mb := { t.mb with cmds := t.mb.cmds ++ [c] } } := by
  rw [State.inv_iff] at h ⊢
  obtain ⟨hmem, ⟨hslots, htickets, -⟩, hrest⟩ := h
  exact ⟨hmem, ⟨hslots, htickets, by simpa using hroom⟩, hrest⟩

theorem mailboxDoorbell_inv {op : Nat} {payload : List Byte} (h : s.Inv) : Keeps (execMailboxDoorbell op payload s) := by
  unfold execMailboxDoorbell
  extract_lets r m t w c u m'
  have ht : t.Inv := by simp [t, m, h]
  split
  · simp [h]
  · split
    · split
      · next hok =>
        have hu : u.Inv := by simp [u, ht]
        split
        · simp [hu]
        · exact keeps_next.2 (inv_queued hu (lt_of_ngumalRet_eq_retOk (s := s) hok))
      · exact keeps_next.2 ht
    · simp [m, h]

theorem slotAck_inv {mask : Nat} (h : s.Inv) : Keeps (execSlotAck mask s) := by simp [execSlotAck, h]

theorem ticketAck_inv {mask : Nat} (h : s.Inv) : Keeps (execTicketAck mask s) := by simp [execTicketAck, h]

theorem getEventRecords_inv (h : s.Inv) : Keeps (execGetEventRecords s) := by
  refine inv_cxlRun (fun b u hu => ?_) h
  simp only []
  (repeat' split) <;> simp [hu]

theorem filter_dropLog_length_le (l k n : Nat) (es : List Event) :
    ((dropLog l n es).filter fun e => e.log == k).length ≤ (es.filter fun e => e.log == k).length := by
  fun_induction dropLog l n es with
  | case1 => exact le_rfl
  | case2 => exact le_rfl
  | case3 n e es he ih => exact ih.trans ((List.sublist_cons_self e es).filter _).length_le
  | case4 n e es he ih =>
    rw [List.filter_cons, List.filter_cons]
    split
    · exact Nat.succ_le_succ ih
    · exact ih

theorem inv_fewerLogs {logs : List Event} {lost : List (Nat × Lost)} (h : t.Inv)
    (hlogs : ∀ l, (logs.filter fun e => e.log == l).length ≤ (t.logs.filter fun e => e.log == l).length) :
    State.Inv { t with logs := logs, logLost := lost } := by
  rw [State.inv_iff] at h ⊢
  obtain ⟨hmem, hmb, hgrf, hports, hfull⟩ := h
  exact ⟨hmem, hmb, hgrf, hports, fun l hl => (hlogs l).trans (hfull l hl)⟩

theorem clearEventRecords_inv (h : s.Inv) : Keeps (execClearEventRecords s) := by
  refine inv_cxlRun (fun b u hu => ?_) h
  extract_lets l n hs
  split
  · exact hu
  · split
    · exact hu
    · split
      · exact inv_fewerLogs hu fun k => (List.filter_sublist.filter _).length_le
      · split
        · exact hu
        · exact inv_fewerLogs hu fun k => filter_dropLog_length_le l k n u.logs

theorem getEventInterruptPolicy_inv (h : s.Inv) : Keeps (execGetEventInterruptPolicy s) := by
  refine inv_cxlRun (fun b u hu => ?_) h
  (repeat' split) <;> simp [hu]

theorem setEventInterruptPolicy_inv (h : s.Inv) : Keeps (execSetEventInterruptPolicy s) := by
  refine inv_cxlRun (fun b u hu => ?_) h
  simp only []
  (repeat' split) <;> simp [hu]

theorem getFwInfo_inv (h : s.Inv) : Keeps (execGetFwInfo s) := by
  refine inv_cxlRun (fun b u hu => ?_) h
  (repeat' split) <;> simp [hu]

theorem getSupportedLogs_inv (h : s.Inv) : Keeps (execGetSupportedLogs s) := by
  refine inv_cxlRun (fun b u hu => ?_) h
  (repeat' split) <;> simp [hu]

theorem getLog_inv (h : s.Inv) : Keeps (execGetLog s) := by
  refine inv_cxlRun (fun b u hu => ?_) h
  simp only []
  (repeat' split) <;> simp [hu]

theorem getInfo_inv (h : s.Inv) : Keeps (execGetInfo s) := by simp [execGetInfo, h]

theorem getStatus_inv (h : s.Inv) : Keeps (execGetStatus s) := by simp [execGetStatus, h]

theorem getTelemetry_inv (h : s.Inv) : Keeps (execGetTelemetry s) := by
  simp only [execGetTelemetry]
  simp [h]

theorem fpflagReduce_inv (h : s.Inv) : Keeps (execFpflagReduce s) := by simp [execFpflagReduce, h]

theorem v1Identify_inv (h : s.Inv) : Keeps (execV1Identify s) := by simp [execV1Identify, h]

theorem v1Health_inv (h : s.Inv) : Keeps (execV1Health s) := by simp [execV1Health, h]

theorem v1GetLog_inv (h : s.Inv) : Keeps (execV1GetLog s) := by simp [execV1GetLog, h]

theorem setPowerCap_inv (h : s.Inv) : Keeps (execSetPowerCap s) := by simp [execSetPowerCap, h]

theorem v1SetPcap_inv (h : s.Inv) : Keeps (execV1SetPcap s) := by simp [execV1SetPcap, h]

theorem quiesce_inv (h : s.Inv) : Keeps (execQuiesce s) := by simp [execQuiesce, h]

theorem broadcastPatch_inv (h : s.Inv) : Keeps (execBroadcastPatch s) := by
  refine inv_short (fun c u hu => ?_) h
  split <;> simp [hu]

theorem copySram_inv {hbm : List HbmErr} (h : s.Inv) : Keeps (execCopySram hbm s) := by
  refine inv_hbmRun (fun u hu => inv_long (fun c n v hv => inv_finish ?_) hu) h
  exact State.inv_foldl_fst hv fun w i hw => inv_wrS hw

theorem v1Send_inv {hbm : List HbmErr} (h : s.Inv) : Keeps (execV1Send hbm s) := by
  refine inv_hbmRun (fun u hu => ?_) h
  refine inv_long (fun c n v hv => ?_) hu
  simp [hv]

theorem ticketAbort_inv (h : s.Inv) : Keeps (execTicketAbort s) := by
  simp only [execTicketAbort]
  simp [h]

/-! ### Commands of `Tables` -/

theorem layerWrite_inv {hbm : List HbmErr} (h : s.Inv) : Keeps (execLayerWrite hbm s) := by
  refine inv_hbmRun (fun u hu => ?_) h
  refine inv_long (fun c n v hv => ?_) hu
  simp [hv]

theorem layerRead_inv (h : s.Inv) : Keeps (execLayerRead s) :=
  inv_long (fun _ _ _ hu => inv_tableRead hu) h

theorem factorWrite_inv {hbm : List HbmErr} (h : s.Inv) : Keeps (execFactorWrite hbm s) := by
  refine inv_hbmRun (fun u hu => ?_) h
  refine inv_long (fun c n v hv => ?_) hu
  simp [hv]

theorem factorRead_inv (h : s.Inv) : Keeps (execFactorRead s) :=
  inv_long (fun _ _ _ hu => inv_tableRead hu) h

/-! ### Commands of `Job` -/

theorem jobStart_inv {hbm : List HbmErr} (h : s.Inv) : Keeps (execJobStart hbm s) := by
  refine inv_hbmRun (fun u hu => ?_) h
  refine inv_long (fun c n v hv => ?_) hu
  simp [hv]

theorem jobStop_inv (h : s.Inv) : Keeps (execJobStop s) := by
  refine inv_long (fun c n u hu => ?_) h
  simp [hu]

theorem replayStep_inv (h : s.Inv) : Keeps (execReplayStep s) := by
  unfold execReplayStep
  split
  · simp [h]
  · next e =>
    have hu := inv_takeResume h e
    simp [hu]

theorem skipStep_inv (h : s.Inv) : Keeps (execSkipStep s) := by
  unfold execSkipStep
  split
  · simp [h]
  · next e =>
    have hu := inv_takeResume h e
    simp [hu]

theorem jobResumeStop_inv (h : s.Inv) : Keeps (execJobResumeStop s) := by
  unfold execJobResumeStop
  split
  · simp [h]
  · next e =>
    have hu := inv_takeResume h e
    simp [hu]

theorem discover_inv (h : s.Inv) : Keeps (execDiscover s) := by simp [execDiscover, h]

theorem discoveryRead_inv (h : s.Inv) : Keeps (execDiscoveryRead s) :=
  inv_long (fun _ _ _ hu => inv_finish (inv_wrS hu)) h

/-! ### Commands of `Permute` -/

theorem setGrid_inv (h : s.Inv) : Keeps (execSetGrid s) := by
  simp only [execSetGrid]
  simp [h]

theorem shardPermute_inv {peers : List Peer} (h : s.Inv) : Keeps (execShardPermute peers s) := by
  refine inv_long (fun c n u hu => ?_) h
  simp [hu]

theorem shardPermuteRun_inv {hbm : List HbmErr} (h : s.Inv) : Keeps (execShardPermuteRun hbm s) := by
  refine inv_hbmRun (fun u hu => ?_) h
  split
  · simp [hu]
  · dsimp only
    split
    · split
      · simp [hu]
      · split
        · refine keeps_next.2 (State.inv_foldl (State.inv_foldl (by simp [hu]) fun v x hv => ?_) fun v c hv => ?_)
          · simp [hv]
          · simp [hv]
        · simp [hu]
    · simp [hu]

theorem permuteAck_inv (h : s.Inv) : Keeps (execPermuteAck s) := by
  unfold execPermuteAck
  split
  · simp [h]
  · split <;> simp [h]

theorem permuteCommit_inv (h : s.Inv) : Keeps (execPermuteCommit s) := by
  simp only [execPermuteCommit]
  (repeat' split) <;> simp [h]

theorem planRead_inv (h : s.Inv) : Keeps (execPlanRead s) :=
  inv_long (fun _ _ _ hu => inv_finish (inv_wrS hu)) h

/-! ### Commands of `Spares` -/

theorem spareCoreSwap_inv {ups : List Upset} {m : Margin} (h : s.Inv) : Keeps (execSpareCoreSwap ups m s) := by simp [execSpareCoreSwap, h]

theorem marginReplan_inv {m : Margin} (h : s.Inv) : Keeps (execMarginReplan m s) := by
  simp only [execMarginReplan]
  simp [h]

theorem marginReplanDaily_inv {m : Margin} (h : s.Inv) : Keeps (execMarginReplanDaily m s) := by simp [execMarginReplanDaily, h]

theorem eccBucketRoll_inv (h : s.Inv) : Keeps (execEccBucketRoll s) := by
  simp only [execEccBucketRoll]
  split <;> simp [h]

theorem selftest_inv {fails : List TestUnit} (h : s.Inv) : Keeps (execSelftest fails s) := by
  refine inv_long (fun c n u hu => ?_) h
  extract_lets set save cdpa _ t t'
  have ht : t.Inv := by simp [t, hu]
  have ht' : t'.Inv := by simp [t', ht]
  simp [hu, ht']

theorem rollingBistSlice_inv {extra : Nat} {fails : List TestUnit} (h : s.Inv) : Keeps (execRollingBistSlice extra fails s) := by
  unfold execRollingBistSlice
  split
  · simp [h]
  · next b _ =>
    split
    · extract_lets mine busy late now found r t b' k rel t'
      have ht : t.Inv := State.inv_foldl_snd (inv_saved h) fun u x hu => by simp [hu]
      have ht' : t'.Inv := by simp [t', ht]
      simp [ht']
    · simp [h]

theorem spareRead_inv (h : s.Inv) : Keeps (execSpareRead s) :=
  inv_long (fun _ _ _ hu => inv_finish (inv_wrS hu)) h

/-! ### Commands of `Harvest` -/

theorem harvestStart_inv (h : s.Inv) : Keeps (execHarvestStart s) := by
  refine inv_long (fun c n u hu => ?_) h
  simp [hu]

theorem snapshotOpen_inv (h : s.Inv) : Keeps (execSnapshotOpen s) := by
  simp only [execSnapshotOpen]
  split <;> simp [h]

theorem harvestDrain_inv {n : Nat} {hbm : List HbmErr} {refused : Bool} (h : s.Inv) : Keeps (execHarvestDrain n hbm refused s) := by
  simp only [execHarvestDrain]
  (repeat' split) <;> simp [h]

theorem harvestDataReceive_inv {k lseq : Nat} {f : Frame} (h : s.Inv) : Keeps (execHarvestDataReceive k lseq f s) := by
  unfold execHarvestDataReceive
  split
  · split
    · refine keeps_next.2 (inv_takeFrame (fun u hu => ?_) h)
      simp [hu]
    · simp [h]
  · simp [h]

theorem harvestRestore_inv {img : List Byte} (h : s.Inv) : Keeps (execHarvestRestore img s) := by
  refine inv_long (fun c n u hu => ?_) h
  dsimp only
  split
  · refine inv_restoreEntries (inv_setHf.2 (inv_buildShards ?_))
    simp [hu]
  · simp [hu]

theorem mgmtFrame_inv {k lseq : Nat} {f : Frame} (h : s.Inv) : Keeps (execMgmtFrame k lseq f s) := by
  unfold execMgmtFrame
  split
  · split
    · refine keeps_next.2 (inv_takeFrame (fun v hv => ?_) h)
      split <;> simp [hv]
    · simp [h]
  · simp [h]

/-! ### Commands of `Reset` -/

theorem reset_inv (h : s.Inv) : Keeps (execReset s) := by simp [execReset, h]

theorem v1Reset_inv (h : s.Inv) : Keeps (execV1Reset s) := by simp [execV1Reset, h]

theorem resetRequest_inv {cut : List Endpoint} (h : s.Inv) : Keeps (execResetRequest cut s) := by
  simp only [execResetRequest]
  split <;> simp [h]

theorem groupReset_inv (h : s.Inv) : Keeps (execGroupReset s) := by
  refine inv_short (fun c u hu => ?_) h
  simp only []
  (repeat' split) <;> simp [hu]

theorem resetFrame_inv {k lseq : Nat} {f : Frame} (h : s.Inv) : Keeps (execResetFrame k lseq f s) := by
  unfold execResetFrame
  split
  · split
    · refine keeps_next.2 (inv_takeFrame (fun u hu => ?_) h)
      simp [hu]
    · simp [h]
  · simp [h]

theorem functionLevelReset_inv (h : s.Inv) : Keeps (execFunctionLevelReset s) := by simp [execFunctionLevelReset, h]

theorem cxlPerst_inv {on : Bool} (h : s.Inv) : Keeps (execCxlPerst on s) := by simp [execCxlPerst, h]

theorem dbgSrst_inv {on : Bool} (h : s.Inv) : Keeps (execDbgSrst on s) := by simp [execDbgSrst, h]

theorem watchdogTimeout_inv (h : s.Inv) : Keeps (execWatchdogTimeout s) := by simp [execWatchdogTimeout, h]

theorem thermalTrip_inv {x : Nat} (h : s.Inv) : Keeps (execThermalTrip x s) := by simp [execThermalTrip, h]

theorem supplyTrip_inv {cause : Nat} (h : s.Inv) : Keeps (execSupplyTrip cause s) := by simp [execSupplyTrip, h]

theorem powerOn_inv (h : s.Inv) : Keeps (execPowerOn s) := by simp [execPowerOn, h]

theorem refclkReturn_inv (h : s.Inv) : Keeps (execRefclkReturn s) := by
  unfold execRefclkReturn
  extract_lets _ t
  split
  · have ht : t.Inv := by simp [t, h]
    exact keeps_next.2 (State.inv_foldl (inv_request ht) fun u src hu => inv_request hu)
  · simp [h]

theorem resetRelease_inv {cool : Bool} {width : Nat} {modes : List Nat} {offers : List (Option Bool)} (h : s.Inv) :
    Keeps (execResetRelease cool width modes offers s) := by
  unfold execResetRelease
  split
  · simp [h]
  · split
    · simp [h]
    · split
      · simp [h]
      · split
        · simp [h]
        · simp only []
          split
          · simp [h]
          · split <;> simp [h]

/-! ### Commands of `Power` -/

theorem setPowerState_inv (h : s.Inv) : Keeps (execSetPowerState s) :=
  inv_long (fun _ _ _ hu => inv_powerAsk hu) h

theorem powerTransitionComplete_inv (h : s.Inv) : Keeps (execPowerTransitionComplete s) := by simp [execPowerTransitionComplete, h]

theorem pciePowerState_inv {d : Nat} (h : s.Inv) : Keeps (execPciePowerState d s) := by simp [execPciePowerState, h]

theorem throttleUpdate_inv {power : Nat} {temps : List Nat} (h : s.Inv) : Keeps (execThrottleUpdate power temps s) := by
  simp [execThrottleUpdate, h]

theorem rwpCommit_inv (h : s.Inv) : Keeps (execRwpCommit s) := by
  simp only [execRwpCommit]
  split <;> simp [h]

/-! ### Commands of `Secure` -/

theorem debugChallenge_inv (h : s.Inv) : Keeps (execDebugChallenge s) := by simp [execDebugChallenge, h]

theorem debugUnlock_inv (h : s.Inv) : Keeps (execDebugUnlock s) := by simp [execDebugUnlock, h]

theorem debugEnd_inv (h : s.Inv) : Keeps (execDebugEnd s) := by simp [execDebugEnd, h]

theorem toDebugUnlocked_inv (h : s.Inv) : Keeps (execToDebugUnlocked s) :=
  inv_guarded (fun _ _ hu => inv_lifecycle (fun _ hv => inv_rwpHf.2 hv) hu) h

theorem toSecured_inv (h : s.Inv) : Keeps (execToSecured s) :=
  inv_guarded (fun _ _ hu => inv_lifecycle (fun _ hv => inv_rwpHf.2 hv) hu) h

theorem toReturned_inv (h : s.Inv) : Keeps (execToReturned s) :=
  inv_guarded (fun _ _ hu => inv_lifecycle (fun _ hv => inv_toReturned.2 hv) hu) h

theorem provision_inv (h : s.Inv) : Keeps (execProvision s) := by simp [execProvision, h]

theorem fwStage_inv {hbm : List HbmErr} (h : s.Inv) : Keeps (execFwStage hbm s) := by
  refine inv_hbmRun (fun u hu => ?_) h
  split
  · simp [hu]
  · refine inv_long (fun c n v hv => ?_) hu
    have hw : (v.stageImage (c.field 0 8) (c.field 8 4)).2.Inv := inv_stageImage hv
    generalize v.stageImage (c.field 0 8) (c.field 8 4) = r at hw ⊢
    obtain ⟨_ | st, w⟩ := r <;> simp_all

theorem recoveryFwStage_inv {img : List Byte} (h : s.Inv) : Keeps (execRecoveryFwStage img s) := by
  unfold execRecoveryFwStage
  split
  · simp [h]
  · refine inv_long (fun c n u hu => ?_) h
    simp only []
    split <;> simp [hu]

theorem fwCommit_inv (h : s.Inv) : Keeps (execFwCommit s) := by
  refine inv_long (fun c n u hu => ?_) h
  split <;> simp [hu]

theorem v1FwUpdate_inv {hbm : List HbmErr} (h : s.Inv) : Keeps (execV1FwUpdate hbm s) := by
  refine inv_hbmRun (fun u hu => inv_guarded (fun c v hv => ?_) hu) h
  have hw : (v.stageImage (c.field 0 8) (c.field 8 4)).2.Inv := inv_stageImage hv
  generalize v.stageImage (c.field 0 8) (c.field 8 4) = r at hw ⊢
  obtain ⟨_ | st, w⟩ := r
  · dsimp only at hw ⊢
    (repeat' split) <;> simp [hv, hw]
  · simp_all

theorem tapUnlock_inv {level : Nat} {token : List Byte} (h : s.Inv) : Keeps (execTapUnlock level token s) := by simp [execTapUnlock, h]

/-! ### Commands of `Recorder` -/

theorem rgaRead_inv (h : s.Inv) : Keeps (execRgaRead s) :=
  inv_long (fun _ _ _ hu => inv_finish (inv_wrS hu)) h

theorem rgaFlush_inv (h : s.Inv) : Keeps (execRgaFlush s) := by simp [execRgaFlush, h]

theorem rgaClear_inv (h : s.Inv) : Keeps (execRgaClear s) := by
  refine inv_guarded (fun c u hu => ?_) h
  have hw : (u.verify 6 c.body).2.Inv := by simp [hu]
  generalize u.verify 6 c.body = r at hw ⊢
  obtain ⟨_ | st, w⟩ := r <;> simp_all

/-! ### Commands of `Facility` -/

theorem inv_message {go : State → State} (hgo : ∀ u, u.Inv → (go u).Inv) (h : t.Inv) : Keeps (t.message go) := by
  unfold State.message
  split
  · exact keeps_next.2 (hgo t h)
  · simp [h]

theorem mfrPowerCap_inv {w : Option Nat} {pec : Bool} (h : s.Inv) : Keeps (execMfrPowerCap w pec s) := by
  refine inv_message (fun u hu => ?_) h
  split <;> simp [hu]

theorem facCapHeldApply_inv (h : s.Inv) : Keeps (execFacCapHeldApply s) := by
  simp only [execFacCapHeldApply]
  split <;> simp [h]

theorem mfrEmergReset_inv {v : Nat} {pec : Bool} (h : s.Inv) : Keeps (execMfrEmergReset v pec s) := by
  refine inv_message (fun u hu => ?_) h
  simp [hu]

theorem facEmergOffAssert_inv (h : s.Inv) : Keeps (execFacEmergOffAssert s) := by simp [execFacEmergOffAssert, h]

theorem coolantFault_inv (h : s.Inv) : Keeps (execCoolantFault s) := by simp [execCoolantFault, h]

theorem coolantGraceExpire_inv (h : s.Inv) : Keeps (execCoolantGraceExpire s) := by
  simp only [execCoolantGraceExpire]
  split <;> simp [h]

/-! ### Commands of `RegAccess` -/

theorem registerWrite_inv {a : RegAddr} {v be : Nat} (h : s.Inv) : Keeps (execRegisterWrite a v be s) := by
  unfold execRegisterWrite
  split
  · exact keeps_next.2 (inv_access (fun u hu => inv_regWrite hu) h)
  · simp [h]

theorem registerRead_inv {a : RegAddr} {be : Nat} (h : s.Inv) : Keeps (execRegisterRead a be s) := by simp [execRegisterRead, h]

theorem frontgo_inv {who : Agent} {ci v : Nat} (h : s.Inv) : Keeps (execFrontgo who ci v s) := by simp [execFrontgo, h]

theorem frontgoHoldTimeout_inv (h : s.Inv) : Keeps (execFrontgoHoldTimeout s) := by
  simp only [execFrontgoHoldTimeout]
  split <;> simp [h]

theorem frontStreamStart_inv {k : Nat} {hbm : List HbmErr} (h : s.Inv) : Keeps (execFrontStreamStart k hbm s) := by
  simp [execFrontStreamStart, h]

theorem loReadLatch_inv {a : RegAddr} (h : s.Inv) : Keeps (execLoReadLatch a s) := by simp [execLoReadLatch, h]

theorem coldFrameAccess_inv {a : RegAddr} {w : Option Nat} (h : s.Inv) : Keeps (execColdFrameAccess a w s) := by
  unfold execColdFrameAccess
  split
  · split
    · exact keeps_next.2 (inv_access (fun u hu => inv_regRead.2 hu) h)
    · exact keeps_next.2 (inv_access (fun u hu => inv_regWrite hu) h)
  · simp [h]

theorem regrd_inv {n : Nat} {flits : List FlitErr} (h : s.Inv) : Keeps (execRegrd n flits s) := by
  unfold execRegrd
  split
  · simp [h]
  · next q u e =>
    have hu := inv_takePacket h e
    (repeat' split) <;> simp [h, hu]

theorem regwr_inv {n : Nat} {flits : List FlitErr} (h : s.Inv) : Keeps (execRegwr n flits s) := by
  unfold execRegwr
  split
  · simp [h]
  · next q u e =>
    have hu := inv_takePacket h e
    (repeat' split) <;> simp [h, hu]

theorem regResponseTimeout_inv (h : s.Inv) : Keeps (execRegResponseTimeout s) := by
  simp only [execRegResponseTimeout]
  split <;> simp [h]

theorem cspMemoryAccess_inv {ci a len : Nat} {w : Option Nat} {ups : List Upset} (h : s.Inv) : Keeps (execCspMemoryAccess ci a len w ups s) := by
  simp only [execCspMemoryAccess]
  (repeat' split) <;> simp [h]

/-! ### Commands of `Debug` -/

theorem traceRead_inv (h : s.Inv) : Keeps (execTraceRead s) :=
  inv_debugOp (fun _ _ _ hu => inv_finish (inv_wrS hu)) h

theorem debugHalt_inv (h : s.Inv) : Keeps (execDebugHalt s) :=
  inv_debugOp (fun _ _ _ hu => inv_finish (inv_scoped.2 hu)) h

theorem debugResume_inv (h : s.Inv) : Keeps (execDebugResume s) :=
  inv_debugOp (fun _ _ _ hu => inv_finish (inv_scoped.2 hu)) h

theorem memRead_inv {hbm : List HbmErr} (h : s.Inv) : Keeps (execMemRead hbm s) :=
  inv_debugOp (fun _ _ _ hu => inv_finish (inv_wrS (inv_memRead hu))) h

theorem memWrite_inv {hbm : List HbmErr} (h : s.Inv) : Keeps (execMemWrite hbm s) := by
  refine inv_debugOp (fun c n u hu => inv_finish (inv_memWrite ?_)) h
  split
  · exact hu
  · exact inv_readAt hu

theorem debugReset_inv {cut : List Endpoint} (h : s.Inv) : Keeps (execDebugReset cut s) :=
  inv_debugOp (fun _ _ _ hu => inv_request (inv_finish hu)) h

/-! ### Commands of `HostMem` -/

theorem hdmRead_inv {bar4 : Bool} {x n : Nat} {hbm : List HbmErr} (h : s.Inv) : Keeps (execHdmRead bar4 x n hbm s) := by
  simp only [execHdmRead]
  split <;> simp [h]

theorem hdmWrite_inv {bar4 : Bool} {x : Nat} {data : List Byte} (h : s.Inv) : Keeps (execHdmWrite bar4 x data s) := by
  simp only [execHdmWrite]
  split <;> simp [h]

/-! ### Commands of `Slice` -/

theorem sliceEnd_inv (h : s.Inv) : Keeps (execSliceEnd s) := by
  simp only [execSliceEnd]
  split <;> simp [h]

/-! ### Commands of `Vector` -/

theorem vld_inv {gi w : Nat} {ups : List Upset} (h : s.Inv) : Keeps (execVld gi w ups s) := by simp [execVld, h]

theorem vst_inv {gi w : Nat} {ups : List Upset} (h : s.Inv) : Keeps (execVst gi w ups s) := by simp [execVst, h]

theorem vlds_inv {gi w : Nat} {ups : List Upset} (h : s.Inv) : Keeps (execVlds gi w ups s) := by simp [execVlds, h]

theorem vsts_inv {gi w : Nat} {ups : List Upset} (h : s.Inv) : Keeps (execVsts gi w ups s) := by simp [execVsts, h]

theorem vleaf_inv {gi w : Nat} (h : s.Inv) : Keeps (execVleaf gi w s) := by simp [execVleaf, h]

/-! ### Every command, and every step -/

/-- A command that may change none of the parts the invariant speaks of. -/
theorem inv_of_untouched {i : Instr} (hi : (invParts.all fun p => !(Claims.touches i).contains p) = true) (h : s.Inv) : Keeps (exec i s) := by
  have hi : ∀ p ∈ invParts, p ∉ Claims.touches i := by
    simpa only [List.all_eq_true, Bool.not_eq_true', List.contains_eq_mem, decide_eq_false_iff_not] using hi
  exact fun _ hexec => (Part.inv_congr fun p hp => Claims.exec_onlyIn hexec p (hi p hp)).2 h

/-- Every command keeps the invariant: one that changes none of the fields it speaks of by its frame, any other by its lemma above. -/
theorem exec_inv {i : Instr} (h : s.Inv) : Keeps (exec i s) :=
  match i with
  | .registerWrite _ _ _ => registerWrite_inv h
  | .rwpCommit => rwpCommit_inv h
  | .loReadLatch _ => loReadLatch_inv h
  | .coldFrameAccess _ _ => coldFrameAccess_inv h
  | .listEntryFetch _ _ => listEntryFetch_inv h
  | .chainBodyLoad _ _ => chainBodyLoad_inv h
  | .pass _ _ => pass_inv h
  | .emul _ => emul_inv h
  | .eadd _ => eadd_inv h
  | .efma _ => efma_inv h
  | .chain _ _ => chain_inv h
  | .fill _ _ => fill_inv h
  | .fillT _ _ => fillT_inv h
  | .load _ => load_inv h
  | .store _ => store_inv h
  | .rakeSq _ _ _ => rakeSq_inv h
  | .lmemEccWriteback _ => lmemEccWriteback_inv h
  | .vld _ _ _ => vld_inv h
  | .vst _ _ _ => vst_inv h
  | .vlds _ _ _ => vlds_inv h
  | .vsts _ _ _ => vsts_inv h
  | .vleaf _ _ => vleaf_inv h
  | .listComplete _ => listComplete_inv h
  | .replay => replay_inv h
  | .auditRepair _ _ => auditRepair_inv h
  | .spareCoreSwap _ _ => spareCoreSwap_inv h
  | .shardPermuteRun _ => shardPermuteRun_inv h
  | .rollingBistSlice _ _ => rollingBistSlice_inv h
  | .msg _ _ => msg_inv h
  | .token _ _ => token_inv h
  | .credit _ _ => credit_inv h
  | .mrd _ _ _ _ => mrd_inv h
  | .mwr _ _ => mwr_inv h
  | .mrsp _ _ => mrsp_inv h
  | .regrd _ _ => regrd_inv h
  | .regwr _ _ => regwr_inv h
  | .quiesced => quiesced_inv h
  | .quiesceTimeout => quiesceTimeout_inv h
  | .sdlSync _ _ => sdlSync_inv h
  | .errorNotice _ _ => errorNotice_inv h
  | .frontgo _ _ _ => frontgo_inv h
  | .frontgoHoldTimeout => frontgoHoldTimeout_inv h
  | .frontStreamStart _ _ => frontStreamStart_inv h
  | .cstoreEccWriteback _ => cstoreEccWriteback_inv h
  | .rowRepair _ => rowRepair_inv h
  | .hbmPatrolScrub _ _ _ => hbmPatrolScrub_inv h
  | .mramPatrolScrub _ _ _ => mramPatrolScrub_inv h
  | .gdoneNotice _ _ => gdoneNotice_inv h
  | .factorExchange _ => factorExchange_inv h
  | .factorFoldTile _ _ _ _ _ => factorFoldTile_inv h
  | .grfSubloWrite _ _ _ => grfSubloWrite_inv h
  | .grfSubmit _ _ _ => grfSubmit_inv h
  | .grafterJobStart _ _ => grafterJobStart_inv h
  | .root _ _ => root_inv h
  | .orth _ _ => orth_inv h
  | .chol _ _ => chol_inv h
  | .trsv _ _ => trsv_inv h
  | .cg _ _ => cg_inv h
  | .grafterIterationComplete _ _ => grafterIterationComplete_inv h
  | .jobDeadline _ _ => jobDeadline_inv h
  | .grfAbort _ _ => grfAbort_inv h
  | .rakeClose => rakeClose_inv h
  | .normAllreduce => normAllreduce_inv h
  | .sieveDecide => sieveDecide_inv h
  | .sweepRecord _ _ => sweepRecord_inv h
  | .workingCopyAudit _ => workingCopyAudit_inv h
  | .recoverySweep _ => recoverySweep_inv h
  | .stepReplay => stepReplay_inv h
  | .reduceScatterLayer _ => reduceScatterLayer_inv h
  | .collFrame _ _ _ _ => collFrame_inv h
  | .rsLanded => rsLanded_inv h
  | .gather _ => gather_inv h
  | .permuteAck => permuteAck_inv h
  | .permuteCommit => permuteCommit_inv h
  | .mgmtFrame _ _ _ => mgmtFrame_inv h
  | .frameForward _ _ _ => frameForward_inv h
  | .ack _ _ => ack_inv h
  | .nak _ _ => nak_inv h
  | .portRetrain _ _ => portRetrain_inv h
  | .laneSpare _ _ => laneSpare_inv h
  | .laneLoss _ _ => laneLoss_inv h
  | .v1msg _ _ _ => v1msg_inv h
  | .helloSend => helloSend_inv h
  | .hello _ _ _ => hello_inv h
  | .discoveryRootAssign _ => discoveryRootAssign_inv h
  | .disc _ _ _ => disc_inv h
  | .portRejoin _ _ => portRejoin_inv h
  | .replayReq _ _ _ => replayReq_inv h
  | .sundialSyncTimer _ => sundialSyncTimer_inv h
  | .syncReq _ _ _ _ => syncReq_inv h
  | .syncResp _ _ _ _ _ _ => syncResp_inv h
  | .parentLost => parentLost_inv h
  | .rootLost => rootLost_inv h
  | .resetFrame _ _ _ => resetFrame_inv h
  | .mailboxDoorbell _ _ => mailboxDoorbell_inv h
  | .slotAck _ => slotAck_inv h
  | .ticketAck _ => ticketAck_inv h
  | .sliceEnd => sliceEnd_inv h
  | .getEventRecords => getEventRecords_inv h
  | .clearEventRecords => clearEventRecords_inv h
  | .getEventInterruptPolicy => getEventInterruptPolicy_inv h
  | .setEventInterruptPolicy => setEventInterruptPolicy_inv h
  | .getFwInfo => getFwInfo_inv h
  | .getSupportedLogs => getSupportedLogs_inv h
  | .getLog => getLog_inv h
  | .getInfo => getInfo_inv h
  | .getStatus => getStatus_inv h
  | .getTelemetry => getTelemetry_inv h
  | .fpflagReduce => fpflagReduce_inv h
  | .reset => reset_inv h
  | .quiesce => quiesce_inv h
  | .setPowerState => setPowerState_inv h
  | .setPowerCap => setPowerCap_inv h
  | .broadcastPatch => broadcastPatch_inv h
  | .copySram _ => copySram_inv h
  | .layerWrite _ => layerWrite_inv h
  | .layerRead => layerRead_inv h
  | .factorWrite _ => factorWrite_inv h
  | .factorRead => factorRead_inv h
  | .jobStart _ => jobStart_inv h
  | .jobStop => jobStop_inv h
  | .replayStep => replayStep_inv h
  | .skipStep => skipStep_inv h
  | .jobResumeStop => jobResumeStop_inv h
  | .discover => discover_inv h
  | .discoveryRead => discoveryRead_inv h
  | .setGrid => setGrid_inv h
  | .shardPermute _ => shardPermute_inv h
  | .planRead => planRead_inv h
  | .v1Send _ => v1Send_inv h
  | .groupReset => groupReset_inv h
  | .harvestStart => harvestStart_inv h
  | .snapshotOpen => snapshotOpen_inv h
  | .harvestDrain _ _ _ => harvestDrain_inv h
  | .harvestDataReceive _ _ _ => harvestDataReceive_inv h
  | .harvestRestore _ => harvestRestore_inv h
  | .selftest _ => selftest_inv h
  | .marginReplan _ => marginReplan_inv h
  | .marginReplanDaily _ => marginReplanDaily_inv h
  | .spareRead => spareRead_inv h
  | .rgaRead => rgaRead_inv h
  | .rgaFlush => rgaFlush_inv h
  | .rgaClear => rgaClear_inv h
  | .fwStage _ => fwStage_inv h
  | .recoveryFwStage _ => recoveryFwStage_inv h
  | .fwCommit => fwCommit_inv h
  | .debugChallenge => debugChallenge_inv h
  | .debugUnlock => debugUnlock_inv h
  | .toDebugUnlocked => toDebugUnlocked_inv h
  | .toSecured => toSecured_inv h
  | .toReturned => toReturned_inv h
  | .traceRead => traceRead_inv h
  | .debugHalt => debugHalt_inv h
  | .debugResume => debugResume_inv h
  | .memRead _ => memRead_inv h
  | .memWrite _ => memWrite_inv h
  | .debugReset _ => debugReset_inv h
  | .debugEnd => debugEnd_inv h
  | .ticketAbort => ticketAbort_inv h
  | .v1Identify => v1Identify_inv h
  | .v1Health => v1Health_inv h
  | .v1Reset => v1Reset_inv h
  | .v1SetPcap => v1SetPcap_inv h
  | .v1GetLog => v1GetLog_inv h
  | .v1FwUpdate _ => v1FwUpdate_inv h
  | .tapUnlock _ _ => tapUnlock_inv h
  | .provision => provision_inv h
  | .hdmRead _ _ _ _ => hdmRead_inv h
  | .hdmWrite _ _ _ => hdmWrite_inv h
  | .regResponseTimeout => regResponseTimeout_inv h
  | .pciePowerState _ => pciePowerState_inv h
  | .powerTransitionComplete => powerTransitionComplete_inv h
  | .throttleUpdate _ _ => throttleUpdate_inv h
  | .eccBucketRoll => eccBucketRoll_inv h
  | .laneWindow _ _ _ _ => laneWindow_inv h
  | .spareEyeCheck _ _ => spareEyeCheck_inv h
  | .powerOn => powerOn_inv h
  | .supplyTrip _ => supplyTrip_inv h
  | .cxlPerst _ => cxlPerst_inv h
  | .functionLevelReset => functionLevelReset_inv h
  | .dbgSrst _ => dbgSrst_inv h
  | .resetRequest _ => resetRequest_inv h
  | .resetRelease _ _ _ _ => resetRelease_inv h
  | .watchdogTimeout => watchdogTimeout_inv h
  | .thermalTrip _ => thermalTrip_inv h
  | .refclkReturn => refclkReturn_inv h
  | .facCapHeldApply => facCapHeldApply_inv h
  | .mfrPowerCap _ _ => mfrPowerCap_inv h
  | .mfrEmergReset _ _ => mfrEmergReset_inv h
  | .facEmergOffAssert => facEmergOffAssert_inv h
  | .coolantFault => coolantFault_inv h
  | .coolantGraceExpire => coolantGraceExpire_inv h
  | .registerRead _ _ => registerRead_inv h
  | .cspMemoryAccess _ _ _ _ _ => cspMemoryAccess_inv h
  | .badCrcFrame _ _ => badCrcFrame_inv h
  | .descIssue _ | .descComplete _ | .descEngineStop _ | .nop _ | .fillIn _ | .fillComplete _ | .send _ | .sendInject _ | .post _ | .postArm _
  | .repeatEntry _ | .resultLand _ | .tokincWrite _ _ _ | .cluLselWrite _ _ | .patch _ _ _ | .broadcastPatchLand | .rampGroupRelease _ | .phaseSwitch
  | .regrsp _ _ | .tc0PoliceAdmit _ _ _ | .halt _ _ _ | .resume _ _ | .quiesceUrgent _ _ | .barrierArrive _ _ _ | .barrierRelease | .sdlSyncSend
  | .frontLaunchRequest _ _ | .frontMarker _ _ | .frontTile _ _ | .ddoneNotice _ _ | .sieveResume | .windowClear | .launchTime | .getVersion
  | .getCapabilities | .negotiateAlgorithms _ _ _ _ | .getDigests | .getCertificate _ _ _ | .challenge _ _ | .getMeasurements _ _ _
  | .keyExchange _ _ | .finish _ _ | .heartbeat _ | .keyUpdate _ _ | .endSession _ | .tapChallenge | .tapEnd | .idcode | .bypass _
  | .samplePreload _ _ | .extest _ _ | .nonceExpire | .hdmCommit _ _ _ | .wakeWave | .monitorReading _ | .rgaSample _ _ | .windowClose | .sheetWrite
  | .watchdogKick | .refclkLoss | .clearFaults _ | .capability | .statusWord _ | .readVin | .readIin | .readPin | .readTemperature1
  | .readTemperature2 | .readTemperature3 | .mfrSerial | .mfrCoolantFlow | .mfrPowerState | .mfrIdentify _ | .mfrEmergArm _ _ | .emergArmExpire
  | .mfrRgaSummary | .alertResponse | .facEmergOffDeassert | .coolantRestored | .rowErrorWindowExpire _ _ | .pmbusUnsupportedCode _ _ | .vnop _ _
  | .vadd _ _ | .vsub _ _ | .vmul _ _ | .vfma _ _ | .vfnma _ _ | .vmax _ _ | .vmin _ _ | .vabs _ _ | .vneg _ _ | .vceq _ _ | .vclt _ _ | .vcle _ _
  | .vclass _ _ | .vsel _ _ | .vmov _ _ | .vand _ _ | .vor _ _ | .vxor _ _ | .vshl _ _ | .vsra _ _ | .vsrl _ _ | .viadd _ _ | .visub _ _ | .vdiv _ _
  | .vsqrt _ _ | .vcvt _ _ | .vcvtMx _ _ | .vcvtwMx _ _ | .vlsplit _ _ | .vljoin _ _ | .accrd _ _ | .vredSum _ _ | .vredMax _ _ | .vredMin _ _
  | .vred2Norm _ _ | .vred2Smax _ _ | .vexp2 _ _ | .vexp _ _ | .vlog2 _ _ | .vrcp _ _ | .vrsq _ _ | .vsinpi _ _ | .vcospi _ _ | .vtanh _ _
  | .verf _ _ =>
    inv_of_untouched rfl h
/-- An idle tick moves the time and the clocks' corrections. -/
theorem inv_idleTick (h : s.Inv) : s.idleTick.Inv := by
  unfold State.idleTick
  split
  · exact h
  · extract_lets d now _ links gs
    have hports : links.ports = s.links.ports := by
      unfold links
      split <;> rfl
    rw [State.inv_iff] at h ⊢
    obtain ⟨hmem, hmb, ⟨hlen, hg⟩, hp, hlogs⟩ := h
    refine ⟨hmem, hmb, ⟨(List.length_map ..).trans hlen, List.forall_mem_map.2 fun g hx => ?_⟩, ?_, hlogs⟩
    · dsimp only [Grafter.whole]
      split <;> exact hg g hx
    · exact (congrArg List.length hports).trans hp

/-- What `step` answers, on an empty queue and with a command at its front. -/
theorem step_inv (h : s.Inv) : Keeps (step s) := by
  unfold step
  split
  · exact keeps_next.2 (inv_idleTick h)
  · exact exec_inv ((State.inv_iff _).2 ((State.inv_iff s).1 h))

end
end Sys2Proof.Machine

namespace Sys2Proof.Claims
open Machine

/-- Settles O60: each command keeps the invariant (`exec_inv`), and so does an idle tick. -/
theorem stepKeepsInv : Obligations.StepKeepsInv := by
  unfold Obligations.StepKeepsInv
  exact fun s t h hstep => step_inv h t hstep

end Sys2Proof.Claims
end

section
/-! Weight fronts (O21): launches, streams, markers and tiles (R173-R176). -/

namespace Sys2Proof.Machine

section
variable {s t : State}

/-- A host with nothing behind it has nothing drained. -/
theorem State.hostDrained_idle (h : s.host.behind = []) : s.hostDrained = s := by rw [State.hostDrained, h]; rfl

/-- An agent that holds nothing makes its access at once (R173). -/
theorem access_of_agentFree {who : Agent} (h : Claims.agentFree s who) (x : HostAcc) (go : State → State) : s.access who x go = go s := by
  obtain ⟨-, hfree⟩ := h
  unfold State.access
  split
  · next hwho =>
    obtain ⟨hheld, hbehind⟩ := hfree hwho
    rw [State.hostDrained_idle hbehind]
    exact if_neg (by simp [hheld])
  · rfl

/-- With nothing held, a controller's place that frees releases nothing. -/
theorem State.frontRelease_unheld (h : s.frontHeld = []) (k : Nat) : s.frontRelease k = s := by simp [State.frontRelease, h]

/-- Nothing in the transfer engine takes a marker. -/
theorem State.takeMarker_idle {gi : Nat} (h : (s.core gi).tq = []) : s.takeMarker gi = s := by simp [State.takeMarker, Core.tqReady, h]

/-! ### What counting a stream's packet and naming its sender leave -/

theorem State.cores_streamed (s : State) (p : Packet) : (s.streamed p).cores = s.cores := by
  unfold State.streamed
  repeat' split
  all_goals rfl

theorem State.core_streamed (s : State) (p : Packet) (gi : Nat) : (s.streamed p).core gi = s.core gi := congrArg (Fam.get · gi) (s.cores_streamed p)

/-- The first sender since REPLAY becomes the core's (R177). -/
theorem State.frontSender_first {gi : Nat} (h : (s.core gi).frontSrc = none) (src : Endpoint) :
    s.frontSender gi src = (s.setCore gi { s.core gi with frontSrc := some src }, true) := by simp [State.frontSender, h]

theorem State.frontSender_same {gi : Nat} {src : Endpoint} (h : (s.core gi).frontSrc = some src) : s.frontSender gi src = (s, true) := by
  simp [State.frontSender, h]

theorem State.core_offer (s : State) (gi gj : Nat) (dst : Endpoint) (cls : TClass) (body : Payload) : (s.offer gi dst cls body).core gj = s.core gj := by
  unfold State.offer
  split <;> rfl

/-- The bytes that reach a core that has taken a marker, before the stream's last. -/
theorem State.core_frontData {gi left : Nat} {data : List Byte} {k : FrontTake} (htake : (s.core gi).take = some k) (htq : (s.core gi).tq = [])
    (hmore : k.seen + data.length < 32 * k.tile * k.left) (gj : Nat) :
    (s.frontData gi left data).core gj = (s.setCore gi { s.core gi with take := some { k with seen := k.seen + data.length } }).core gj := by
  simp only [State.frontData, htake, if_neg (Nat.not_le.2 hmore), State.core_setCore_same, htq]
  split
  · rfl
  · split
    · exact State.core_offer ..
    · rfl

/-! ### Streams -/

/-- A stream's packets, in order. -/
theorem State.foldl_injectStream (s : State) (src dst : Endpoint) (cls : TClass) (l : List Payload) :
    l.foldl (fun t b => t.inject src dst cls b) s = { s with net := s.net ++ l.map fun b => ⟨src, dst, cls, s.stag, b⟩ } := by
  induction l generalizing s with
  | nil => simp
  | cons b l ih =>
    rw [List.foldl_cons, ih, List.map_cons, List.append_cons]
    rfl

/-- The front of entry `e` of controller `k`'s table, read from `d`: its stream, and its packets in the net. -/
def State.streaming (d : State) (k head : Nat) (bodies : List Payload) : State :=
  { d with net := d.net ++ bodies.map fun b => ⟨.hbm k, .core head, .tc2q, d.stag, b⟩, streams := d.streams ++ [⟨k, head, bodies.length⟩] }

/-- A controller with one launchable front queued, and nothing in its way, streams it. -/
theorem State.startStream_launches {k e ci : Nat} (hq : s.frontQ = [(k, e, ci)]) (hheld : s.frontHeld = []) (hstreams : s.streams = [])
    (hquiet : s.quietG = []) (hflaws : s.flaws = []) (hok : frontOk (Sparse.get (fun _ => 0) s.frontTab (256 * k + e)) = true) :
    ∃ d head bodies, ReadAlike { s with frontQ := [] } d ∧ s.startStream k [] = d.streaming k head bodies := by
  let u := { s with frontQ := [] }
  let x := Sparse.get (fun _ => 0) s.frontTab (256 * k + e)
  let d := u.readAt (bits x 0 48) (32 * bits x 48 8 * bits x 56 10) []
  have hfind : (s.frontQ.zipIdx.find? fun e => e.1.1 == k) = some ((k, e, ci), 0) := by simp [hq]
  have hfree : ¬ (16 ≤ (s.streams.filter fun f => f.stack == k).length ∨ s.quietG.contains (.hbm k)) := by simp [hstreams, hquiet]
  have hleft : { s with frontQ := s.frontQ.eraseIdx 0 }.frontRelease k = u := by
    rw [hq]
    exact State.frontRelease_unheld (s := u) hheld k
  refine ⟨d.2, coreOf (bits x 66 7 + 128 * bits x 73 6) (bits x 79 6), frontBodies (bits x 48 8) (bits x 56 10) d.1,
    (State.readAt_bytes (s := u) hflaws _ _).2, ?_⟩
  rw [State.startStream, hfind]
  simp only [if_neg hfree, hleft, show u.frontTab = s.frontTab from rfl, hok, Bool.true_eq_false, if_false, State.foldl_injectStream]
  rfl

end

end Sys2Proof.Machine

namespace Sys2Proof.Claims
open Machine

section
variable (s : State)

/-! ### Launches (R173) -/

/-- A CLU_FRONTGO write that may be made is the write itself. -/
theorem exec_frontgo {who : Agent} {ci v : Nat} (hreach : goReach who ci = true) (hfree : agentFree s who) :
    Gives (.frontgo who ci v) s (s.frontGo who ci (bits v 8 4) (bits v 0 8)) := by
  show execFrontgo who ci v s = _
  rw [execFrontgo, hreach, hfree.1, access_of_agentFree hfree]
  rfl

theorem frontgo_sends (who : Agent) (ci v : Nat) (hreach : goReach who ci = true) (hfree : agentFree s who)
    (hload : s.frontLoad (bits v 8 4) < 64) (hheld : s.frontHeld = []) (hloud : (s.cluster ci).quiet = false) :
    Gives (.frontgo who ci v) s (s.inject (.cluster ci) (.hbm (bits v 8 4)) .tc1 (.frontReq (bits v 8 4) (bits v 0 8))) := by
  have hgo : s.frontGo who ci (bits v 8 4) (bits v 0 8) = s.frontSend ci (bits v 8 4) (bits v 0 8) :=
    if_pos ⟨hload, by simp [hheld], hloud⟩
  exact (exec_frontgo s hreach hfree).trans (congrArg _ hgo)

theorem frontgo_holds (who : Agent) (ci v : Nat) (hreach : goReach who ci = true) (hfree : agentFree s who)
    (hwait : 64 ≤ s.frontLoad (bits v 8 4) ∨ (s.cluster ci).quiet = true) :
    Gives (.frontgo who ci v) s { s with frontHeld := s.frontHeld ++ [⟨who, ci, bits v 8 4, bits v 0 8, s.sundial⟩] } := by
  have hgo : s.frontGo who ci (bits v 8 4) (bits v 0 8) = { s with frontHeld := s.frontHeld ++ [⟨who, ci, bits v 8 4, bits v 0 8, s.sundial⟩] } := by
    refine if_neg fun ⟨hload, _, hloud⟩ => ?_
    obtain hfull | hquiet := hwait
    · exact Nat.not_lt.2 hfull hload
    · simp [hquiet] at hloud
  exact (exec_frontgo s hreach hfree).trans (congrArg _ hgo)

/-- A host's write held for 1 ms is discarded. -/
theorem frontgoHoldTimeout_discards (ci k e tick : Nat) (hheld : s.frontHeld = [⟨.host, ci, k, e, tick⟩]) (hbehind : s.host.behind = [])
    (hlate : tick + 250000 ≤ s.sundial) :
    Gives .frontgoHoldTimeout s
      ({ s with frontHeld := [] }.rwErr (0x030001000000 + 0x20000 * (ci % 256) + Reg.offset .CLU_FRONTGO 0) 0 true) := by
  let u := { s with frontHeld := [] }.rwErr (0x030001000000 + 0x20000 * (ci % 256) + Reg.offset .CLU_FRONTGO 0) 0 true
  have hhost : u.host = s.host := (same_rwErr (p := .host) (by simp)).2 rfl
  have hdrained : u.hostDrained = u := State.hostDrained_idle (hhost ▸ hbehind)
  show execFrontgoHoldTimeout s = _
  simp only [execFrontgoHoldTimeout, hheld, List.zipIdx_cons, List.zipIdx_nil, List.find?_cons, beq_self_eq_true, hlate, if_true, List.eraseIdx_zero,
    List.tail_cons]
  exact congrArg _ hdrained

/-- A request that reaches its controller is queued. -/
theorem frontLaunchRequest_queues (t : State) (n k e ci : Nat) (p : Packet) (htake : s.takePacket n = some (p, t)) (hbody : p.body = .frontReq k e)
    (hsrc : p.src = .cluster ci) : Gives (.frontLaunchRequest n []) s { t with frontQ := t.frontQ ++ [(k, e, ci)] } := by
  show execFrontLaunchRequest n [] s = _
  simp only [execFrontLaunchRequest, htake, hbody, hsrc, State.flits_nil, Bool.false_eq_true, if_false]

/-! ### Streams (R173-R175) -/

/-- A launchable front's marker and tiles go to its head core. -/
theorem frontStreamStart_streams (k e ci : Nat) (hq : s.frontQ = [(k, e, ci)]) (hheld : s.frontHeld = []) (hstreams : s.streams = [])
    (hquiet : s.quietG = []) (hflaws : s.flaws = []) (hbehind : s.host.behind = [])
    (hok : frontOk (Sparse.get (fun _ => 0) s.frontTab (256 * k + e)) = true) :
    Runs (.frontStreamStart k []) s fun t => t.frontQ = [] ∧ OnlyIn [.frontQ, .net, .streams, .cores, .clusters] s t ∧
      (∀ gi, t.core gi = s.core gi) ∧ (∀ c, t.cluster c = s.cluster c) ∧
      ∃ f head bs, f ∈ t.streams ∧ f.stack = k ∧ t.net = s.net ++ bs ∧ bs.length = f.left ∧
        ∀ p ∈ bs, p.src = .hbm k ∧ p.dst = .core head ∧ p.cls = .tc2q := by
  obtain ⟨d, head, bodies, halike, hstart⟩ := State.startStream_launches hq hheld hstreams hquiet hflaws hok
  have hhost : d.host = s.host := halike.only .host (by simp)
  have hnet : d.net = s.net := halike.only .net (by simp)
  have hgives : Gives (.frontStreamStart k []) s (d.streaming k head bodies) := by
    show execFrontStreamStart k [] s = _
    rw [execFrontStreamStart, hstart, State.hostDrained_idle (s := d.streaming k head bodies) (hhost ▸ hbehind)]
  refine ⟨_, hgives, halike.only .frontQ (by simp), fun p hp => ?_, halike.core, halike.cluster, ⟨k, head, bodies.length⟩, head,
    bodies.map fun b => ⟨.hbm k, .core head, .tc2q, d.stag, b⟩, ?_, rfl, ?_, List.length_map .., fun p hp => ?_⟩
  · have hout : p ≠ .frontQ ∧ p ≠ .net ∧ p ≠ .streams ∧ p ≠ .cores ∧ p ≠ .clusters := by simpa using hp
    have hs : p.same s d := (Part.same_congr (halike.only p (by simp [hout]))).2 (by simp [hout])
    simp [State.streaming, hout, hs]
  · exact List.mem_append_right _ (List.mem_singleton_self _)
  · exact congrArg (· ++ _) hnet
  · obtain ⟨b, -, rfl⟩ := List.mem_map.1 hp
    exact ⟨rfl, rfl, rfl⟩

/-! ### Markers and tiles (R176) -/

/-- A marker that reaches a core with none held is held there. -/
theorem frontMarker_held (t : State) (n tile left gi : Nat) (p : Packet) (htake : s.takePacket n = some (p, t)) (hbody : p.body = .frontMark tile left)
    (hdst : p.dst = .core gi) (hfront : (s.core gi).front = none) (hnone : (s.core gi).take = none) (hsrc : (s.core gi).frontSrc = none)
    (htq : (s.core gi).tq = []) :
    Runs (.frontMarker n []) s fun u => (u.core gi).front = some (tile, left) ∧ (u.core gi).frontSrc = some p.src ∧
      ∀ gj, gj ≠ gi → u.core gj = s.core gj := by
  let c : Core := { s.core gi with frontSrc := some p.src }
  let v := (t.streamed p).setCore gi c
  let u := v.modCore gi fun c => { c with front := some (tile, left) }
  have hcore : ∀ gj, (t.streamed p).core gj = s.core gj := fun gj => by
    rw [State.core_streamed, State.takePacket_eq htake]
    rfl
  have hu : u.core gi = { c with front := some (tile, left) } := by rw [State.core_modCore_same, State.core_setCore_same]
  have hsender : (t.streamed p).frontSender gi p.src = (v, true) := by
    rw [State.frontSender_first ((hcore gi).symm ▸ hsrc), hcore]
  have hgives : Gives (.frontMarker n []) s u := by
    show execFrontMarker n [] s = _
    simp only [execFrontMarker, htake, hbody, hdst, hfront, hnone, Option.isSome_none, Bool.false_eq_true, or_self, if_false, State.flits_nil, hsender,
      if_true]
    exact congrArg _ (State.takeMarker_idle (by rw [hu]; exact htq))
  refine ⟨u, hgives, by rw [hu], by rw [hu], fun gj hj => ?_⟩
  exact (v.core_setCore_other _ _ _ hj).trans (((t.streamed p).core_setCore_other _ _ _ hj).trans (hcore gj))

/-- A tile's bytes reach the core that has taken the marker. -/
theorem frontTile_arrives (t : State) (n tile left gi : Nat) (data : List Byte) (k : FrontTake) (p : Packet) (htake : s.takePacket n = some (p, t))
    (hbody : p.body = .frontTile tile left data) (hdst : p.dst = .core gi) (hk : (s.core gi).take = some k)
    (hsrc : (s.core gi).frontSrc = some p.src) (hmore : k.seen + data.length < 32 * k.tile * k.left) (htq : (s.core gi).tq = []) :
    Runs (.frontTile n []) s fun u => (u.core gi).take = some { k with seen := k.seen + data.length } ∧ ∀ gj, gj ≠ gi → u.core gj = s.core gj := by
  let v := t.streamed p
  have hcore : ∀ gj, v.core gj = s.core gj := fun gj => by
    rw [State.core_streamed, State.takePacket_eq htake]
    rfl
  have hdata := State.core_frontData (s := v) (gi := gi) (left := left) ((hcore gi).symm ▸ hk) ((hcore gi).symm ▸ htq) hmore
  refine ⟨v.frontData gi left data, ?_, by rw [hdata, State.core_setCore_same], fun gj hj => ?_⟩
  · show execFrontTile n [] s = _
    have hsender : v.frontSender gi p.src = (v, true) := State.frontSender_same ((hcore gi).symm ▸ hsrc)
    simp only [execFrontTile, htake, hbody, hdst, hk, Option.isNone_some, Bool.false_eq_true, if_false, State.flits_nil, hsender, v, if_true,
      State.flipped_nil]
  · rw [hdata, State.core_setCore_other _ _ _ _ hj, hcore]

end

/-- Settles O21: each clause is the lemma above that its name says. -/
theorem frontsStream : Obligations.FrontsStream :=
  ⟨frontgo_sends, frontgo_holds, frontgoHoldTimeout_discards, frontLaunchRequest_queues, frontStreamStart_streams, frontMarker_held, frontTile_arrives⟩

end Sys2Proof.Claims
end

section
/-! The upkeep of memory (O43): SWEEP_RECORD applies the errors of its own reads (R169), and none where it does not sweep. -/

namespace Sys2Proof.Machine

/-- A corrected error is counted at its stack (R342); what it charges to its row is no register. -/
theorem State.hub_hbmCe (s : State) (unit : Nat) : (s.hbmCe unit).hub = (s.satH .TRL_HBMSTAT (s.stackOf (32 * unit)) 0 16 1).hub := by
  unfold State.hbmCe
  extract_lets k row t l
  split
  · unfold State.queueRow
    split <;> rfl
  · rfl

theorem State.step_hbmMeets (s : State) (e : HbmErr) : (s.hbmMeets e).step = s.step := (same_hbmMeets (p := .step) (by simp)).2 rfl

end Sys2Proof.Machine

namespace Sys2Proof.Claims
open Machine

/-- Outside a running step no record is swept, whatever errors the command names. -/
theorem sweepRecord_idle {s : State} (h : s.step.phase = .idle) (i : Nat) (hbm : List HbmErr) : Gives (.sweepRecord i hbm) s s := by
  show execSweepRecord i hbm s = .next s
  simp [execSweepRecord, h]

/-- Refutes O43: SWEEP_RECORD of the state out of reset, which sweeps nothing, counts no corrected error of unit 0, where the statement would
have it counted as by a command that reads. -/
theorem not_memoryIsMaintained : ¬ Obligations.MemoryIsMaintained := by
  intro h
  obtain ⟨-, -, -, hmeets, -⟩ := h
  have hhub {s : State} (hs : s.step.phase = .idle) : (s.hbmCe 0).hub = s.hub := by
    have hidle := sweepRecord_idle (s := s.hbmMeets (.corrected 0)) (by rw [State.step_hbmMeets, hs]) 0 []
    have hcounted := hmeets s _ [.corrected 0] (.sweepRecord 0) (List.cons_ne_nil _ _) (.inr (.inr (.inl ⟨0, rfl⟩))) hidle
    have hsame := (sweepRecord_idle hs 0 [.corrected 0]).symm.trans hcounted
    exact congrArg State.hub (Host.Outcome.next.inj hsame).symm
  have hreset := (State.hub_hbmCe State.reset 0).symm.trans (hhub (s := State.reset) rfl)
  exact absurd hreset (by decide +kernel)

end Sys2Proof.Claims
end

section
/-! The host's access to HBM (O52): the HDM decoder, and reads and writes through HDM or BAR4 (R171, R325-R327). -/

namespace Sys2Proof.Machine

/-! ### A struck unit, byte by byte -/

theorem getElem_mgets (m : Mem) (a n i : Nat) (h : i < (mgets m a n).length) : (mgets m a n)[i] = mget m (a + i) := by simp [mgets]

/-- An address in unit `u` reads its byte as the mask changes it, every other what it read. -/
theorem mget_strikeUnit (m : Mem) (u mask k : Nat) :
    mget (strikeUnit m u mask) k = if 32 * u ≤ k ∧ k < 32 * u + 32 then mget m k ^^^ BitVec.ofNat 8 (mask / 256 ^ (k - 32 * u)) else mget m k := by
  have hlen : (maskUnit (mgets m (32 * u) 32) 0 mask).length = 32 := by simp [maskUnit, mgets]
  rw [strikeUnit, mget, msets, Sparse.get_setRun]
  by_cases hk : 32 * u ≤ k ∧ k < 32 * u + 32
  · rw [dif_pos (by omega), if_pos hk]
    simp only [maskUnit, List.getElem_mapIdx, getElem_mgets, Nat.zero_le, true_and, Nat.sub_zero]
    rw [if_pos (by omega), Nat.add_sub_cancel' hk.1]
  · rw [dif_neg (by omega), if_neg hk]
    rfl

/-- A range inside the units `[lo, lo + len)`, read with unit `u` struck. -/
theorem mgets_strikeUnit (m : Mem) {u mask a n lo len : Nat} (hlo : lo ≤ a) (hend : a + n ≤ lo + len) (hu : lo ≤ 32 * u) :
    mgets (strikeUnit m u mask) a n = ((maskUnit (mgets m lo len) (32 * u - lo) mask).drop (a - lo)).take n := by
  refine List.ext_getElem (by simp [maskUnit, mgets]; omega) fun i hi _ => ?_
  have hat : lo + (a - lo + i) = a + i := by omega
  have hoff : a - lo + i - (32 * u - lo) = a + i - 32 * u := by omega
  simp only [getElem_mgets, mget_strikeUnit, List.getElem_take, List.getElem_drop, maskUnit, List.getElem_mapIdx, hat, hoff]
  exact if_congr (by omega) rfl rfl

/-! ### Reads -/

theorem State.mem_event (s : State) (status kind idx arg : Nat) : (s.event status kind idx arg).mem = s.mem := (same_event (p := .mem) (by simp)).2 rfl

theorem State.mem_hbmUe (s : State) (u : Nat) : (s.hbmUe u).mem = s.mem := (same_hbmUe (p := .mem) (by simp)).2 rfl

/-- An uncorrectable error of a host read strikes its unit, is logged and raised, and changes nothing else (R171). -/
theorem State.mem_hostMeets (s : State) (u mask : Nat) (persist : Bool) : (s.hostMeets (.uncorrectable u mask persist)).mem = strikeUnit s.mem u mask := by
  simp only [State.hostMeets, State.mem_event, State.mem_hbmUe]

/-- A host read that meets one uncorrectable unit among those it reads. -/
theorem State.hostBytes_uncorrectable (s : State) {a n u : Nat} (mask : Nat) (persist : Bool) (hlo : a / 32 ≤ u)
    (hhi : u ≤ (a + n - 1) / 32) : ∃ t m, s.hostBytes a n [.uncorrectable u mask persist] = (mgets (strikeUnit s.mem u mask) a n, { t with mem := m }) ∧
      OnlyIn (.mem :: eventParts) s t := by
  let e : HbmErr := .uncorrectable u mask persist
  have hinside : HbmErr.inside (a / 32 * 32) (32 * ((a + n - 1) / 32 + 1 - a / 32)) e = true := by
    simp only [HbmErr.inside, e, Bool.and_eq_true, decide_eq_true_eq]
    omega
  have honly : OnlyIn (.mem :: eventParts) s (s.hostMeets e) := fun p hp => by
    have hout : p ≠ .mem ∧ p.outside eventParts := by simpa [eventParts] using hp
    simp_all [State.hostMeets, e]
  refine ⟨s.hostMeets e, healUnits [e] (s.hostMeets e).mem (s.hostMeets e).mem, ?_, honly⟩
  simp only [State.hostBytes, List.filter_cons, hinside, e, if_true, List.filter_nil, List.foldl_cons, List.foldl_nil, State.rd, State.mem_hostMeets]

/-! ### The period in which HBM is away -/

theorem State.host_event (s : State) (status kind idx arg : Nat) : (s.event status kind idx arg).host = s.host := (same_event (p := .host) (by simp)).2 rfl

theorem State.unavail_unavailable (s : State) : s.unavailable.host.unavail = true := by
  unfold State.unavailable
  split
  · assumption
  · exact congrArg HostSide.unavail (State.host_event ..)

theorem State.unavailable_onlyIn (s : State) : OnlyIn [.host, .logs, .logLost, .msix, .gauge, .hub] s s.unavailable := fun p hp => by
  have hout : p ≠ .host ∧ p ≠ .logs ∧ p ≠ .logLost ∧ p ≠ .msix ∧ p ≠ .gauge ∧ p ≠ .hub := by simpa using hp
  simp [hout]

end Sys2Proof.Machine

namespace Sys2Proof.Claims
open Machine

/-! ### The decoder (R326) -/

section
variable (s : State) (size ways dpa : Nat) (hready : s.linkReady = true)
include hready

theorem hdmCommit_commits (hmode : s.cxlMode = true) (h : size = 2 ^ 39 ∧ ways = 1 ∧ dpa = 0) :
    Gives (.hdmCommit size ways dpa) s { s with host := { s.host with hdm := true, hdmErr := false } } := by
  show execHdmCommit size ways dpa s = _
  rw [execHdmCommit, hready, hmode]
  exact if_pos h

theorem hdmCommit_fails (hmode : s.cxlMode = true) (h : size ≠ 2 ^ 39 ∨ ways ≠ 1 ∨ dpa ≠ 0) :
    Gives (.hdmCommit size ways dpa) s { s with host := { s.host with hdmErr := true } } := by
  show execHdmCommit size ways dpa s = _
  have hother : ¬ (size = 2 ^ 39 ∧ ways = 1 ∧ dpa = 0) := by
    rintro ⟨hsize, hways, hdpa⟩
    simp [hsize, hways, hdpa] at h
  rw [execHdmCommit, hready, hmode]
  exact if_neg hother

theorem hdmCommit_absent (hmode : s.cxlMode = false) : Gives (.hdmCommit size ways dpa) s s := by
  show execHdmCommit size ways dpa s = _
  rw [execHdmCommit, hready, hmode]
  rfl

end

/-! ### Accesses (R325, R327) -/

/-- An access through BAR4 in a PCIe-only mode, or through the committed decoder in a CXL mode, and the address it names. -/
def Reaches (s : State) (bar4 : Bool) (x n a : Nat) : Prop :=
  (bar4 = true ∧ s.cxlMode = false ∧ x + n ≤ 2 ^ 36 ∧ a = 2 ^ 36 * rf s.mbx .MBX_HWIN 0 0 3 + x) ∨
    (bar4 = false ∧ s.cxlMode = true ∧ s.host.hdm = true ∧ x + n ≤ 2 ^ 39 ∧ a = x)

theorem hostAddr_of_reaches {s : State} {bar4 : Bool} {x n a : Nat} (h : Reaches s bar4 x n a) : s.hostAddr bar4 x n = some a := by
  obtain ⟨rfl, hmode, hlen, rfl⟩ | ⟨rfl, hmode, hhdm, hlen, rfl⟩ := h
  · rw [State.hostAddr, if_pos rfl, if_pos ⟨hmode, hlen⟩]
  · rw [State.hostAddr, if_neg Bool.false_ne_true, if_pos ⟨hmode, hhdm, hlen⟩]

section
variable (s : State) {bar4 : Bool} {x n a : Nat} (hready : s.linkReady = true) (hn : 0 < n) (haddr : s.hostAddr bar4 x n = some a)
include hready hn haddr

/-- A read of HBM that is there. -/
theorem hdmRead_gives (hthere : s.hbmAway = false) (e : List HbmErr) :
    Gives (.hdmRead bar4 x n e) s { (s.hostBytes a n e).2 with host := { (s.hostBytes a n e).2.host with data := (s.hostBytes a n e).1 } } := by
  show execHdmRead bar4 x n e s = _
  simp only [execHdmRead, haddr, hready, hthere, Bool.true_eq_false, Nat.ne_of_gt hn, or_self, if_false, Bool.false_eq_true]

theorem hdmWrite_gives (hthere : s.hbmAway = false) (hclosed : s.hrv ≠ 2) (data : List Byte) (hlen : data.length = n) :
    Gives (.hdmWrite bar4 x data) s (s.wr a data) := by
  show execHdmWrite bar4 x data s = _
  simp only [execHdmWrite, hlen, haddr, hready, hthere, Bool.true_eq_false, Nat.ne_of_gt hn, or_self, if_false, Bool.false_eq_true,
    State.wrS_unstaged hclosed]

/-- An uncorrectable error changes what is returned, and no step (R171). -/
theorem hdmRead_uncorrectable (hthere : s.hbmAway = false) (u mask : Nat) (persist : Bool) (hlo : a / 32 ≤ u) (hhi : u ≤ (a + n - 1) / 32) :
    Runs (.hdmRead bar4 x n [.uncorrectable u mask persist]) s fun t =>
      t.host.data = ((maskUnit (s.rd (a / 32 * 32) (32 * ((a + n - 1) / 32 + 1 - a / 32))) (32 * u - a / 32 * 32) mask).drop (a - a / 32 * 32)).take n ∧
        t.step = s.step ∧ OnlyIn [.mem, .hub, .host, .logs, .logLost, .msix, .gauge] s t := by
  obtain ⟨v, m, hbytes, honly⟩ := s.hostBytes_uncorrectable mask persist hlo hhi
  have hgives := hdmRead_gives s hready hn haddr hthere [.uncorrectable u mask persist]
  rw [hbytes] at hgives
  refine ⟨_, hgives, mgets_strikeUnit s.mem (by omega) (by omega) (by omega), honly .step (by simp [eventParts]), fun p hp => ?_⟩
  have hout : p ≠ .mem ∧ p ≠ .hub ∧ p ≠ .host ∧ p ≠ .logs ∧ p ≠ .logLost ∧ p ≠ .msix ∧ p ≠ .gauge := by simpa using hp
  simp [hout, honly p (by simp [eventParts, hout])]

/-! ### While HBM is in self-refresh or off -/

theorem hdmRead_away (haway : s.hbmAway = true) (e : List HbmErr) : Runs (.hdmRead bar4 x n e) s fun t =>
    t.host.data = List.replicate n 0 ∧ t.host.unavail = true ∧ t.mem = s.mem ∧ OnlyIn [.host, .logs, .logLost, .msix, .gauge, .hub] s t := by
  refine ⟨{ s.unavailable with host := { s.unavailable.host with data := List.replicate n 0#8 } }, ?_, rfl, s.unavail_unavailable,
    s.unavailable_onlyIn .mem (by simp), fun p hp => ?_⟩
  · show execHdmRead bar4 x n e s = _
    simp only [execHdmRead, haddr, hready, haway, Bool.true_eq_false, Nat.ne_of_gt hn, or_self, if_false, if_true]
  · have hout : p ≠ .host := by simp_all
    simp [hout, s.unavailable_onlyIn p hp]

theorem hdmWrite_away (haway : s.hbmAway = true) (data : List Byte) (hlen : data.length = n) : Runs (.hdmWrite bar4 x data) s fun t =>
    t.mem = s.mem ∧ t.host.unavail = true ∧ OnlyIn [.host, .logs, .logLost, .msix, .gauge, .hub] s t := by
  refine ⟨s.unavailable, ?_, s.unavailable_onlyIn .mem (by simp), s.unavail_unavailable, s.unavailable_onlyIn⟩
  show execHdmWrite bar4 x data s = _
  simp only [execHdmWrite, hlen, haddr, hready, haway, Bool.true_eq_false, Nat.ne_of_gt hn, or_self, if_false, if_true]

end

/-- A read through what this mode does not have changes nothing. -/
theorem hdmRead_absent {s : State} {bar4 : Bool} {x n : Nat} (haddr : s.hostAddr bar4 x n = none) (e : List HbmErr) :
    Gives (.hdmRead bar4 x n e) s s := by
  show execHdmRead bar4 x n e s = _
  rw [execHdmRead, haddr]

/-- Settles O52: the decoder's cases, the accesses where HBM is there and where it is not, and those that reach nothing. -/
theorem hostMemoryAccess : Obligations.HostMemoryAccess := by
  refine ⟨fun s size ways dpa hready => ⟨hdmCommit_commits s size ways dpa hready, hdmCommit_fails s size ways dpa hready,
    hdmCommit_absent s size ways dpa hready⟩, fun s bar4 x n a hready hn hreach => ?_, fun s x n e => ⟨fun h => ?_, fun h => ?_, fun h => ?_⟩⟩
  · have haddr := hostAddr_of_reaches hreach
    exact ⟨fun e h => hdmRead_gives s hready hn haddr h e, fun h => hdmRead_gives s hready hn haddr h [], hdmWrite_gives s hready hn haddr,
      hdmRead_uncorrectable s hready hn haddr, hdmRead_away s hready hn haddr, hdmWrite_away s hready hn haddr⟩
  · exact hdmRead_absent (by simp [State.hostAddr, h]) e
  · exact hdmRead_absent (by simp [State.hostAddr, h]) e
  · exact hdmRead_absent (by simp [State.hostAddr, h]) e

end Sys2Proof.Claims
end

section
/-! The table, report and copy commands (O33): each opens its ticket, does all its work in its first slice and ends. -/

namespace Sys2Proof.Machine

/-! ### The state an answer leaves -/

/-- A state but for its mailbox, its interrupts and the Rain gauge's open window: all that an answer to a command changes (R330, R340, R364). -/
def State.answeredWith (s : State) (m : Mailbox) (x : List (Nat × Nat)) (w : Window) : State :=
  { s with mb := m, msix := x, gauge := { s.gauge with win := w } }

theorem State.answeredWith_mem (s : State) (m : Mailbox) (x : List (Nat × Nat)) (w : Window) : (s.answeredWith m x w).mem = s.mem := rfl

theorem State.answeredWith_onlyIn (s : State) (m : Mailbox) (x : List (Nat × Nat)) (w : Window) :
    OnlyIn [.mb, .msix, .gauge] s (s.answeredWith m x w) := fun p hp => by
  simp only [List.mem_cons, List.not_mem_nil, or_false, not_or] at hp
  simp [State.answeredWith, hp]

theorem State.endTicket_onlyIn (s : State) (n status : Nat) : OnlyIn [.mb, .msix] s (s.endTicket n status) :=
  fun p hp => (same_endTicket hp).2 (p.same_refl s)

/-! ### Memory after a write depends on memory alone -/

theorem State.wr_mem_congr {s u : State} (h : u.mem = s.mem) (a : Nat) (bs : List Byte) : (u.wr a bs).mem = (s.wr a bs).mem := by
  unfold State.wr
  split
  · exact h
  split
  · rw [State.wrPlace_mem, State.wrPlace_mem, h]
  · refine List.foldl_rel (r := fun t v : State => t.mem = v.mem) h fun g _ t v htv => ?_
    split
    · rw [State.wrPlace_mem, State.wrPlace_mem, htv]
    · exact htv

/-! ### Writes of table entries (R199, R201, R238) -/

theorem keepRule_eq_keptRule (old new : Nat) : keepRule old new = Claims.keptRule old new := by
  unfold keepRule Claims.keptRule lRule
  by_cases hrule : bits new 320 4 ≤ 7
  · rw [if_pos hrule, if_neg (by omega)]
  · rw [if_neg hrule, if_pos (by omega)]

/-- A run of entries over a table: inside the run the entry given there, outside what the table held. -/
theorem get_overlay_run (table : List (Nat × Nat)) (lo k : Nat) (v : Nat → Nat) (j : Nat) :
    Sparse.get (fun _ => 0) (overlay table ((List.range k).map fun i => (lo + i, v i))) j =
      if lo ≤ j ∧ j < lo + k then v (j - lo) else Sparse.get (fun _ => 0) table j := by
  induction k with
  | zero => rw [if_neg (by omega)]; rfl
  | succ k ih =>
    rw [List.range_succ, List.map_append, overlay, List.foldl_append]
    change Sparse.get _ (Sparse.set (fun _ => 0) (overlay table ((List.range k).map fun i => (lo + i, v i))) (lo + k) (v k)) j = _
    by_cases hj : j = lo + k
    · rw [hj, Sparse.get_set_same, if_pos (by omega), Nat.add_sub_cancel_left]
    · rw [Sparse.get_set_other _ _ _ _ _ hj, ih]
      exact if_congr (by omega) rfl rfl

/-- LAYER_WRITE's load of the entries it names, during a job for the next boundary. -/
def State.loadLayers (c : Cmd) (s : State) : State :=
  if s.step.job then { s with layersNext := s.layersNext.filter (fun e : Nat × Nat => (s.newLayers c).all fun x => x.1 != e.1) ++ s.newLayers c }
  else { s with layers := overlay s.layers (s.newLayers c) }

theorem State.loadLayers_onlyIn (c : Cmd) (s : State) : OnlyIn [.layers, .layersNext] s (s.loadLayers c) := fun p hp => by
  simp only [List.mem_cons, List.not_mem_nil, or_false, not_or] at hp
  unfold State.loadLayers
  split <;> simp [hp]

theorem State.layer_loadLayers {s : State} (c : Cmd) (hjob : s.step.job = false) (j : Nat) : (s.loadLayers c).layer j =
    if c.field 0 2 ≤ j ∧ j < c.field 0 2 + c.field 2 2
      then Claims.keptRule (Sparse.get (fun _ => 0) (overlay s.layers s.layersNext) j)
        (s.rdN (c.field 4 8 + 64 * (j - c.field 0 2)) 64 &&& layerBits)
      else s.layer j := by
  rw [State.loadLayers, if_neg (by simp [hjob])]
  refine (get_overlay_run _ _ _ _ j).trans (ite_congr rfl (fun hj => ?_) fun _ => rfl)
  rw [keepRule_eq_keptRule, Nat.add_sub_of_le hj.1]

theorem State.loadLayers_waits {s : State} (c : Cmd) (hjob : s.step.job = true) : (s.loadLayers c).layers = s.layers ∧
    ∀ j, j < c.field 2 2 → (c.field 0 2 + j, Claims.keptRule (Sparse.get (fun _ => 0) (overlay s.layers s.layersNext) (c.field 0 2 + j))
      (s.rdN (c.field 4 8 + 64 * j) 64 &&& layerBits)) ∈ (s.loadLayers c).layersNext := by
  rw [State.loadLayers, if_pos hjob]
  refine ⟨rfl, fun j hj => ?_⟩
  rw [← keepRule_eq_keptRule]
  exact List.mem_append_right _ (List.mem_map.2 ⟨j, List.mem_range.2 hj, rfl⟩)

/-- What FACTOR_WRITE makes of an entry: the buffers of the value written, an empty fold, buffer 0 published on both sides. -/
def loadedFactor (f v : Nat) : Nat :=
  putBits (putBits (putBits (putBits f 0 192 (bits v 0 192)) 192 64 pverEmpty) 256 96 (bits v 256 96)) 352 16 0

theorem loadedFactor_fields (f v : Nat) :
    bits (loadedFactor f v) 0 192 = bits v 0 192 ∧ bits (loadedFactor f v) 192 64 = pverEmpty ∧ bits (loadedFactor f v) 256 96 = bits v 256 96 ∧
      bits (loadedFactor f v) 352 16 = 0 ∧ bits (loadedFactor f v) 368 144 = bits f 368 144 := by
  have hmod (lo w : Nat) : bits v lo w % 2 ^ w = bits v lo w := Nat.mod_eq_of_lt (bits_lt v lo w)
  simp (disch := omega) only [loadedFactor, bits_putBits_other, bits_putBits_same, hmod]
  decide

/-- FACTOR_WRITE's load of entry `i` of those it names. -/
def State.loadFactor (c : Cmd) (t : State) (i : Nat) : State :=
  t.setFactor (c.field 0 2 + i) (loadedFactor (t.factor (c.field 0 2 + i)) (t.rdN (c.field 4 8 + 64 * i) 64))

/-- FACTOR_WRITE's load of the entries it names. -/
def State.loadFactors (c : Cmd) (s : State) : State := (List.range (c.field 2 2)).foldl (State.loadFactor c) s

theorem State.foldl_loadFactor_onlyIn (c : Cmd) (is : List Nat) (s : State) : OnlyIn [.factors] s (is.foldl (State.loadFactor c) s) :=
  fun _ hp => Part.foldl_same fun _ _ => (same_setFactor hp).2 (Part.same_refl _ _)

theorem State.loadFactors_onlyIn (c : Cmd) (s : State) : OnlyIn [.factors] s (s.loadFactors c) := State.foldl_loadFactor_onlyIn c _ s

theorem State.factor_setFactor_same (s : State) (i v : Nat) : (s.setFactor i v).factor i = v := Sparse.get_set_same _ _ _ _

theorem State.factor_setFactor_other (s : State) {i j : Nat} (v : Nat) (h : j ≠ i) : (s.setFactor i v).factor j = s.factor j :=
  Sparse.get_set_other _ _ _ _ _ h

/-- The first `k` entries loaded are read back so, and the others as they were. -/
theorem State.factor_foldl_loadFactor (c : Cmd) (k : Nat) (s : State) (j : Nat) : ((List.range k).foldl (State.loadFactor c) s).factor j =
    if c.field 0 2 ≤ j ∧ j < c.field 0 2 + k then loadedFactor (s.factor j) (s.rdN (c.field 4 8 + 64 * (j - c.field 0 2)) 64) else s.factor j := by
  induction k with
  | zero => rw [if_neg (by omega)]; rfl
  | succ k ih =>
    have hmem : ((List.range k).foldl (State.loadFactor c) s).mem = s.mem := State.foldl_loadFactor_onlyIn c _ s .mem (by simp)
    rw [List.range_succ, List.foldl_append, List.foldl_cons, List.foldl_nil, State.loadFactor]
    by_cases hj : j = c.field 0 2 + k
    · subst hj
      rw [State.factor_setFactor_same, ih, if_neg (by omega), if_pos (by omega), Nat.add_sub_cancel_left, State.rdN, State.rd, hmem]
      rfl
    · rw [State.factor_setFactor_other _ _ hj, ih]
      exact if_congr (by omega) rfl rfl

theorem State.factor_loadFactors (c : Cmd) (s : State) (j : Nat) : (s.loadFactors c).factor j =
    if c.field 0 2 ≤ j ∧ j < c.field 0 2 + c.field 2 2 then loadedFactor (s.factor j) (s.rdN (c.field 4 8 + 64 * (j - c.field 0 2)) 64)
    else s.factor j := State.factor_foldl_loadFactor c _ s j

/-! ### Ports -/

theorem State.port_setPort_same {s : State} {p : Nat} (x : Port) (hp : p < s.links.ports.length) : (s.setPort p x).port p = x := by
  simp [State.port, State.setPort, List.getD, List.getElem?_set_self hp]

theorem State.transmit_onlyIn (s : State) (p : Nat) (f : Frame) : OnlyIn [.links] s (s.transmit p f) :=
  fun q hq => (same_transmit hq).2 (q.same_refl s)

end Sys2Proof.Machine

namespace Sys2Proof.Claims
open Machine

/-! ### A ticket that opens, and one that finds none free (R331) -/

theorem answer_eq_answeredWith (s : State) (k tag status : Nat) (data : List Byte) : ∃ m x w, s.answer k tag status data = s.answeredWith m x w := by
  obtain ⟨w, hsample⟩ : ∃ w, s.sampleUs 63 (s.sundial - (s.slot k).tick) = s.answeredWith s.mb s.msix w := ⟨_, rfl⟩
  rw [State.answer, hsample]
  exact ⟨_, _, _, rfl⟩

theorem openTicket_eq_answeredWith (s : State) (n : Nat) (c : Cmd) : ∃ m x w, (popped s).openTicket n c = s.answeredWith m x w := by
  rw [State.openTicket, reply_inProgress]
  exact answer_eq_answeredWith _ _ _ _ _

/-- A long command that is not refused goes on from its state answered, tables, registers and memory as they were. -/
theorem long_answers {s : State} {op n : Nat} {c : Cmd} {refuse : Cmd → State → Option Nat} {go : Cmd → Nat → State → State}
    (hw : Waits s op c) (ht : Tickets s op n) (hrefuse : refuse c (popped s) = none) :
    ∃ m x w, Opened s (s.answeredWith m x w) c n ∧ s.long op refuse go = .next (go c n (s.answeredWith m x w)) := by
  obtain ⟨m, x, w, hopen⟩ := openTicket_eq_answeredWith s n c
  have hlong (go : Cmd → Nat → State → State) : s.long op refuse go = .next (go c n (s.answeredWith m x w)) :=
    hopen ▸ long_of_takeCmd (takeCmd_of_waits hw) hrefuse ht.1 ht.2.1
  obtain ⟨u, hopened, -, hu⟩ := long_opens (go := fun _ _ u => u) hw ht hrefuse
  cases (hlong _).symm.trans hu
  exact ⟨m, x, w, hopened, hlong go⟩

/-- A long command with no ticket free says so, and leaves memory and the tickets. -/
theorem long_exhausted {i : Instr} {s : State} {op : Nat} {c : Cmd} {refuse : Cmd → State → Option Nat} {go : Cmd → Nat → State → State}
    (hexec : exec i s = s.long op refuse go) (hw : Waits s op c) (hrefuse : refuse c (popped s) = none) (hbusy : s.resourceBusy op = false)
    (hfree : s.freeTicket = none) :
    Runs i s fun t => Answered s t c St.TICKETS_EXHAUSTED [] ∧ t.mem = s.mem ∧ t.mb.tickets = s.mb.tickets := by
  have hbusy' : (popped s).resourceBusy op = false := hbusy
  have hfree' : (popped s).freeTicket = none := hfree
  refine ⟨(popped s).reply c St.TICKETS_EXHAUSTED [], ?_, answered_reply hw rfl _ _, (same_reply (p := .mem) (by simp)).2 rfl, ?_⟩
  · simp [hexec, State.long, takeCmd_of_waits hw, hrefuse, hbusy', hfree']
  · have hevent : ((popped s).event St.TICKETS_EXHAUSTED 0 0 0).mb = (popped s).mb := (same_event (p := .mb) (by simp)).2 rfl
    rw [State.reply, answer_mb, hevent]
    rfl

/-! ### Completion records (R328) -/

section
variable {s u : State} {c : Cmd} {n : Nat}

/-- What a command that only writes memory may change. -/
def copyParts : List Part := [.mem, .flaws, .cores, .clusters, .mb, .msix, .gauge]

/-- With no snapshot open, a ticket that finishes writes its record to memory and ends. -/
theorem finish_ends (hopened : Opened s u c n) (honly : OnlyIn copyParts s u) (hclosed : s.hrv ≠ 2) (d status len : Nat) :
    Ended s (u.finish n c d status len) c n status ∧ OnlyIn copyParts s (u.finish n c d status len) ∧
      (u.finish n c d status len).mem = (u.wr (d / 64 * 64) (recordBytes s c n status len)).mem := by
  have hhrv : u.hrv ≠ 2 := by rwa [State.hrv, State.hf_of_hub (honly .hub (by decide))]
  have hsundial : u.sundial = s.sundial := honly .sundial (by decide)
  have hfinish : u.finish n c d status len = (u.wr (d / 64 * 64) (recordBytes s c n status len)).endTicket n status := by
    rw [State.finish, State.completion, State.wrS_unstaged hhrv, hsundial]; rfl
  rw [hfinish]
  refine ⟨(hopened.of_mb ((u.wr_onlyIn _ _) .mb (by simp))).endTicket status, ?_, State.endTicket_mem _ _ _⟩
  exact honly.trans (((u.wr_onlyIn _ _).mono (by simp [copyParts])).trans ((State.endTicket_onlyIn _ _ _).mono (by simp [copyParts])))

end

/-- With no snapshot open, a command whose whole work is to write bytes to memory does so, then writes its record and ends. -/
theorem report_runs {i : Instr} {s : State} {op n a d len : Nat} {c : Cmd} {data : List Byte} {refuse : Cmd → State → Option Nat}
    {go : Cmd → Nat → State → State} (hw : Waits s op c) (ht : Tickets s op n) (hclosed : s.hrv ≠ 2)
    (hexec : exec i s = s.long op refuse go) (hrefuse : refuse c (popped s) = none)
    (hgo : ∀ m x w, go c n (s.answeredWith m x w) = ((s.answeredWith m x w).wrS a data).finish n c d St.OK len) :
    Runs i s fun t => Ended s t c n St.OK ∧ t.mem = ((s.wr a data).wr (d / 64 * 64) (recordBytes s c n St.OK len)).mem ∧
      OnlyIn copyParts s t := by
  obtain ⟨m, x, w, hopened, hlong⟩ := long_answers (go := go) hw ht hrefuse
  have hwr : (s.answeredWith m x w).wrS a data = (s.answeredWith m x w).wr a data :=
    State.wrS_unstaged (s := s.answeredWith m x w) hclosed a data
  rw [hgo, hwr] at hlong
  have honly : OnlyIn copyParts s ((s.answeredWith m x w).wr a data) :=
    ((s.answeredWith_onlyIn m x w).mono (by simp [copyParts])).trans ((State.wr_onlyIn _ _ _).mono (by simp [copyParts]))
  obtain ⟨hended, hparts, hmem⟩ := finish_ends (hopened.of_mb (((s.answeredWith m x w).wr_onlyIn a data) .mb (by simp))) honly hclosed d St.OK len
  exact ⟨_, hexec.trans hlong, hended, hmem.trans (State.wr_mem_congr (State.wr_mem_congr (s.answeredWith_mem m x w) a data) _ _), hparts⟩

/-! ### Reports (R328, R335) -/

section
variable {s : State} {c : Cmd} {n : Nat}

theorem spareBytes_answeredWith (m : Mailbox) (x : List (Nat × Nat)) (w : Window) : (s.answeredWith m x w).spareBytes = s.spareBytes := by
  have hspmap (ci : Nat) : (s.answeredWith m x w).spmap ci = s.spmap ci := rfl
  have hh (r : Reg) (i : Nat) : (s.answeredWith m x w).h r i = s.h r i := rfl
  have hrel : (s.answeredWith m x w).rel = s.rel := rfl
  simp only [State.spareBytes, hspmap, hh, hrel]

/-- SPARE_READ of the spare report (R363). -/
theorem spareRead_runs (hw : Waits s 0xD054 c) (ht : Tickets s 0xD054 n) (hclosed : s.hrv ≠ 2) : Runs .spareRead s fun t =>
    Ended s t c n St.OK ∧
      t.mem = ((s.wr (c.field 0 8) s.spareBytes).wr (c.field 8 8 / 64 * 64) (recordBytes s c n St.OK 20596)).mem ∧ OnlyIn copyParts s t := by
  refine report_runs hw ht hclosed (by show execSpareRead s = _; rfl) (by rfl) fun m x w => ?_
  simp only [spareBytes_answeredWith]

/-- RGA_READ of ring slots or of one page of the clear log (R372). -/
theorem rgaRead_runs (hw : Waits s 0xD060 c) (ht : Tickets s 0xD060 n) (hclosed : s.hrv ≠ 2) (hsome : 0 < c.field 2 2) (hmax : c.field 2 2 ≤ 8192)
    (hfirst : c.field 0 2 < 8192 ∨ (c.field 2 2 = 1 ∧ 0x8000 ≤ c.field 0 2 ∧ c.field 0 2 < 0x8008)) :
    Runs .rgaRead s fun t => Ended s t c n St.OK ∧
      t.mem = ((s.wr (c.field 4 8) (if 0x8000 ≤ c.field 0 2 then s.gauge.clearPage (c.field 0 2 - 0x8000)
        else ((List.range (c.field 2 2)).map fun k => s.gauge.readSlot (c.field 0 2 + k)).flatten)).wr (c.field 12 8 / 64 * 64)
          (recordBytes s c n St.OK (8192 * c.field 2 2))).mem ∧ OnlyIn copyParts s t := by
  refine report_runs hw ht hclosed (by show execRgaRead s = _; rfl) ?_ ?_
  · rcases hfirst with hring | ⟨hone, hlo, hhi⟩
    · simp [refuseIf, show ¬0x8000 ≤ c.field 0 2 by omega]; omega
    · simp [refuseIf, hone, hlo, hhi]
  · exact fun _ _ _ => rfl

/-! ### COPY_SRAM (R335) -/

/-- One entry of COPY_SRAM's manifest, and the bytes written so far. -/
def copyEntry (m : Nat) (a : State × Nat) (i : Nat) : State × Nat :=
  let e := a.1.rdN (m + 24 * i) 24
  (a.1.wrS (bits e 64 64) (a.1.rd (bits e 0 64) (bits e 128 32)), a.2 + bits e 128 32)

/-- The copies of a manifest, and the bytes written. -/
def copies (c : Cmd) (s : State) : State × Nat := (List.range (c.field 8 4)).foldl (copyEntry (c.field 0 8)) (s, 0)

theorem copySram_long (s : State) : exec (.copySram []) s =
    s.long 0xD021 (fun _ _ => none) fun c n s => (copies c s).1.finish n c (c.field 12 8) St.OK (copies c s).2 := rfl

/-- With no snapshot open, the entries of a manifest change memory alone. -/
theorem copies_onlyIn (hclosed : s.hrv ≠ 2) : OnlyIn [.mem, .flaws, .cores, .clusters] s (copies c s).1 := by
  refine List.foldlRecOn (motive := fun a : State × Nat => OnlyIn [.mem, .flaws, .cores, .clusters] s a.1) _ _ (fun p _ => p.same_refl s) fun a ha i _ => ?_
  have hhrv : a.1.hrv ≠ 2 := by rwa [State.hrv, State.hf_of_hub (ha .hub (by simp))]
  simp only [copyEntry, State.wrS_unstaged hhrv]
  exact ha.trans (State.wr_onlyIn _ _ _)

theorem copies_of_one (hone : c.field 8 4 = 1) (hclosed : s.hrv ≠ 2) : copies c s =
    let e := s.rdN (c.field 0 8) 24
    (s.wr (bits e 64 64) (s.rd (bits e 0 64) (bits e 128 32)), bits e 128 32) := by
  simp only [copies, hone, List.range_one, List.foldl_cons, List.foldl_nil, copyEntry, State.wrS_unstaged hclosed, Nat.mul_zero, Nat.add_zero, Nat.zero_add]

/-- COPY_SRAM makes its manifest's copies, and then its record of the bytes written (R335). -/
theorem copySram_runs (hw : Waits s 0xD021 c) (ht : Tickets s 0xD021 n) (hclosed : s.hrv ≠ 2) : Runs (.copySram []) s fun t =>
    Ended s t c n St.OK ∧ OnlyIn copyParts s t ∧
      (c.field 8 4 = 1 → let e := s.rdN (c.field 0 8) 24
        t.mem = ((s.wr (bits e 64 64) (s.rd (bits e 0 64) (bits e 128 32))).wr (c.field 12 8 / 64 * 64) (recordBytes s c n St.OK (bits e 128 32))).mem) := by
  obtain ⟨m, x, w, hopened, hlong⟩ := long_answers (refuse := fun _ _ => none)
    (go := fun c n s => (copies c s).1.finish n c (c.field 12 8) St.OK (copies c s).2) hw ht rfl
  have hcopied : OnlyIn _ _ (copies c (s.answeredWith m x w)).1 := copies_onlyIn hclosed
  have honly := ((s.answeredWith_onlyIn m x w).mono (by simp [copyParts])).trans (hcopied.mono (qs := copyParts) (by simp [copyParts]))
  obtain ⟨hended, hparts, hmem⟩ := finish_ends (hopened.of_mb (hcopied .mb (by simp))) honly hclosed (c.field 12 8) St.OK
    (copies c (s.answeredWith m x w)).2
  refine ⟨_, (copySram_long s).trans hlong, hended, hparts, fun hone => hmem.trans ?_⟩
  rw [copies_of_one (s := s.answeredWith m x w) hone hclosed]
  exact State.wr_mem_congr (State.wr_mem_congr (s.answeredWith_mem m x w) _ _) _ _

/-! ### Writes of tables, and v1 messages -/

/-- A command whose whole work leaves the mailbox alone opens its ticket, works from its state answered and ends. -/
theorem work_runs {i : Instr} {op : Nat} {ps : List Part} {refuse : Cmd → State → Option Nat} {work : Cmd → State → State} (hw : Waits s op c)
    (ht : Tickets s op n) (hexec : exec i s = s.long op refuse fun c n u => (work c u).endTicket n St.OK) (hrefuse : refuse c (popped s) = none)
    (hwork : ∀ u, OnlyIn ps u (work c u)) (hmb : .mb ∉ ps) :
    Runs i s fun t => Ended s t c n St.OK ∧ OnlyIn (ps ++ [.mb, .msix, .gauge]) s t ∧ ∃ m x w, OnlyIn [.mb, .msix] (work c (s.answeredWith m x w)) t := by
  obtain ⟨m, x, w, hopened, hlong⟩ := long_answers (go := fun c n u => (work c u).endTicket n St.OK) hw ht hrefuse
  have hworked := hwork (s.answeredWith m x w)
  have hended := (work c (s.answeredWith m x w)).endTicket_onlyIn n St.OK
  refine ⟨_, hexec.trans hlong, (hopened.of_mb (hworked .mb hmb)).endTicket St.OK, ?_, m, x, w, hended⟩
  exact ((s.answeredWith_onlyIn m x w).mono (by simp)).trans ((hworked.mono (by simp)).trans (hended.mono (by simp)))

theorem layerWrite_long (s : State) : exec (.layerWrite []) s =
    s.long 0xD022 (fun c s => s.layerRefusal c) fun c n s => (s.loadLayers c).endTicket n St.OK := rfl

/-- LAYER_WRITE loads the entries it names, during a job for the next boundary (R199). -/
theorem layerWrite_runs (hw : Waits s 0xD022 c) (ht : Tickets s 0xD022 n) (hok : s.layerRefusal c = none) : Runs (.layerWrite []) s fun t =>
    Ended s t c n St.OK ∧ OnlyIn [.layers, .layersNext, .mb, .msix, .gauge] s t ∧
      (s.step.job = false → ∀ j, t.layer j = if c.field 0 2 ≤ j ∧ j < c.field 0 2 + c.field 2 2
        then keptRule (Sparse.get (fun _ => 0) (overlay s.layers s.layersNext) j) (s.rdN (c.field 4 8 + 64 * (j - c.field 0 2)) 64 &&& layerBits)
        else s.layer j) ∧
      (s.step.job = true → t.layers = s.layers ∧ ∀ j, j < c.field 2 2 →
        (c.field 0 2 + j, keptRule (Sparse.get (fun _ => 0) (overlay s.layers s.layersNext) (c.field 0 2 + j))
          (s.rdN (c.field 4 8 + 64 * j) 64 &&& layerBits)) ∈ t.layersNext) := by
  obtain ⟨t, hexec, hended, honly, m, x, w, hlast⟩ := work_runs (work := State.loadLayers) hw ht (layerWrite_long s) hok
    (State.loadLayers_onlyIn c) (by simp)
  refine ⟨t, hexec, hended, honly, fun hjob j => ?_, fun hjob => ?_⟩
  · rw [State.layer, hlast .layers (by simp)]
    exact State.layer_loadLayers (s := s.answeredWith m x w) c hjob j
  · rw [hlast .layers (by simp), hlast .layersNext (by simp)]
    exact State.loadLayers_waits (s := s.answeredWith m x w) c hjob

theorem factorWrite_long (s : State) : exec (.factorWrite []) s =
    s.long 0xD024 (fun c s => if 1024 < c.field 0 2 + c.field 2 2 then some St.INVALID_PAYLOAD else refuseIf s.step.job St.BUSY_JOB)
      fun c n s => (s.loadFactors c).endTicket n St.OK := rfl

/-- FACTOR_WRITE sets the buffers of the entries it names, with an empty fold (R201, R238). -/
theorem factorWrite_runs (hw : Waits s 0xD024 c) (ht : Tickets s 0xD024 n) (hfit : c.field 0 2 + c.field 2 2 ≤ 1024) (hjob : s.step.job = false) :
    Runs (.factorWrite []) s fun t => Ended s t c n St.OK ∧ OnlyIn [.factors, .mb, .msix, .gauge] s t ∧ ∀ j, t.factor j =
      if c.field 0 2 ≤ j ∧ j < c.field 0 2 + c.field 2 2 then loadedFactor (s.factor j) (s.rdN (c.field 4 8 + 64 * (j - c.field 0 2)) 64)
      else s.factor j := by
  obtain ⟨t, hexec, hended, honly, m, x, w, hlast⟩ := work_runs (work := State.loadFactors) hw ht (factorWrite_long s)
    (by rw [if_neg (by omega), show (popped s).step.job = false from hjob]; rfl) (State.loadFactors_onlyIn c) (by simp)
  refine ⟨t, hexec, hended, honly, fun j => ?_⟩
  rw [State.factor, hlast .factors (by simp)]
  exact State.factor_loadFactors c _ j

/-- Why V1_SEND is refused: its port carries no v1 messages now, or its length is not one of a message (R302). -/
def v1Refusal (c : Cmd) (s : State) : Option Nat :=
  refuseIf (decide (4 ≤ c.field 0 1) || !(s.port (c.field 0 1)).v1 || (s.pstate (c.field 0 1) != 2 && s.pstate (c.field 0 1) != 4) ||
    c.field 4 4 == 0 || decide (4096 < c.field 4 4)) St.INVALID_PAYLOAD

theorem v1Refusal_eq_none (hp : c.field 0 1 < 4) (hv1 : (s.port (c.field 0 1)).v1 = true) (hup : s.pstate (c.field 0 1) = 2 ∨ s.pstate (c.field 0 1) = 4)
    (hsome : 0 < c.field 4 4) (hmax : c.field 4 4 ≤ 4096) : v1Refusal c s = none := by
  simp [v1Refusal, refuseIf, hv1]
  omega

/-- V1_SEND's frame, sent. -/
def v1Sent (c : Cmd) (s : State) : State :=
  s.transmit (c.field 0 1) ⟨s.myX, s.myY, s.myX, s.myY, s.jobTag, 1, .v1msg (s.rd (c.field 8 8) (c.field 4 4))⟩

theorem v1Send_long (s : State) : exec (.v1Send []) s = s.long 0xD045 v1Refusal fun c n s => (v1Sent c s).endTicket n St.OK := rfl

/-- V1_SEND's frame leaves on its v1 port, from the memory it names (R302). -/
theorem v1Send_runs (hw : Waits s 0xD045 c) (ht : Tickets s 0xD045 n) (hp : c.field 0 1 < 4) (hv1 : (s.port (c.field 0 1)).v1 = true)
    (hup : s.pstate (c.field 0 1) = 2 ∨ s.pstate (c.field 0 1) = 4) (hsome : 0 < c.field 4 4) (hmax : c.field 4 4 ≤ 4096)
    (hports : s.links.ports.length = 4) : Runs (.v1Send []) s fun t =>
      Ended s t c n St.OK ∧ OnlyIn [.links, .mb, .msix, .gauge] s t ∧
        (t.port (c.field 0 1)).retry = (s.port (c.field 0 1)).retry ++
          [⟨(s.port (c.field 0 1)).tx, ⟨s.myX, s.myY, s.myX, s.myY, s.jobTag, 1, .v1msg (s.rd (c.field 8 8) (c.field 4 4))⟩, 0⟩] := by
  obtain ⟨t, hexec, hended, honly, m, x, w, hlast⟩ := work_runs (work := v1Sent) hw ht (v1Send_long s)
    (v1Refusal_eq_none (s := popped s) hp hv1 hup hsome hmax) (fun u => u.transmit_onlyIn _ _) (by simp)
  refine ⟨t, hexec, hended, honly, ?_⟩
  rw [State.port, hlast .links (by simp)]
  exact congrArg Port.retry (State.port_setPort_same _ (hports ▸ hp))

end

/-- Settles O33: the reports, COPY_SRAM, LAYER_WRITE, FACTOR_WRITE, V1_SEND, and the commands that find no ticket. -/
theorem tablesAreCopied : Obligations.TablesAreCopied := by
  refine ⟨fun s i op n a d len c data hw ht hclosed hread => ?_, fun s n c => copySram_runs, fun s n c => layerWrite_runs,
    fun s n c hw ht hfit hjob => ?_, fun s n c => v1Send_runs, fun s c i op hi hw hbusy hfree hfit => ?_⟩
  · rcases hread with ⟨rfl, rfl, hfit, rfl, rfl, rfl, rfl⟩ | ⟨rfl, rfl, hfit, rfl, rfl, rfl, rfl⟩ | ⟨rfl, rfl, rfl, rfl, rfl, rfl⟩ |
      ⟨rfl, rfl, rfl, rfl, rfl, rfl⟩ | ⟨rfl, rfl, rfl, rfl, hlen, hdata⟩ | ⟨rfl, rfl, hsome, hmax, hring, rfl, rfl, rfl, rfl⟩ |
      ⟨rfl, rfl, hone, hlo, hhi, rfl, rfl, hlen, hdata⟩
    · exact report_runs hw ht hclosed (by show execLayerRead s = _; rfl) (by simp [refuseIf, hfit]) (by exact fun _ _ _ => rfl)
    · exact report_runs hw ht hclosed (by show execFactorRead s = _; rfl) (by simp [refuseIf, hfit]) (by exact fun _ _ _ => rfl)
    · exact report_runs hw ht hclosed (by show execDiscoveryRead s = _; rfl) (by rfl) (by exact fun _ _ _ => rfl)
    · exact report_runs hw ht hclosed (by show execPlanRead s = _; rfl) (by rfl) (by exact fun _ _ _ => rfl)
    · rw [hlen, hdata]
      exact spareRead_runs hw ht hclosed
    · have hruns := rgaRead_runs hw ht hclosed hsome hmax (.inl hring)
      rwa [if_neg (by omega)] at hruns
    · have hruns := rgaRead_runs hw ht hclosed (by omega) (by omega) (.inr ⟨hone, hlo, hhi⟩)
      rwa [if_pos hlo, hone, Nat.mul_one, ← hdata, ← hlen] at hruns
  · obtain ⟨t, hexec, hended, honly, hfactor⟩ := factorWrite_runs hw ht hfit hjob
    refine ⟨t, hexec, hended, honly, fun j hj => ?_, fun j hj => ?_⟩
    · rw [hfactor, if_neg (by omega)]
    · rw [hfactor, if_pos (by omega), Nat.add_sub_cancel_left]
      exact loadedFactor_fields _ _
  · simp only [List.mem_cons, List.not_mem_nil, or_false, Prod.mk.injEq] at hi
    rcases hi with ⟨rfl, rfl⟩ | ⟨rfl, rfl⟩ | ⟨rfl, rfl⟩ | ⟨rfl, rfl⟩ | ⟨rfl, rfl⟩
    · exact long_exhausted (by show execLayerRead s = _; rfl) hw (by simp [refuseIf, hfit rfl]) hbusy hfree
    · exact long_exhausted (by show execSpareRead s = _; rfl) hw (by rfl) hbusy hfree
    · exact long_exhausted (by show execDiscoveryRead s = _; rfl) hw (by rfl) hbusy hfree
    · exact long_exhausted (by show execPlanRead s = _; rfl) hw (by rfl) hbusy hfree
    · exact long_exhausted (copySram_long s) hw rfl hbusy hfree

end Sys2Proof.Claims
end

section
/-! The exchange of a statistics step and the fold of its tiles (O28). -/

namespace Sys2Proof.Machine

section
variable {s : State} {r : Reg} {i : Nat}

/-! ### Frames leave the hub registers, FAC_STAT apart -/

theorem State.h_route (s : State) (f : Frame) (h : r.offset i ≠ Reg.offset .FAC_STAT 0) : (s.route f).h r i = s.h r i := by
  unfold State.route
  split
  · rfl
  · rfl
  · split
    · exact State.h_event _ _ _ _ _ _ _ h
    · rfl

theorem State.h_sendNext (s : State) (axis plus : Bool) (c : CollMsg) (h : r.offset i ≠ Reg.offset .FAC_STAT 0) :
    (s.sendNext axis plus c).h r i = s.h r i := by
  unfold State.sendNext
  extract_lets p me dst q
  split
  · exact State.h_route s _ h
  · rfl

theorem State.h_smallSend (s : State) (c : CollMsg) (a : Small) (h : r.offset i ≠ Reg.offset .FAC_STAT 0) :
    (s.smallSend c a).h r i = s.h r i :=
  List.foldlRecOn (motive := fun t => t.h r i = s.h r i) a.out _ rfl fun t ht _ _ => (State.h_sendNext t _ _ _ h).trans ht

end

/-! ### The all-reduce of the scans (R207) -/

section
variable {s : State} {x : Exchange} {m : Nat}

/-- In a group of more than one no module has the result of a small all-reduce at its start (R284). -/
theorem smallStart_unfinished {xl yl : Nat} (h : 1 < xl ∨ 1 < yl) (a b : Nat) (own : List Nat) : (smallStart xl yl a b own).done = none := by
  unfold smallStart
  split
  · unfold smallRow
    rw [if_neg (by omega)]
    split <;> rfl
  · split <;> rfl

/-- While the group's scans are not here, the exchange stays as it is. -/
theorem State.scanStep_unfinished {a : Small} (h : a.done = none) : (s.scanStep x a).step = s.step ∧ (s.scanStep x a).coll.held = s.coll.held ∧
    (s.scanStep x a).hf .STEP_STATSTS 0 0 1 = s.hf .STEP_STATSTS 0 0 1 := by
  unfold State.scanStep
  extract_lets sent coll kept
  have hstep : sent.step = s.step := (same_smallSend (p := .step) (by simp)).2 rfl
  have hcoll : sent.coll = s.coll := (same_smallSend (p := .coll) (by simp)).2 rfl
  have hbusy : sent.h .STEP_STATSTS 0 = s.h .STEP_STATSTS 0 := State.h_smallSend s _ a (by decide)
  have hkept : kept.step = sent.step ∧ kept.coll.held = sent.coll.held ∧ kept.h .STEP_STATSTS 0 = sent.h .STEP_STATSTS 0 := by
    unfold kept
    split <;> exact ⟨rfl, rfl, rfl⟩
  obtain ⟨hkstep, hkheld, hkbusy⟩ := hkept
  rw [h]
  exact ⟨hkstep.trans hstep, hkheld.trans (congrArg Coll.held hcoll), congrArg (bits · 0 1) (hkbusy.trans hbusy)⟩

/-! ### The exchange begins (R206) -/

/-- The exchange of statistics step `m` as it begins: this module's scans, and nothing of the group's. -/
def State.newExchange (s : State) (m : Nat) : Exchange :=
  ⟨m, (s.step.statK + 255) % 256, s.coll.gReplays, s.exchBlocks.map (s.scanBlock ((s.step.statK + 255) % 256)), none, [], [], [], none⟩

/-- The state in which the exchange of step `m` is in progress and BUSY is set. -/
def State.exchOpened (s : State) (m : Nat) : State :=
  { s with step := { s.step with due := none, exch := some (s.newExchange m) } }.setHf .STEP_STATSTS 0 0 1 1

theorem State.exchBegin_eq (s : State) (m : Nat) : s.exchBegin m =
    if (s.newExchange m).scans.isEmpty then (s.exchOpened m).foldDone { s.newExchange m with group := some [] }
    else (s.exchOpened m).scanStep (s.newExchange m) (smallStart ((s.exchOpened m).ring false) ((s.exchOpened m).ring true) (s.exchOpened m).myCol
      (s.exchOpened m).myRow (packScans (s.newExchange m).scans)) := rfl

theorem State.busy_exchOpened : (s.exchOpened m).hf .STEP_STATSTS 0 0 1 = 1 := State.hf_setHf_same _ _ _ _ _ _ (by omega)

/-- The beginning of an exchange moves neither the trained links nor the grid. -/
theorem State.ring_exchOpened (axis : Bool) : (s.exchOpened m).ring axis = s.ring axis := by
  have hgrid (lo w : Nat) : (s.exchOpened m).hf .LNK_GRID 0 lo w = s.hf .LNK_GRID 0 lo w := State.hf_setHf_other _ _ _ _ _ _ _ _ _ _ (by decide)
  have hport (p : Nat) : (s.exchOpened m).pstate p = s.pstate p :=
    State.hf_setHf_other _ _ _ _ _ _ _ _ _ _ (by simp only [Reg.offset, Reg.info]; omega)
  have hsolo : (s.exchOpened m).solo = s.solo := by
    unfold State.solo State.unlinked
    simp only [hport]
    rfl
  simp only [State.ring, State.xl, State.yl, hsolo, hgrid]

theorem State.exchReady_of (hexch : s.step.exch = none) (hfolded : s.step.folded = none) (hgather : s.gatherDone = true)
    (hlater : s.sharded = true ∨ m < s.stepNo) : s.exchReady m = true := by
  simp [State.exchReady, hexch, hfolded, hgather, hlater]

/-! ### Folded tiles (R208, R211) -/

/-- An exchange whose group has no block has nothing to fold. -/
theorem Exchange.complete_of_no_block (h : x.group = some []) : x.complete = true := by
  simp [Exchange.complete, h]

theorem State.foldDone_complete (h : x.complete = true) :
    s.foldDone x = { s with step := { s.step with exch := none, folded := some x } }.setHf .STEP_STATSTS 0 0 1 0 := if_pos h

/-- The record of a fold is in progress, or complete and awaiting publication. -/
theorem State.foldDone_records : (s.foldDone x).step.exch = some x ∨ (s.foldDone x).step.folded = some x := by
  unfold State.foldDone
  split
  · exact .inr rfl
  · exact .inl rfl

/-- A fold that goes on waits no longer; its record changes in nothing else. -/
theorem State.foldWait_exchange : (s.foldWait x).2 = { x with wait := none } := by
  obtain ⟨step, k, replays, scans, group, sums, done, dropped, wait⟩ := x
  cases wait <;> rfl

end

end Sys2Proof.Machine

namespace Sys2Proof.Claims
open Machine

section
variable {s : State} {m fidx side blk k i l : Nat} {x : Exchange} {g : List Scan} {c : Scan}

theorem factorExchange_gives (hdue : s.step.due = some m) (hready : s.exchReady m = true) (hheld : (s.exchBegin m).coll.held = []) :
    Gives (.factorExchange []) s (s.exchBegin m) := by
  show execFactorExchange [] s = _
  simp only [execFactorExchange, State.hbmRun, List.isEmpty_nil, if_true, hdue, hready, State.settleColl_of_held hheld]

/-- With no block to exchange the exchange is complete at once. -/
theorem exchBegin_no_block (hnone : s.exchBlocks = []) : ∃ y : Exchange, y.step = m ∧
    s.exchBegin m = { s.exchOpened m with step := { s.step with due := none, exch := none, folded := some y } }.setHf .STEP_STATSTS 0 0 1 0 := by
  have hscans : (s.newExchange m).scans.isEmpty = true := by simp [State.newExchange, hnone]
  refine ⟨{ s.newExchange m with group := some [] }, rfl, ?_⟩
  rw [State.exchBegin_eq, if_pos hscans, State.foldDone_complete (Exchange.complete_of_no_block rfl)]
  rfl

/-- With blocks to exchange, in a group of more than one, the exchange waits for the group's scans. -/
theorem exchBegin_blocks (hsome : s.exchBlocks ≠ []) (hgroup : 1 < s.ring false ∨ 1 < s.ring true) :
    (s.exchBegin m).step = (s.exchOpened m).step ∧ (s.exchBegin m).coll.held = s.coll.held ∧ (s.exchBegin m).hf .STEP_STATSTS 0 0 1 = 1 := by
  have hscans : ¬ (s.newExchange m).scans.isEmpty = true := by simp [State.newExchange, hsome]
  rw [State.exchBegin_eq, if_neg hscans, State.ring_exchOpened, State.ring_exchOpened]
  obtain ⟨hstep, hheld, hbusy⟩ := State.scanStep_unfinished (s := s.exchOpened m) (x := s.newExchange m)
    (smallStart_unfinished hgroup (s.exchOpened m).myCol (s.exchOpened m).myRow (packScans (s.newExchange m).scans))
  exact ⟨hstep, hheld, hbusy.trans State.busy_exchOpened⟩

section
variable (hexch : s.step.exch = some x) (hgroup : x.group = some g) (hlayer : s.privLayer fidx = some (i, l))
  (hscan : (g.find? fun c => c.fidx == fidx && c.side == side && c.blk == blk) = some c) (htodo : (fidx, side, blk, k) ∉ x.done)
include hexch hgroup hlayer hscan htodo

/-- A tile that is due, its block discarded or its sum arrived, waits while a running job reads the buffer (R211); otherwise it is folded, or its
block copied when it is discarded or the sum has saturated (R208), and either is recorded and ends the wait. -/
theorem foldTile_acts (hdue : (fidx, side, blk) ∈ x.dropped ∨ ∃ e ∈ x.sums, e.1 = fidx ∧ e.2.1 = side ∧ e.2.2.1 = blk ∧ e.2.2.2.1 = k) :
    (s.foldBlocked fidx side = true → Gives (.factorFoldTile fidx side blk k []) s
      { s with step := { s.step with exch := some { x with wait := some (x.wait.getD s.sundial) } } }) ∧
    (s.foldBlocked fidx side = false → k < (upperTiles c.maxima.length).length →
      ∃ (u : State) (y : Exchange), Gives (.factorFoldTile fidx side blk k []) s (u.foldDone y) ∧ (fidx, side, blk, k) ∈ y.done ∧ y.wait = none) := by
  have hfound : (fidx, side, blk) ∈ x.dropped ∨
      (x.sums.find? fun e => e.1 == fidx && e.2.1 == side && e.2.2.1 == blk && e.2.2.2.1 == k) ≠ none :=
    hdue.imp_right fun h => by simpa [and_assoc] using h
  show (_ → execFactorFoldTile fidx side blk k [] s = _) ∧ (_ → _ → ∃ u y, execFactorFoldTile fidx side blk k [] s = _ ∧ _)
  simp only [execFactorFoldTile, State.hbmRun, List.isEmpty_nil, if_true, hexch, hgroup, hlayer, hscan]
  generalize (x.sums.find? fun e => e.1 == fidx && e.2.1 == side && e.2.2.1 == blk && e.2.2.2.1 == k) = sum at hfound ⊢
  rw [if_neg (by rcases hfound with h | h <;> simp [htodo, h])]
  refine ⟨fun hblocked => if_pos hblocked, fun hfree hk => ?_⟩
  rw [if_neg (by simp [hfree])]
  -- With or without a sum, a block copied and a tile folded both end in `foldDone`.
  split <;> split <;> exact ⟨_, _, rfl, by simp [hk], by simp [State.foldWait_exchange]⟩

end

end

/-- Settles O28: the exchange begins from the lemmas about `exchBegin`, and a tile that is due waits or is recorded (`foldTile_acts`). -/
theorem factorsAreExchanged : Obligations.FactorsAreExchanged := by
  refine ⟨fun s m hdue hexch hfolded hgather hlater hnone hheld => ?_, fun s m hdue hexch hfolded hgather hlater hsome hgroup hheld => ?_,
    fun s fidx side blk k i l x g c hexch hgroup hlayer hscan htodo hdropped hblocked => ?_,
    fun s fidx side blk k i l x g c hexch hgroup hlayer hscan htodo _ hfree hk hsum => ?_⟩
  · obtain ⟨y, hy, hbegun⟩ := exchBegin_no_block (m := m) hnone
    have hgives := factorExchange_gives hdue (State.exchReady_of hexch hfolded hgather hlater) (by rw [hbegun]; exact hheld)
    rw [hbegun] at hgives
    refine ⟨_, hgives, rfl, rfl, congrArg some hy, State.hf_setHf_same _ _ _ _ _ _ (by omega), fun p hp => ?_⟩
    have houtside : p.outside [.step, .hub] := hp
    simp at houtside
    simp [State.exchOpened, houtside]
  · obtain ⟨hstep, hkept, hbusy⟩ := exchBegin_blocks (m := m) hsome hgroup
    have hgives := factorExchange_gives hdue (State.exchReady_of hexch hfolded hgather hlater) (hkept.trans hheld)
    exact ⟨_, hgives, by rw [hstep]; rfl, hbusy, s.newExchange m, by rw [hstep]; rfl, rfl, rfl, rfl⟩
  · obtain ⟨hwaits, -⟩ := foldTile_acts hexch hgroup hlayer hscan htodo (.inl hdropped)
    refine ⟨_, hwaits hblocked, rfl, fun p hp => ?_⟩
    have houtside : p.outside [.step] := hp
    simp at houtside
    simp [houtside]
  · obtain ⟨-, hrecords⟩ := foldTile_acts hexch hgroup hlayer hscan htodo (.inr hsum)
    obtain ⟨u, y, hgives, hdone, hwait⟩ := hrecords hfree hk
    exact ⟨_, hgives, y, State.foldDone_records, hdone, hwait⟩

end Sys2Proof.Claims
end

section
/-! The state after reset (O58). -/

namespace Sys2Proof.Machine

theorem State.reset_inv : State.reset.Inv := ⟨reset_memory_wf, by decide, by decide⟩

/-- Ngumal and compute are ready, and nothing runs, waits or is latched (R329, R384). -/
theorem State.reset_idle : State.reset.rst.ready = true ∧ State.reset.rst.compute = true ∧ State.reset.rst.reach = none ∧
    State.reset.step.job = false ∧ State.reset.mem = [] ∧ State.reset.lcs = 0 ∧ State.reset.pending = [] := by
  decide

theorem State.core_reset (gi : Nat) : State.reset.core gi = Core.init := rfl

theorem Core.init_idle : Core.init.state = 0 := by decide

/-- The hub registers hold the reset values of their descriptions. -/
theorem State.reset_registers : State.reset.h .PWR_CAP 0 = 13500 ∧ State.reset.h .RST_WDOG 0 = 1000 ∧ State.reset.h .SIV_CEIL 0 = 0x7F800000 ∧
    State.reset.h .SIV_CLIPN 0 = 0x7F800000 ∧ State.reset.h .SIV_SPIKE 0 = 0x7F800000 ∧ State.reset.h .LNK_GRID 0 = 129 ∧
    State.reset.h .RGA_CFG 0 = 1 ∧ State.reset.h .TRL_SCRUB 0 = 280 := by
  decide +kernel

/-- No port has a retired lane (R293). -/
theorem State.reset_laneMaps : ∀ p, p < 4 → State.reset.h .LNK_LANEMAP p = 4 := by decide +kernel

theorem State.reset_hyperparameters : ∀ i, i < 128 → State.reset.h .UPD_HPS i = 0 := by decide +kernel

end Sys2Proof.Machine

namespace Sys2Proof.Claims
open Machine

/-- Settles O58: the invariant, the idle module, and the registers, each by its value in `State.reset`. -/
theorem resetMeetsTheInvariant : Obligations.ResetMeetsTheInvariant := by
  obtain ⟨hready, hcompute, hreach, hjob, hmem, hlcs, hpending⟩ := State.reset_idle
  obtain ⟨hcap, hwdog, hceil, hclip, hspike, hgrid, hgauge, hscrub⟩ := State.reset_registers
  exact ⟨State.reset_inv, hready, hcompute, hreach, hjob, hmem, hlcs, hpending, State.core_reset, Core.init_idle, hcap, hwdog, hceil, hclip, hspike,
    hgrid, hgauge, hscrub, State.reset_laneMaps, State.reset_hyperparameters⟩

end Sys2Proof.Claims
end

section
/-! The slots of a Grafter and the jobs in them (R213-R239): what starting, stopping and working leave of a Grafter, of a slot and of its job. -/

namespace Sys2Proof.Machine

section
variable {s t u : State} {k i : Nat} {j : GJob}

/-! ### One Grafter of the state -/

theorem State.grafter_setGrafter (s : State) (g : Grafter) (hk : k < s.grafters.length) : (s.setGrafter k g).grafter k = g := by
  simp [State.setGrafter, State.grafter, hk]

theorem State.setGrafter_onlyIn (s : State) (k : Nat) (g : Grafter) : OnlyIn [.grafters] s (s.setGrafter k g) :=
  fun p hp => (same_setGrafter hp).2 (p.same_refl s)

theorem State.setJob_onlyIn (s : State) (k i : Nat) (j : Option GJob) : OnlyIn [.grafters] s (s.setJob k i j) := s.setGrafter_onlyIn k _

theorem State.job_setJob_other {n : Nat} (h : n ≠ i) (j : Option GJob) : (s.setJob k i j).job k n = s.job k n := by
  by_cases hk : k < s.grafters.length
  · rw [State.job, State.setJob, State.grafter_setGrafter s _ hk]
    simp [State.job, h.symm]
  · simp [State.setJob, State.setGrafter, State.job, State.grafter, hk]

/-- Work on the jobs of Grafter `k` leaves its queue, its regions and the number of its slots (R213-R215). -/
structure GrafterKept (k : Nat) (s t : State) : Prop where
  queue : (t.grafter k).queue = (s.grafter k).queue
  rgn : (t.grafter k).rgn = (s.grafter k).rgn
  slots : (t.grafter k).slots.length = (s.grafter k).slots.length
  count : t.grafters.length = s.grafters.length

namespace GrafterKept

theorem refl (s : State) : GrafterKept k s s := ⟨rfl, rfl, rfl, rfl⟩

theorem trans (hst : GrafterKept k s t) (htu : GrafterKept k t u) : GrafterKept k s u :=
  ⟨htu.queue.trans hst.queue, htu.rgn.trans hst.rgn, htu.slots.trans hst.slots, htu.count.trans hst.count⟩

theorem of_grafters (h : t.grafters = s.grafters) : GrafterKept k s t := by
  have hg : t.grafter k = s.grafter k := by rw [State.grafter, h, State.grafter]
  exact ⟨by rw [hg], by rw [hg], by rw [hg], by rw [h]⟩

theorem ite {c : Prop} [Decidable c] (ht : GrafterKept k s t) (hu : GrafterKept k s u) : GrafterKept k s (if c then t else u) := by
  split
  · exact ht
  · exact hu

theorem setGrafter (s : State) {g : Grafter} (hqueue : g.queue = (s.grafter k).queue) (hrgn : g.rgn = (s.grafter k).rgn)
    (hslots : g.slots.length = (s.grafter k).slots.length) : GrafterKept k s (s.setGrafter k g) := by
  by_cases hk : k < s.grafters.length
  · have hg := State.grafter_setGrafter s g hk
    exact ⟨by rw [hg, hqueue], by rw [hg, hrgn], by rw [hg, hslots], by simp [State.setGrafter]⟩
  · exact of_grafters (by simp [State.setGrafter, List.set_eq_of_length_le (Nat.le_of_not_lt hk)])

theorem setJob (s : State) (k i : Nat) (j : Option GJob) : GrafterKept k s (s.setJob k i j) :=
  setGrafter s rfl rfl (by simp)

theorem grfCount (s : State) (k : Nat) (r : Reg) (lo : Nat) : GrafterKept k s (s.grfCount k r lo) := setGrafter s rfl rfl rfl

theorem grfWork (s : State) (k i d : Nat) : GrafterKept k s (s.grfWork k i d) := of_grafters ((same_grfWork (p := .grafters) (by simp)).2 rfl)

theorem limbSat (s : State) (k i : Nat) : GrafterKept k s (s.limbSat k i) := of_grafters ((same_limbSat (p := .grafters) (by simp)).2 rfl)

end GrafterKept

/-- A job that has stopped stays in its slot for its vote, or the slot is empty; its record and result are no part of a Grafter. -/
theorem State.grafters_settleJob (s : State) (k i : Nat) (j : GJob) :
    (s.settleJob k i j).grafters = (s.setJob k i (if gVote j.desc = true then some j else none)).grafters := by
  by_cases hvote : gVote j.desc = true
  · rw [if_pos hvote, State.settleJob, if_pos hvote]
  · rw [if_neg hvote, State.settleJob, if_neg hvote]
    refine (same_grfRecord (p := .grafters) (s := s.setJob k i none) (by simp)).2 ?_
    cases j.written j.rank with
    | none => rfl
    | some w => split <;> simp

theorem State.settleJob_vote (hvote : gVote j.desc = true) : s.settleJob k i j = s.setJob k i (some j) := if_pos hvote

theorem GrafterKept.settleJob (s : State) (k i : Nat) (j : GJob) : GrafterKept k s (s.settleJob k i j) :=
  (GrafterKept.setJob s k i _).trans (.of_grafters (s.grafters_settleJob k i j))

theorem GrafterKept.stopJob (s : State) (k i : Nat) (j : GJob) (why : Nat) : GrafterKept k s (s.stopJob k i j why) := .settleJob s k i _

/-! ### What a stop leaves of a job (R232) -/

/-- The job an outcome of a start is about. -/
def Begin.job : Begin → GJob
  | .go j => j
  | .pivot j => j
  | .range j => j

/-- `j'` is `j` further on in one attempt: the same job, damped and regularised alike; it may have turned cold. -/
structure GJob.Attempts (j j' : GJob) : Prop where
  desc : j'.desc = j.desc
  sub : j'.sub = j.sub
  reg : j'.reg = j.reg
  dexp : j'.dexp = j.dexp
  retry : j'.retry = j.retry
  cold : j.cold = true → j'.cold = true

theorem GJob.Attempts.refl (j : GJob) : j.Attempts j := ⟨rfl, rfl, rfl, rfl, rfl, id⟩

theorem GJob.Attempts.trans {a b c : GJob} (hab : a.Attempts b) (hbc : b.Attempts c) : a.Attempts c :=
  ⟨hbc.desc.trans hab.desc, hbc.sub.trans hab.sub, hbc.reg.trans hab.reg, hbc.dexp.trans hab.dexp, hbc.retry.trans hab.retry,
    hbc.cold ∘ hab.cold⟩

theorem GJob.attempts_stopWith (j : GJob) (why tick : Nat) : j.Attempts (j.stopWith why tick) := ⟨rfl, rfl, rfl, rfl, rfl, id⟩

theorem GJob.attempts_analyse (j : GJob) : j.Attempts j.analyse.job := by
  unfold GJob.analyse
  extract_lets _ _ _ _ _ _ _ _ j'
  have hj' : j.Attempts j' := ⟨rfl, rfl, rfl, rfl, rfl, id⟩
  split
  · exact hj'
  · split <;> exact hj'

theorem GJob.attempts_coldRoot (j : GJob) : j.Attempts j.coldRoot.job := by
  unfold GJob.coldRoot
  extract_lets m x j'
  have hj' : j.Attempts j' := ⟨rfl, rfl, rfl, rfl, rfl, fun _ => rfl⟩
  split <;> exact hj'

theorem GJob.attempts_again (j : GJob) : j.Attempts j.again.job := by
  have hanalyse := j.attempts_analyse
  unfold GJob.again
  split
  · next j' heq =>
    rw [heq] at hanalyse
    split
    · exact hanalyse.trans j'.attempts_coldRoot
    · exact ⟨hanalyse.desc, hanalyse.sub, hanalyse.reg, hanalyse.dexp, hanalyse.retry, hanalyse.cold⟩
  · exact hanalyse

/-- The local rank latched by a stop for a reason that leaves no answer. -/
theorem GJob.rank_stopWith_hard {why : Nat} (h : why = St.PIVOT ∨ why = St.RANGE ∨ why = St.ABORTED) (tick : Nat) :
    (j.stopWith why tick).rank = 0 :=
  if_pos h

/-- The local rank of a job that a deadline or the vote stops. -/
theorem GJob.rank_stopWith_zero (j : GJob) (tick : Nat) :
    (j.stopWith 0 tick).rank = if j.result.isSome = true then 2 else if j.reserve.isSome = true then 1 else 0 := rfl

theorem GJob.lstatus_stopWith {why : Nat} (h : why ≠ 0) (tick : Nat) : (j.stopWith why tick).lstatus = why := if_pos h

/-- A job with a result that stops with OK has rank 2. -/
theorem GJob.stopWith_ok (h : j.result.isSome = true) (tick : Nat) :
    (j.stopWith St.OK tick).rank = 2 ∧ (j.stopWith St.OK tick).lstatus = St.OK := by
  have hrank : (j.stopWith St.OK tick).rank = 2 := if_pos h
  exact ⟨hrank, if_pos hrank⟩

/-! ### Starts (R218, R223) -/

/-- The job as its one restart after RANGE finds it: DEXP lowered, and cold (R223). -/
def GJob.retried (j : GJob) : GJob := { j with dexp := j.dexp - 1, retry := true, cold := true, lamr := none }

/-- A start whose outcome no restart follows. -/
def State.settleBegin (s : State) (k i : Nat) (b : Begin) : State :=
  match b with
  | .go j => s.setJob k i (some j)
  | .pivot j => s.stopJob k i j St.PIVOT
  | .range j => s.stopJob k i j St.RANGE

/-- RANGE restarts a ROOT or CHOL of DEXP above 0 that has not restarted yet. -/
theorem State.beginJob_range_restarts (htype : gType j.desc = gRoot ∨ gType j.desc = gChol) (hdexp : 0 < j.dexp) (hretry : j.retry = false) :
    s.beginJob k i (.range j) GJob.again = (s.grfCount k .GRF_EVT0 24).settleBegin k i j.retried.again :=
  if_pos ⟨htype, hdexp, hretry⟩

/-- Otherwise RANGE ends the job. -/
theorem State.beginJob_range_ends (h : ¬ ((gType j.desc = gRoot ∨ gType j.desc = gChol) ∧ 0 < j.dexp ∧ j.retry = false)) :
    s.beginJob k i (.range j) GJob.again = s.stopJob k i j St.RANGE := if_neg h

theorem GrafterKept.settleBegin (s : State) (k i : Nat) (b : Begin) : GrafterKept k s (s.settleBegin k i b) := by
  cases b with
  | go j => exact .setJob s k i _
  | pivot j => exact .stopJob s k i j _
  | range j => exact .stopJob s k i j _

/-- `j'` is the same job as `j`, regularised alike. -/
def GJob.Same (j j' : GJob) : Prop := j'.desc = j.desc ∧ j'.sub = j.sub ∧ j'.reg = j.reg

theorem GJob.Attempts.same {j' : GJob} (h : j.Attempts j') : j.Same j' := ⟨h.desc, h.sub, h.reg⟩

theorem GJob.Same.trans {a b c : GJob} (hab : a.Same b) (hbc : b.Same c) : a.Same c := by
  obtain ⟨hdesc, hsub, hreg⟩ := hab
  obtain ⟨hdesc', hsub', hreg'⟩ := hbc
  exact ⟨hdesc'.trans hdesc, hsub'.trans hsub, hreg'.trans hreg⟩

theorem GJob.same_retried (j : GJob) : j.Same j.retried := ⟨rfl, rfl, rfl⟩

/-- Job `j` of slot `i` comes to an outcome, and `t` is the state that leaves. -/
def Settles (k i : Nat) (j : GJob) (s t : State) : Prop := ∃ u b, GrafterKept k s u ∧ j.Same b.job ∧ t = u.settleBegin k i b

namespace Settles

theorem of_kept (h : GrafterKept k s u) : Settles k i j u t → Settles k i j s t := fun ⟨v, b, hv, hb, ht⟩ => ⟨v, b, h.trans hv, hb, ht⟩

theorem of_same {j' : GJob} (h : j.Same j') : Settles k i j' s t → Settles k i j s t := fun ⟨v, b, hv, hb, ht⟩ => ⟨v, b, hv, h.trans hb, ht⟩

theorem grafterKept (h : Settles k i j s t) : GrafterKept k s t := by
  obtain ⟨u, b, hu, -, rfl⟩ := h
  exact hu.trans (.settleBegin u k i b)

theorem setJob {j' : GJob} (h : j.Same j') (s : State) (k i : Nat) : Settles k i j s (s.setJob k i (some j')) := ⟨s, .go j', .refl s, h, rfl⟩

theorem stopJob_range {j' : GJob} (h : j.Same j') (s : State) (k i : Nat) : Settles k i j s (s.stopJob k i j' St.RANGE) :=
  ⟨s, .range j', .refl s, h, rfl⟩

/-- A start settles its outcome, or that of the restart it counts. -/
theorem beginJob {b : Begin} (h : j.Same b.job) (s : State) (k i : Nat) : Settles k i j s (s.beginJob k i b GJob.again) := by
  cases b with
  | go j' => exact ⟨s, .go j', .refl s, h, rfl⟩
  | pivot j' => exact ⟨s, .pivot j', .refl s, h, rfl⟩
  | range j' =>
    by_cases hrestart : (gType j'.desc = gRoot ∨ gType j'.desc = gChol) ∧ 0 < j'.dexp ∧ j'.retry = false
    · obtain ⟨htype, hdexp, hretry⟩ := hrestart
      have hagain : j.Same j'.retried.again.job := h.trans (j'.same_retried.trans j'.retried.attempts_again.same)
      exact ⟨_, j'.retried.again, .grfCount s k _ _, hagain, State.beginJob_range_restarts htype hdexp hretry⟩
    · exact ⟨s, .range j', .refl s, h, State.beginJob_range_ends hrestart⟩

end Settles

/-- The state in which RANGE is met: with LIMBSAT set where a VLJOIN saturated. -/
def State.saturated (s : State) (k i : Nat) (joined : Bool) : State := if joined then s.limbSat k i else s

theorem GrafterKept.saturated (s : State) (k i : Nat) (joined : Bool) : GrafterKept k s (s.saturated k i joined) :=
  .ite (.limbSat s k i) (.refl s)

theorem State.rangeJob_eq (joined : Bool) : s.rangeJob k i joined j = (s.saturated k i joined).beginJob k i (.range j) GJob.again := rfl

namespace Settles

theorem rangeJob (s : State) (k i : Nat) (joined : Bool) (j : GJob) : Settles k i j s (s.rangeJob k i joined j) :=
  .of_kept (.saturated s k i joined) (.beginJob (b := .range j) (GJob.Attempts.refl j).same _ k i)

theorem coldRoot (s : State) (k i : Nat) (j : GJob) : Settles k i j s (s.beginJob k i j.coldRoot GJob.again) :=
  .beginJob j.attempts_coldRoot.same s k i

theorem warmRoot (s : State) (k i : Nat) (j : GJob) : Settles k i j s (s.warmRoot k i j) := by
  simp only [State.warmRoot]
  split
  · exact .setJob (GJob.Attempts.refl j).same s k i
  · split
    · exact .coldRoot s k i j
    · split
      · exact .of_kept (.grfCount s k _ _) (.coldRoot _ k i j)
      · split
        · exact .rangeJob s k i _ j
        · split
          · exact .of_kept (.grfCount s k _ _) (.coldRoot _ k i j)
          · exact .setJob (by exact ⟨rfl, rfl, rfl⟩) s k i

/-- A legal job that starts comes to an outcome, whatever its type (R218, R221). -/
theorem startJob (s : State) (k i : Nat) (sub : Submitted) (d : Nat) : Settles k i (GJob.new sub d s.pubBuf) s (s.startJob k i sub d) := by
  unfold State.startJob
  extract_lets new job g x m orth counted cg
  have hjob : new.Same job := ⟨rfl, rfl, rfl⟩
  have horth : job.Same orth := ⟨rfl, rfl, rfl⟩
  have hcg : job.Same cg := ⟨rfl, rfl, rfl⟩
  have hcounted : GrafterKept k s counted := by
    refine .ite ?_ (.refl s)
    split
    · exact .ite (.grfCount s k _ _) (.refl s)
    · exact .refl s
  refine .of_same hjob ?_
  clear_value counted cg orth m x job
  split
  · -- ROOT
    have hanalyse := job.attempts_analyse.same
    split
    · next heq =>
      rw [heq] at hanalyse
      split
      · exact .of_same hanalyse (.warmRoot s k i _)
      · exact .of_same hanalyse (.coldRoot s k i _)
    · exact .beginJob hanalyse s k i
  · -- ORTH
    split
    · exact .of_kept (.ite (.limbSat s k i) (.refl s)) (.stopJob_range horth _ k i)
    · exact .setJob horth s k i
  · -- CHOL
    exact .of_kept hcounted (.beginJob job.attempts_again.same _ k i)
  · -- TRSV
    exact .setJob (by exact ⟨rfl, rfl, rfl⟩) s k i
  · -- CG
    have hanalyse := hcg.trans cg.attempts_analyse.same
    split
    · next heq =>
      rw [heq] at hanalyse
      exact .setJob (by exact hanalyse) s k i
    · exact .beginJob hanalyse s k i

end Settles

end

end Sys2Proof.Machine
end

section
/-! What a job's work and its completion record leave of memory and of the cores (R213, R216, R219). -/

namespace Sys2Proof.Machine

/-- A filter that keeps every entry of a key leaves what the key reads as. -/
theorem Sparse.get_filter_kept {α : Type} (d : Nat → α) (m : List (Nat × α)) (p : Nat × α → Bool) {k : Nat} (h : ∀ v, p (k, v) = true) :
    Sparse.get d (m.filter p) k = Sparse.get d m k := by
  induction m with
  | nil => rfl
  | cons e m ih =>
    obtain ⟨i, v⟩ := e
    by_cases hk : k = i
    · subst hk
      simp [h, Sparse.get]
    · by_cases hp : p (i, v) = true <;> simp [hp, hk, Sparse.get, ih]

section
variable {s : State} {k i : Nat} {j : GJob}

/-- Memory that a test does not name stays. -/
theorem State.mget_forget (s : State) {p : Nat → Bool} {a : Nat} (h : p a = false) : mget (s.forget p).mem a = mget s.mem a := by
  unfold State.forget
  refine List.foldlRecOn (motive := fun m => mget m a = mget s.mem a) _ _ (Sparse.get_filter_kept _ _ _ (by simp [h])) fun m hm e he => ?_
  have hne : a ≠ e.1 := by
    rintro rfl
    simp [h] at he
  exact (Sparse.get_set_other _ _ _ _ _ hne).trans hm

/-- Cores changed one after the other: the others stay, and so does memory. -/
theorem State.foldl_modCore (l : List (Nat × Nat)) (f : Nat × Nat → Core → Core) (s : State) :
    (∀ gi, gi ∉ l.map (·.1) → (l.foldl (fun (t : State) e => t.modCore e.1 (f e)) s).core gi = s.core gi) ∧
      (l.foldl (fun (t : State) e => t.modCore e.1 (f e)) s).mem = s.mem := by
  induction l generalizing s with
  | nil => exact ⟨fun _ _ => rfl, rfl⟩
  | cons e l ih =>
    obtain ⟨hcores, hmem⟩ := ih (s.modCore e.1 (f e))
    refine ⟨fun gi hgi => ?_, hmem⟩
    obtain ⟨hne, hout⟩ := not_or.1 (List.mem_cons.not.1 hgi)
    exact (hcores gi hout).trans (s.core_setCore_other e.1 gi _ hne)

/-- A job's work leaves the cores outside its region (R213). -/
theorem State.core_grfWork (s : State) (k i d : Nat) {gi : Nat} (h : coreCi gi ∉ s.regionOf k i) : (s.grfWork k i d).core gi = s.core gi := by
  unfold State.grfWork
  extract_lets cis n gis u
  refine (s.foldl_modCore gis.zipIdx _).1 gi fun hmem => ?_
  rw [List.zipIdx_map_fst] at hmem
  obtain ⟨l, hl, hgi⟩ := List.mem_flatten.1 hmem
  obtain ⟨ci, hci, rfl⟩ := List.mem_map.1 hl
  exact h (coreCi_of_mem_coresOf hgi ▸ hci)

/-- A job's work leaves the memory outside its region and its scratch area (R213, R216). -/
theorem State.mget_grfWork (s : State) (k i d : Nat) {a : Nat} (h : grfSpace (s.regionOf k i) d a = false) :
    mget (s.grfWork k i d).mem a = mget s.mem a := by
  unfold State.grfWork
  extract_lets cis n gis u
  refine (State.mget_forget _ h).trans (congrArg (mget · a) ?_)
  exact (s.foldl_modCore gis.zipIdx _).2

/-! ### Completion records (R219) -/

/-- A record without a result is 64 bytes at the job's CDPA: its STATUS, rank and TAG stand where R219 puts them. -/
theorem State.grfRecord_mem (s : State) (j : GJob) (status lrank : Nat) (hopen : s.hrv ≠ 2) :
    ∃ v, v % 2 ^ 16 = status % 2 ^ 16 ∧ v / 2 ^ 38 % 4 = lrank % 4 ∧ v / 2 ^ 224 % 2 ^ 32 = gTag j.desc ∧
      (s.grfRecord j status lrank none).mem = (s.wr (gCdpa j.desc / 64 * 64) (toLe 64 v)).mem := by
  unfold State.grfRecord
  extract_lets its ex resid v t
  have hmem : t.mem = (s.wr (gCdpa j.desc / 64 * 64) (toLe 64 v)).mem := by
    rw [← State.wrS_unstaged hopen]
    rfl
  have hits : its = 0 := rfl
  have hex : ex = 0 := ite_self 0
  have hresid : resid = 0 := ite_self 0
  have hstep : gVstep j.desc < 2 ^ 64 := bits_lt _ _ _
  have htag : gTag j.desc < 2 ^ 32 := bits_lt _ _ _
  have hbit (b : Bool) : b2n b ≤ 1 := by cases b <;> decide
  have hcold := hbit j.cold
  have hreg := hbit j.reg
  have hretry := hbit j.retry
  have hv : v = status % 2 ^ 16 + j.lstatus % 2 ^ 16 * 2 ^ 16 + 0 % 64 * 2 ^ 32 + lrank % 4 * 2 ^ 38 + b2n j.cold * 2 ^ 40
      + b2n j.reg * 2 ^ 41 + b2n j.retry * 2 ^ 42 + j.dexp % 32 * 2 ^ 43 + 0 * 2 ^ 48 + 0 * 2 ^ 64 + j.tstop % 2 ^ 64 * 2 ^ 96
      + gVstep j.desc * 2 ^ 160 + gTag j.desc * 2 ^ 224 + 2 ^ 480 := by
    unfold v
    rw [hits, hex, hresid]
  refine ⟨v, ?_, ?_, ?_, ?_⟩
  · omega
  · omega
  · omega
  · split
    · rw [State.irq, State.modCluster_mem, State.satC_mem]
      exact hmem
    · exact hmem

theorem State.grfRecord_grafters (s : State) (j : GJob) (status lrank : Nat) (w : Option (Nat × Mat × Dy)) :
    (s.grfRecord j status lrank w).grafters = s.grafters := (same_grfRecord (p := .grafters) (by simp)).2 rfl

end

end Sys2Proof.Machine
end

section
/-! Jobs in a slot that exists (R213): what stops, starts and work leave in it. -/

namespace Sys2Proof.Claims
open Machine

section
variable {s t u : State} {k i : Nat} {j j' : GJob}

/-! ### The slot of a job -/

theorem job_of_grafters (h : t.grafters = s.grafters) (k i : Nat) : t.job k i = s.job k i := by
  rw [State.job, State.grafter, h, State.job, State.grafter]

theorem Place.kept (hp : Place s k i) (h : GrafterKept k s t) : Place t k i := by
  obtain ⟨hk, hi, hcount, hslots⟩ := hp
  exact ⟨hk, hi, h.count.trans hcount, h.slots.trans hslots⟩

theorem Place.job_setJob (hp : Place s k i) (j : Option GJob) : (s.setJob k i j).job k i = j := by
  obtain ⟨hk, hi, hcount, hslots⟩ := hp
  rw [State.job, State.setJob, State.grafter_setGrafter s _ (hcount.symm ▸ hk)]
  simp [hslots, hi]

/-- A VOTE job that has stopped keeps its slot, any other has left it. -/
theorem Place.job_settleJob (hp : Place s k i) (j : GJob) : (s.settleJob k i j).job k i = if gVote j.desc = true then some j else none :=
  (job_of_grafters (s.grafters_settleJob k i j) k i).trans (hp.job_setJob _)

theorem Place.job_stopJob (hp : Place s k i) (j : GJob) (why : Nat) :
    (s.stopJob k i j why).job k i = if gVote j.desc = true then some (j.stopWith why (s.copyOf k)) else none := hp.job_settleJob _

theorem Place.stopJob_plain (hp : Place s k i) (why : Nat) (hvote : gVote j.desc = false) : (s.stopJob k i j why).job k i = none := by
  rw [hp.job_stopJob, if_neg (by simp [hvote])]

theorem Place.stopJob_vote (hp : Place s k i) (why : Nat) (hvote : gVote j.desc = true) :
    (s.stopJob k i j why).job k i = some (j.stopWith why (s.copyOf k)) := by
  rw [hp.job_stopJob, if_pos hvote]

theorem settleJob_onlyIn (hvote : gVote j.desc = true) : OnlyIn [.grafters] s (s.settleJob k i j) := by
  rw [State.settleJob_vote hvote]
  exact s.setJob_onlyIn k i _

theorem stopJob_onlyIn (why : Nat) (hvote : gVote j.desc = true) : OnlyIn [.grafters] s (s.stopJob k i j why) :=
  settleJob_onlyIn (j := j.stopWith why (s.copyOf k)) hvote

/-- The job that a stop leaves in the slot is the one that stopped. -/
theorem Place.attempts_of_stopJob (hp : Place s k i) {why : Nat} (h : (s.stopJob k i j why).job k i = some j') : j.Attempts j' := by
  rw [hp.job_stopJob, Option.ite_none_right_eq_some, Option.some_inj] at h
  exact h.2 ▸ j.attempts_stopWith why _

/-- The job that an outcome leaves in the slot is the one it is about. -/
theorem Place.attempts_of_settleBegin (hp : Place s k i) {b : Begin} (h : (s.settleBegin k i b).job k i = some j') : b.job.Attempts j' := by
  cases b with
  | go j =>
    have hj : some j = some j' := (hp.job_setJob (some j)).symm.trans h
    exact Option.some_inj.1 hj ▸ .refl j
  | pivot j => exact hp.attempts_of_stopJob h
  | range j => exact hp.attempts_of_stopJob h

theorem Place.same_of_settles (hp : Place s k i) (hsettles : Settles k i j s t) (h : t.job k i = some j') : j.Same j' := by
  obtain ⟨u, b, hu, hb, rfl⟩ := hsettles
  exact hb.trans ((hp.kept hu).attempts_of_settleBegin h).same

/-! ### RANGE (R223) -/

/-- Where RANGE ends a job, it leaves its slot, or waits for its vote with rank 0. -/
theorem Place.stopJob_range (hp : Place s k i) (j : GJob) : (gVote j.desc = false → (s.stopJob k i j St.RANGE).job k i = none) ∧
    (gVote j.desc = true → ∃ j', (s.stopJob k i j St.RANGE).job k i = some j' ∧ j'.done = true ∧ j'.lstatus = St.RANGE ∧ j'.rank = 0) :=
  ⟨hp.stopJob_plain _, fun hvote =>
    ⟨_, hp.stopJob_vote _ hvote, rfl, GJob.lstatus_stopWith (by decide) _, GJob.rank_stopWith_hard (by simp) _⟩⟩

/-- RANGE in a running ROOT or CHOL restarts it once or ends it. -/
theorem Place.ranged_rangeJob (hp : Place s k i) (htype : gType j.desc = gRoot ∨ gType j.desc = gChol) (joined : Bool) :
    Ranged k i j (s.rangeJob k i joined j) := by
  have hq : Place (s.saturated k i joined) k i := hp.kept (.saturated s k i joined)
  rw [State.rangeJob_eq]
  refine ⟨fun hdexp hretry j' hj' => ?_, fun hends => ?_⟩
  · rw [State.beginJob_range_restarts htype hdexp hretry] at hj'
    have hagain := j.retried.attempts_again.trans ((hq.kept (.grfCount _ k _ _)).attempts_of_settleBegin hj')
    exact ⟨hagain.retry, hagain.dexp, hagain.cold rfl⟩
  · rw [State.beginJob_range_ends (by rintro ⟨-, hdexp, hretry⟩; rcases hends with h | h <;> simp_all)]
    exact hq.stopJob_range j

/-- RANGE ends a job that is no ROOT or CHOL. -/
theorem Place.rangeJob_plain (hp : Place s k i) (htype : ¬ (gType j.desc = gRoot ∨ gType j.desc = gChol)) (hvote : gVote j.desc = false)
    (joined : Bool) : (s.rangeJob k i joined j).job k i = none := by
  rw [State.rangeJob_eq, State.beginJob_range_ends fun h => htype h.1]
  exact (hp.kept (.saturated s k i joined)).stopJob_plain _ hvote

/-! ### Work (R213, R216) -/

theorem grfWork_onlyIn (s : State) (k i d : Nat) : OnlyIn [.mem, .flaws, .cores, .fresh] s (s.grfWork k i d) :=
  fun p hp => (same_grfWork hp).2 (p.same_refl s)

theorem worked_grfWork (s : State) (k i d : Nat) : Worked k i d s (s.grfWork k i d) :=
  ⟨(grfWork_onlyIn s k i d).mono (by simp), fun _ ha => s.mget_grfWork k i d ha, fun _ hgi => s.core_grfWork k i d hgi⟩

/-- A Grafter's own state may change before or after its job's work. -/
theorem Worked.then_grafters {d : Nat} (h : Worked k i d s t) (hu : OnlyIn [.grafters] t u) : Worked k i d s u := by
  obtain ⟨honly, hmem, hcores⟩ := h
  refine ⟨honly.trans (hu.mono (by simp)), fun a ha => ?_, fun gi hgi => ?_⟩
  · rw [show u.mem = t.mem from hu .mem (by simp)]
    exact hmem a ha
  · rw [State.core, show u.cores = t.cores from hu .cores (by simp)]
    exact hcores gi hgi

theorem Worked.of_grafters {d : Nat} (hs : OnlyIn [.grafters] s t) (hrgn : (t.grafter k).rgn = (s.grafter k).rgn) (h : Worked k i d t u) :
    Worked k i d s u := by
  obtain ⟨honly, hmem, hcores⟩ := h
  have hregion : t.regionOf k i = s.regionOf k i := by rw [State.regionOf, hrgn, State.regionOf]
  rw [hregion] at hmem hcores
  refine ⟨OnlyIn.trans (hs.mono (by simp)) honly, fun a ha => ?_, fun gi hgi => ?_⟩
  · rw [hmem a ha, show t.mem = s.mem from hs .mem (by simp)]
  · rw [hcores gi hgi, State.core, show t.cores = s.cores from hs .cores (by simp)]
    rfl

theorem Place.grfWork (hp : Place s k i) (d : Nat) : Place (s.grfWork k i d) k i := hp.kept (.grfWork s k i d)

theorem job_grfWork (s : State) (k i d n : Nat) : (s.grfWork k i d).job k n = s.job k n :=
  job_of_grafters (grfWork_onlyIn s k i d .grafters (by simp)) k n

end

end Sys2Proof.Claims
end

section
/-! Submission, starts, deadlines and aborts of Grafter jobs (O41). -/

namespace Sys2Proof.Machine

/-- The state in which entry `i` of Grafter `k`'s queue has left it (R215). -/
def State.dequeued (s : State) (k i : Nat) : State := s.setGrafter k ((s.grafter k).dequeue i)

section
variable {s : State} {k i : Nat}

/-- The state in which that entry has been refused at its start: its record is written (R218, R219). -/
def State.refused (s : State) (k i : Nat) (sub : Submitted) (d status : Nat) : State :=
  (s.dequeued k i).grfRecord { GJob.new sub d (s.dequeued k i).pubBuf with lstatus := status, tstop := (s.dequeued k i).copyOf k } status 3 none

theorem State.grafter_dequeued (hk : k < s.grafters.length) : (s.dequeued k i).grafter k = (s.grafter k).dequeue i := s.grafter_setGrafter _ hk

/-- What leaves the queue has no part in whether it is legal (R218). -/
theorem State.grfLegal_dequeued (hk : k < s.grafters.length) (d : Nat) : (s.dequeued k i).grfLegal k d = s.grfLegal k d := by
  unfold State.grfLegal
  rw [State.grafter_dequeued hk]
  rfl

/-- A TRSV starts with its right-hand sides. -/
theorem State.startJob_trsv {sub : Submitted} {d : Nat} (htrsv : gType d = gTrsv) : s.startJob k i sub d =
    s.setJob k i (some { GJob.new sub d s.pubBuf with raw := s.grfInput d, bs := s.fpCols (gBdpa d) (gN d) (gNc d), phase := 2 }) := by
  have htype : gType d = 4 := htrsv
  simp only [State.startJob, htype]

end

end Sys2Proof.Machine

namespace Sys2Proof.Claims
open Machine

section
variable {s : State} {k i : Nat} {j : GJob} {who : Agent}

/-! ### Submission (R215) -/

theorem grfReach_csp {ci : Nat} (hk : k < 8) (hci : ci < nClusters) (hdie : dieOf ci = k) : grfReach (.csp ci) k = true := by
  simp [grfReach, hk, hci, hdie]

/-- A CSP reaches no Grafter but its die's (R138). -/
theorem grfReach_other_die {ci : Nat} (hdie : dieOf ci ≠ k) : grfReach (.csp ci) k = false := by
  simp [grfReach, hdie]

/-- A writer whose submission waits writes nothing more. -/
theorem submission_stalled (h : s.subStalled who = true) (k v : Nat) : Gives (.grfSubloWrite who k v) s s ∧ Gives (.grfSubmit who k v) s s :=
  ⟨congrArg Host.Outcome.next (if_pos h), congrArg Host.Outcome.next (if_pos h)⟩

theorem grfSubloWrite_gives (h : s.subStalled who = false) (k v : Nat) : Gives (.grfSubloWrite who k v) s (s.subLo who k v) :=
  congrArg Host.Outcome.next (if_neg (by simp [h]))

theorem grfSubmit_gives (h : s.subStalled who = false) (k v : Nat) : Gives (.grfSubmit who k v) s (s.submit who k v) :=
  congrArg Host.Outcome.next (if_neg (by simp [h]))

/-- GRF_SUBLO of the host. -/
theorem subLo_host (hk : k < 8) (v : Nat) : s.subLo .host k v = s.setGrafter k { s.grafter k with loHost := v % 2 ^ 32 / 64 * 64 } :=
  if_neg (by simp [grfReach, hk])

/-- GRF_SUBLO of the Shed. -/
theorem subLo_shed (hk : k < 8) (v : Nat) : s.subLo .shed k v = s.setGrafter k { s.grafter k with loShed := v % 2 ^ 32 / 64 * 64 } :=
  if_neg (by simp [grfReach, hk])

/-- GRF_SUBLO of a CSP of the Grafter's die. -/
theorem subLo_csp {ci : Nat} (hk : k < 8) (hci : ci < nClusters) (hdie : dieOf ci = k) (v : Nat) :
    s.subLo (.csp ci) k v = s.modCluster ci fun c => { c with grfLo := v % 2 ^ 32 / 64 * 64 } :=
  if_neg (by simp [grfReach_csp hk hci hdie])

/-- A window that an agent does not reach takes nothing. -/
theorem submission_unreached (h : grfReach who k = false) (v : Nat) : Gives (.grfSubloWrite who k v) s s ∧ Gives (.grfSubmit who k v) s s := by
  cases hstalled : s.subStalled who with
  | true => exact submission_stalled hstalled k v
  | false =>
    exact ⟨(grfSubloWrite_gives hstalled k v).trans (congrArg _ (if_pos h)),
      (grfSubmit_gives hstalled k v).trans (congrArg _ (if_pos h))⟩

/-- `lo` is what an agent that reaches Grafter `k` has latched for it. -/
def Latched (s : State) (k : Nat) (who : Agent) (lo : Nat) : Prop :=
  (who = .host ∧ lo = (s.grafter k).loHost) ∨ (who = .shed ∧ lo = (s.grafter k).loShed) ∨
    (∃ ci, who = .csp ci ∧ ci < nClusters ∧ dieOf ci = k ∧ lo = (s.cluster ci).grfLo)

/-- GRF_SUBHI queues the descriptor, or has it wait where the queue has sixteen or others wait. -/
theorem submit_latched (hk : k < 8) {lo : Nat} (h : Latched s k who lo) (v : Nat) : s.submit who k v =
    if (s.grafter k).queue.length < 16 ∧ (s.grafter k).stalled.isEmpty then
      s.setGrafter k { s.grafter k with queue := (s.grafter k).queue ++ [⟨lo + v % 2 ^ 16 * 2 ^ 32, who⟩] }
    else s.setGrafter k { s.grafter k with stalled := (s.grafter k).stalled ++ [⟨lo + v % 2 ^ 16 * 2 ^ 32, who⟩] } := by
  obtain ⟨rfl, rfl⟩ | ⟨rfl, rfl⟩ | ⟨ci, rfl, hci, hdie, rfl⟩ := h
  · exact if_neg (by simp [grfReach, hk])
  · exact if_neg (by simp [grfReach, hk])
  · exact if_neg (by simp [grfReach_csp hk hci hdie])

theorem sublo_written (hk : k < 8) (v : Nat) :
    (s.subStalled .host = false → Gives (.grfSubloWrite .host k v) s (s.setGrafter k { s.grafter k with loHost := v % 2 ^ 32 / 64 * 64 })) ∧
    (s.subStalled .shed = false → Gives (.grfSubloWrite .shed k v) s (s.setGrafter k { s.grafter k with loShed := v % 2 ^ 32 / 64 * 64 })) ∧
    (∀ who, s.subStalled who = true → Gives (.grfSubloWrite who k v) s s ∧ Gives (.grfSubmit who k v) s s) ∧
    (∀ ci, ci < nClusters → dieOf ci = k → s.subStalled (.csp ci) = false → Runs (.grfSubloWrite (.csp ci) k v) s fun t =>
      (t.cluster ci).grfLo = v % 2 ^ 32 / 64 * 64 ∧ (∀ cj, cj ≠ ci → t.cluster cj = s.cluster cj) ∧ OnlyIn [.clusters] s t) ∧
    (∀ ci, dieOf ci ≠ k → Gives (.grfSubloWrite (.csp ci) k v) s s ∧ Gives (.grfSubmit (.csp ci) k v) s s) := by
  refine ⟨fun h => ?_, fun h => ?_, fun who h => submission_stalled h k v, fun ci hci hdie h => ?_, fun ci hdie => ?_⟩
  · rw [← subLo_host hk]
    exact grfSubloWrite_gives h k v
  · rw [← subLo_shed hk]
    exact grfSubloWrite_gives h k v
  · have hgives := grfSubloWrite_gives h k v
    rw [subLo_csp hk hci hdie] at hgives
    exact ⟨_, hgives, by rw [State.cluster_modCluster_same], fun cj hne => s.cluster_setCluster_other ci cj _ hne, s.setCluster_onlyIn ci _⟩
  · exact submission_unreached (grfReach_other_die hdie) v

theorem subhi_submits (hk : k < 8) (v : Nat) (who : Agent) (lo : Nat) (h : s.subStalled who = false) (hlo : Latched s k who lo) :
    ((s.grafter k).queue.length < 16 → (s.grafter k).stalled = [] →
      Gives (.grfSubmit who k v) s (s.setGrafter k { s.grafter k with queue := (s.grafter k).queue ++ [⟨lo + v % 2 ^ 16 * 2 ^ 32, who⟩] })) ∧
    (16 ≤ (s.grafter k).queue.length ∨ (s.grafter k).stalled ≠ [] →
      Gives (.grfSubmit who k v) s
        (s.setGrafter k { s.grafter k with stalled := (s.grafter k).stalled ++ [⟨lo + v % 2 ^ 16 * 2 ^ 32, who⟩] })) := by
  have hgives := grfSubmit_gives h k v
  rw [submit_latched hk hlo] at hgives
  refine ⟨fun hroom hnone => ?_, fun hfull => ?_⟩
  · rwa [if_pos ⟨hroom, by simp [hnone]⟩] at hgives
  · have hno : ¬ ((s.grafter k).queue.length < 16 ∧ (s.grafter k).stalled.isEmpty = true) := by
      rintro ⟨hroom, hnone⟩
      exact hfull.elim (Nat.not_le_of_lt hroom) fun h => h (List.isEmpty_iff.1 hnone)
    rwa [if_neg hno] at hgives

/-! ### Starts (R215, R218) -/

section
variable {sub : Submitted} {d : Nat}

/-- Entry `i` of the queue, `sub`, is the oldest whose slot is free, and the Grafter may start it. -/
def Next (s : State) (k i : Nat) (sub : Submitted) : Prop :=
  k < 8 ∧ s.grafters.length = 8 ∧ s.computing = true ∧
    ((s.grafter k).queue.zipIdx.find? fun e => (((s.grafter k).slots.getD (gSlot (s.rdN e.1.addr 128)) none).isNone)) = some (sub, i)

theorem Next.count (h : Next s k i sub) : k < s.grafters.length := by
  obtain ⟨hk, hcount, -, -⟩ := h
  omega

/-- What the oldest job whose slot is free comes to. -/
theorem Next.gives (h : Next s k i sub) (hd : d = s.rdN sub.addr 128) : Gives (.grafterJobStart k []) s
    (if s.grfLegal k d = false then s.refused k i sub d St.JOB_ILLEGAL
    else if (s.dequeued k i).grfConflict k d = true then s.refused k i sub d St.JOB_CONFLICT
    else ((s.dequeued k i).startJob k (gSlot d) sub d).grfWork k (gSlot d) d) := by
  have hlegal := State.grfLegal_dequeued (i := i) h.count d
  obtain ⟨hk, -, hcomputing, hfind⟩ := h
  show execGrafterJobStart k [] s = _
  simp only [execGrafterJobStart, State.hbmRun, List.isEmpty_nil, if_true, hfind, ← hd]
  rw [if_neg (by simp [hk, hcomputing]), ← hlegal, apply_ite Host.Outcome.next, apply_ite Host.Outcome.next]
  unfold State.refused State.dequeued
  rfl

/-- A job refused at its start leaves the queue, and its record gives the status (R219). -/
theorem Next.refused (h : Next s k i sub) (hopen : s.hrv ≠ 2) {status : Nat} (hstatus : status < 2 ^ 16) :
    (s.refused k i sub d status).grafter k = (s.grafter k).dequeue i ∧
      ∃ v, v % 2 ^ 16 = status ∧ v / 2 ^ 38 % 4 = 3 ∧ v / 2 ^ 224 % 2 ^ 32 = gTag d ∧
        (s.refused k i sub d status).mem = (s.wr (gCdpa d / 64 * 64) (toLe 64 v)).mem := by
  refine ⟨?_, ?_⟩
  · rw [← State.grafter_dequeued h.count, State.refused, State.grafter, State.grfRecord_grafters, State.grafter]
  · obtain ⟨v, hv, hrank, htag, hmem⟩ := (s.dequeued k i).grfRecord_mem
      { GJob.new sub d (s.dequeued k i).pubBuf with lstatus := status, tstop := (s.dequeued k i).copyOf k } status 3 hopen
    exact ⟨v, hv.trans (Nat.mod_eq_of_lt hstatus), hrank, htag, hmem.trans (State.wr_mem_congr (u := s.dequeued k i) (s := s) rfl _ _)⟩

theorem Next.illegal (h : Next s k i sub) (hopen : s.hrv ≠ 2) (hlegal : s.grfLegal k (s.rdN sub.addr 128) = false) :
    Runs (.grafterJobStart k []) s fun t => t.grafter k = (s.grafter k).dequeue i ∧
      ∃ v, v % 2 ^ 16 = St.JOB_ILLEGAL ∧ v / 2 ^ 38 % 4 = 3 ∧ v / 2 ^ 224 % 2 ^ 32 = gTag (s.rdN sub.addr 128) ∧
        t.mem = (s.wr (gCdpa (s.rdN sub.addr 128) / 64 * 64) (toLe 64 v)).mem := by
  have hgives := h.gives rfl
  rw [if_pos hlegal] at hgives
  exact ⟨_, hgives, h.refused hopen (by decide)⟩

theorem Next.conflict (h : Next s k i sub) (hopen : s.hrv ≠ 2) (hlegal : s.grfLegal k (s.rdN sub.addr 128) = true)
    (hconflict : (s.dequeued k i).grfConflict k (s.rdN sub.addr 128) = true) :
    Runs (.grafterJobStart k []) s fun t => t.grafter k = (s.grafter k).dequeue i ∧
      ∃ v, v % 2 ^ 16 = St.JOB_CONFLICT ∧ v / 2 ^ 38 % 4 = 3 ∧ v / 2 ^ 224 % 2 ^ 32 = gTag (s.rdN sub.addr 128) ∧
        t.mem = (s.wr (gCdpa (s.rdN sub.addr 128) / 64 * 64) (toLe 64 v)).mem := by
  have hgives := h.gives rfl
  rw [if_neg (by simp [hlegal]), if_pos hconflict] at hgives
  exact ⟨_, hgives, h.refused hopen (by decide)⟩

theorem Next.starts (h : Next s k i sub) (hd : d = s.rdN sub.addr 128) (hslots : (s.grafter k).slots.length = 4) (hlegal : s.grfLegal k d = true)
    (hconflict : (s.dequeued k i).grfConflict k d = false) :
    Gives (.grafterJobStart k []) s (((s.dequeued k i).startJob k (gSlot d) sub d).grfWork k (gSlot d) d) ∧
    Runs (.grafterJobStart k []) s fun t => (t.grafter k).queue = ((s.grafter k).dequeue i).queue ∧
      (gType d = gTrsv → ∃ j, t.job k (gSlot d) = some j ∧ j.desc = d ∧ j.phase = 2 ∧ j.done = false ∧ j.sub = sub ∧
        Worked k (gSlot d) d s t) ∧
      (∀ j, t.job k (gSlot d) = some j → j.desc = d ∧ j.sub = sub) := by
  have hgives := h.gives hd
  rw [if_neg (by simp [hlegal]), if_neg (by simp [hconflict])] at hgives
  have hdequeued := State.grafter_dequeued (i := i) h.count
  have hp : Place (s.dequeued k i) k (gSlot d) :=
    ⟨h.1, bits_lt d 4 2, by simpa [State.dequeued, State.setGrafter] using h.2.1, by rw [hdequeued]; exact hslots⟩
  have hsettles := Settles.startJob (s.dequeued k i) k (gSlot d) sub d
  refine ⟨hgives, _, hgives, ?_, fun htrsv => ?_, fun j hj => ?_⟩
  · rw [← hdequeued]
    exact (hsettles.grafterKept.trans (.grfWork _ k _ d)).queue
  · have hstarted : ∃ j, ((s.dequeued k i).startJob k (gSlot d) sub d).job k (gSlot d) = some j ∧ j.desc = d ∧ j.phase = 2 ∧
        j.done = false ∧ j.sub = sub := by
      rw [State.startJob_trsv htrsv]
      exact ⟨_, hp.job_setJob _, rfl, rfl, rfl, rfl⟩
    obtain ⟨j, hj, hdesc, hphase, hdone, hsub⟩ := hstarted
    have honly : OnlyIn [.grafters] s ((s.dequeued k i).startJob k (gSlot d) sub d) := by
      rw [State.startJob_trsv htrsv]
      exact OnlyIn.trans (s.setGrafter_onlyIn k _) (State.setJob_onlyIn _ k _ _)
    have hrgn : (((s.dequeued k i).startJob k (gSlot d) sub d).grafter k).rgn = (s.grafter k).rgn :=
      hsettles.grafterKept.rgn.trans (by rw [hdequeued]; rfl)
    exact ⟨j, (job_grfWork _ k _ d _).trans hj, hdesc, hphase, hdone, hsub, (worked_grfWork _ k _ d).of_grafters honly hrgn⟩
  · rw [job_grfWork] at hj
    obtain ⟨hdesc, hsub, -⟩ := hp.same_of_settles hsettles hj
    exact ⟨hdesc, hsub⟩

end

/-! ### Deadlines and aborts (R232) -/

theorem jobDeadline_stops (hp : Place s k i) (hjob : s.job k i = some j) (hvote : gVote j.desc = true) (hdone : j.done = false)
    (hset : gDeadline j.desc ≠ 2 ^ 64 - 1) (hdue : gDeadline j.desc ≤ s.copyOf k) : Runs (.jobDeadline k i) s fun t => OnlyIn [.grafters] s t ∧
      ∃ j', t.job k i = some j' ∧ j'.done = true ∧ j'.tstop = s.copyOf k ∧
        j'.rank = (if j.result.isSome = true then 2 else if j.reserve.isSome = true then 1 else 0) := by
  have hgives : Gives (.jobDeadline k i) s (s.stopJob k i j 0) := by
    show execJobDeadline k i s = _
    rw [execJobDeadline, hjob]
    exact if_pos ⟨hvote, hdone, hset, hdue⟩
  exact ⟨_, hgives, stopJob_onlyIn 0 hvote, _, hp.stopJob_vote 0 hvote, rfl, rfl, j.rank_stopWith_zero _⟩

/-- A write of GRF_ABORT names its slot in bits 0 and 1 and acts with bit 2 set. -/
theorem grfAbort_gives (hp : Place s k i) (hjob : s.job k i = some j) : Gives (.grfAbort k (i + 4)) s
    (if j.done = false then s.stopJob k i j St.ABORTED else if j.group.isNone then s.setJob k i (some { j with rank := 0 }) else s) := by
  obtain ⟨hk, hi, -, -⟩ := hp
  have hact : bit (i + 4) 2 = true := by
    interval_cases i <;> decide
  have hslot : (i + 4) % 4 = i := by omega
  show execGrfAbort k (i + 4) s = _
  rw [execGrfAbort, State.grfAbort, if_neg (by simp [hact, hk]), hslot, hjob]

theorem grfAbort_stops (hp : Place s k i) (hjob : s.job k i = some j) (hdone : j.done = false) :
    (gVote j.desc = true → Runs (.grfAbort k (i + 4)) s fun t => OnlyIn [.grafters] s t ∧
      ∃ j', t.job k i = some j' ∧ j'.done = true ∧ j'.lstatus = St.ABORTED ∧ j'.rank = 0) ∧
    (gVote j.desc = false → Runs (.grfAbort k (i + 4)) s fun t => t.job k i = none) := by
  have hgives := grfAbort_gives hp hjob
  rw [if_pos hdone] at hgives
  refine ⟨fun hvote => ⟨_, hgives, stopJob_onlyIn _ hvote, _, hp.stopJob_vote _ hvote, rfl, ?_, ?_⟩,
    fun hvote => ⟨_, hgives, hp.stopJob_plain _ hvote⟩⟩
  · exact GJob.lstatus_stopWith (by decide) _
  · exact GJob.rank_stopWith_hard (by simp) _

theorem grfAbort_unranks (hp : Place s k i) (hjob : s.job k i = some j) (hdone : j.done = true) (hgroup : j.group = none) :
    Runs (.grfAbort k (i + 4)) s fun t => t.job k i = some { j with rank := 0 } ∧ OnlyIn [.grafters] s t := by
  have hgives := grfAbort_gives hp hjob
  rw [if_neg (by simp [hdone]), if_pos (by simp [hgroup])] at hgives
  exact ⟨_, hgives, hp.job_setJob _, s.setJob_onlyIn k i _⟩

end

/-- Settles O41: GRF_SUBLO and GRF_SUBHI by their writer, a start by what it comes to, then deadlines and aborts. -/
theorem jobsAreSubmitted : Obligations.JobsAreSubmitted :=
  ⟨fun _ _ v hk => sublo_written hk v, fun _ _ v who lo hk h hlo => subhi_submits hk v who lo h hlo,
    fun _ _ _ _ hk hcount hcomputing hfind hopen hlegal => Next.illegal ⟨hk, hcount, hcomputing, hfind⟩ hopen hlegal,
    fun _ _ _ _ hk hcount hcomputing hfind hopen hlegal hconflict => Next.conflict ⟨hk, hcount, hcomputing, hfind⟩ hopen hlegal hconflict,
    fun _ _ _ _ hk hcount hslots hcomputing hfind hlegal hconflict => Next.starts ⟨hk, hcount, hcomputing, hfind⟩ rfl hslots hlegal hconflict,
    fun _ _ _ _ => jobDeadline_stops, fun _ _ _ _ => grfAbort_stops, fun _ _ _ _ => grfAbort_unranks⟩

end Sys2Proof.Claims
end

section
/-! Iterations, factorisations and tests of running jobs (O42). -/

namespace Sys2Proof.Machine

section
variable {s : State} {k i ty : Nat} {j : GJob}

theorem State.running_eq_some : s.running k i ty = some j ↔ s.job k i = some j ∧ gType j.desc = ty ∧ j.done = false ∧ s.computing = true := by
  unfold State.running
  split
  · next j' hjob =>
    rw [Option.ite_none_right_eq_some, hjob, Option.some_inj, and_comm]
    constructor
    · rintro ⟨rfl, h⟩
      exact ⟨rfl, h⟩
    · rintro ⟨rfl, h⟩
      exact ⟨rfl, h⟩
  · next hnone => simp [hnone]

/-- A job whose DEADLINE has passed is a VOTE job (R232). -/
theorem State.vote_of_overdue (h : s.overdue k j = true) : gVote j.desc = true := by
  simp only [State.overdue, Bool.and_eq_true] at h
  exact h.1.1

/-- What an iteration of ROOT computes. -/
def GJob.rootNext (j : GJob) : Mat × Mat × Bool × Bool := rootStep (gN j.desc) (gP j.desc) (gPcode j.desc) j.q j.lam j.x j.m

/-- What an iteration of ORTH computes. -/
def GJob.orthNext (j : GJob) : Mat × Bool × Bool := orthStep (min (gN j.desc) (gNc j.desc)) (max (gN j.desc) (gNc j.desc)) j.m j.x

/-- A job whose iterate is `x`, its residual matrix `m`; the iterate awaits its test (R229). -/
def GJob.iterated (j : GJob) (x m : Mat) : GJob := { j with x := x, m := m, iter := j.iter + 1, tested := false, resid := m.resid }

/-- What an iteration of CG computes, column by column. -/
def GJob.cgNext (j : GJob) : List (Option (WVec × WVec × WVec)) :=
  (List.zip j.xs (List.zip j.rs j.ps)).map fun e => cgStep ⟨j.a.rows, j.a.e⟩
    (((pow2 (-(gPfe j.desc : Int))).mul j.tsum).div (Dy.ofInt (gN j.desc))) e.1 e.2.1 e.2.2

/-- The size of the diagonal of a TRSV. -/
def GJob.diagonal (j : GJob) : List Dy := (List.range (gN j.desc)).map fun r => (j.raw.dy r r).abs

/-- Whether every pivot of a TRSV reaches its floor (R227). -/
def GJob.pivotsHold (j : GJob) : Bool :=
  ((pow2 (-(gPfe j.desc : Int))).mul (j.diagonal.foldl Dy.max Dy.zero)).le (j.diagonal.foldl Dy.min (j.diagonal.foldl Dy.max Dy.zero))

/-- A ROOT or ORTH whose iterate has been tested; the first that meets ATOL is the reserve (R229). -/
def GJob.judged (j : GJob) : GJob :=
  if j.reserve.isNone ∧ j.resid.le (pow2 (-(gAtole j.desc : Int))) then { j with tested := true, reserve := some (j.iter, j.answer, j.resid) }
  else { j with tested := true }

theorem GJob.judged_eq (j : GJob) : j.judged = { j with
    tested := true
    reserve := if j.reserve.isNone = true ∧ j.resid.le (pow2 (-(gAtole j.desc : Int))) = true then some (j.iter, j.answer, j.resid)
      else j.reserve } := by
  unfold GJob.judged
  split <;> rfl

theorem GJob.desc_judged (j : GJob) : j.judged.desc = j.desc := by rw [GJob.judged_eq]

theorem GJob.resid_judged (j : GJob) : j.judged.resid = j.resid := by rw [GJob.judged_eq]

theorem GJob.iter_judged (j : GJob) : j.judged.iter = j.iter := by rw [GJob.judged_eq]

/-- A job without a vote that stops with nothing to write leaves its slot and writes its record alone. -/
theorem State.settleJob_unwritten (hvote : gVote j.desc = false) (hnone : j.written j.rank = none) :
    s.settleJob k i j = (s.setJob k i none).grfRecord j j.lstatus 3 none := by
  simp [State.settleJob, hvote, hnone]

end

/-- One of a pair of marks is set. -/
theorem or_eq_true_of_ne {p : Bool × Bool} (h : p ≠ (false, false)) : (p.1 || p.2) = true := by
  obtain ⟨a, b⟩ := p
  cases a <;> simp_all

end Sys2Proof.Machine

namespace Sys2Proof.Claims
open Machine

section
variable {s : State} {k i : Nat} {j : GJob}

/-- A job that has worked and put its next state in its slot. -/
theorem Place.worked_setJob (hp : Place s k i) (d : Nat) (j : GJob) : Worked k i d s ((s.grfWork k i d).setJob k i (some j)) ∧
    (∀ n, n ≠ i → ((s.grfWork k i d).setJob k i (some j)).job k n = s.job k n) ∧ ((s.grfWork k i d).setJob k i (some j)).job k i = some j :=
  ⟨(worked_grfWork s k i d).then_grafters (State.setJob_onlyIn _ k i _), fun n hn => (State.job_setJob_other hn _).trans (job_grfWork s k i d n),
    (hp.grfWork d).job_setJob _⟩

/-! ### ROOT (R224) -/

theorem root_gives (hrun : s.running k i gRoot = some j) (hdue : s.overdue k j = false) (htested : j.tested = true) : Gives (.root k i) s
    (if (j.rootNext.2.2.1 || j.rootNext.2.2.2) = true then (s.grfWork k i j.desc).rangeJob k i j.rootNext.2.2.2 j
    else (s.grfWork k i j.desc).setJob k i (some (j.iterated j.rootNext.1 j.rootNext.2.1))) := by
  show execRoot k i s = _
  simp only [execRoot, hrun, hdue, htested, apply_ite Host.Outcome.next]
  rfl

theorem root_iterates (hp : Place s k i) (hrun : s.running k i gRoot = some j) (hdue : s.overdue k j = false) (htested : j.tested = true) :
    (j.rootNext.2.2 = (false, false) → Runs (.root k i) s fun t => Worked k i j.desc s t ∧ (∀ n, n ≠ i → t.job k n = s.job k n) ∧
      t.job k i = some (j.iterated j.rootNext.1 j.rootNext.2.1)) ∧
    (j.rootNext.2.2 ≠ (false, false) → Runs (.root k i) s fun t => Ranged k i j t) := by
  have hgives := root_gives hrun hdue htested
  obtain ⟨-, htype, -, -⟩ := State.running_eq_some.1 hrun
  refine ⟨fun hfits => ?_, fun hrange => ?_⟩
  · rw [if_neg (by simp [hfits])] at hgives
    exact ⟨_, hgives, hp.worked_setJob _ _⟩
  · rw [if_pos (or_eq_true_of_ne hrange)] at hgives
    exact ⟨_, hgives, (hp.grfWork _).ranged_rangeJob (.inl htype) _⟩

/-! ### ORTH (R225) -/

theorem orth_gives (hrun : s.running k i gOrth = some j) (htested : j.tested = true) : Gives (.orth k i) s
    (if (j.orthNext.2.1 || j.orthNext.2.2 || (gram j.orthNext.1).2) = true then
      (s.grfWork k i j.desc).rangeJob k i (j.orthNext.2.2 || (gram j.orthNext.1).2) j
    else (s.grfWork k i j.desc).setJob k i (some (j.iterated j.orthNext.1 (gram j.orthNext.1).1))) := by
  show execOrth k i s = _
  simp only [execOrth, hrun, htested, apply_ite Host.Outcome.next]
  rfl

theorem orth_iterates (hp : Place s k i) (hrun : s.running k i gOrth = some j) (htested : j.tested = true) :
    (j.orthNext.2 = (false, false) → (gram j.orthNext.1).2 = false → Runs (.orth k i) s fun t => Worked k i j.desc s t ∧
      t.job k i = some (j.iterated j.orthNext.1 (gram j.orthNext.1).1)) ∧
    (j.orthNext.2 ≠ (false, false) ∨ (gram j.orthNext.1).2 = true → gVote j.desc = false → Runs (.orth k i) s fun t => t.job k i = none) := by
  have hgives := orth_gives hrun htested
  obtain ⟨-, htype, -, -⟩ := State.running_eq_some.1 hrun
  refine ⟨fun hfits hgram => ?_, fun hrange hvote => ?_⟩
  · rw [if_neg (by simp [hfits, hgram])] at hgives
    obtain ⟨hworked, -, hjob⟩ := hp.worked_setJob j.desc (j.iterated j.orthNext.1 (gram j.orthNext.1).1)
    exact ⟨_, hgives, hworked, hjob⟩
  · have hmet : (j.orthNext.2.1 || j.orthNext.2.2 || (gram j.orthNext.1).2) = true := by
      rcases hrange with h | h
      · rw [or_eq_true_of_ne h, Bool.true_or]
      · rw [h, Bool.or_true]
    rw [if_pos hmet] at hgives
    exact ⟨_, hgives, (hp.grfWork _).rangeJob_plain (by rw [htype]; decide) hvote _⟩

/-! ### CHOL (R226) -/

section
variable (hp : Place s k i) (hrun : s.running k i gChol = some j) (hdue : s.overdue k j = false)
include hp hrun hdue

/-- A CHOL that factors stops with L. -/
theorem chol_factors {l : Mat} (hl : cholesky (gN j.desc) j.a j.q j.low = .ok l) :
    (gVote j.desc = true → Runs (.chol k i) s fun t => Worked k i j.desc s t ∧
      ∃ j', t.job k i = some j' ∧ j'.done = true ∧ j'.result = some (0, l, Dy.zero) ∧ j'.rank = 2 ∧ j'.lstatus = St.OK) ∧
    (gVote j.desc = false → Runs (.chol k i) s fun t => t.job k i = none) := by
  have hgives : Gives (.chol k i) s ((s.grfWork k i j.desc).stopJob k i { j with result := some (0, l, Dy.zero) } St.OK) := by
    show execChol k i s = _
    simp only [execChol, hrun, hdue, hl]
    rfl
  refine ⟨fun hvote => ?_, fun hvote => ⟨_, hgives, (hp.grfWork _).stopJob_plain _ hvote⟩⟩
  obtain ⟨hrank, hstatus⟩ := GJob.stopWith_ok (j := { j with result := some (0, l, Dy.zero) }) rfl ((s.grfWork k i j.desc).copyOf k)
  exact ⟨_, hgives, (worked_grfWork s k i _).then_grafters (stopJob_onlyIn _ hvote), _, (hp.grfWork _).stopJob_vote _ hvote, rfl, rfl,
    hrank, hstatus⟩

/-- A flagged pivot of a regularised attempt ends the job. -/
theorem chol_pivot_ends (hl : cholesky (gN j.desc) j.a j.q j.low = .pivot) (hreg : j.reg = true) :
    (gVote j.desc = false → Runs (.chol k i) s fun t => t.job k i = none) ∧
    (gVote j.desc = true → Runs (.chol k i) s fun t =>
      ∃ j', t.job k i = some j' ∧ j'.done = true ∧ j'.rank = 0 ∧ j'.lstatus = St.PIVOT) := by
  have hgives : Gives (.chol k i) s ((s.grfWork k i j.desc).stopJob k i j St.PIVOT) := by
    show execChol k i s = _
    simp only [execChol, hrun, hdue, hl, hreg]
    rfl
  exact ⟨fun hvote => ⟨_, hgives, (hp.grfWork _).stopJob_plain _ hvote⟩, fun hvote => ⟨_, hgives, _, (hp.grfWork _).stopJob_vote _ hvote, rfl,
    GJob.rank_stopWith_hard (by simp) _, GJob.lstatus_stopWith (by decide) _⟩⟩

/-- The first flagged pivot restarts the job with λr added. -/
theorem chol_pivot_regularises (hl : cholesky (gN j.desc) j.a j.q j.low = .pivot) (hreg : j.reg = false) :
    Runs (.chol k i) s fun t => ∀ j', t.job k i = some j' → j'.reg = true := by
  have hgives : Gives (.chol k i) s (((s.grfWork k i j.desc).grfCount k .GRF_EVT0 16).beginJob k i
      (GJob.again { j with reg := true, lamr := some j.lamrExp }) GJob.again) := by
    show execChol k i s = _
    simp only [execChol, hrun, hdue, hl, hreg]
    rfl
  refine ⟨_, hgives, fun j' hj' => ?_⟩
  have hq := (hp.grfWork j.desc).kept (.grfCount _ k .GRF_EVT0 16)
  obtain ⟨-, -, hreg'⟩ := hq.same_of_settles (.beginJob (GJob.attempts_again _).same _ k i) hj'
  exact hreg'

/-- RANGE in a factorisation. -/
theorem chol_range (hl : cholesky (gN j.desc) j.a j.q j.low = .range) : Runs (.chol k i) s fun t => Ranged k i j t := by
  obtain ⟨-, htype, -, -⟩ := State.running_eq_some.1 hrun
  have hgives : Gives (.chol k i) s (State.rangeJob { s.grfWork k i j.desc with fresh := (s.grfWork k i j.desc).fresh + 1 } k i
      (Config.fresh (s.grfWork k i j.desc).fresh % 2 == 1) j) := by
    show execChol k i s = _
    simp only [execChol, hrun, hdue, hl]
    exact if_neg Bool.false_ne_true
  have hq : Place { s.grfWork k i j.desc with fresh := (s.grfWork k i j.desc).fresh + 1 } k i := (hp.grfWork j.desc).kept (.of_grafters rfl)
  exact ⟨_, hgives, hq.ranged_rangeJob (.inr htype) _⟩

end

/-! ### TRSV (R227) -/

section
variable (hrun : s.running k i gTrsv = some j)
include hrun

theorem trsv_pivot (hfloor : j.pivotsHold = false) : Gives (.trsv k i) s ((s.grfWork k i j.desc).stopJob k i j St.PIVOT) := by
  show execTrsv k i s = _
  unfold execTrsv
  rw [hrun]
  exact if_pos (by simpa [GJob.pivotsHold, GJob.diagonal] using hfloor)

theorem trsv_solves {vs : List (List Dy)} (hfloor : j.pivotsHold = true)
    (hsolved : (j.bs.map fun b => trsv (gN j.desc) j.raw (gTrans j.desc) b) = vs.map Attempt.ok) :
    Gives (.trsv k i) s ((s.grfWork k i j.desc).stopJob k i { j with xs := vs.map exactVec, result := some (0, ⟨[], 0⟩, Dy.zero) } St.OK) := by
  show execTrsv k i s = _
  unfold execTrsv
  rw [hrun]
  refine (if_neg (by simpa [GJob.pivotsHold, GJob.diagonal] using hfloor)).trans ?_
  dsimp only
  rw [hsolved]
  simp only [List.filterMap_map, Function.comp_def, List.filterMap_eq_map', List.length_map, if_true]

/-- A TRSV stops, whatever it meets. -/
theorem trsv_stops (hp : Place s k i) : Runs (.trsv k i) s fun t => (gVote j.desc = false → t.job k i = none) ∧
    (gVote j.desc = true → ∃ j', t.job k i = some j' ∧ j'.done = true) := by
  have hstops : ∃ j' why, execTrsv k i s = .next ((s.grfWork k i j.desc).stopJob k i j' why) ∧ j'.desc = j.desc := by
    unfold execTrsv
    rw [hrun]
    dsimp only
    split
    · exact ⟨_, _, rfl, rfl⟩
    · split <;> exact ⟨_, _, rfl, rfl⟩
  obtain ⟨j', why, hgives, hdesc⟩ := hstops
  have hq := hp.grfWork j.desc
  exact ⟨_, hgives, fun hvote => hq.stopJob_plain why (hdesc ▸ hvote), fun hvote => ⟨_, hq.stopJob_vote why (hdesc ▸ hvote), rfl⟩⟩

end

/-! ### CG (R228) -/

section
variable (hp : Place s k i) (hrun : s.running k i gCg = some j) (htested : j.tested = true)
include hp hrun htested

theorem cg_iterates (hall : j.cgNext.all Option.isSome = true) : Runs (.cg k i) s fun t => Worked k i j.desc s t ∧
    t.job k i = some { j with
      xs := (j.cgNext.filterMap id).map (·.1), rs := (j.cgNext.filterMap id).map (·.2.1), ps := (j.cgNext.filterMap id).map (·.2.2)
      iter := j.iter + 1, tested := false } := by
  have hgives : Gives (.cg k i) s ((s.grfWork k i j.desc).setJob k i (some { j with
      xs := (j.cgNext.filterMap id).map (·.1), rs := (j.cgNext.filterMap id).map (·.2.1), ps := (j.cgNext.filterMap id).map (·.2.2)
      iter := j.iter + 1, tested := false })) := by
    show execCg k i s = _
    simp only [execCg, hrun, htested]
    exact if_pos hall
  obtain ⟨hworked, -, hjob⟩ := hp.worked_setJob j.desc _
  exact ⟨_, hgives, hworked, hjob⟩

/-- A breakdown of a regularised job ends it. -/
theorem cg_breakdown_ends (hall : j.cgNext.all Option.isSome = false) (hreg : j.reg = true) (hvote : gVote j.desc = false) :
    Runs (.cg k i) s fun t => t.job k i = none := by
  have hgives : Gives (.cg k i) s ((s.grfWork k i j.desc).stopJob k i j St.PIVOT) := by
    show execCg k i s = _
    simp only [execCg, hrun]
    rw [if_neg (show ¬ j.tested = false by simp [htested])]
    exact (if_neg (Bool.not_eq_true _ ▸ hall)).trans (if_pos hreg)
  exact ⟨_, hgives, (hp.grfWork _).stopJob_plain _ hvote⟩

/-- The first breakdown restarts the job with λr added. -/
theorem cg_breakdown_regularises (hall : j.cgNext.all Option.isSome = false) (hreg : j.reg = false) :
    Runs (.cg k i) s fun t => ∀ j', t.job k i = some j' → j'.reg = true := by
  have hanalyse := ({ j with reg := true, lamr := some j.lamrExp } : GJob).attempts_analyse.same
  have hkept : GrafterKept k s ((s.grfWork k i j.desc).grfCount k .GRF_EVT0 16) := (GrafterKept.grfWork s k i _).trans (.grfCount _ k _ _)
  have hsettles : ∃ t, execCg k i s = .next t ∧ Settles k i { j with reg := true, lamr := some j.lamrExp } s t := by
    have hbroken : ¬ j.cgNext.all Option.isSome = true := by simp [hall]
    unfold GJob.cgNext at hbroken
    simp only [execCg, hrun]
    rw [if_neg (show ¬ j.tested = false by simp [htested]), if_neg hbroken, if_neg (show ¬ j.reg = true by simp [hreg])]
    split
    · next heq =>
      rw [heq] at hanalyse
      exact ⟨_, rfl, .of_kept hkept (.setJob (by exact hanalyse) _ k i)⟩
    · next heq =>
      rw [heq] at hanalyse
      exact ⟨_, rfl, _, .pivot _, hkept, hanalyse, rfl⟩
    · next heq =>
      rw [heq] at hanalyse
      exact ⟨_, rfl, .of_kept hkept (.stopJob_range hanalyse _ k i)⟩
  obtain ⟨t, hgives, hsettles⟩ := hsettles
  refine ⟨t, hgives, fun j' hj' => ?_⟩
  obtain ⟨-, -, hreg'⟩ := hp.same_of_settles hsettles hj'
  exact hreg'

end

/-! ### Residual tests (R229) -/

section
variable (hp : Place s k i) (hjob : s.job k i = some j) (htested : j.tested = false) (hdone : j.done = false) (hcomputing : s.computing = true)
include hjob htested hdone hcomputing

theorem test_gives (hdue : s.overdue k j = false) (htype : gType j.desc ≠ gCg) : Gives (.grafterIterationComplete k i) s
    (if j.resid.le (pow2 (-(gTole j.desc : Int))) = true then s.stopJob k i { j.judged with result := some (j.iter, j.answer, j.resid) } St.OK
    else if gMaxit j.desc ≤ j.iter then s.stopJob k i j.judged St.CAP
    else s.setJob k i (some j.judged)) := by
  show execGrafterIterationComplete k i s = _
  unfold execGrafterIterationComplete
  rw [hjob]
  refine (if_neg (by simp [htested, hdone, hcomputing])).trans ((if_neg (by simp [hdue])).trans ((if_neg htype).trans ?_))
  extract_lets w j'
  have hw : w = (j.iter, j.answer, j.resid) := rfl
  have hj' : j' = j.judged := rfl
  clear_value j' w
  subst hw hj'
  rw [apply_ite Host.Outcome.next, apply_ite Host.Outcome.next, j.resid_judged, j.iter_judged]

/-- An iterate that meets TOL stops the job with OK. -/
theorem test_meets (hp : Place s k i) (hdue : s.overdue k j = false) (htype : gType j.desc ≠ gCg)
    (hmet : j.resid.le (pow2 (-(gTole j.desc : Int))) = true) :
    (gVote j.desc = true → Runs (.grafterIterationComplete k i) s fun t => OnlyIn [.grafters] s t ∧
      ∃ j', t.job k i = some j' ∧ j'.done = true ∧ j'.rank = 2 ∧ j'.lstatus = St.OK ∧ j'.result = some (j.iter, j.answer, j.resid)) ∧
    (gVote j.desc = false → Runs (.grafterIterationComplete k i) s fun t => t.job k i = none) := by
  have hgives := test_gives hjob htested hdone hcomputing hdue htype
  rw [if_pos hmet] at hgives
  obtain ⟨hrank, hstatus⟩ := GJob.stopWith_ok (j := { j.judged with result := some (j.iter, j.answer, j.resid) }) rfl (s.copyOf k)
  rw [← j.desc_judged]
  exact ⟨fun hvote => ⟨_, hgives, stopJob_onlyIn _ hvote, _, hp.stopJob_vote _ hvote, rfl, hrank, hstatus, rfl⟩,
    fun hvote => ⟨_, hgives, hp.stopJob_plain _ hvote⟩⟩

/-- Below the cap an iterate that misses TOL lets the job go on, and may be its reserve. -/
theorem test_goes_on (hp : Place s k i) (hdue : s.overdue k j = false) (htype : gType j.desc ≠ gCg)
    (hmiss : j.resid.le (pow2 (-(gTole j.desc : Int))) = false) (hbelow : j.iter < gMaxit j.desc) :
    Runs (.grafterIterationComplete k i) s fun t => OnlyIn [.grafters] s t ∧ t.job k i = some j.judged := by
  have hgives := test_gives hjob htested hdone hcomputing hdue htype
  rw [if_neg (by simp [hmiss]), if_neg (Nat.not_le_of_lt hbelow)] at hgives
  exact ⟨_, hgives, s.setJob_onlyIn k i _, hp.job_setJob _⟩

/-- The cap ends a job whose iterate misses TOL. -/
theorem test_capped (hp : Place s k i) (hdue : s.overdue k j = false) (htype : gType j.desc ≠ gCg)
    (hmiss : j.resid.le (pow2 (-(gTole j.desc : Int))) = false) (hcap : gMaxit j.desc ≤ j.iter) :
    (gVote j.desc = true → Runs (.grafterIterationComplete k i) s fun t => OnlyIn [.grafters] s t ∧
      ∃ j', t.job k i = some j' ∧ j'.done = true ∧ j'.lstatus = St.CAP) ∧
    (gVote j.desc = false → Runs (.grafterIterationComplete k i) s fun t => t.job k i = none) := by
  have hgives := test_gives hjob htested hdone hcomputing hdue htype
  rw [if_neg (by simp [hmiss]), if_pos hcap] at hgives
  rw [← j.desc_judged]
  exact ⟨fun hvote => ⟨_, hgives, stopJob_onlyIn _ hvote, _, hp.stopJob_vote _ hvote, rfl, GJob.lstatus_stopWith (by decide) _⟩,
    fun hvote => ⟨_, hgives, hp.stopJob_plain _ hvote⟩⟩

/-- The test of a CG: below the cap one that misses goes on; one that meets TOL, or reaches the cap, ends the job (R228). -/
theorem test_cg (hp : Place s k i) (hdue : s.overdue k j = false) (htype : gType j.desc = gCg) :
    (j.cgMet = false → j.iter < gMaxit j.desc → Gives (.grafterIterationComplete k i) s (s.setJob k i (some { j with tested := true }))) ∧
    (j.cgMet = true ∨ gMaxit j.desc ≤ j.iter → gVote j.desc = false → Runs (.grafterIterationComplete k i) s fun t => t.job k i = none) := by
  have hgives : Gives (.grafterIterationComplete k i) s
      (if j.cgMet = true then s.stopJob k i { j with tested := true, result := some (j.iter, ⟨[], 0⟩, Dy.zero) } St.OK
      else if gMaxit j.desc ≤ j.iter then
        s.settleJob k i { ({ j with tested := true } : GJob).stopWith St.CAP (s.copyOf k) with
          result := some (j.iter, ⟨[], 0⟩, Dy.zero), rank := 2 }
      else s.setJob k i (some { j with tested := true })) := by
    show execGrafterIterationComplete k i s = _
    unfold execGrafterIterationComplete
    rw [hjob, apply_ite Host.Outcome.next, apply_ite Host.Outcome.next]
    exact (if_neg (by simp [htested, hdone, hcomputing])).trans ((if_neg (by simp [hdue])).trans (if_pos htype))
  refine ⟨fun hmiss hbelow => ?_, fun hends hvote => ?_⟩
  · rwa [if_neg (by simp [hmiss]), if_neg (Nat.not_le_of_lt hbelow)] at hgives
  · by_cases hmet : j.cgMet = true
    · rw [if_pos hmet] at hgives
      exact ⟨_, hgives, hp.stopJob_plain _ hvote⟩
    · rw [if_neg hmet, if_pos (hends.resolve_left hmet)] at hgives
      exact ⟨_, hgives, (hp.job_settleJob _).trans (if_neg (show ¬ gVote j.desc = true by simp [hvote]))⟩

end

/-! ### Deadlines (R232) -/

/-- A VOTE job overrun by its DEADLINE waits for its vote as of its DEADLINE. -/
theorem overrun_stops (hp : Place s k i) (hdue : s.overdue k j = true) : OnlyIn [.grafters] s (s.overrun k i j) ∧
    ∃ j', (s.overrun k i j).job k i = some j' ∧ j'.done = true ∧ j'.tstop = gDeadline j.desc ∧
      j'.rank = (if j.result.isSome = true then 2 else if j.reserve.isSome = true then 1 else 0) := by
  have hvote := State.vote_of_overdue hdue
  exact ⟨settleJob_onlyIn (j := j.stopWith 0 (gDeadline j.desc)) hvote, _, (hp.job_settleJob _).trans (if_pos hvote), rfl, rfl,
    j.rank_stopWith_zero _⟩

/-- What a job that has missed its DEADLINE completes stops it. -/
theorem overdue_gives (hjob : s.job k i = some j) (hdone : j.done = false) (hcomputing : s.computing = true) (hdue : s.overdue k j = true) {c : Instr}
    (hc : (c = .root k i ∧ gType j.desc = gRoot) ∨ (c = .chol k i ∧ gType j.desc = gChol) ∨
      (c = .grafterIterationComplete k i ∧ j.tested = false)) :
    Gives c s (s.overrun k i j) := by
  obtain ⟨rfl, htype⟩ | ⟨rfl, htype⟩ | ⟨rfl, htested⟩ := hc
  · show execRoot k i s = _
    rw [execRoot, State.running_eq_some.2 ⟨hjob, htype, hdone, hcomputing⟩]
    exact if_pos hdue
  · show execChol k i s = _
    rw [execChol, State.running_eq_some.2 ⟨hjob, htype, hdone, hcomputing⟩]
    exact if_pos hdue
  · show execGrafterIterationComplete k i s = _
    rw [execGrafterIterationComplete, hjob]
    exact (if_neg (by simp [htested, hdone, hcomputing])).trans (if_pos hdue)

/-! ### Records (R219) -/

/-- The record of an aborted job without a vote gives ABORTED. -/
theorem aborted_record (hvote : gVote j.desc = false) (hopen : s.hrv ≠ 2) :
    ∃ v, v % 2 ^ 16 = St.ABORTED ∧ (s.stopJob k i j St.ABORTED).mem = (s.wr (gCdpa j.desc / 64 * 64) (toLe 64 v)).mem := by
  have hrank : (j.stopWith St.ABORTED (s.copyOf k)).rank = 0 := GJob.rank_stopWith_hard (by simp) _
  have hstatus : (j.stopWith St.ABORTED (s.copyOf k)).lstatus = St.ABORTED := GJob.lstatus_stopWith (by decide) _
  obtain ⟨v, hv, -, -, hmem⟩ := (s.setJob k i none).grfRecord_mem (j.stopWith St.ABORTED (s.copyOf k)) St.ABORTED 3 hopen
  refine ⟨v, hv.trans (by decide), ?_⟩
  rw [State.stopJob, State.settleJob_unwritten (j := j.stopWith St.ABORTED (s.copyOf k)) hvote (by rw [hrank]; rfl), hstatus, hmem]
  exact State.wr_mem_congr (s := s) (u := s.setJob k i none) rfl _ _

end

/-- Settles O42: each command of a running job by what it gives, then overrun jobs and the record of an aborted one. -/
theorem jobsIterate : Obligations.JobsIterate := by
  refine ⟨fun s k i j => root_iterates, fun s k i j => orth_iterates, fun s k i j hp hrun hdue => ?_, fun s k i j hp hrun _ => ?_,
    fun s k i j hp hrun htested => ?_, fun s k i j hp hjob htested hdone hcomputing hdue htype => ?_,
    fun s k i j hp hjob htested hdone hcomputing => test_cg hjob htested hdone hcomputing hp, fun s k i j c hp hjob hdone hcomputing hdue hc => ?_,
    fun s k i j _ _ hvote _ hopen => aborted_record hvote hopen⟩
  · exact ⟨fun l hl => chol_factors hp hrun hdue hl, fun hl hreg => (chol_pivot_ends hp hrun hdue hl hreg).1,
      fun hl hreg => (chol_pivot_ends hp hrun hdue hl hreg).2, chol_pivot_regularises hp hrun hdue, chol_range hp hrun hdue⟩
  · exact ⟨trsv_stops hrun hp, trsv_pivot hrun, fun vs => trsv_solves hrun⟩
  · exact ⟨cg_iterates hp hrun htested, cg_breakdown_ends hp hrun htested, cg_breakdown_regularises hp hrun htested⟩
  · have hmeets := test_meets hjob htested hdone hcomputing hp hdue htype
    have hcapped := test_capped hjob htested hdone hcomputing hp hdue htype
    rw [← GJob.judged_eq]
    exact ⟨fun hmet => (hmeets hmet).1, fun hmet => (hmeets hmet).2, test_goes_on hjob htested hdone hcomputing hp hdue htype,
      fun hmiss hcap => (hcapped hmiss hcap).1, fun hmiss hcap => (hcapped hmiss hcap).2⟩
  · exact ⟨_, overdue_gives hjob hdone hcomputing hdue hc, overrun_stops hp hdue⟩

end Sys2Proof.Claims
end
